-- ==== Sys2Proof/Word.lean ====
section
/-! DEFINITION. The words of the module: bytes, dwords and qwords, and the little-endian joining of bytes (R5). -/

namespace Sys2Proof

set_option Elab.async false

/-- A byte. -/
abbrev Byte := BitVec 8

/-- A 32-bit register or element (R434). -/
abbrev Word := BitVec 32

/-- A 64-bit register or instruction word (R113, R434). -/
abbrev Quad := BitVec 64

end Sys2Proof
end

