-- ==== Sys2Proof/Syntax.lean ====
section
/-! DEFINITION. The commands of the module: one constructor per row of spec/opcode_table.json, with the operands that its
chapter gives it. -/

namespace Sys2Proof

set_option Elab.async false

/-- A descriptor as the ring engine reads it: the ring, the 64-byte header slot (R351) and the payload slots' bytes (R350). -/
structure HostDesc where
  ring    : Nat
  hdr     : BitVec 512
  payload : List Byte
  deriving DecidableEq, Repr

/-- An operand reference: buffer number and line offset (R114). -/
structure Ref where
  buf : Nat
  off : Nat
  deriving DecidableEq, Repr

/-- The shape of a vector operand (R94, R120). -/
inductive Shape where
  | tile | row | col | one
  deriving DecidableEq, Repr

/-- A shaped vector operand. -/
structure VOp where
  ref   : Ref
  shape : Shape
  deriving DecidableEq, Repr

/-- OPX fields (R118). -/
structure OpxF where
  bank : Nat
  a    : Ref
  b    : Ref
  k    : Nat
  sa   : Nat
  sb   : Nat
  deriving DecidableEq, Repr

/-- ALT fields (R118): banks as 0 to 3. -/
structure AltF where
  dxBank : Nat
  dwBank : Nat
  dy     : Ref
  w      : Ref
  x      : Ref
  deriving DecidableEq, Repr

/-- SHX fields (R118). -/
structure ShxF where
  bank : Nat
  a    : Ref
  b    : Ref
  rows : Nat
  taps : Nat
  str  : Nat
  deriving DecidableEq, Repr

/-- DRN fields (R118). -/
structure DrnF where
  bank    : Nat
  dst     : Ref
  sr      : Bool
  srSeq   : Nat
  gref    : Nat
  measure : Bool
  tithe   : Bool
  wide    : Bool
  deriving DecidableEq, Repr

/-- Two-source vector fields: VADD, VMUL, VMIN, VMAX (R120). -/
structure V2F where
  d : VOp
  a : VOp
  b : VOp
  deriving DecidableEq, Repr

/-- Three-source vector fields: VFMA and VSEL (R120). For VSEL the first source is the mask. -/
structure V3F where
  d : VOp
  a : VOp
  b : VOp
  c : VOp
  deriving DecidableEq, Repr

/-- Compare predicates (R120). -/
inductive Pred where
  | eq | ne | lt | le | gt | ge
  deriving DecidableEq, Repr

/-- VCMP fields (R120). -/
structure VcmpF where
  ops  : V2F
  pred : Pred
  deriving DecidableEq, Repr

/-- VCVT forms (R100). -/
inductive CvtForm where
  | plain | field | code
  deriving DecidableEq, Repr

/-- VCVT fields (R120). Formats are the codes of R115. -/
structure VcvtF where
  d       : VOp
  a       : VOp
  form    : CvtForm
  srcFmt  : Nat
  dstFmt  : Nat
  sr      : Bool
  srSeq   : Nat
  gref    : Nat
  measure : Bool
  deriving DecidableEq, Repr

/-- Reduction operations (R101). -/
inductive RedOp where
  | add | max | min
  deriving DecidableEq, Repr

/-- VRDC fields (R120). -/
structure VrdcF where
  d      : VOp
  a      : VOp
  op     : RedOp
  column : Bool
  accum  : Bool
  deriving DecidableEq, Repr

/-- VPOS fields (R120). -/
structure VposF where
  d      : VOp
  addend : VOp
  o      : Int
  sr     : Int
  sc     : Int
  deriving DecidableEq, Repr

/-- VRND fields (R120). -/
structure VrndF where
  d    : VOp
  pos  : VOp
  ctrl : Ref
  deriving DecidableEq, Repr

/-- GET and PUT fields (R121). -/
structure MoveF where
  stream : Nat
  ref    : Ref
  lines  : Nat
  off    : Nat
  deriving DecidableEq, Repr

/-- XFER fields (R121). -/
structure XferF where
  src   : Ref
  dst   : Ref
  dx    : Int
  dy    : Int
  lines : Nat
  deriving DecidableEq, Repr

/-- SIG fields (R123). -/
structure SigF where
  kind   : Nat
  tally  : Nat
  inc    : Nat
  dx     : Int
  dy     : Int
  stream : Nat
  bare   : Bool
  deriving DecidableEq, Repr

/-- WAIT fields (R123). -/
structure WaitF where
  kind    : Nat
  tally   : Nat
  index   : Nat
  step    : Nat
  base    : Nat
  timeout : Bool
  deriving DecidableEq, Repr

/-- TAKE fields (R123). -/
structure TakeF where
  kind   : Nat
  tally  : Nat
  amount : Nat
  deriving DecidableEq, Repr

/-- BIND fields (R123). -/
structure BindF where
  wire    : Nat
  timeout : Bool
  deriving DecidableEq, Repr

/-- LOOP fields (R123). -/
structure LoopF where
  depth : Nat
  body  : Nat
  count : Nat
  deriving DecidableEq, Repr

/-- BRC fields (R123). -/
structure BrcF where
  cond : Nat
  n    : Nat
  disp : Int
  deriving DecidableEq, Repr

/-- What the devices of a memory report (R182, R186): that 16-bit symbols of a line no longer hold what was written, each with the
bits that differ (symbols 0 to 31 are the line's data, 32 and 33 its check symbols); a correction of a line by the inner code; or
an error in a line that the inner code cannot correct (DESIGN CHOICE, log entry 12). -/
inductive Finding where
  | errors (line : Nat) (symbols : List (Nat × BitVec 16))
  | inner (line : Nat)
  | innerFailed (line : Nat)
  deriving DecidableEq, Repr

/-- The straps and firmware slots as the tray and the flash present them at power-on (R9, R386, R412). -/
structure PowerOnF where
  present   : Bool
  sheafSlot : BitVec 6
  fallow    : Bool
  deriving DecidableEq, Repr

/-- The causes of a module reset (R369). -/
inductive ResetCause where
  | perst | hotReset | flr
  deriving DecidableEq, Repr

/-- The causes of a module fault that a command declares (R383, R399). -/
inductive FaultCause where
  | criticalStack (s : Nat)
  | failedDevice (p : Nat)
  | nodeIdLost (n : Nat)
  | dieTemperature
  | inputVoltage
  deriving DecidableEq, Repr

/-- The commands: one constructor per row of spec/opcode_table.json, in the table's order. -/
inductive Instr where
  | loadFurrow (d : HostDesc)
  | runPass (d : HostDesc)
  | dataIn (d : HostDesc)
  | dataInLogReplay (d : HostDesc)
  | dataOut (d : HostDesc)
  | stepOpen (d : HostDesc)
  | stepClose (d : HostDesc)
  | harvestBegin (d : HostDesc)
  | harvestRecovery (d : HostDesc)
  | restore (d : HostDesc) (host : List (Nat × Byte))
  | restoreCommit (host : List (Nat × Byte))
  | standinClaim (d : HostDesc)
  | claimSettle
  | cancel (d : HostDesc)
  | syncDump (d : HostDesc)
  | tallySignal (d : HostDesc)
  | fence (d : HostDesc)
  | disable (d : HostDesc)
  | submissionDoorbell (ring : Nat) (value : Quad) (size : Nat)
  | completionDoorbell (ring : Nat) (value : Quad) (size : Nat)
  | splitDescriptorTimeout (d : HostDesc)
  | heldDescriptorRelease (ring : Nat)
  | completionModerationTimeout (ring : Nat)
  | opx (t : Nat) (f : OpxF)
  | alt (t : Nat) (f : AltF)
  | shx (t : Nat) (f : ShxF)
  | aclr (t : Nat) (bank : Nat)
  | drn (t : Nat) (f : DrnF)
  | vadd (t : Nat) (f : V2F)
  | vmul (t : Nat) (f : V2F)
  | vfma (t : Nat) (f : V3F)
  | vcmp (t : Nat) (f : VcmpF)
  | vsel (t : Nat) (f : V3F)
  | vmin (t : Nat) (f : V2F)
  | vmax (t : Nat) (f : V2F)
  | vcvt (t : Nat) (f : VcvtF)
  | vrdc (t : Nat) (f : VrdcF)
  | vpos (t : Nat) (f : VposF)
  | vrnd (t : Nat) (f : VrndF)
  | get (t : Nat) (f : MoveF)
  | put (t : Nat) (f : MoveF)
  | xfer (t : Nat) (f : XferF)
  | xferLineArrive (src dst : Nat)
  | swap (t : Nat) (buf : Nat)
  | sig (t : Nat) (f : SigF)
  | wait (t : Nat) (f : WaitF)
  | take (t : Nat) (f : TakeF)
  | bind (t : Nat) (f : BindF)
  | loop (t : Nat) (f : LoopF)
  | brc (t : Nat) (f : BrcF)
  | yield (t : Nat)
  | pend (t : Nat)
  | passRetire (pass : Nat)
  | passSwitch (t : Nat)
  | passResume (t : Nat)
  | budgetExceeded (t : Nat) (pass : Nat)
  | preemptionBoundExceeded (t : Nat) (pass : Nat)
  | tallySignalApply (k : Nat)
  | binderWireRelease (w : Nat)
  | waitTimeout (t : Nat) (pass : Nat)
  | tagGrant (g : Nat)
  | readLand (x : Nat)
  | memoryWriteAck (x : Nat)
  | bufferCycle (g : Nat)
  | memoryRequestServe (p : Nat) (pc : Nat) (found : List Finding)
  | memTrainStacks (mask : BitVec 12)
  | memTrainPackages (mask : BitVec 16)
  | memoryTrainingDone (p : Nat)
  | rangeEnable (s e : Nat)
  | rangeDisable (s e : Nat)
  | rangeInitDone (s e : Nat)
  | windowEnable (s w : Nat)
  | windowDisable (s w : Nat)
  | copyAhead (block : Nat)
  | selfRefreshEntry (s : Nat)
  | retrainingStart (p pc : Nat) (phy : Bool := true)
  | hostRetrain (s pc : Nat)
  | retrainingTimeout (p pc : Nat)
  | hostRetire (s pc : Nat)
  | resowGo (s : Nat)
  | resowMove (s : Nat)
  | patrolScrub (p : Nat) (line : Nat) (found : List Finding)
  | stackTempReading (s : Nat) (celsius : Nat)
  | hotDelayRestate (s : Nat)
  | portEnable (mask : BitVec 18)
  | linkControlReceive (port : Nat) (flit : BitVec 512)
  | flitReceive (port : Nat) (flit : BitVec 512)
  | ackTimeoutResend (port : Nat)
  | packetTransmit (port : Nat)
  | linkSilenceTimeout (port : Nat)
  | pcsLockLoss (port : Nat)
  | fecLimitExceeded (port codewords : Nat) (corrected : Nat := 0)
  | portRetrainRetry (port : Nat)
  | portRetrain (port : Nat)
  | clearQuarantine (port : Nat)
  | replayBufferRelease (port : Nat)
  | stallTimeout (x : Nat)
  | abandonTimeout (x : Nat)
  | fabNodeIdWrite (value : Word)
  | write (port : Nat)
  | readReq (port : Nat)
  | readResp (port : Nat)
  | writeAck (port : Nat)
  | signal (port : Nat)
  | bareSignal (port : Nat)
  | coll (port : Nat)
  | sealReport (port : Nat)
  | mirror (port : Nat)
  | recovery (port : Nat)
  | cancelNotice (port : Nat)
  | cancelAck (port : Nat)
  | holdoff (port : Nat)
  | abandon (port : Nat)
  | nakPkt (port : Nat)
  | claim (port : Nat)
  | claimRefuse (port : Nat)
  | collGroupEnable (g : Nat)
  | collGroupDisable (g : Nat)
  | collCommandStart (g : Nat)
  | collCommandDone (g : Nat)
  | collGroupTimeout (g : Nat)
  | tilMtalCountWrite (value : Word)
  | tilMtalCfgWrite (value : Word)
  | stpJobStart
  | stpJobEnd
  | stpRollback
  | stpVerdictWrite (value : Quad)
  | stepEnterCheck (step : Nat)
  | sealEvaluate (step : Nat)
  | mirrorSendEntry
  | digestExchange
  | titheSampleTest
  | hrvRemirror
  | harvestBlockCopy (host : List (Nat × Byte) := [])
  | powerOn (f : PowerOnF)
  | powerOff
  | mainRailsOff
  | moduleReset (cause : ResetCause)
  | perstDeassert
  | pmD3hotEntry
  | pmD0Return
  | throttlePinAssert
  | throttlePinRelease
  | undervoltageThrottle
  | undervoltageRelease
  | powerCapStep (meanW : Nat)
  | dieTempThrottle (q : Nat) (celsius : Nat)
  | throttleLevelStep
  | moduleFaultDeclare (cause : FaultCause)
  | energySample (mV : Nat) (mA : Nat)
  | pllLock (q : Nat)
  | wakeWalkStep (q : Nat)
  | pllStop (q : Nat)
  | tileGate (t : Nat)
  | idleTestSlice (t : Nat) (failed : Option (Nat × BitVec 24 × Quad))
  | tileRetirementApply
  | mboxWriteSlot (arg : Nat)
  | mboxVerifySlot
  | mboxSetPreferred
  | mboxCommit
  | mboxReadRecord (arg : Nat)
  | mboxCommandComplete
  | getVersion
  | getCapabilities
  | negotiateAlgorithms
  | getDigests
  | getCertificate (slot : Nat) (offset length : Nat)
  | challenge (slot : Nat) (nonce : BitVec 256)
  | getMeasurements (index : Nat)
  | entdaa (addr : BitVec 7)
  | setdasa (static addr : BitVec 7)
  | evtEnable (value : Word)
  | evtHeadWrite (value : Word)
  | eventModerationTimeout
  | msixUnmask (v : Nat)
  | ringEnable (r : Nat) (value : Quad)
  | ringEngineEnable
  | gathererEnable (mask : BitVec 48)
  | tileEnable (i : Nat) (mask : Word)
  | deviceEnable (mask : BitVec 28)
  | harvestEngineEnable
  | barSplitLowWrite (offset : Nat) (value : Word)
  | registerWrite (offset : Nat) (size : Nat) (value : Quad) (be : BitVec 8)
  | retrainingSuccess (p pc : Nat)
  | pcsFecLock (port : Nat)
  | descriptorReadError (ring : Nat)
  | linkControlSend (port : Nat)
  deriving DecidableEq, Repr

end Sys2Proof
end

