-- ==== Sys2Proof/Decode.lean ====
section
/-! DEFINITION. The command that a word of the opcode table spells. No row of spec/opcode_table.json gives its command bits, so
no word spells a command (DESIGN CHOICE, log entry 3). Furrow instruction words (R118 to R123) are read in Machine/Furrow.lean. -/

namespace Sys2Proof

set_option Elab.async false

/-- The command that a word spells by the table's bits: none, for no row gives bits. -/
def decodeTableWord (_nbits _w : Nat) : Option Instr := none

end Sys2Proof
end

