-- ==== Sys2Proof/Machine/Sparse.lean ====
section
/-! DEFINITION. Sparse tables in canonical form, bytes of memory, and little-endian joining (R5). -/

namespace Sys2Proof.Machine

set_option Elab.async false

/-- The value stored under a key, if the table lists it. -/
def sfind {α : Type} : List (Nat × α) → Nat → Option α
  | [], _ => none
  | (k', v) :: m, k => if k' = k then some v else sfind m k

/-- The value under a key, an unlisted key reading d. -/
def sget {α : Type} (d : α) (m : List (Nat × α)) (k : Nat) : α := (sfind m k).getD d

/-- The table without a key. -/
def serase {α : Type} (m : List (Nat × α)) (k : Nat) : List (Nat × α) := m.filter (fun e => e.1 != k)

/-- The table with a key set, keys kept rising. -/
def sinsert {α : Type} (k : Nat) (v : α) : List (Nat × α) → List (Nat × α)
  | [] => [(k, v)]
  | (k', v') :: m =>
    if k < k' then (k, v) :: (k', v') :: m
    else if k' = k then (k, v) :: m
    else (k', v') :: sinsert k v m

/-- Writes a key: writing the value an unlisted key reads as removes the entry. -/
def sput {α : Type} [DecidableEq α] (d : α) (m : List (Nat × α)) (k : Nat) (v : α) : List (Nat × α) :=
  if v = d then serase m k else sinsert k v m

/-- Applies a function to the value under a key. -/
def supd {α : Type} [DecidableEq α] (d : α) (m : List (Nat × α)) (k : Nat) (f : α → α) : List (Nat × α) :=
  sput d m k (f (sget d m k))

/-- The canonical form: keys strictly rising, and no value equal to what an unlisted key reads as. -/
abbrev swf {α : Type} (d : α) (m : List (Nat × α)) : Prop :=
  m.Pairwise (fun a b => a.1 < b.1) ∧ ∀ e ∈ m, e.2 ≠ d

/-- Replaces the element at an index of a list. -/
def lput {α : Type} (l : List α) (i : Nat) (v : α) : List α := l.set i v

/-- The numbers from lo, n of them. -/
def upFrom (lo : Nat) : Nat → List Nat
  | 0 => []
  | n + 1 => lo :: upFrom (lo + 1) n

/-- The positions of the set bits of a vector, lowest first. -/
def setBits {w : Nat} (v : BitVec w) : List Nat := (List.range w).filter (fun i => v.getLsbD i)

/-! ## Bytes -/

/-- What a byte of memory that nothing has written reads as (DESIGN CHOICE, log entry 6). -/
def unwritten : Byte := 0

/-- One byte of a memory or a bin. -/
def byteAt (m : List Host.Cell) (a : Nat) : Byte := sget unwritten m a

/-- n bytes from an address. -/
def bytesAt (m : List Host.Cell) (a n : Nat) : List Byte := (upFrom a n).map (byteAt m)

/-- A memory with bytes written from an address. -/
def putBytes (m : List Host.Cell) (a : Nat) : List Byte → List Host.Cell
  | [] => m
  | b :: bs => putBytes (sput unwritten m a b) (a + 1) bs

/-- The canonical form of a memory. -/
abbrev memWf (m : List Host.Cell) : Prop := swf unwritten m

/-- Joins bytes, the first the least significant (R5). -/
def leNat : List Byte → Nat
  | [] => 0
  | b :: bs => b.toNat + 256 * leNat bs

/-- The n low bytes of a number, the least significant first (R5). -/
def leBytes : Nat → Nat → List Byte
  | 0, _ => []
  | n + 1, v => BitVec.ofNat 8 v :: leBytes n (v / 256)

/-- The number an address holds in n bytes (R5). -/
def numAt (m : List Host.Cell) (a n : Nat) : Nat := leNat (bytesAt m a n)

/-- Bits [lo + w - 1 : lo] of a number. -/
def bits (v lo w : Nat) : Nat := (v >>> lo) % 2 ^ w

/-- One bit of a number. -/
def bit (v i : Nat) : Bool := v.testBit i

/-- The w-bit two's complement reading of a number. -/
def signed (v w : Nat) : Int := if v % 2 ^ w < 2 ^ (w - 1) then (v % 2 ^ w : Nat) else (v % 2 ^ w : Nat) - (2 ^ w : Nat)

/-- The low w bits of an integer in two's complement. -/
def unsigned (v : Int) (w : Nat) : Nat := (v % (2 ^ w : Nat)).toNat

/-- Pieces of n elements, the last one possibly shorter. fuel bounds the number of pieces. -/
def piecesFuel {α : Type} (n : Nat) : Nat → List α → List (List α)
  | 0, _ => []
  | _, [] => []
  | f + 1, l => l.take n :: piecesFuel n f (l.drop n)

/-- Pieces of n elements. -/
def pieces {α : Type} (n : Nat) (l : List α) : List (List α) := piecesFuel n l.length l

/-- Applies a state change for each element in order. -/
def each {α σ : Type} (l : List α) (f : α → σ → σ) (s : σ) : σ := l.foldl (fun acc x => f x acc) s

end Sys2Proof.Machine
end

