-- ==== Sys2Proof/Machine/Float.lean ====
section
/-! DEFINITION. Number formats and rounding (R43 to R58, R449), computed on exact values and narrowed once. -/

namespace Sys2Proof.Machine

set_option Elab.async false

/-- The exact value of an element: NaN, an infinity, or (-1)^neg × m × 2^e. -/
inductive FVal where
  | nan
  | inf (neg : Bool)
  | fin (neg : Bool) (m : Nat) (e : Int)
  deriving DecidableEq, Repr

/-- Outcome classes (R54). -/
inductive Cls where
  | none | overflow | underflow | nonfinite
  deriving DecidableEq, Repr

/-- Which special codes a format has (R43). -/
inductive Special where
  | ieee | e4m3 | noSpecial
  deriving DecidableEq, Repr

/-- A format's layout: exponent bits, mantissa bits, bias (R43). -/
structure Fmt where
  eb : Nat
  mb : Nat
  bias : Nat
  sp : Special
  deriving DecidableEq, Repr

/-- FP32 (R43). -/
def fp32 : Fmt := { eb := 8, mb := 23, bias := 127, sp := .ieee }
/-- BF16 (R43). -/
def bf16 : Fmt := { eb := 8, mb := 7, bias := 127, sp := .ieee }
/-- FP16 (R43). -/
def fp16 : Fmt := { eb := 5, mb := 10, bias := 15, sp := .ieee }
/-- FP8 E5M2 (R43). -/
def e5m2 : Fmt := { eb := 5, mb := 2, bias := 15, sp := .ieee }
/-- FP8 E4M3 (R43). -/
def e4m3 : Fmt := { eb := 4, mb := 3, bias := 7, sp := .e4m3 }
/-- FP6 E3M2 (R43). -/
def e3m2 : Fmt := { eb := 3, mb := 2, bias := 3, sp := .noSpecial }
/-- FP6 E2M3 (R43). -/
def e2m3 : Fmt := { eb := 2, mb := 3, bias := 1, sp := .noSpecial }
/-- FP4 E2M1 (R43). -/
def e2m1 : Fmt := { eb := 2, mb := 1, bias := 1, sp := .noSpecial }

/-- Bits of one element. -/
def Fmt.width (f : Fmt) : Nat := 1 + f.eb + f.mb

/-- The code of the largest finite magnitude (R43). -/
def Fmt.maxCode (f : Fmt) : Nat :=
  match f.sp with
  | .ieee => (2 ^ f.eb - 1) * 2 ^ f.mb - 1
  | .e4m3 => 2 ^ (f.eb + f.mb) - 2
  | .noSpecial => 2 ^ (f.eb + f.mb) - 1

/-- The code of +infinity, of the formats that have one (R43). -/
def Fmt.infCode (f : Fmt) : Nat := (2 ^ f.eb - 1) * 2 ^ f.mb

/-- The canonical NaN of a format (R44); FP6 and FP4 have none, and R56 takes its place. -/
def Fmt.nanCode (f : Fmt) : Nat :=
  match f.sp with
  | .ieee => if f.mb = 2 then 0x7F else f.infCode + 2 ^ (f.mb - 1)
  | .e4m3 => 0x7F
  | .noSpecial => 0

/-- The value of a code of magnitude bits, e = 0 being subnormal (R43). -/
def Fmt.magnitude (f : Fmt) (neg : Bool) (c : Nat) : FVal :=
  let e := c / 2 ^ f.mb
  let m := c % 2 ^ f.mb
  if e = 0 then .fin neg m (1 - (f.bias : Int) - f.mb)
  else .fin neg (2 ^ f.mb + m) ((e : Int) - f.bias - f.mb)

/-- The value of an element's bits (R43). -/
def Fmt.decode (f : Fmt) (v : Nat) : FVal :=
  let neg := v.testBit (f.eb + f.mb)
  let c := v % 2 ^ (f.eb + f.mb)
  match f.sp with
  | .ieee => if c = f.infCode then .inf neg else if c > f.infCode then .nan else f.magnitude neg c
  | .e4m3 => if c = 0x7F then .nan else f.magnitude neg c
  | .noSpecial => f.magnitude neg c

/-- The value of an FP32 word. -/
def val32 (w : Word) : FVal := fp32.decode w.toNat

/-- The exponent that an E8M0 code stands for; none is NaN (R43, R46). -/
def e8m0Exp (c : Nat) : Option Int := if c % 256 = 255 then none else some (((c % 256 : Nat) : Int) - 127)

/-- Multiplies by 2^g exactly. -/
def FVal.scale (x : FVal) (g : Int) : FVal :=
  match x with
  | .fin n m e => .fin n m (e + g)
  | y => y

/-- Whether the value is finite. -/
def FVal.isFin : FVal → Bool
  | .fin _ _ _ => true
  | _ => false

/-- Whether the value is a NaN. -/
def FVal.isNan : FVal → Bool
  | .nan => true
  | _ => false

/-- The exact product, with R57's non-finite cases. -/
def FVal.mul : FVal → FVal → FVal
  | .nan, _ => .nan
  | _, .nan => .nan
  | .inf a, .inf b => .inf (a != b)
  | .inf a, .fin b m _ => if m = 0 then .nan else .inf (a != b)
  | .fin a m _, .inf b => if m = 0 then .nan else .inf (a != b)
  | .fin a m e, .fin b n f => .fin (a != b) (m * n) (e + f)

/-- A signed integer multiple of 2^lo. -/
def alignTo (neg : Bool) (m : Nat) (e lo : Int) : Int :=
  let v : Int := (m * 2 ^ (e - lo).toNat : Nat)
  if neg then -v else v

/-- The exact sum, with R57's non-finite cases; an exact zero sum is +0 unless both terms are -0 (R48). -/
def FVal.add : FVal → FVal → FVal
  | .nan, _ => .nan
  | _, .nan => .nan
  | .inf a, .inf b => if a = b then .inf a else .nan
  | .inf a, .fin _ _ _ => .inf a
  | .fin _ _ _, .inf b => .inf b
  | .fin a m e, .fin b n f =>
    let lo := min e f
    let s := alignTo a m e lo + alignTo b n f lo
    if s = 0 then .fin (a && b && m = 0 && n = 0) 0 lo
    else .fin (s < 0) s.natAbs lo

/-- Compares m × 2^e with n × 2^f. -/
def magLt (m : Nat) (e : Int) (n : Nat) (f : Int) : Bool :=
  let lo := min e f
  m * 2 ^ (e - lo).toNat < n * 2 ^ (f - lo).toNat

/-- floor(log2) of a non-zero magnitude. -/
def magLog2 (m : Nat) (e : Int) : Int := (Nat.log2 m : Int) + e

/-- How a conversion rounds: to nearest even (R51), or stochastically with 16 bits (R52). -/
abbrev Rounding := Option (BitVec 16)

/-- Rounds a magnitude to a multiple of 2^ue: R51, or R52 with the random bits. -/
def roundQuot (rnd : Rounding) (m : Nat) (e ue : Int) : Nat :=
  if ue ≤ e then m * 2 ^ (e - ue).toNat
  else
    let d := 2 ^ (ue - e).toNat
    let q := m / d
    let f := m % d
    match rnd with
    | none => if 2 * f > d || (2 * f == d && q % 2 == 1) then q + 1 else q
    | some r => if f * 65536 / d + r.toNat ≥ 65536 then q + 1 else q

/-- The exponent of the spacing at a magnitude (R51). -/
def Fmt.spacing (f : Fmt) (m : Nat) (e : Int) : Int :=
  (if m = 0 then 1 - (f.bias : Int) else max (magLog2 m e) (1 - (f.bias : Int))) - f.mb

/-- The code of a rounded magnitude; it may lie past the largest finite code, in the next binade and beyond. -/
def Fmt.roundMag (f : Fmt) (rnd : Rounding) (m : Nat) (e : Int) : Nat :=
  let ue := f.spacing m e
  let n := roundQuot rnd m e ue
  (ue - (1 - (f.bias : Int) - f.mb)).toNat * 2 ^ f.mb + n

/-- Sets the sign bit of a code. -/
def Fmt.withSign (f : Fmt) (neg : Bool) (c : Nat) : Nat := if neg then c + 2 ^ (f.eb + f.mb) else c

/-- Whether a magnitude lies above the format's largest finite value. -/
def Fmt.above (f : Fmt) (m : Nat) (e : Int) : Bool :=
  match f.magnitude false f.maxCode with
  | .fin _ n g => magLt n g m e
  | _ => false

/-- R50 with R51 to R54: the target's bits and the outcome class. FP6 and FP4 with NaN go through R56 instead. -/
def Fmt.convert (f : Fmt) (rnd : Rounding) (g : Int) (x : FVal) : Nat × Cls :=
  match x with
  | .nan => (f.nanCode, .nonfinite)
  | .inf neg =>
    if f = fp32 then (f.withSign neg f.infCode, .nonfinite) else (f.withSign neg f.maxCode, .nonfinite)
  | .fin neg m e =>
    let c := f.roundMag rnd m (e + g)
    if c > f.maxCode || (rnd.isSome && f.above m (e + g)) then (f.withSign neg f.maxCode, .overflow)
    else (f.withSign neg c, if c = 0 && m ≠ 0 then .underflow else .none)

/-- R449: conversion to E8M0. -/
def convertE8m0 (rnd : Rounding) (g : Int) (x : FVal) : Nat × Cls :=
  match x with
  | .nan => (0xFF, .nonfinite)
  | .inf false => (0xFE, .nonfinite)
  | .inf true => (0xFF, .nonfinite)
  | .fin neg m e =>
    if neg || m = 0 then (0xFF, .nonfinite)
    else
      let ex := magLog2 m (e + g)
      let q := roundQuot rnd m (e + g) ex
      let r := if q ≥ 2 then ex + 1 else ex
      if r > 127 || (rnd.isSome && magLt 1 127 m (e + g)) then (0xFE, .overflow)
      else if r < -127 then (0x00, .underflow)
      else ((r + 127).toNat, .none)

/-- Rounds an exact result to FP32 to nearest even; overflow gives an infinity (R48, R49). -/
def round32 (x : FVal) : Word :=
  match x with
  | .nan => 0x7FC00000#32
  | .inf neg => BitVec.ofNat 32 (fp32.withSign neg fp32.infCode)
  | .fin neg m e =>
    let c := fp32.roundMag none m e
    BitVec.ofNat 32 (fp32.withSign neg (min c fp32.infCode))

/-- The outcome class of an arithmetic result (R54). -/
def arithClass (ops : List FVal) (exact : FVal) (r : Word) : Cls :=
  match val32 r with
  | .nan => .nonfinite
  | .inf _ => if ops.all FVal.isFin then .overflow else .nonfinite
  | .fin _ m _ =>
    match exact with
    | .fin _ n _ => if m = 0 && n ≠ 0 then .underflow else .none
    | _ => .none

/-- An arithmetic operation: its exact result rounded once, and its class (R49, R54). -/
def arith (ops : List FVal) (exact : FVal) : Word × Cls :=
  let r := round32 exact
  (r, arithClass ops exact r)

/-- VADD of two words (R49, R57). -/
def add32 (a b : Word) : Word × Cls := arith [val32 a, val32 b] ((val32 a).add (val32 b))
/-- VMUL of two words (R49, R57). -/
def mul32 (a b : Word) : Word × Cls := arith [val32 a, val32 b] ((val32 a).mul (val32 b))
/-- VFMA of three words, rounded once (R49, R57). -/
def fma32 (a b c : Word) : Word × Cls :=
  arith [val32 a, val32 b, val32 c] (((val32 a).mul (val32 b)).add (val32 c))

/-- Whether a value is less than another; -0 equals +0, NaN compares false (R57, R58). -/
def FVal.lt : FVal → FVal → Bool
  | .nan, _ => false
  | _, .nan => false
  | .inf a, .inf b => a && !b
  | .inf a, .fin _ _ _ => a
  | .fin _ _ _, .inf b => !b
  | .fin a m e, .fin b n f => let lo := min e f; alignTo a m e lo < alignTo b n f lo

/-- Whether two values are equal; -0 equals +0, NaN compares false (R57, R58). -/
def FVal.eq : FVal → FVal → Bool
  | .nan, _ => false
  | _, .nan => false
  | .inf a, .inf b => a = b
  | .inf _, .fin _ _ _ => false
  | .fin _ _ _, .inf _ => false
  | .fin a m e, .fin b n f => let lo := min e f; alignTo a m e lo = alignTo b n f lo

/-- Whether the sign bit of a word is set. -/
def neg32 (a : Word) : Bool := a.getLsbD 31

/-- Minimum and maximum of two words: NaN propagates, -0 lies below +0 (R47, R57, R58). -/
def minmax32 (wantMax : Bool) (a b : Word) : Word × Cls :=
  match val32 a, val32 b with
  | .nan, _ => (0x7FC00000#32, .nonfinite)
  | _, .nan => (0x7FC00000#32, .nonfinite)
  | x, y =>
    let aLess := x.lt y || (x.eq y && neg32 a && !neg32 b)
    let r := if aLess = wantMax then b else a
    (r, arithClass [x, y] (val32 r) r)

/-- One block of 32 elements converted to FP6 or FP4 with its own scale (R55, R56): the scale code, the elements and one
class for each. emax is 4 for E3M2, 2 for E2M1 and E2M3, and in transport 8 for E4M3 and 15 for E5M2 (R242). -/
def Fmt.convertBlock (f : Fmt) (g : Int) (xs : List (FVal × Rounding)) : Nat × List (Nat × Cls) :=
  if xs.any (fun x => x.1 = .nan) then
    (0xFF, xs.map (fun x => (0, if x.1.isFin then .none else .nonfinite)))
  else
    let big : FVal → FVal := fun x => match x with
      | .inf n => fp32.magnitude n fp32.maxCode
      | y => y
    let emax : Int := if f = e3m2 then 4 else if f = e4m3 then 8 else if f = e5m2 then 15 else 2
    let logs := xs.filterMap (fun x => match (big x.1).scale g with
      | .fin _ m e => if m = 0 then Option.none else Option.some (magLog2 m e)
      | _ => Option.none)
    let ex : Int := match logs with
      | [] => -127
      | l :: ls => ls.foldl max l - emax
    let ex := max (-127) (min 127 ex)
    ((ex + 127).toNat,
      xs.map (fun x =>
        let (c, k) := f.convert x.2 (g - ex) (big x.1)
        (c, if x.1.isFin then k else .nonfinite)))

end Sys2Proof.Machine
end

