-- ==== Sys2Proof/Config.lean ====
section
/-! DEFINITION. What the manual leaves to outside documents or leaves open: uninterpreted constants (log entries 4 and 5),
and the fixed sizes of the module. -/

namespace Sys2Proof.Config

set_option Elab.async false

/-- SHA-384 of a byte string (R333, R385, R391): the manual names the hash and does not define it. Free value, DESIGN CHOICE, log entry 4. -/
opaque sha384 : List Byte → BitVec 384

/-- ECDSA P-384 verification of a digest under a 97-byte key and a 96-byte signature (R333, R385). Free value, DESIGN CHOICE, log entry 4. -/
opaque ecdsaVerify : List Byte → BitVec 384 → List Byte → Bool

/-- ECDSA P-384 signing by the identity key, which never leaves the die (R390). The second argument is the count of
signatures made. Free value, DESIGN CHOICE, log entry 4. -/
opaque ecdsaSign : BitVec 384 → Nat → BitVec 768

/-- The module's public key, uncompressed (R333, R390). Free value, DESIGN CHOICE, log entry 4. -/
opaque identityKey : BitVec 776

/-- The Steward ROM's bytes, of which measurement block 1 is the digest (R392). Free value, DESIGN CHOICE, log entry 4. -/
opaque stewardRom : List Byte

/-- The random bytes of an SPDM response (R391): the n-th nonce. Free value, DESIGN CHOICE, log entry 4. -/
opaque spdmNonce : Nat → BitVec 256

/-- The bytes of a save line (R140): the manual names what the line holds and gives no layout. The arguments are the state
saved, as numbers, and the byte's place. Free value, DESIGN CHOICE, log entry 5. -/
opaque saveByte : List Nat → Nat → Byte

/-- The histogram bin of a tithe error that is not a number (R82): the manual's bins hold numbers only. Free value, log entry
33. -/
opaque titheNanBin : Nat

/-- The estate non-finite sum of a verdict that a host gives (R293): STP_VERDICT carries none. The arguments are the step and
the attempt number. Free value, DESIGN CHOICE, log entry 35. -/
opaque hostVerdictSum : Nat → Nat → BitVec 64

/-- The modules counted in a verdict that a host gives (R291, R293): STP_VERDICT carries no count. Free value, DESIGN CHOICE, log entry 35. -/
opaque hostVerdictCount : Nat → Nat → BitVec 32

/-- The bytes of the on-module flash as delivered (R385): the manual gives none. Free value, DESIGN CHOICE, log entry 9, which also says that
the delivered images verify. -/
opaque factoryByte : Nat → Byte

/-- The key hashes of the fuses, by key slot (R386). Free value, DESIGN CHOICE, log entry 9. -/
opaque keyHash : Nat → BitVec 384

/-- The revocation fuses, bit k for key slot k (R386). Free value, DESIGN CHOICE, log entry 9. -/
opaque revoked : BitVec 4

/-- The serial number of the fuses (R390, R439). Free value, DESIGN CHOICE, log entry 9. -/
opaque serial : BitVec 64

/-- The certificate chain of the non-volatile store (R390). Free value, DESIGN CHOICE, log entry 9. -/
opaque certChain : List Byte

/-- A record of the non-volatile store as mailbox op 5 reads it (R389): the manual gives no numbering and no layout. The
arguments are the store's contents, as numbers, and the record asked for. Free value, DESIGN CHOICE, log entry 10. -/
opaque nvRecord : List Nat → Nat → Option (List Byte)

/-- Measurement blocks 4 and 5 (R392): digests of contents whose encoding the manual does not give. The arguments are the
block's index and the contents, as numbers. Free value, DESIGN CHOICE, log entry 4. -/
opaque configDigest : Nat → List Nat → BitVec 384

/-- A byte of a bin line that a failed write-back of the self test has lost (R396). The arguments are the tile, the place and
the number of slices run. Free value, DESIGN CHOICE, log entry 11. -/
opaque lostByte : Nat → Nat → Nat → Byte

/-- The tile id that an event gives for a tile of a spare column that no logical tile uses (R397, R443): the manual gives none.
The argument is the row. Free value, DESIGN CHOICE, log entry 11. -/
opaque spareId : Nat → BitVec 16

/-- Full coverage rounds of the self test (R398), from the slices run and the time: the manual does not say what a slice
covers. Free value, DESIGN CHOICE, log entry 11. -/
opaque coverageRounds : Nat → Nat → BitVec 16

/-- Seconds since the oldest full coverage (R395, R398). Free value, DESIGN CHOICE, log entry 11. -/
opaque coverageAge : Nat → Nat → BitVec 32

/-- The single symbol to which the syndrome of a class W error pattern of more than one symbol points, and the value that the
decoder adds there (R182): none where it points to none. The manual does not give the code's polynomials. Free value, DESIGN
CHOICE, log entry 12. -/
opaque rsPointsTo : List (Nat × BitVec 16) → Option (Nat × BitVec 16)

/-- The two check symbols of a class W line (R181): the manual does not give the code's polynomials. Free value, DESIGN CHOICE,
log entry 95. -/
opaque rsCheck : List Byte → BitVec 32

/-- The check bytes of a line whose check code no longer fits its data (R181, R187). The argument is the line. Free value, DESIGN
CHOICE, log entry 95. -/
opaque brokenCheck : Nat → BitVec 32

/-- Logical tiles (R10). -/
def numTiles : Nat := 1536
/-- HBM stacks (R173). -/
def numStacks : Nat := 12
/-- Bulk packages (R173). -/
def numPackages : Nat := 16
/-- Memories the admission unit counts: stacks 0 to 11, packages 12 to 27 (R174, R356). -/
def numMemories : Nat := 28
/-- Gatherers (R203). -/
def numGatherers : Nat := 48
/-- Tags of one gatherer (R204). -/
def numTags : Nat := 2048
/-- Plynar ports (R251). -/
def numPorts : Nat := 18
/-- Rings (R346). -/
def numRings : Nat := 32768
/-- Bytes of one bin (R21). -/
def binBytes : Nat := 0xC0000
/-- Bytes of one bin bank (R21). -/
def bankBytes : Nat := 0xC000
/-- Undivided cycles in one 25 MHz always-on count (R6, R375). -/
def cyclesPerAon : Nat := 70

end Sys2Proof.Config
end

