-- ==== Sys2Proof/Machine/State.lean ====
section
/-! DEFINITION. The state of the module as plain data: every register, memory, queue, counter, mode and pin the manual gives
it, and the queue of commands that wait (DESIGN CHOICE, log entry 1). -/

namespace Sys2Proof.Machine

set_option Elab.async false

/-- A sparse table: key and value pairs, keys rising, no pair holding the value an unlisted key reads as. -/
abbrev SMap (α : Type) := List (Nat × α)

/-- The module never stops with a fault: R144, R365 and R383 give every failure an outcome that the machine goes on from.
The type has no constructor, so no command answers with a fault. -/
inductive Fault where
  deriving DecidableEq, Repr

/-- Why a command has no meaning. -/
inductive Refusal where
  /-- Raised by Dispatch.lean's arm of a command that has no meaning yet, and by nothing else. Safe: nothing is claimed of it. -/
  | notModelled (mnemonic : String)
  deriving DecidableEq, Repr

/-! ## Completions, events and what leaves the module -/

/-- Completion status (R419). -/
inductive Status where
  | ok | notAdmitted | aborted | cancelled | malformed | limit | deadlineMiss | memDetected | sealRefused | restoreMixed
  | abandoned | disabled | stepExhausted | notEnabled | verifyFail
  deriving DecidableEq, Repr

/-- A completion entry (R362). -/
structure Completion where
  status   : Status
  opcode   : Nat
  tag      : Word
  ring     : Nat
  slot     : Nat
  reason   : Nat
  extended : Bool
  aon      : Nat
  overrun  : Nat
  promise  : Nat
  excluded : Nat
  result   : List Byte
  payload  : List Byte
  deriving DecidableEq, Repr

/-- Event names (R422). -/
inductive EventCode where
  | layerSilent | gradOverflow | nonfiniteLoss | titheDiverge
  | memCorrected | memDetected | pcRetrain | pcRetired | stackWarm | stackHot | stackCritical
  | bufferCycle | fetchCancelled
  | tallyDouble | tallyOverrun | waitTimeout
  | linkRetrain | transferStalled | transferAbandoned | protocolViolation | holdoffReceived | protocolLate
  | sealRefused | replayStart | logHigh | twinMismatch | unprotected
  | standinComplete | harvestVerifyFail
  | deadlineMiss
  | tileRetired | idleTestFail
  | throttle | fwAuthFail | moduleFault
  deriving DecidableEq, Repr

/-- An event record (R424): severity and source block follow from the code. -/
structure EventRec where
  code   : EventCode
  index  : Nat
  lost   : Nat
  aon    : Nat
  detail : BitVec 128
  deriving DecidableEq, Repr

/-- What leaves the module: completions and event records with the bytes that each writes at its addresses of host memory, in
order, other writes to host memory with their relaxed-ordering attribute (R343), messages with their address and data, flits and
mailbox answers. The model's own trace of its outputs, newest first (DESIGN CHOICE, log entry 8). -/
inductive Emit where
  | completion (ring pos : Nat) (c : Completion) (writes : List (Nat × List Byte))
  | record (pos : Nat) (r : EventRec) (addr : Nat) (bytes : List Byte)
  | msix (vector : Nat) (addr : Quad) (data : Word)
  | hostWrite (relaxed : Bool) (addr : Nat) (data : List Byte)
  | flit (port : Nat) (f : BitVec 512)
  | doe (data : List Byte)
  deriving DecidableEq, Repr

/-! ## Host interface -/

/-- A ring context (R346) with the module's run-time state of the ring. Positions are epoch × 2^k + index (R349). -/
structure RingCtx where
  base       : Quad
  k          : Nat
  completion : Bool
  deadline   : Bool
  enable     : Bool
  companion  : Nat
  vector     : Nat
  head       : Nat
  tail       : Nat
  modCount   : Nat
  modTime    : Nat
  splitTo    : Nat
  staleDb    : Bool
  splitErr   : Bool
  hostErr    : Bool
  enableErr  : Bool
  held       : Option HostDesc
  stopped    : Bool
  waiting    : List Completion
  unsignalled : Nat
  oldest     : Option Nat
  splitSince : Option Nat
  short      : Bool
  deriving DecidableEq, Repr

/-- A ring context at reset (R346). -/
def RingCtx.init : RingCtx :=
  { base := 0, k := 0, completion := false, deadline := false, enable := false, companion := 0, vector := 0, head := 0,
    tail := 0, modCount := 0, modTime := 0, splitTo := 0, staleDb := false, splitErr := false, hostErr := false,
    enableErr := false, held := none, stopped := false, waiting := [],
    unsignalled := 0, oldest := none, splitSince := none, short := false }

/-- The object and mode of a DISABLE (R353). -/
structure DisableOp where
  object : Nat
  abort  : Bool
  index  : Nat
  deriving DecidableEq, Repr

/-- What a consumed descriptor still waits for. -/
inductive Work where
  | pass (seq : Nat)
  | dataIn (copies : List Nat) (ack : Nat)
  | stepClose (step : Nat)
  | harvest
  | recovery
  | restore
  | claim
  | signal
  | cancel (waits : List Nat) (count : Nat)
  | fence (waits : List Nat)
  | disable (op : DisableOp)
  deriving DecidableEq, Repr

/-- An accepted descriptor that has not completed (R352). promise is the promise first made, and extension the cycles by which
R17 has extended it. -/
structure Inflight where
  id       : Nat
  ring     : Nat
  slot     : Nat
  opcode   : Nat
  tag      : Word
  step     : Option Nat
  promise  : Nat
  start    : Nat
  excluded : Nat
  extension : Nat
  work     : Work
  deriving DecidableEq, Repr

/-- One MSI-X table entry (R448). -/
structure MsixEntry where
  addr    : Quad
  data    : Word
  masked  : Bool
  pending : Bool
  deriving DecidableEq, Repr

/-- An MSI-X entry at reset: masked (R448). -/
def MsixEntry.init : MsixEntry := { addr := 0, data := 0, masked := true, pending := false }

/-- The host interface (R343 to R368, R448). -/
structure HostIf where
  running   : Bool
  rings     : SMap RingCtx
  inflight  : List Inflight
  nextId    : Nat
  msix      : SMap MsixEntry
  linkUp    : Bool
  d3hot     : Bool
  msixHeld  : List Nat
  admitCfg  : Option (Nat × Nat)
  splitHeld : Option (Nat × Word)
  snapshot  : Option (Nat × Word)
  lastUrgent : Nat
  lastPlain  : Nat
  deriving DecidableEq, Repr

/-! ## Tiles and passes -/

/-- One entry of a buffer table (R115). -/
structure BufEntry where
  h0     : Nat
  h1     : Nat
  double : Bool
  fmt    : Nat
  width  : Nat
  depth  : Nat
  index  : Nat
  stride : Int
  scale  : Nat
  gauge  : Nat
  deriving DecidableEq, Repr

/-- One entry of a gauge table (R125). -/
structure GaugeRef where
  outLayer : Nat
  outRole  : Nat
  outP     : Bool
  aP       : Bool
  bP       : Bool
  aRole    : Nat
  bRole    : Nat
  aLayer   : Nat
  bLayer   : Nat
  d        : Int
  titheL   : Nat
  m0       : Nat
  rowIdx   : Nat
  colIdx   : Nat
  n0       : Nat
  deriving DecidableEq, Repr

/-- One entry of a stream table (R122). -/
structure Stream where
  base     : Nat
  node     : Nat
  gatherer : Nat
  compress : Bool
  floor    : Nat
  prio     : Nat
  run      : Nat
  pitch    : Nat
  st0      : Int
  st1      : Int
  st2      : Int
  deriving DecidableEq, Repr

/-- A furrow image's header and tables (R126). -/
structure Image where
  nInstr  : Nat
  banks   : BitVec 4
  wires   : BitVec 16
  tBase   : Nat
  tCount  : Nat
  layer   : Nat
  role    : Nat
  timeout : Nat
  fpBase  : Nat
  fpSize  : Nat
  save    : Nat
  bufs    : List BufEntry
  gauges  : List GaugeRef
  streams : List Stream
  codeOff : Nat
  deriving DecidableEq, Repr

/-- One loop counter (R124). -/
structure LoopCtr where
  start : Nat
  body  : Nat
  count : Nat
  cur   : Nat
  deriving DecidableEq, Repr

/-- Why nothing of a pass issues on a tile: a WAIT not yet satisfied and a BIND not yet released are switching conditions of
R136; a pass that has reached PEND issues nothing more (R143). -/
inductive Hold where
  | wait (kind tally : Nat) (target : Word) (since : Nat) (deadline : Option Nat)
  | bind (wire : Nat) (since : Nat) (deadline : Option Nat)
  | pend
  deriving DecidableEq, Repr

/-- An instruction dispatched into an issue queue and not yet issued (R111, R112): where it stands, the loop counters at its
dispatch, the number of its move, the bin lines for which it is held behind a GET (R136), the bin lines that it will write when
it is a GET, and the count of the moves dispatched before it (R207). -/
structure Queued where
  pc    : Nat
  loops : List LoopCtr
  move  : Nat
  instr : Instr
  held  : List Nat
  gets  : List Nat
  order : Nat
  deriving DecidableEq, Repr

/-- The sequencer state of one pass on one tile (R111, R112, R136 to R142): pc and loops are those of the fetch, and queue
holds the instructions of the four issue queues in program order. A slot of 4 says that the pass waits for one (R140). -/
structure SeqState where
  pass      : Nat
  slot      : Nat
  pc        : Nat
  loops     : List LoopCtr
  queue     : List Queued
  swapped   : List Nat
  budget    : Nat
  sinceYield : Nat
  moves     : Nat
  preempt   : Bool
  suspended : Bool
  pended    : Bool
  parts     : List Nat
  hold      : Option Hold
  deriving DecidableEq, Repr

/-- A tally (R225). -/
structure Tally where
  count  : Word
  ref    : Word
  gate   : Bool
  double : Word
  last   : Option Nat
  deriving DecidableEq, Repr

/-- A tally after reset (R225). -/
def Tally.init : Tally := { count := 0, ref := 0, gate := false, double := 0, last := none }

/-- One tile (R19 to R42, R76, R93, R111, R134, R442). acc is keyed by bank × 1024 + row × 64 + column;
opBits holds, by bank, the width of the narrowest operand swept into it (R82). -/
structure Tile where
  bin       : SMap Byte
  acc       : SMap Word
  opBits    : SMap Nat
  chunkSel  : Bool
  seqs      : List SeqState
  running   : Option Nat
  tallies   : SMap Tally
  clocked   : Bool
  waking    : Bool
  testUntil : Nat
  brow      : List (BitVec 16)
  chunk0    : List (BitVec 16)
  chunk1    : List (BitVec 16)
  issuedAt  : Nat := 0
  busyAt    : Nat := 0
  deriving DecidableEq, Repr

/-- A tile after power-on (R27, R373). The 80 positions of the B-row register and both halves of the chunk buffer hold zero, for
which the manual gives no reset value (DESIGN CHOICE, log entry 86). -/
def Tile.init : Tile :=
  { bin := [], acc := [], opBits := [], chunkSel := false, seqs := [], running := none,
    tallies := [], clocked := false, waking := false, testUntil := 0, brow := List.replicate 80 0,
    chunk0 := List.replicate 1024 0, chunk1 := List.replicate 1024 0 }

/-- Declared demand on one memory, in units of 256 B (R356). -/
structure Demand where
  p  : Nat
  rd : Nat
  wr : Nat
  deriving DecidableEq, Repr

/-- An admitted pass that has not completed. moved counts the bytes that it has moved at each memory, and hotAdm lists the stacks
that were hot at its admission, each with the episode of its hot level (R200). -/
structure Pass where
  seq      : Nat
  desc     : Nat
  passId   : Word
  jobTag   : Nat
  ring     : Nat
  deadline : Bool
  tiles    : List Nat
  addr     : Nat
  img      : Image
  budget   : Nat
  mb       : Nat
  role     : Nat
  origin   : Word
  demand   : List Demand
  step     : Option Nat
  stepNum  : Nat
  done     : List Nat
  losses   : Nat
  lossLayer : Nat
  ending   : Option (Status × Nat)
  endedAt  : Nat := 0
  dropped  : SMap (Nat × Nat)
  moved    : SMap Nat
  hotAdm   : List (Nat × Nat) := []
  deriving DecidableEq, Repr

/-! ## Gatherers and memory -/

/-- How far a transfer has come (R204, R206, R216). -/
inductive XSt where
  | waiting | requested | arrived | landed | written
  deriving DecidableEq, Repr

/-- One transfer of a GET or PUT (R204). reserve says whether its tag was drawn from the stream's reserve; bins are the
bin addresses of its lines; order is the count of the moves dispatched before its own (R207). -/
structure Xfer where
  id       : Nat
  gath     : Nat
  tile     : Nat
  pass     : Nat
  stream   : Nat
  prio     : Nat
  deadline : Bool
  move     : Nat
  write    : Bool
  node     : Nat
  mpa      : Nat
  lines    : Nat
  bins     : List Nat
  fmt      : Nat
  reserve  : Option Bool
  issued   : Bool
  st       : XSt
  data     : List Byte
  detected : List Bool
  discard  : Bool
  refetch  : Bool
  block    : Option (Nat × Nat)
  since    : Nat
  order    : Nat := 0
  deriving DecidableEq, Repr

/-- A line on its way over the mesh (R220). -/
structure MeshLine where
  id   : Nat
  src  : Nat
  dst  : Nat
  pass : Nat
  buf  : Nat
  line : Int
  data : List Byte
  deriving DecidableEq, Repr

/-- The gatherers (R203 to R224). dispatches counts the moves dispatched (R207). -/
structure Gath where
  enable   : BitVec 48
  xfers    : List Xfer
  nextId   : Nat
  mesh     : List MeshLine
  nextLine : Nat
  window   : SMap Nat
  splits   : BitVec 12
  remote   : SMap Nat
  dispatches : Nat := 0
  deriving DecidableEq, Repr

/-- The state of a stack or package (R185, R202). -/
inductive DevState where
  | untrained | training | initialising | ready | selfRefresh | failed
  deriving DecidableEq, Repr

/-- Temperature levels (R199). -/
inductive Level where
  | normal | warm | hot | critical
  deriving DecidableEq, Repr

/-- Re-sowing states (R194, R202). -/
inductive Resow where
  | none | awaiting | running | complete
  deriving DecidableEq, Repr

/-- A token bucket (R199, R214): the tokens missing from it, in 1/175,000 of a byte, and the cycle up to which it is refilled. -/
structure Bucket where
  used : Nat
  since : Nat
  deriving DecidableEq, Repr

/-- A bucket that is full. -/
def Bucket.full : Bucket := { used := 0, since := 0 }

/-- One stack (p = 0 to 11) or package (p = 12 to 27). quietAt is since when the conditions of self-refresh hold (R180); remote
and hotTok are the token buckets of the remote allowance and of the hot level (R199, R214); slot is the next slot of a fixed-split
round, and debt the remote slots that a remote packet served has yet to pay (R215). -/
structure Device where
  st       : DevState
  enabled  : Bool
  kept     : Bool
  level    : Level
  temp     : Nat
  retired  : Option Nat
  retiredFailed : Bool
  resow    : Resow
  wmark    : Nat
  paused   : List Nat
  fails    : SMap Nat
  trainTemp : SMap Nat
  holdoff  : Nat
  hotAt    : Nat
  episode  : Nat
  corrSince : Nat
  corrAt   : Option Nat
  corrLine : Nat
  corrWin  : Nat
  retrSince : Nat
  retrAt   : Option Nat
  retrainAt : SMap Nat
  queue    : List Nat
  scrubPos : Nat
  quietAt  : Option Nat := none
  remote   : Bucket := Bucket.full
  hotTok   : Bucket := Bucket.full
  slot     : Nat := 0
  debt     : Nat := 0
  deriving DecidableEq, Repr

/-- A device after a power-on (R185, R373). -/
def Device.init : Device :=
  { st := .untrained, enabled := true, kept := false, level := .normal, temp := 0, retired := none,
    retiredFailed := false, resow := .none, wmark := 0, paused := [], fails := [], trainTemp := [], holdoff := 0, hotAt := 0,
    episode := 0, corrSince := 0, corrAt := none, corrLine := 0, corrWin := 0, retrSince := 0, retrAt := none,
    retrainAt := [], queue := [], scrubPos := 0 }

/-- One assembly buffer of a transposing window (R150). -/
structure AsmBuf where
  stack  : Nat
  window : Nat
  i      : Nat
  j      : Nat
  pass   : Nat
  elems  : SMap (BitVec 16)
  acks   : List Nat
  deriving DecidableEq, Repr

/-- The memory tiers (R173 to R202). mem is the MPA space in canonical form, unlisted bytes reading zero (DESIGN CHOICE, log entry 6);
marks are the lines whose outer code fails (R187); errs holds, by line, the 16-bit symbols in which what the devices hold differs
from what was written, and that no read has yet met (R182, R186). -/
structure Memory where
  mem   : List Host.Cell
  marks : List Nat
  errs  : SMap (List (Nat × BitVec 16)) := []
  dev   : SMap Device
  asm   : List AsmBuf
  deriving DecidableEq, Repr

/-! ## Tallies, wires and collectives -/

/-- Who sends a signal (R248). -/
inductive SigSource where
  | tile (t : Nat) | remote (node : Nat) | host | coll
  deriving DecidableEq, Repr

/-- A signal on its way (R133, R231); bare says that it has no fence, and stream is the
payload of the end packet that carries it (R323). A fenced signal waits for the transfers that fence names (for a remote signal, inbound
transfers by their ids) and for the mesh lines (for a remote signal, the writes) that lines names. -/
structure PendSig where
  source : SigSource
  pass   : Option Nat
  dest   : Option Nat
  node   : Nat
  tally  : Nat
  inc    : Nat
  fence  : List Nat
  lines  : List Nat
  desc   : Option Nat
  bare   : Bool
  stream : Option (List Byte) := none
  deriving DecidableEq, Repr

/-- One binder wire (R236). -/
structure Wire where
  owner : Nat
  mask  : List Nat
  high  : List Nat
  count : Nat
  deriving DecidableEq, Repr

/-- Tallies and binder wires (R225 to R238). takes holds the TAKEs of this cycle, each with its tally: a cycle's TAKEs follow its
signals (R229). -/
structure Sync where
  mtal    : SMap Tally
  signals : List PendSig
  wires   : SMap Wire
  takes   : List (Option Nat × Nat × Word) := []
  deriving DecidableEq, Repr

/-- State of a collective group (R250). -/
inductive GState where
  | disabled | idle | running | failed
  deriving DecidableEq, Repr

/-- A contribution or result chunk taken from a COLL packet (R242). -/
structure CollChunk where
  member : Nat
  chunk  : Nat
  data   : List Byte
  deriving DecidableEq, Repr

/-- Step counts: elements produced, non-zero finite sources, non-zero outputs, overflows, underflows to zero, non-finite
outcomes (R77). -/
structure StepCounts where
  elems    : Nat
  sources  : Nat
  nonzero  : Nat
  overflow : Nat
  underflow : Nat
  nonfinite : Nat
  deriving DecidableEq, Repr

/-- No counts. -/
def StepCounts.zero : StepCounts := ⟨0, 0, 0, 0, 0, 0⟩

/-- One collective group (R239, R240). chunks are the chunks received for command cmd; reduced says that the member has folded
its own shard of a running reduction; since is the always-on count at which the trigger's wait began. -/
structure Group where
  st       : GState
  cmd      : Nat
  chunks   : List CollChunk
  deadline : Option Nat
  reduced  : Bool
  since    : Nat
  counts   : StepCounts
  ack      : Option Nat := none
  deriving DecidableEq, Repr

/-- A group after reset (R373). -/
def Group.init : Group :=
  { st := .disabled, cmd := 0, chunks := [], deadline := none, reduced := false, since := 0, counts := .zero }

/-- The collective engine (R239 to R244). ending names a stack that has become critical while packets of a collective chunk were
still to be sent; the module fault follows them (R199, R244). -/
structure Coll where
  groups : SMap Group
  cfgErr : Bool
  ending : Option Nat := none
  deriving DecidableEq, Repr

/-! ## Fabric -/

/-- Port states (R280). -/
inductive PortSt where
  | disabled | training | up | downHeld | downReleased
  deriving DecidableEq, Repr

/-- A packet flit kept for replay (R255). -/
structure ReplayFlit where
  seq  : Nat
  flit : BitVec 512
  type : Nat
  xid  : Nat
  node : Nat
  deriving DecidableEq, Repr

/-- A packet queued for a lane of a port (R257). after names the transfers whose end it waits for, and behind those whose packets
must leave before it (R264, R266); credit names the port whose request credit returns when it has been sent (R256). -/
structure OutPacket where
  bytes : List Byte
  vl    : Nat
  req   : Bool
  xid   : Nat
  node  : Nat
  after : List Nat
  sigPass : Option Nat := none
  credit : Option Nat := none
  behind : List Nat := []
  deriving DecidableEq, Repr

/-- One Plynar port (R251 to R256, R267, R268, R273, R280). rx holds the accepted flits of each lane; run counts the packet
flits sent since the last link-control flit; cause is why the port was last declared down. reqs are the read requests that wait in
the port's request entries; granted and grantReq are the credits that the partner holds (R256); rxCount counts the packet flits
received since the last acknowledgement (R255); skip says, by lane, that the flits of a packet already dropped may still come; rest is
a packet sent in part and its flits yet to be sent, for want of room in the replay buffer; retryAt is when the port last began to
retrain (R267). -/
structure Port where
  st       : PortSt
  locked   : Bool
  hello    : Bool
  quarantine : Bool
  partner  : Nat
  partnerInc : Nat
  txSeq    : Nat
  expected : Nat
  replay   : List ReplayFlit
  credits  : List Nat
  reqCred  : Nat
  owed     : List Nat
  reqOwed  : Nat
  absCred  : Bool
  rx       : List (List (BitVec 512))
  txq      : List OutPacket
  vl3Turn  : Bool
  run      : Nat
  nak      : Bool
  nakAt    : Option Nat
  lastRx   : Nat
  lastAck  : Nat
  downAt   : Nat
  cause    : Nat
  violInt  : Nat
  violCnt  : Nat
  violSince : Nat
  violAt   : Option Nat
  lateSince : Nat
  lateAt   : Option Nat
  reqs     : List (List Byte) := []
  granted  : List Nat := [0, 0, 0, 0]
  grantReq : Nat := 0
  rxCount  : Nat := 0
  skip     : List Bool := [false, false, false, false]
  rest     : Option (OutPacket × List ReplayFlit) := none
  retryAt  : Nat := 0
  deriving DecidableEq, Repr

/-- A port after reset (R252, R280). -/
def Port.init : Port :=
  { st := .disabled, locked := false, hello := false, quarantine := false, partner := 0, partnerInc := 0,
    txSeq := 0, expected := 0, replay := [], credits := [0, 0, 0, 0], reqCred := 0, owed := [0, 0, 0, 0],
    reqOwed := 0, absCred := false, rx := [[], [], [], []], txq := [], vl3Turn := false, run := 0, nak := false, nakAt := none,
    lastRx := 0, lastAck := 0, downAt := 0, cause := 0, violInt := 0, violCnt := 0, violSince := 0, violAt := none, lateSince := 0,
    lateAt := none }

/-- What an outgoing transfer carries, so that its end reaches its owner (R213, R262, R302, R305, R309, R321). -/
inductive Purpose where
  | moves (xfers : List Nat)
  | sig
  | mirrorSend
  | logCopy (desc : Option Nat) (ack : Option Nat)
  | digests
  | repair
  | initial
  | recovery
  | export_
  | collective (g : Nat)
  | seal
  deriving DecidableEq, Repr

/-- A transfer this module is the source of, until every packet is acknowledged (R262, R264). waits holds the packets sent and not
yet acknowledged, each with the cycle at which it was sent (R269); op is the operation to which the transfer belongs, 0 when it is an
operation by itself (R262). -/
structure OutXfer where
  xid     : Nat
  node    : Nat
  vl      : Nat
  port    : Nat
  packets : Nat
  acked   : Nat
  lo      : Nat
  hi      : Nat
  ordered : Bool
  purpose : Purpose
  since   : Nat
  extend  : Nat
  waits   : List (Nat × Nat) := []
  op      : Nat := 0
  deriving DecidableEq, Repr

/-- An open inbound transfer, or a remote read that is awaited; opened says that a read's first request has been sent (R269,
R270); back says that it reads back what a harvest has exported (R332). -/
structure InXfer where
  src     : Nat
  xid     : Nat
  vl      : Nat
  port    : Nat
  next    : Nat
  got     : Nat
  last    : Nat
  extend  : Nat
  stalled : Bool
  tracked : Bool
  reads   : List Nat
  opened  : Bool := true
  back    : Bool := false
  deriving DecidableEq, Repr

/-- A write received that is not yet acknowledged: an assembly buffer holds one of its lines, or the partner has yet to
acknowledge the copy of its log entry (R150, R261, R302). -/
structure PendAck where
  id   : Nat
  copy : Bool
  port : Nat
  node : Nat
  xid  : Nat
  idx  : Nat
  deriving DecidableEq, Repr

/-- A claim in progress (R276). -/
structure ClaimOp where
  prev   : Word
  record : Nat
  node   : Nat
  inc    : Nat
  since  : Nat
  desc   : Nat
  deriving DecidableEq, Repr

/-- The delay last applied for a node, stack and episode (R277). -/
structure HoldoffRec where
  node    : Nat
  stack   : Nat
  episode : Nat
  delay   : Nat
  deriving DecidableEq, Repr

/-- The fabric (R251 to R280). serving holds, for each remote read of which not every response has been formed, its node, transfer
id and port (R264); nextOp numbers the operations that split into several transfers (R262); restBy is the cycle by which every port
is in electrical idle after a module fault (R383). -/
structure Fabric where
  ports   : SMap Port
  out     : List OutXfer
  inn     : List InXfer
  acks    : List PendAck
  nextXid : Nat
  turn    : Nat
  incarn  : SMap (BitVec 8)
  claim   : Option ClaimOp
  holdoffs : List HoldoffRec
  cancelled : List (Nat × Nat)
  episode : Nat
  serving : List (Nat × Nat × Nat) := []
  nextOp  : Nat := 1
  restBy  : Option Nat := none
  deriving DecidableEq, Repr

/-! ## Steps, log and mirror -/

/-- Attempt states (R285). -/
inductive AttSt where
  | openSt | run | check | sealed | refused
  deriving DecidableEq, Repr

/-- Version area states (R160, R163). -/
inductive AreaSt where
  | next | current | held | unused
  deriving DecidableEq, Repr

/-- A sampled drain waiting for the tithe engine (R79 to R81). -/
structure TitheSample where
  layer : Nat
  row   : Nat
  nblk  : Nat
  col   : Nat
  mb    : Nat
  ver   : Nat
  scale : Int
  opBits : Nat
  elems : List Word
  deriving DecidableEq, Repr

/-- The part of a seal report (R289, R291, R292). -/
structure Report where
  child  : Nat
  step   : Nat
  num    : Nat
  ready  : Bool
  sum    : Nat
  count  : Nat
  causes : BitVec 8
  deriving DecidableEq, Repr

/-- A seal verdict as it is decided or received (R292, R293). -/
structure Verdict where
  pass   : Bool
  host   : Bool
  sum    : Nat
  count  : Nat
  causes : Nat
  deriving DecidableEq, Repr

/-- A gauge as an attempt reads it at STEP_OPEN and holds it to its end (R65): exponent, format and estimate. -/
structure HeldGauge where
  exp : Int
  fmt : Nat
  est : Word
  deriving DecidableEq, Repr

/-- A step attempt that is open (R283 to R289). updated says that an update pass of it has been admitted (R159); verdict is a verdict
that waits for the last tithe samples (R83). -/
structure Attempt where
  step     : Nat
  num      : Nat
  seq      : Nat
  st       : AttSt
  closed   : Bool
  replay   : Bool
  first    : Bool
  overlap  : Bool
  poisoned : Bool
  latched  : List Word
  layers   : Nat
  wbase    : Nat
  policy   : Nat
  mac4     : Nat
  mac8     : Nat
  mac16    : Nat
  bindings : List (Nat × Nat)
  samples  : List TitheSample
  diverged : Nat
  divLayers : List Nat
  lossSeen : Bool
  report   : Option Report
  sent     : Bool
  groupFailed : Bool
  updated  : Bool := false
  verdict  : Option Verdict := none
  mirrorPos : Nat
  mirrorBusy : Bool
  initial  : Bool
  remirror : Bool
  digestSent : Bool
  blocksSent : Bool
  digestDone : Bool
  mirrorOk : Bool
  mismatch : List Nat
  used     : List (Nat × Nat)
  seeding  : List Nat
  gauges   : List HeldGauge
  openAon  : Nat
  deriving DecidableEq, Repr

/-- One entry of a log ring (R300): its place in the ring and what its header says. -/
structure LogEnt where
  off    : Nat
  size   : Nat
  kind   : Nat
  num    : Nat
  step   : Nat
  idx    : Nat
  target : Nat
  len    : Nat
  deriving DecidableEq, Repr

/-- A log ring (R299 to R301): entries oldest first, and where the next is written. -/
structure LogRing where
  ents : List LogEnt
  tail : Nat
  high : Bool
  deriving DecidableEq, Repr

/-- A digest list received from the partner (R306, R309). -/
structure DigestIn where
  step  : Nat
  kind  : Nat
  index : Nat
  data  : List Byte
  deriving DecidableEq, Repr

/-- Blocks of the shard that are to be copied to the partner: kind 6 or 7, the step, and the signal of the last packet (R309, R310). -/
structure CopyOut where
  kind   : Nat
  step   : Nat
  blocks : List Nat
  sig    : Option (Nat × Nat)
  deriving DecidableEq, Repr

/-- The step unit (R281 to R317) with the version fence (R157 to R163). tried holds (step, highest attempt number, cause of its
end); recorded holds the bindings (step, micro-batch, version) that ended attempts wrote into their step records (R162); repairGot holds
repair blocks that have come before this module's own verdict (R310); copies are the copies not yet sent. -/
structure Steps where
  job      : Bool
  key      : Quad
  firstStep : Option Nat
  restored : Option Nat
  attempts : List Attempt
  tried    : List (Nat × Nat × Nat)
  seqNo    : Nat
  area0    : AreaSt
  area1    : AreaSt
  curArea  : Nat
  version  : Nat
  binds    : List (Nat × Nat)
  recorded : List (Nat × Nat × Nat)
  log      : LogRing
  mlog     : LogRing
  reports  : List Report
  lost     : Bool
  lostCause : Nat
  repairOut : List Nat
  repairIn : List Nat
  repairGot : List Nat := []
  copies   : List CopyOut := []
  digests  : List DigestIn
  remirror : Bool
  remirrorCopied : Bool
  standin  : Bool
  facts    : List (Nat × Nat)
  silent   : List Nat
  deriving DecidableEq, Repr

/-! ## Harvest engine -/

/-- A segment of an image (R329, R333). kind is 0 shard, 1 watch table, 2 extra. -/
structure HSeg where
  kind   : Nat
  mode   : Nat
  base   : Nat
  blocks : Nat
  imgOff : Nat
  deriving DecidableEq, Repr

/-- A harvest in progress (R328 to R333). key, nodeId and inc are what its manifest says of the job and the node. In stage 2, next is
the part that is exported: an image block, then the CRC table, then the header; phase says how far it has come (0 to be written, 1
written, 2 being read back from a node), again that it is written for the second time, back what has been read back, and op numbers the
operation of the export (R262, R332). -/
structure HarvestOp where
  desc    : Nat
  version : Nat
  mirror  : Bool
  dest    : Nat
  node    : Nat
  addr    : Nat
  rates   : List Demand
  segs    : List HSeg
  stage2  : Bool
  next    : Nat
  crcs    : SMap Quad
  failed  : Bool
  ovf     : Nat
  udf     : Nat
  nonf    : Nat
  start   : Nat
  key     : Quad
  nodeId  : Nat
  inc     : Nat
  phase   : Nat := 0
  again   : Bool := false
  back    : List Byte := []
  op      : Nat := 0
  deriving DecidableEq, Repr

/-- A candidate of a RESTORE (R353). -/
structure Cand where
  step : Nat
  host : Bool
  addr : Nat
  len  : Nat
  ok   : Bool
  deriving DecidableEq, Repr

/-- A restore in progress (R335 to R339). target is the count of the done tally at which the group's command has ended. -/
structure RestoreOp where
  desc  : Nat
  key   : Quad
  cands : List Cand
  group : Option Nat
  target : Word
  deriving DecidableEq, Repr

/-- A write that waits for the copy of a harvested block (R330): of a gatherer, the packet at the head of a lane of a port, or the
descriptor at the head of a ring. -/
inductive HeldWrite where
  | xfer (id : Nat)
  | packet (port vl : Nat)
  | ring (r : Nat)
  deriving DecidableEq, Repr

/-- The recovery channel (R342). -/
inductive RecSt where
  | idle | sending | receiving | received
  deriving DecidableEq, Repr

/-- The harvest engine (R318 to R342). recRates are the rates of a recovery stream that is being sent; streamEnded says that
the end packet of the stream received last has come; gotBlocks counts bytes of shard data, and gotEntry those of the log copy received last; recWait is a recovery stream whose bytes cannot
yet be read; holds are the writes that wait for a copy-ahead, each with the cycle at which it began to (R330). -/
structure Harvest where
  op       : Option HarvestOp
  restore  : Option RestoreOp
  recovery : RecSt
  recDesc  : Nat
  recRates : List Demand
  streamEnded : Bool
  gotBlocks : Nat
  gotLogs  : Nat
  gotSide  : Nat
  claimAt  : Nat
  mirrorVer : Option Nat
  gotEntry : Nat := 0
  recWait  : Option HostDesc := none
  holds    : List (HeldWrite × Nat) := []
  deriving DecidableEq, Repr

/-! ## Events -/

/-- The event log (R424 to R429). Positions are epoch × 2^k + index; hold is the buffer of 64 records, oldest first; fresh are
the records raised in the current always-on count, in the order in which they will be written (R425). -/
structure Events where
  fresh  : List EventRec
  head   : Nat
  tail   : Nat
  hold   : List EventRec
  gap    : Nat
  unsignalled : Nat
  oldest : Option Nat
  deriving DecidableEq, Repr

/-! ## Steward -/

/-- Quadrant PLL states (R398). -/
inductive PllSt where
  | off | locking | running
  deriving DecidableEq, Repr

/-- The Steward's non-volatile store (R370, R387). retired gives the retired physical column of a die row, keyed by quadrant × 16 +
row; absent holds logical tiles; failed holds, oldest first, the failed tiles that await a job boundary (a logical tile, or
1,536 + the row key for a spare tile that no logical tile uses); pcRetired gives the retired pseudo-channel of a stack. -/
structure Nv where
  retired   : SMap Nat
  absent    : List Nat
  failed    : List Nat
  pcRetired : SMap Nat
  preferred : Option Nat
  authFail  : Bool
  deriving DecidableEq, Repr

/-- The throttle (R381, R382). left is the cycles left of the current tile-clock edge. -/
structure Throttle where
  pin     : Bool
  under   : Bool
  cap     : Nat
  thermal : Nat
  target  : Nat
  level   : Nat
  edges   : Nat
  left    : Nat
  changes : Nat
  evAt    : Option Nat
  deriving DecidableEq, Repr

/-- SPDM progress (R391): requests must follow the order version, capabilities, algorithms. -/
structure Spdm where
  stage : Nat
  count : Nat
  deriving DecidableEq, Repr

/-- The Steward (R369 to R399, R402, R412, R413). walks gives, for each quadrant with a wake walk, the next group and the edge
before which it is not visited; capAt is when a request of the power cap last moved; fuse is the anti-rollback counter F; flash
holds the bytes written since delivery; verified says that the inactive slot has passed op 2; mboxBusy holds the op under way
and its result; unused gives, for each unused quadrant, since when it is (R376), locked when the PLL of a quadrant last locked, and coolSince since when the junctions allow a lower
divisor (R381); sigs counts signatures; energy counts units of 10 pJ; powers are the last ten samples of input power in µW. -/
structure Steward where
  powered  : Bool
  mainOn   : Bool
  good     : Bool
  perst    : Bool
  present  : Bool
  slotId   : BitVec 6
  fallow   : Bool
  thr      : Throttle
  pll      : List PllSt
  walks    : SMap (Nat × Nat)
  fault    : Option FaultCause
  faultPin : Bool
  temps    : List Nat
  capAt    : Option Nat
  nv       : Nv
  fuse     : Nat
  flash    : SMap Byte
  bootSlot : Nat
  verified : Bool
  mboxData : SMap Byte
  mboxBusy : Option (Nat × Nat)
  i3c      : Option (BitVec 7)
  spdm     : Spdm
  sigs     : Nat
  energy   : Nat
  powers   : List Nat
  sampleAt : Option Nat
  slices   : Nat
  unused   : SMap Nat := []
  locked   : SMap Nat := []
  coolSince : Option Nat := none
  deriving DecidableEq, Repr

/-! ## The module -/

/-- The whole module. regs holds every register that is storage or a counter, keyed by BAR0 offset, an unlisted register
reading its reset value (R8, R433); registers that show other state are computed when read (Regs.lean). cyc counts undivided
cycles since power-on; edge counts tile-clock edges. pending is the queue of commands, first in, first out. -/
structure State where
  cyc     : Nat
  edge    : Nat
  regs    : SMap Quad
  host    : HostIf
  tiles   : SMap Tile
  passes  : List Pass
  nextPass : Nat
  gath    : Gath
  memory  : Memory
  sync    : Sync
  coll    : Coll
  fab     : Fabric
  steps   : Steps
  hrv     : Harvest
  evt     : Events
  stw     : Steward
  emitted : List Emit
  pending : List Instr
  deriving DecidableEq, Repr

/-- The host interface after reset (R346, R448). -/
def HostIf.init : HostIf :=
  { running := false, rings := [], inflight := [], nextId := 0, msix := [], linkUp := false, d3hot := false, msixHeld := [],
    admitCfg := none, splitHeld := none, snapshot := none, lastUrgent := Config.numRings - 1, lastPlain := Config.numRings - 1 }

/-- Gatherers after reset (R224). -/
def Gath.init : Gath :=
  { enable := 0, xfers := [], nextId := 0, mesh := [], nextLine := 0, window := [], splits := 0, remote := [] }

/-- Memory after power-on: every device untrained, nothing written (R185). -/
def Memory.init : Memory := { mem := [], marks := [], dev := [], asm := [] }

/-- Tallies and wires after reset (R225). -/
def Sync.init : Sync := { mtal := [], signals := [], wires := [] }

/-- Collective engine after reset (R373). -/
def Coll.init : Coll := { groups := [], cfgErr := false }

/-- Fabric after reset (R252, R274, R275). -/
def Fabric.init : Fabric :=
  { ports := [], out := [], inn := [], acks := [], nextXid := 0, turn := 0, incarn := [], claim := none, holdoffs := [], cancelled := [],
    episode := 0 }

/-- An empty log ring (R299). -/
def LogRing.init : LogRing := { ents := [], tail := 0, high := false }

/-- Step unit after reset: no job; STP_FENCE_STATUS reads 0x14, area 0 NEXT, area 1 CURRENT, current area 1 (R163). -/
def Steps.init : Steps :=
  { job := false, key := 0, firstStep := none, restored := none, attempts := [], tried := [], seqNo := 0, area0 := .next,
    area1 := .current, curArea := 1, version := 0, binds := [], recorded := [], log := .init,
    mlog := .init, reports := [], lost := false, lostCause := 0, repairOut := [], repairIn := [], digests := [],
    remirror := false, remirrorCopied := false, standin := false, facts := [], silent := [] }

/-- Harvest engine after reset (R373). -/
def Harvest.init : Harvest :=
  { op := none, restore := none, recovery := .idle, recDesc := 0, recRates := [], streamEnded := false, gotBlocks := 0, gotLogs := 0,
    gotSide := 0, claimAt := 0, mirrorVer := none }

/-- Event log after power-on (R428). -/
def Events.init : Events := { fresh := [], head := 0, tail := 0, hold := [], gap := 0, unsignalled := 0, oldest := none }

/-- Throttle released (R382). -/
def Throttle.init : Throttle :=
  { pin := false, under := false, cap := 0, thermal := 0, target := 0, level := 0, edges := 0, left := 1, changes := 0,
    evAt := none }

/-- The Steward before its first power-on: nothing stored, F at 0 (DESIGN CHOICE, log entry 9). -/
def Steward.init : Steward :=
  { powered := false, mainOn := false, good := false, perst := true, present := false, slotId := 0,
    fallow := false, thr := .init, pll := [.off, .off, .off, .off], walks := [], fault := none, faultPin := false,
    temps := [0, 0, 0, 0], capAt := none,
    nv := { retired := [], absent := [], failed := [], pcRetired := [], preferred := none, authFail := false },
    fuse := 0, flash := [], bootSlot := 0, verified := false,
    mboxData := [], mboxBusy := none, i3c := none, spdm := { stage := 0, count := 0 }, sigs := 0, energy := 0,
    powers := [], sampleAt := none, slices := 0 }

/-- The module at power-on reset (R8): every register at its reset value, the 50 V input not yet risen, memory and queue
empty. A POWER_ON command brings it up (R371).
DESIGN CHOICE, log entry 83. -/
def State.reset : State :=
  { cyc := 0, edge := 0, regs := [], host := .init, tiles := [], passes := [], nextPass := 0, gath := .init,
    memory := .init, sync := .init, coll := .init, fab := .init, steps := .init, hrv := .init, evt := .init, stw := .init,
    emitted := [], pending := [] }

end Sys2Proof.Machine
end

