-- ==== Sys2Proof/Machine/Regs.lean ====
section
/-! DEFINITION. The registers of BAR0 (R433, R434): their names, offsets, widths, access masks and reset values, one row for
each row of the register tables of the manual, and the accessors of their stored values. -/

namespace Sys2Proof.Machine

set_option Elab.async false

/-- The registers, by the names of their tables. A register table row that repeats is one name with indices. -/
inductive RegName where
  | numWatchBase | numWatchCtl | numEvtEn | numGaugeDecay | numGaugeCfg | numSeedCfg | numSelectCfg | numTitheCfg
  | numTitheAbs | numSilentCfg | numTvRev | numStatus | numTileCntOvf | numTileCntUdf | numTileCntNonf | memXpwRowbase
  | memXpwColbase | memXpwGeom | memXpwPitch | memXpwCtl | memXpwStatus | memXpwBlocks | memXpwFlushes | memXpwRsv
  | stpFenceCtl | stpFenceStatus | stpFenceCount0 | stpFenceCount1 | stpVersionCur | memTrainCtl | memTrainStatus
  | memScrubCfg | memRetireThr | memStkStatus | memStkRetraining | memStkCtl | memResowWmark | memStkHoldoff
  | memStkCorr | memStkDet | memStkLastdet | memStkRetrains | memStkInner | memPcCorr | memRangeCfg | memRangeDet
  | memRangeCorr | memPkgStatus | memPkgCorr | memPkgDet | memPkgLastdet | memPkgRetrains | gthArbCtl | gthEnable
  | gthReservedTotal | gthRemoteCfg | gthStatus | gthFetched | gthWritten | gthCancelled | gthCycleBytes | gthCycles
  | gthMaxWait | gthRsv0 | gthRsv1 | tilMtalSel | tilMtalCfg | tilMtalCount | tilMtalRef | tilMtalDouble
  | tilSyncStatus | tilBindStatus | tilDumpBase | tilDumpCfg | tilDumpCount | fabCollBase | fabCollCtl | fabCollStatus
  | fabCollState | fabNodeId | fabPortEn | fabStallTo | fabAbandonTo | fabCfg | fabStatus | fabXferStatus
  | fabUntracked | fabPortCfg | fabPortStatus | fabPortCtl | fabPortFlitsTx | fabPortFlitsRx | fabPortResent
  | fabPortFecCorr | fabPortFecUncorr | fabPortViol | fabPortLate | fabPortRetrains | fabPortDups | fabIncarn
  | fabRoute | stpJobCtl | stpStatus | stpJobKey | stpLastSealed | stpPolicy | stpCtl | stpVerdict | stpLastVerdict
  | stpTallyRange | stpRecBase | stpLogBase | stpLogSize | stpLogUsed | stpLogCfg | stpMlogBase | stpMlogSize
  | stpMirrorCfg | stpMsendBase | stpMsendCnt | stpDigestBase | stpSealTree | stpSealKids | stpSealChild
  | stpSealedMac4 | stpSealedMac8 | stpSealedMac16 | stpAttempts | stpLogRegionBase | stpLogRegionSize | stpShardSegA0
  | stpShardSegA1 | stpShardSegBlocks | stpShardSegRsv | stpMirrorSegA0 | stpMirrorSegA1 | stpMirrorSegBlocks
  | stpMirrorSegRsv | hrvCtl | hrvStatus | hrvAreaBase | hrvAreaSize | hrvStageBase | hrvStageSize | hrvBitmapBase
  | hrvProgress | hrvHolds | hrvMaxHold | hrvVerifyFails | hrvMirrorVer | hrvRecvCfg | hrvSignCfg | hrvRecvBytes
  | hrvSegCfg | hrvXsegA0 | hrvXsegA1 | hrvXsegBlocks | hrvXsegRsv | hstCtl | hstStatus | hstAdmitCfg | hstAdmitted
  | hstRefused | hstMisses | hstDoorbellStale | hstLastRefuse | hstLedgerSel | hstLedger | stwStatus | stwBoot
  | stwThrottle | stwPcap | stwEnergy | stwInput | stwTemp | stwClkCfg | stwClkStatus | stwAlertEn | stwAlertStatus
  | stwTestCfg | stwTestStatus | stwTestAge | stwMboxCmd | stwMboxStatus | evtBase | evtCtl | evtHead | evtTail
  | evtStatus | evtMod | evtRaised | evtLost | stwIdMagic | stwIdPart | stwIdStepping | stwIdMaprev | stwIdSerial
  | stwIdCaps0 | stwIdCaps1 | stwIdFwBuild | stwIdRsv | tilStatus | tilAvail | tilEnable | tilRowmap | tilTileState
  | memDevEn | hrvEnable | hstBarErr
  deriving DecidableEq, Repr

/-- One row of a register table: the base offset, two repetitions, the width in bytes, the bits that a write stores, the bits
that a write of one clears, the reset value, and whether a module reset keeps the register (R369). -/
structure RegRow where
  base  : Nat
  n1    : Nat
  s1    : Nat
  n2    : Nat
  s2    : Nat
  bytes : Nat
  rw    : Nat
  w1c   : Nat
  reset : Nat
  keep  : Bool
  deriving DecidableEq, Repr

/-- A row that stands once. -/
def row0 (base bytes rw w1c reset : Nat) (keep : Bool) : RegRow := ⟨base, 1, 0, 1, 0, bytes, rw, w1c, reset, keep⟩
/-- A row repeated n1 times. -/
def row1 (base n1 s1 bytes rw w1c reset : Nat) (keep : Bool) : RegRow := ⟨base, n1, s1, 1, 0, bytes, rw, w1c, reset, keep⟩
/-- A row repeated n1 times n2 times. -/
def row2 (base n1 s1 n2 s2 bytes rw w1c reset : Nat) (keep : Bool) : RegRow :=
  ⟨base, n1, s1, n2, s2, bytes, rw, w1c, reset, keep⟩

/-- The register tables: R88, R155, R163, R201, R222, R249, R279, R316, R341, R367, R398, R428, R439, R441, R445, R446. -/
def RegName.row : RegName → RegRow
  | .numWatchBase => row0 0x500000 8 0xfffffffffffff000 0 0 false
  | .numWatchCtl => row0 0x500008 4 0x8001ffff 0 0 false
  | .numEvtEn => row0 0x50000c 4 0xf 0 0 false
  | .numGaugeDecay => row0 0x500010 4 0xffffffff 0 0x3f733333 false
  | .numGaugeCfg => row0 0x500014 4 7 0 1 false
  | .numSeedCfg => row0 0x500018 4 0xff 0 8 false
  | .numSelectCfg => row0 0x50001c 4 3 0 0 false
  | .numTitheCfg => row0 0x500020 4 0xffff00ff 0 0xffff00a8 false
  | .numTitheAbs => row0 0x500024 4 0xffffffff 0 0xfafefdfc false
  | .numSilentCfg => row0 0x500028 4 0xffff 0 0x20 false
  | .numTvRev => row0 0x50002c 4 0 0 1 false
  | .numStatus => row0 0x500030 4 0 2 0 false
  | .numTileCntOvf => row1 0x510000 1536 0x20 8 0 0 0 true
  | .numTileCntUdf => row1 0x510008 1536 0x20 8 0 0 0 true
  | .numTileCntNonf => row1 0x510010 1536 0x20 8 0 0 0 true
  | .memXpwRowbase => row2 0x260000 12 0x1000 64 0x40 8 0xfffffffffffff000 0 0 false
  | .memXpwColbase => row2 0x260008 12 0x1000 64 0x40 8 0xfffffffffffff000 0 0 false
  | .memXpwGeom => row2 0x260010 12 0x1000 64 0x40 8 0x3ffffffff 0 0 false
  | .memXpwPitch => row2 0x260018 12 0x1000 64 0x40 8 0xffffff00ffffff 0 0 false
  | .memXpwCtl => row2 0x260020 12 0x1000 64 0x40 4 1 0 0 false
  | .memXpwStatus => row2 0x260024 12 0x1000 64 0x40 4 0 1 0 false
  | .memXpwBlocks => row2 0x260028 12 0x1000 64 0x40 8 0 0 0 true
  | .memXpwFlushes => row2 0x260030 12 0x1000 64 0x40 8 0 0 0 true
  | .memXpwRsv => row2 0x260038 12 0x1000 64 0x40 8 0 0 0 false
  | .stpFenceCtl => row0 0x600f00 4 1 0 0 false
  | .stpFenceStatus => row0 0x600f04 4 0 0 0x14 false
  | .stpFenceCount0 => row0 0x600f08 4 0 0 0 false
  | .stpFenceCount1 => row0 0x600f0c 4 0 0 0 false
  | .stpVersionCur => row0 0x600f10 8 0 0 0 false
  | .memTrainCtl => row0 0x200000 4 0 0 0 false
  | .memTrainStatus => row0 0x200004 4 0 0 0 false
  | .memScrubCfg => row0 0x200008 4 0xff 0 0x18 false
  | .memRetireThr => row0 0x20000c 4 0xffff 0 0x1000 false
  | .memStkStatus => row1 0x210000 12 0x1000 4 0 0x1000 0 false
  | .memStkRetraining => row1 0x210004 12 0x1000 4 0 0 0 false
  | .memStkCtl => row1 0x210008 12 0x1000 4 0x1f 0 0 false
  | .memResowWmark => row1 0x21000c 12 0x1000 4 0 0 0 false
  | .memStkHoldoff => row1 0x210010 12 0x1000 4 0 0 0 false
  | .memStkCorr => row1 0x210018 12 0x1000 8 0 0 0 true
  | .memStkDet => row1 0x210020 12 0x1000 8 0 0 0 true
  | .memStkLastdet => row1 0x210028 12 0x1000 8 0 0 0 false
  | .memStkRetrains => row1 0x210030 12 0x1000 8 0 0 0 true
  | .memStkInner => row1 0x210038 12 0x1000 8 0 0 0 false
  | .memPcCorr => row2 0x210040 12 0x1000 32 4 4 0 0 0 false
  | .memRangeCfg => row2 0x220000 12 0x400 64 0x10 8 0x10301ff01ff 0x40000000000 0 false
  | .memRangeDet => row2 0x220008 12 0x400 64 0x10 4 0 0 0 false
  | .memRangeCorr => row2 0x22000c 12 0x400 64 0x10 4 0 0 0 false
  | .memPkgStatus => row1 0x240000 16 0x100 4 0 0 0 false
  | .memPkgCorr => row1 0x240008 16 0x100 8 0 0 0 true
  | .memPkgDet => row1 0x240010 16 0x100 8 0 0 0 true
  | .memPkgLastdet => row1 0x240018 16 0x100 8 0 0 0 false
  | .memPkgRetrains => row1 0x240020 16 0x100 8 0 0 0 true
  | .gthArbCtl => row0 0x280000 4 0xfff 0 0 false
  | .gthEnable => row0 0x280008 8 0xffffffffffff 0 0 false
  | .gthReservedTotal => row0 0x280010 4 0 0 0 false
  | .gthRemoteCfg => row1 0x280040 28 4 4 0x7f 0 0 false
  | .gthStatus => row1 0x281000 48 0x40 4 0 0 0 false
  | .gthFetched => row1 0x281008 48 0x40 8 0 0 0 true
  | .gthWritten => row1 0x281010 48 0x40 8 0 0 0 true
  | .gthCancelled => row1 0x281018 48 0x40 8 0 0 0 true
  | .gthCycleBytes => row1 0x281020 48 0x40 8 0 0 0 true
  | .gthCycles => row1 0x281028 48 0x40 4 0 0 0 true
  | .gthMaxWait => row1 0x28102c 48 0x40 4 0 0 0 true
  | .gthRsv0 => row1 0x281030 48 0x40 8 0 0 0 false
  | .gthRsv1 => row1 0x281038 48 0x40 8 0 0 0 false
  | .tilMtalSel => row0 0x440000 4 0xffff 0 0 false
  | .tilMtalCfg => row0 0x440004 4 1 0 0 false
  | .tilMtalCount => row0 0x440008 4 0 0 0 false
  | .tilMtalRef => row0 0x44000c 4 0 0 0 false
  | .tilMtalDouble => row0 0x440010 4 0 0 0 false
  | .tilSyncStatus => row0 0x440014 4 0 0xf 0 false
  | .tilBindStatus => row0 0x440018 4 0 0 0 false
  | .tilDumpBase => row0 0x440020 8 0xfffffffffffff000 0 0 false
  | .tilDumpCfg => row0 0x440028 4 0xf 0 0 false
  | .tilDumpCount => row0 0x44002c 4 0 0 0 true
  | .fabCollBase => row0 0x3c0000 8 0xffffffffffffffc0 0 0 false
  | .fabCollCtl => row0 0x3c0008 4 0 0 0 false
  | .fabCollStatus => row0 0x3c000c 4 0 0 0 false
  | .fabCollState => row1 0x3c1000 4096 4 4 0 0 0 false
  | .fabNodeId => row0 0x300000 4 0xffffff 0 0 false
  | .fabPortEn => row0 0x300004 4 0x3ffff 0 0 false
  | .fabStallTo => row0 0x300008 4 0xffffffff 0 0x64 false
  | .fabAbandonTo => row0 0x30000c 4 0xffffffff 0 0x7530 false
  | .fabCfg => row0 0x300010 4 0xffffffff 0 0x3e81008 false
  | .fabStatus => row0 0x300014 4 0 5 0 false
  | .fabXferStatus => row0 0x300018 4 0 0 0 false
  | .fabUntracked => row0 0x30001c 4 0 0 0 true
  | .fabPortCfg => row1 0x310000 18 0x100 4 1 0 0 false
  | .fabPortStatus => row1 0x310004 18 0x100 4 0 0 0 false
  | .fabPortCtl => row1 0x310008 18 0x100 4 0 0 0 false
  | .fabPortFlitsTx => row1 0x310010 18 0x100 8 0 0 0 false
  | .fabPortFlitsRx => row1 0x310018 18 0x100 8 0 0 0 false
  | .fabPortResent => row1 0x310020 18 0x100 8 0 0 0 false
  | .fabPortFecCorr => row1 0x310028 18 0x100 8 0 0 0 false
  | .fabPortFecUncorr => row1 0x310030 18 0x100 8 0 0 0 false
  | .fabPortViol => row1 0x310038 18 0x100 4 0 0 0 true
  | .fabPortLate => row1 0x31003c 18 0x100 4 0 0 0 true
  | .fabPortRetrains => row1 0x310040 18 0x100 4 0 0 0 true
  | .fabPortDups => row1 0x310044 18 0x100 4 0 0 0 false
  | .fabIncarn => row1 0x340000 16384 4 4 0 0 0 false
  | .fabRoute => row1 0x380000 65536 4 4 0x3ffff 0 0 false
  | .stpJobCtl => row0 0x600000 4 0 0 0 false
  | .stpStatus => row0 0x600004 4 0 0x800 0 false
  | .stpJobKey => row0 0x600008 8 0xffffffffffffffff 0 0 false
  | .stpLastSealed => row0 0x600010 8 0 0 0 false
  | .stpPolicy => row0 0x600018 4 0xffffffff 0 0 false
  | .stpCtl => row0 0x60001c 4 0 0 0 false
  | .stpVerdict => row0 0x600020 8 0 0 0 false
  | .stpLastVerdict => row0 0x600028 8 0 0 0 false
  | .stpTallyRange => row0 0x600030 4 0xffffffff 0 0 false
  | .stpRecBase => row0 0x600038 8 0xfffffffffff00000 0 0 false
  | .stpLogBase => row0 0x600040 8 0xfffffffffff00000 0 0 false
  | .stpLogSize => row0 0x600048 8 0xfffffffffff00000 0 0 false
  | .stpLogUsed => row0 0x600050 8 0 0 0 false
  | .stpLogCfg => row0 0x600058 4 0xffff 0 0x40 false
  | .stpMlogBase => row0 0x600060 8 0xfffffffffff00000 0 0 false
  | .stpMlogSize => row0 0x600068 8 0xfffffffffff00000 0 0 false
  | .stpMirrorCfg => row0 0x600070 8 0xffff0001ffff 0 0 false
  | .stpMsendBase => row0 0x600078 8 0xffffffffffffffe0 0 0 false
  | .stpMsendCnt => row0 0x600080 4 0x7f 0 0 false
  | .stpDigestBase => row0 0x600088 8 0xfffffffffff00000 0 0 false
  | .stpSealTree => row0 0x600090 4 0xffffffff 0 0 false
  | .stpSealKids => row0 0x600094 4 0x1f 0 0 false
  | .stpSealChild => row1 0x6000a0 8 4 4 0xffffffff 0 0 false
  | .stpSealedMac4 => row0 0x6000c0 8 0 0 0 true
  | .stpSealedMac8 => row0 0x6000c8 8 0 0 0 true
  | .stpSealedMac16 => row0 0x6000d0 8 0 0 0 true
  | .stpAttempts => row0 0x6000d8 8 0 0 0 true
  | .stpLogRegionBase => row1 0x600100 8 0x10 8 0xfffffffffffff000 0 0 false
  | .stpLogRegionSize => row1 0x600108 8 0x10 8 0xfffffffffffff000 0 0 false
  | .stpShardSegA0 => row1 0x600200 16 0x20 8 0xffffffffffffffff 0 0 false
  | .stpShardSegA1 => row1 0x600208 16 0x20 8 0xffffffffffffffff 0 0 false
  | .stpShardSegBlocks => row1 0x600210 16 0x20 8 0xffffffffffffffff 0 0 false
  | .stpShardSegRsv => row1 0x600218 16 0x20 8 0 0 0 false
  | .stpMirrorSegA0 => row1 0x600400 16 0x20 8 0xffffffffffffffff 0 0 false
  | .stpMirrorSegA1 => row1 0x600408 16 0x20 8 0xffffffffffffffff 0 0 false
  | .stpMirrorSegBlocks => row1 0x600410 16 0x20 8 0xffffffffffffffff 0 0 false
  | .stpMirrorSegRsv => row1 0x600418 16 0x20 8 0 0 0 false
  | .hrvCtl => row0 0x700000 4 0 0 0 false
  | .hrvStatus => row0 0x700004 4 0 0xc0 0 false
  | .hrvAreaBase => row0 0x700008 8 0xffffffffffff0000 0 0 false
  | .hrvAreaSize => row0 0x700010 8 0xffffffffffff0000 0 0 false
  | .hrvStageBase => row0 0x700018 8 0xffffffffffff0000 0 0 false
  | .hrvStageSize => row0 0x700020 8 0xffffffffffff0000 0 0 false
  | .hrvBitmapBase => row0 0x700028 8 0xfffffffffffff000 0 0 false
  | .hrvProgress => row0 0x700030 8 0 0 0 false
  | .hrvHolds => row0 0x700038 8 0 0 0 true
  | .hrvMaxHold => row0 0x700040 4 0 0 0 false
  | .hrvVerifyFails => row0 0x700044 4 0 0 0 true
  | .hrvMirrorVer => row0 0x700048 8 0 0 0 false
  | .hrvRecvCfg => row0 0x700050 4 0x1ffff 0 0 false
  | .hrvSignCfg => row0 0x700054 4 3 0 0 false
  | .hrvRecvBytes => row0 0x700058 8 0 0 0 true
  | .hrvSegCfg => row1 0x700100 16 4 4 3 0 0 false
  | .hrvXsegA0 => row1 0x700200 16 0x20 8 0xffffffffffff0000 0 0 false
  | .hrvXsegA1 => row1 0x700208 16 0x20 8 0xffffffffffff0000 0 0 false
  | .hrvXsegBlocks => row1 0x700210 16 0x20 8 0xffffffffffffffff 0 0 false
  | .hrvXsegRsv => row1 0x700218 16 0x20 8 0 0 0 false
  | .hstCtl => row0 0x100000 4 1 0 0 false
  | .hstStatus => row0 0x100004 4 0 0xc 0 false
  | .hstAdmitCfg => row0 0x100008 4 0xffffff 0 0x2000a false
  | .hstAdmitted => row0 0x100010 8 0 0 0 true
  | .hstRefused => row0 0x100018 8 0 0 0 true
  | .hstMisses => row0 0x100020 8 0 0 0 true
  | .hstDoorbellStale => row0 0x100028 4 0 0 0 true
  | .hstLastRefuse => row0 0x10002c 4 0 0 0 false
  | .hstLedgerSel => row0 0x100030 4 0x1f 0 0 false
  | .hstLedger => row0 0x100034 4 0 0 0 false
  | .stwStatus => row0 0x10000 4 0 0x80 0 true
  | .stwBoot => row0 0x10004 4 0 0 0 true
  | .stwThrottle => row0 0x10008 4 0 0 0 true
  | .stwPcap => row0 0x1000c 4 0xfff 0 0x640 true
  | .stwEnergy => row0 0x10010 8 0 0 0 true
  | .stwInput => row0 0x10018 4 0 0 0 true
  | .stwTemp => row0 0x1001c 4 0 0 0 true
  | .stwClkCfg => row0 0x10020 4 0xffffffff 0 0x3e80040 true
  | .stwClkStatus => row0 0x10024 4 0 0 0 true
  | .stwAlertEn => row0 0x10028 4 0x3f 0 0x3f true
  | .stwAlertStatus => row0 0x1002c 4 0 0x3f 0 true
  | .stwTestCfg => row0 0x10030 4 3 0 3 true
  | .stwTestStatus => row0 0x10034 4 0 0 0 true
  | .stwTestAge => row0 0x10038 4 0 0 0 true
  | .stwMboxCmd => row0 0x10040 4 0 0 0 true
  | .stwMboxStatus => row0 0x10044 4 0 0 0 true
  | .evtBase => row0 0x800000 8 0xfffffffffffff000 0 0 false
  | .evtCtl => row0 0x800008 4 0x7ffff 0 0 false
  | .evtHead => row0 0x80000c 4 0 0 0 false
  | .evtTail => row0 0x800010 4 0 0 0 false
  | .evtStatus => row0 0x800014 4 0 7 0 false
  | .evtMod => row0 0x800018 4 0xffffff 0 1 false
  | .evtRaised => row0 0x800020 8 0 0 0 true
  | .evtLost => row0 0x800028 8 0 0 0 true
  | .stwIdMagic => row0 0 4 0 0 0x31574c54 true
  | .stwIdPart => row0 4 4 0 0 0x1536 true
  | .stwIdStepping => row0 8 4 0 0 0xa1 true
  | .stwIdMaprev => row0 0xc 4 0 0 0x10101 true
  | .stwIdSerial => row0 0x10 8 0 0 0 true
  | .stwIdCaps0 => row0 0x18 4 0 0 0xc2506600 true
  | .stwIdCaps1 => row0 0x1c 4 0 0 0x1004bf true
  | .stwIdFwBuild => row0 0x20 8 0 0 0 true
  | .stwIdRsv => row0 0x28 8 0 0 0 false
  | .tilStatus => row0 0x400000 4 0 0 0x1600 false
  | .tilAvail => row1 0x400100 48 4 4 0 0 0xffffffff false
  | .tilEnable => row1 0x400200 48 4 4 0xffffffff 0 0xffffffff false
  | .tilRowmap => row1 0x400300 64 4 4 0 0 0 false
  | .tilTileState => row1 0x410000 1536 4 4 0 0 0 false
  | .memDevEn => row0 0x200010 4 0xfffffff 0 0xfffffff false
  | .hrvEnable => row0 0x700060 4 1 0 1 false
  | .hstBarErr => row0 0x100038 8 0 0x1f00000000 0 false

/-- Register names, part 1. -/
def regNames1 : List RegName :=
  [.numWatchBase, .numWatchCtl, .numEvtEn, .numGaugeDecay, .numGaugeCfg, .numSeedCfg, .numSelectCfg, .numTitheCfg,
   .numTitheAbs, .numSilentCfg, .numTvRev, .numStatus, .numTileCntOvf, .numTileCntUdf, .numTileCntNonf,
   .memXpwRowbase, .memXpwColbase, .memXpwGeom, .memXpwPitch, .memXpwCtl, .memXpwStatus, .memXpwBlocks,
   .memXpwFlushes, .memXpwRsv, .stpFenceCtl, .stpFenceStatus, .stpFenceCount0, .stpFenceCount1, .stpVersionCur,
   .memTrainCtl, .memTrainStatus, .memScrubCfg, .memRetireThr, .memStkStatus, .memStkRetraining, .memStkCtl,
   .memResowWmark, .memStkHoldoff, .memStkCorr, .memStkDet]

/-- Register names, part 2. -/
def regNames2 : List RegName :=
  [.memStkLastdet, .memStkRetrains, .memStkInner, .memPcCorr, .memRangeCfg, .memRangeDet, .memRangeCorr,
   .memPkgStatus, .memPkgCorr, .memPkgDet, .memPkgLastdet, .memPkgRetrains, .gthArbCtl, .gthEnable, .gthReservedTotal,
   .gthRemoteCfg, .gthStatus, .gthFetched, .gthWritten, .gthCancelled, .gthCycleBytes, .gthCycles, .gthMaxWait,
   .gthRsv0, .gthRsv1, .tilMtalSel, .tilMtalCfg, .tilMtalCount, .tilMtalRef, .tilMtalDouble, .tilSyncStatus,
   .tilBindStatus, .tilDumpBase, .tilDumpCfg, .tilDumpCount, .fabCollBase, .fabCollCtl, .fabCollStatus, .fabCollState,
   .fabNodeId]

/-- Register names, part 3. -/
def regNames3 : List RegName :=
  [.fabPortEn, .fabStallTo, .fabAbandonTo, .fabCfg, .fabStatus, .fabXferStatus, .fabUntracked, .fabPortCfg,
   .fabPortStatus, .fabPortCtl, .fabPortFlitsTx, .fabPortFlitsRx, .fabPortResent, .fabPortFecCorr, .fabPortFecUncorr,
   .fabPortViol, .fabPortLate, .fabPortRetrains, .fabPortDups, .fabIncarn, .fabRoute, .stpJobCtl, .stpStatus,
   .stpJobKey, .stpLastSealed, .stpPolicy, .stpCtl, .stpVerdict, .stpLastVerdict, .stpTallyRange, .stpRecBase,
   .stpLogBase, .stpLogSize, .stpLogUsed, .stpLogCfg, .stpMlogBase, .stpMlogSize, .stpMirrorCfg, .stpMsendBase,
   .stpMsendCnt]

/-- Register names, part 4. -/
def regNames4 : List RegName :=
  [.stpDigestBase, .stpSealTree, .stpSealKids, .stpSealChild, .stpSealedMac4, .stpSealedMac8, .stpSealedMac16,
   .stpAttempts, .stpLogRegionBase, .stpLogRegionSize, .stpShardSegA0, .stpShardSegA1, .stpShardSegBlocks,
   .stpShardSegRsv, .stpMirrorSegA0, .stpMirrorSegA1, .stpMirrorSegBlocks, .stpMirrorSegRsv, .hrvCtl, .hrvStatus,
   .hrvAreaBase, .hrvAreaSize, .hrvStageBase, .hrvStageSize, .hrvBitmapBase, .hrvProgress, .hrvHolds, .hrvMaxHold,
   .hrvVerifyFails, .hrvMirrorVer, .hrvRecvCfg, .hrvSignCfg, .hrvRecvBytes, .hrvSegCfg, .hrvXsegA0, .hrvXsegA1,
   .hrvXsegBlocks, .hrvXsegRsv, .hstCtl, .hstStatus]

/-- Register names, part 5. -/
def regNames5 : List RegName :=
  [.hstAdmitCfg, .hstAdmitted, .hstRefused, .hstMisses, .hstDoorbellStale, .hstLastRefuse, .hstLedgerSel, .hstLedger,
   .stwStatus, .stwBoot, .stwThrottle, .stwPcap, .stwEnergy, .stwInput, .stwTemp, .stwClkCfg, .stwClkStatus,
   .stwAlertEn, .stwAlertStatus, .stwTestCfg, .stwTestStatus, .stwTestAge, .stwMboxCmd, .stwMboxStatus, .evtBase,
   .evtCtl, .evtHead, .evtTail, .evtStatus, .evtMod, .evtRaised, .evtLost, .stwIdMagic, .stwIdPart, .stwIdStepping,
   .stwIdMaprev, .stwIdSerial, .stwIdCaps0, .stwIdCaps1, .stwIdFwBuild]

/-- Register names, part 6. -/
def regNames6 : List RegName :=
  [.stwIdRsv, .tilStatus, .tilAvail, .tilEnable, .tilRowmap, .tilTileState, .memDevEn, .hrvEnable, .hstBarErr]

/-- Every register name. -/
def allRegs : List RegName := regNames1 ++ regNames2 ++ regNames3 ++ regNames4 ++ regNames5 ++ regNames6

/-- A register: a name and its indices. -/
structure Reg where
  name : RegName
  i    : Nat
  j    : Nat
  deriving DecidableEq, Repr

/-- Whether the indices lie within the row's repetitions. -/
def Reg.wf (r : Reg) : Bool := r.i < r.name.row.n1 && r.j < r.name.row.n2

/-- The BAR0 offset of a register. -/
def Reg.offset (r : Reg) : Nat := r.name.row.base + r.i * r.name.row.s1 + r.j * r.name.row.s2

/-- The quotient of an offset within a row by a stride, a row without repetition having none. -/
def strideDiv (d n s : Nat) : Nat := if n = 1 then 0 else d / s
/-- What remains of an offset within a row. -/
def strideMod (d n s : Nat) : Nat := if n = 1 then d else d % s

/-- The register of a row that an offset lies in. -/
def RegName.at? (n : RegName) (off : Nat) : Option Reg :=
  let r := n.row
  if off < r.base then none
  else
    let d := off - r.base
    let i := strideDiv d r.n1 r.s1
    let d1 := strideMod d r.n1 r.s1
    let j := strideDiv d1 r.n2 r.s2
    let d2 := strideMod d1 r.n2 r.s2
    if i < r.n1 && j < r.n2 && d2 < r.bytes then some ⟨n, i, j⟩ else none

/-- The register that occupies a BAR0 offset, if one does (R433). -/
def regAt (off : Nat) : Option Reg := allRegs.findSome? (fun n => n.at? off)

/-- The stored value that an offset has after reset (R8). -/
def resetAt (off : Nat) : Quad :=
  match regAt off with
  | some r => BitVec.ofNat 64 r.name.row.reset
  | none => 0

/-- The stored value of a register. -/
def State.rgQ (s : State) (r : Reg) : Quad := (sfind s.regs r.offset).getD (BitVec.ofNat 64 r.name.row.reset)

/-- The state with a register's stored value set, in canonical form against the reset value. -/
def State.setRgQ (s : State) (r : Reg) (v : Quad) : State :=
  { s with regs := sput (BitVec.ofNat 64 r.name.row.reset) s.regs r.offset v }

/-- The stored value of a register, as a number. -/
def State.rg (s : State) (n : RegName) (i j : Nat := 0) : Nat := (s.rgQ ⟨n, i, j⟩).toNat

/-- Sets the stored value of a register, to the register's width. -/
def State.setRg (s : State) (n : RegName) (v : Nat) (i j : Nat := 0) : State :=
  s.setRgQ ⟨n, i, j⟩ (BitVec.ofNat 64 (v % 256 ^ n.row.bytes))

/-- Bits [lo + w - 1 : lo] of a register. -/
def State.rgBits (s : State) (n : RegName) (lo w : Nat) (i j : Nat := 0) : Nat := bits (s.rg n i j) lo w

/-- One bit of a register. -/
def State.rgBit (s : State) (n : RegName) (b : Nat) (i j : Nat := 0) : Bool := bit (s.rg n i j) b

/-- Replaces bits [lo + w - 1 : lo] of a number. -/
def putBits (v lo w x : Nat) : Nat := v - bits v lo w * 2 ^ lo + x % 2 ^ w * 2 ^ lo

/-- Sets bits [lo + w - 1 : lo] of a register. -/
def State.setRgBits (s : State) (n : RegName) (lo w x : Nat) (i j : Nat := 0) : State :=
  s.setRg n (putBits (s.rg n i j) lo w x) i j

/-- Sets one bit of a register to 1. -/
def State.flag (s : State) (n : RegName) (b : Nat) (i j : Nat := 0) : State := s.setRgBits n b 1 1 i j

/-- Adds to a counter that wraps at its width (R432). -/
def State.inc (s : State) (n : RegName) (k : Nat) (i j : Nat := 0) : State := s.setRg n (s.rg n i j + k) i j

/-- Adds to a counter that saturates at its width. -/
def State.incSat (s : State) (n : RegName) (k : Nat) (i j : Nat := 0) : State :=
  s.setRg n (min (s.rg n i j + k) (256 ^ n.row.bytes - 1)) i j

/-- Raises a register to a value when it is greater, saturating. -/
def State.raise (s : State) (n : RegName) (v : Nat) (i j : Nat := 0) : State :=
  s.setRg n (max (s.rg n i j) (min v (256 ^ n.row.bytes - 1))) i j

/-- The value that a plain write leaves: RW bits stored, W1C bits cleared by ones, every other bit kept (R7, R436). -/
def RegRow.written (r : RegRow) (old new : Nat) : Nat :=
  let o := BitVec.ofNat 64 old
  let n := BitVec.ofNat 64 new
  let rw := BitVec.ofNat 64 r.rw
  let wc := BitVec.ofNat 64 r.w1c
  ((n &&& rw) ||| (o &&& ~~~rw &&& ~~~(n &&& wc))).toNat

/-- A plain register write (R7). -/
def State.writeRg (s : State) (r : Reg) (v : Nat) : State :=
  s.setRg r.name (r.name.row.written (s.rg r.name r.i r.j) v) r.i r.j

/-- The registers that a module reset keeps: the Steward's, and the counters since power-on (R369). -/
def keptRegs (m : SMap Quad) : SMap Quad :=
  m.filter (fun e => match regAt e.1 with
    | some r => r.name.row.keep
    | none => false)

end Sys2Proof.Machine
end

