-- ==== Sys2Proof/Machine/Ops.lean ====
section
/-! DEFINITION. The named operations that the commands share: what leaves the module towards the host (R344 to R349, R362,
R424 to R429, R448), and access to tiles, passes, devices, ports, groups and attempts. -/

namespace Sys2Proof.Machine

set_option Elab.async false

/-! ## Time -/

/-- The always-on count (R6, R375). -/
def State.aon (s : State) : Nat := s.cyc / Config.cyclesPerAon

/-- Undivided cycles in a number of microseconds at 1.75 GHz (R6). -/
def usCycles (us : Nat) : Nat := us * 1750

/-- Undivided cycles in a number of milliseconds. -/
def msCycles (ms : Nat) : Nat := usCycles (ms * 1000)

/-! ## MSI-X (R448) -/

/-- Whether the module may make requests on the host link (R345). -/
def State.hostUp (s : State) : Bool := s.host.linkUp && !s.host.d3hot

/-- The output trace with one more entry. -/
def State.emit (s : State) (e : Emit) : State := { s with emitted := e :: s.emitted }

/-- Sets an MSI-X table entry. -/
def State.setMsix (s : State) (v : Nat) (e : MsixEntry) : State :=
  { s with host := { s.host with msix := sput .init s.host.msix v e } }

/-- An MSI-X table entry. -/
def State.msixOf (s : State) (v : Nat) : MsixEntry := sget .init s.host.msix v

/-- Sends a message: a masked entry keeps it as its pending bit (R448), and without the link it waits (R345). -/
def sendMsix (v : Nat) (s : State) : State :=
  let e := s.msixOf v
  if e.masked then s.setMsix v { e with pending := true }
  else if s.hostUp then s.emit (.msix v e.addr e.data)
  else { s with host := { s.host with msixHeld := s.host.msixHeld ++ [v] } }

/-! ## Events (R421 to R429) -/

/-- Event code numbers (R422). -/
def EventCode.num : EventCode → Nat
  | .layerSilent => 0x0101 | .gradOverflow => 0x0102 | .nonfiniteLoss => 0x0103 | .titheDiverge => 0x0104
  | .memCorrected => 0x0201 | .memDetected => 0x0202 | .pcRetrain => 0x0203 | .pcRetired => 0x0204
  | .stackWarm => 0x0205 | .stackHot => 0x0206 | .stackCritical => 0x0207
  | .bufferCycle => 0x0301 | .fetchCancelled => 0x0302
  | .tallyDouble => 0x0401 | .tallyOverrun => 0x0402 | .waitTimeout => 0x0403
  | .linkRetrain => 0x0501 | .transferStalled => 0x0502 | .transferAbandoned => 0x0503 | .protocolViolation => 0x0504
  | .holdoffReceived => 0x0505 | .protocolLate => 0x0506
  | .sealRefused => 0x0601 | .replayStart => 0x0602 | .logHigh => 0x0603 | .twinMismatch => 0x0604
  | .unprotected => 0x0605
  | .standinComplete => 0x0701 | .harvestVerifyFail => 0x0702
  | .deadlineMiss => 0x0801
  | .tileRetired => 0x0901 | .idleTestFail => 0x0902
  | .throttle => 0x0A01 | .fwAuthFail => 0x0A02 | .moduleFault => 0x0A03

/-- Severities (R421, R422): 0 note, 1 warning, 2 error, 3 fatal. -/
def EventCode.severity : EventCode → Nat
  | .layerSilent => 1 | .gradOverflow => 1 | .nonfiniteLoss => 2 | .titheDiverge => 1
  | .memCorrected => 0 | .memDetected => 2 | .pcRetrain => 0 | .pcRetired => 1
  | .stackWarm => 0 | .stackHot => 1 | .stackCritical => 3
  | .bufferCycle => 1 | .fetchCancelled => 0
  | .tallyDouble => 1 | .tallyOverrun => 2 | .waitTimeout => 2
  | .linkRetrain => 1 | .transferStalled => 1 | .transferAbandoned => 2 | .protocolViolation => 1
  | .holdoffReceived => 0 | .protocolLate => 0
  | .sealRefused => 2 | .replayStart => 0 | .logHigh => 1 | .twinMismatch => 2 | .unprotected => 1
  | .standinComplete => 0 | .harvestVerifyFail => 2
  | .deadlineMiss => 2
  | .tileRetired => 1 | .idleTestFail => 2
  | .throttle => 1 | .fwAuthFail => 1 | .moduleFault => 3

/-- Detail bytes from (offset, size, value) fields, bytes not named zero (R397). -/
def detail (fs : List (Nat × Nat × Nat)) : BitVec 128 :=
  fs.foldl (fun d f => d ||| BitVec.ofNat 128 (f.2.2 % 256 ^ f.2.1 * 256 ^ f.1)) 0

/-- Whether the event ring is enabled (R429). -/
def State.evtOn (s : State) : Bool := s.rgBit .evtCtl 5

/-- The number of positions of the event ring (R349, R425). -/
def State.evtSpan (s : State) : Nat := 2 ^ (s.rgBits .evtCtl 0 5 + 1)

/-- Records that wait for the host to read them. -/
def State.evtHeldByHost (s : State) : Nat := (s.evt.tail + s.evtSpan - s.evt.head) % s.evtSpan

/-- Whether a record can be written now (R345, R425, R426). -/
def State.evtCanWrite (s : State) : Bool := s.evtOn && s.hostUp && s.evtHeldByHost < s.evtSpan / 2

/-- Sends the event ring's message and starts its moderation afresh (R427). -/
def evtSignal (s : State) : State :=
  sendMsix (s.rgBits .evtCtl 6 11) { s with evt := { s.evt with unsignalled := 0, oldest := none } }

/-- The 32 bytes of a record at a phase (R424). -/
def EventRec.bytes (r : EventRec) (phase : Nat) : List Byte :=
  leBytes 2 r.code.num ++ leBytes 1 r.code.severity ++ leBytes 1 (r.code.num / 256) ++ leBytes 2 r.index ++ leBytes 2 r.lost ++
  leBytes 6 r.aon ++ leBytes 1 (phase % 2) ++ leBytes 1 0 ++ leBytes 16 r.detail.toNat

/-- The bus address of a position of the event ring (R425). -/
def State.recordAddr (s : State) (pos : Nat) : Nat := s.rg .evtBase + pos % (s.evtSpan / 2) * 32

/-- Writes one record at the tail, and signals by severity or by count (R425, R427). -/
def writeRecord (r : EventRec) (s : State) : State :=
  let p := s.evt.tail
  let s1 := { s.emit (.record p r (s.recordAddr p) (r.bytes (p / (s.evtSpan / 2)))) with
    evt := { s.evt with tail := (s.evt.tail + 1) % s.evtSpan, unsignalled := s.evt.unsignalled + 1,
                        oldest := some (s.evt.oldest.getD s.cyc) } }
  if s.rgBits .evtCtl 17 2 ≤ r.code.severity || max 1 (s.rgBits .evtMod 0 8) ≤ s1.evt.unsignalled then evtSignal s1 else s1

/-- Records leave the hold buffer in order while space lasts (R426). fuel bounds the records. -/
def drainHold : Nat → State → State
  | 0, s => s
  | n + 1, s =>
    match s.evt.hold with
    | [] => s
    | r :: rs =>
      if s.evtCanWrite then drainHold n (writeRecord r { s with evt := { s.evt with hold := rs } }) else s

/-- A record joins those raised in the same always-on count, in ascending code order (R425).
DEDUCED, log entry 14. -/
def insertRec (r : EventRec) : List EventRec → List EventRec
  | [] => [r]
  | x :: xs => if r.code.num < x.code.num then r :: x :: xs else x :: insertRec r xs

/-- The size of the hold buffer (R426). -/
def holdSize : Nat := 64

/-- A record raised is written at once, held, or lost and counted (R424, R426). -/
def keepRecord (r : EventRec) (s : State) : State :=
  if s.evt.hold.length < holdSize then
    drainHold (holdSize + 1)
      { s with evt := { s.evt with hold := s.evt.hold ++ [{ r with lost := min s.evt.gap 0xFFFF }], gap := 0 } }
  else
    ({ s with evt := { s.evt with gap := s.evt.gap + 1 } }.inc .evtLost 1).flag .evtStatus 1

/-- The records of an always-on count that is over are written in their order (R425). -/
def flushEvents (s : State) : State :=
  if s.evt.fresh.any (fun r => r.aon ≠ s.aon % 2 ^ 48) then
    each s.evt.fresh keepRecord { s with evt := { s.evt with fresh := [] } }
  else s

/-- Raises an event: its record joins those of the always-on count, which are written when the count is over (R424, R425). -/
def raiseEvent (code : EventCode) (index : Nat) (d : BitVec 128) (s : State) : State :=
  let s := flushEvents (s.inc .evtRaised 1)
  let r : EventRec := { code := code, index := index, lost := 0, aon := s.aon % 2 ^ 48, detail := d }
  { s with evt := { s.evt with fresh := insertRec r s.evt.fresh } }

/-! ## Rings and completions (R346 to R349, R362) -/

/-- A ring's context. -/
def State.ring (s : State) (r : Nat) : RingCtx := sget .init s.host.rings r

/-- Sets a ring's context. -/
def State.setRing (s : State) (r : Nat) (c : RingCtx) : State :=
  { s with host := { s.host with rings := sput .init s.host.rings r c } }

/-- The number of positions of a ring (R349). -/
def RingCtx.span (c : RingCtx) : Nat := 2 ^ (c.k + 1)

/-- (a - b) modulo the ring's positions (R349). -/
def RingCtx.dist (c : RingCtx) (a b : Nat) : Nat := (a + c.span - b % c.span) % c.span

/-- Status codes (R419). -/
def Status.num : Status → Nat
  | .ok => 0x00 | .notAdmitted => 0x01 | .aborted => 0x02 | .cancelled => 0x03 | .malformed => 0x04 | .limit => 0x05
  | .deadlineMiss => 0x06 | .memDetected => 0x07 | .sealRefused => 0x08 | .restoreMixed => 0x09 | .abandoned => 0x0A
  | .disabled => 0x0B | .stepExhausted => 0x0C | .notEnabled => 0x0D | .verifyFail => 0x0E

/-- Slots a completion takes: its header and its payload (R362). -/
def Completion.slots (c : Completion) : Nat := 1 + (c.payload.length + 63) / 64

/-- The 64-byte slot of a completion at a phase (R362). -/
def Completion.header (e : Completion) (phase : Nat) : List Byte :=
  leBytes 1 e.status.num ++ leBytes 1 (e.slots - 1) ++ leBytes 1 e.opcode ++
  leBytes 1 ((if e.extended then 1 else 0) + phase % 2 * 128) ++ leBytes 4 e.tag.toNat ++ leBytes 2 e.ring ++ leBytes 3 e.slot ++
  leBytes 1 e.reason ++ leBytes 2 0 ++ leBytes 8 e.aon ++ leBytes 4 e.overrun ++ leBytes 4 e.promise ++ leBytes 8 e.excluded ++
  (e.result ++ List.replicate 24 0).take 24

/-- The bus address of a position of a ring (R346, R349). -/
def RingCtx.slotAddr (c : RingCtx) (pos : Nat) : Nat := c.base.toNat + pos % 2 ^ c.k * 64

/-- The bytes of a payload's slot, zero past its end. -/
def Completion.slotData (e : Completion) (j : Nat) : List Byte :=
  ((e.payload.drop (64 * j) ++ List.replicate 64 0).take 64)

/-- What a completion writes at a position of its ring, in order: the payload's slots, then the header (R362). -/
def RingCtx.completionWrites (c : RingCtx) (pos : Nat) (e : Completion) : List (Nat × List Byte) :=
  (List.range (e.slots - 1)).map (fun j => (c.slotAddr (pos + 1 + j), e.slotData j)) ++
  [(c.slotAddr pos, e.header (pos / 2 ^ c.k))]

/-- Sends a completion ring's message and starts its moderation afresh (R346). -/
def cqSignal (r : Nat) (s : State) : State :=
  let c := s.ring r
  sendMsix c.vector (s.setRing r { c with unsignalled := 0, oldest := none })

/-- Writes a completion at the tail of its ring, payload first and header last, and signals under mod_count (R346, R362). -/
def writeCompletion (r : Nat) (e : Completion) (s : State) : State :=
  let c := s.ring r
  let c1 := { c with tail := (c.tail + e.slots) % c.span, unsignalled := c.unsignalled + 1,
                     oldest := some (c.oldest.getD s.cyc) }
  let s1 := (s.emit (.completion r c.tail e (c.completionWrites c.tail e))).setRing r c1
  if max 1 c.modCount ≤ c1.unsignalled then cqSignal r s1 else s1

/-- Completions leave the wait list of a ring while the host has freed space (R362). -/
def drainCq : Nat → Nat → State → State
  | 0, _, s => s
  | n + 1, r, s =>
    let c := s.ring r
    match c.waiting with
    | [] => s
    | e :: es =>
      if s.hostUp && c.enable && c.dist c.tail c.head + e.slots ≤ 2 ^ c.k then
        drainCq n r (writeCompletion r e (s.setRing r { c with waiting := es }))
      else s

/-- Sends a completion to a completion ring, waiting there for space (R362). -/
def pushCompletion (r : Nat) (e : Completion) (s : State) : State :=
  let c := s.ring r
  drainCq (c.waiting.length + 1) r (s.setRing r { c with waiting := c.waiting ++ [e] })

/-- Completes a descriptor: its status under R361, its fields under R362, and its DEADLINE_MISS event.
DEDUCED, log entry 16. -/
def finish (i : Inflight) (st : Status) (reason : Nat) (result payload : List Byte) (s : State) : State :=
  let ctx := s.ring i.ring
  let spent := s.cyc - i.start - i.excluded
  let late := if ctx.deadline && st ≠ .notAdmitted then spent - i.promise else 0
  let st' := if late ≠ 0 && st = .ok then Status.deadlineMiss else st
  let e : Completion :=
    { status := st', opcode := i.opcode, tag := i.tag, ring := i.ring, slot := i.slot, reason := reason,
      extended := i.extension ≠ 0, aon := s.aon % 2 ^ 48, overrun := min late 0xFFFFFFFF,
      promise := if st = .notAdmitted then 0 else min i.promise 0xFFFFFFFF, excluded := i.excluded,
      result := result, payload := payload }
  let s1 := pushCompletion ctx.companion e s
  if late = 0 then s1
  else
    raiseEvent .deadlineMiss i.ring
      (detail [(0, 2, i.ring), (2, 4, i.tag.toNat), (6, 4, min late 0xFFFFFFFF), (10, 1, i.opcode),
        (11, 1, st'.num)])
      (s1.inc .hstMisses 1)

/-- Refuses a descriptor with NOT_ADMITTED and a reason (R355), recorded in HST_LAST_REFUSE and HST_REFUSED (R367). -/
def refuse (i : Inflight) (reason : Nat) (s : State) : State :=
  finish i .notAdmitted reason [] []
    ((s.inc .hstRefused 1).setRg .hstLastRefuse (i.ring + reason * 2 ^ 16))

/-! ## Accessors -/

/-- A tile. -/
def State.tile (s : State) (t : Nat) : Tile := sget .init s.tiles t
/-- Sets a tile. -/
def State.setTile (s : State) (t : Nat) (v : Tile) : State := { s with tiles := sput .init s.tiles t v }
/-- Changes a tile. -/
def State.updTile (s : State) (t : Nat) (f : Tile → Tile) : State := s.setTile t (f (s.tile t))

/-- An admitted pass that has not completed. -/
def State.pass? (s : State) (q : Nat) : Option Pass := s.passes.find? (fun p => p.seq == q)
/-- Changes a pass. -/
def State.updPass (s : State) (q : Nat) (f : Pass → Pass) : State :=
  { s with passes := s.passes.map (fun p => if p.seq = q then f p else p) }

/-- An accepted descriptor that has not completed. -/
def State.inflight? (s : State) (d : Nat) : Option Inflight := s.host.inflight.find? (fun i => i.id == d)
/-- Changes an accepted descriptor. -/
def State.updInflight (s : State) (d : Nat) (f : Inflight → Inflight) : State :=
  { s with host := { s.host with inflight := s.host.inflight.map (fun i => if i.id = d then f i else i) } }
/-- Removes an accepted descriptor. -/
def State.dropInflight (s : State) (d : Nat) : State :=
  { s with host := { s.host with inflight := s.host.inflight.filter (fun i => i.id != d) } }

/-- The DISABLE in progress of an object: none, or whether it aborts (R366). -/
def State.disabling (s : State) (object index : Nat) : Option Bool :=
  s.host.inflight.findSome? (fun i => match i.work with
    | .disable op => if op.object = object && op.index = index then some op.abort else none
    | _ => none)

/-- Stack or package p (R356). -/
def State.dev (s : State) (p : Nat) : Device := sget .init s.memory.dev p
/-- Sets stack or package p. -/
def State.setDev (s : State) (p : Nat) (d : Device) : State :=
  { s with memory := { s.memory with dev := sput .init s.memory.dev p d } }
/-- Changes stack or package p. -/
def State.updDev (s : State) (p : Nat) (f : Device → Device) : State := s.setDev p (f (s.dev p))

/-- A port. -/
def State.port (s : State) (p : Nat) : Port := sget .init s.fab.ports p
/-- Sets a port. -/
def State.setPort (s : State) (p : Nat) (v : Port) : State :=
  { s with fab := { s.fab with ports := sput .init s.fab.ports p v } }
/-- Changes a port. -/
def State.updPort (s : State) (p : Nat) (f : Port → Port) : State := s.setPort p (f (s.port p))

/-- A collective group. -/
def State.group (s : State) (g : Nat) : Group := sget .init s.coll.groups g
/-- Sets a collective group. -/
def State.setGroup (s : State) (g : Nat) (v : Group) : State :=
  { s with coll := { s.coll with groups := sput .init s.coll.groups g v } }

/-- The open attempt of a step. -/
def State.attempt? (s : State) (step : Nat) : Option Attempt := s.steps.attempts.find? (fun a => a.step == step)
/-- Changes the open attempt of a step. -/
def State.updAttempt (s : State) (step : Nat) (f : Attempt → Attempt) : State :=
  { s with steps := { s.steps with attempts := s.steps.attempts.map (fun a => if a.step = step then f a else a) } }

/-- A module tally. -/
def State.mtally (s : State) (k : Nat) : Tally := sget .init s.sync.mtal k
/-- Sets a module tally. -/
def State.setMtally (s : State) (k : Nat) (v : Tally) : State :=
  { s with sync := { s.sync with mtal := sput .init s.sync.mtal k v } }

/-- Whether the main domain works: good, and no module fault declared (R365, R371, R383). -/
def State.alive (s : State) : Bool := s.stw.mainOn && s.stw.fault.isNone

/-- The module's own node id (R274). -/
def State.nodeId (s : State) : Nat := s.rgBits .fabNodeId 0 16
/-- The module's own incarnation (R274). -/
def State.ownInc (s : State) : Nat := s.rgBits .fabNodeId 16 8

/-! ## BAR0 writes (R435, R436, R446) -/

/-- Records an ignored access in HST_BAR_ERR: its flag, and its offset when no flag was set (R446). -/
def barErr (flag offset : Nat) (s : State) : State :=
  let s := if s.rgBits .hstBarErr 32 5 = 0 then s.setRgBits .hstBarErr 0 26 offset else s
  s.flag .hstBarErr flag

/-- The state of a quadrant PLL (R398). -/
def State.pllOf (s : State) (q : Nat) : PllSt := (s.stw.pll[q]?).getD .off

/-- A held low half is discarded when another BAR0 write arrives (R435). -/
def dropSplit (s : State) : State :=
  match s.host.splitHeld with
  | some (off, _) => barErr 34 off { s with host := { s.host with splitHeld := none } }
  | none => s

/-- Whether the host's writes reach the module: its main domain runs and the link is up (R371, R372). -/
def State.hostWrites (s : State) : Bool := s.stw.good && s.stw.mainOn && s.host.linkUp

/-- A write to a STW_ register or to STW_MBOX_DATA, from the host or over I3C (R384, R398, R437). -/
def stwWrite (act : State → State) (s : State) : State := if s.stw.powered then act (dropSplit s) else s

/-- A write that the fault state ignores and records (R436). -/
def faultGate (offset : Nat) (act : State → State) (s : State) : State :=
  if s.stw.fault.isSome then barErr 35 offset s else act s

/-- A whole write of the host to any other register, at an offset (R435, R436). -/
def barWrite (offset : Nat) (act : State → State) (s : State) : State :=
  if s.hostWrites then faultGate offset act (dropSplit s) else s

/-- Writes 1 to the enable bits of objects of a kind: one whose DISABLE has not completed keeps its bit, and the write is
recorded. -/
def enableEach (object offset : Nat) (l : List Nat) (act : Nat → State → State) (s : State) : State :=
  each l (fun i s => if (s.disabling object i).isSome then barErr 36 offset s else act i s) s

/-! ## The grid (R10 to R12) -/

/-- The quadrant of a tile (R11). -/
def quadrantOf (t : Nat) : Nat := (if t % 48 < 24 then 0 else 1) + (if t / 48 < 16 then 0 else 2)
/-- The local column of a tile (R11). -/
def localCol (t : Nat) : Nat := t % 48 % 24
/-- The local die row of a tile (R11). -/
def localRow (t : Nat) : Nat := t / 48 % 16
/-- The key of a tile's die row: quadrant × 16 + row (R441). -/
def rowKey (t : Nat) : Nat := quadrantOf t * 16 + localRow t

/-- Whether a tile is absent (R14). -/
def State.absent (s : State) (t : Nat) : Bool := s.stw.nv.absent.contains t
/-- Whether a tile's enable bit is set (R444). -/
def State.tileOn (s : State) (t : Nat) : Bool := s.rgBit .tilEnable (t % 32) (t / 32)

/-- The physical column a tile runs on (R12). -/
def State.physCol (s : State) (t : Nat) : Nat :=
  match sfind s.stw.nv.retired (rowKey t) with
  | some p => if localCol t < p then localCol t else localCol t + 1
  | none => localCol t

/-- A job boundary (R13). -/
def State.boundary (s : State) : Bool := !s.steps.job && s.tiles.all (fun e => e.2.seqs.isEmpty)

end Sys2Proof.Machine
end

