-- ==== Sys2Proof/Machine/Mpa.lean ====
section
/-! DEFINITION. The MPA space: the address map, the range tables, protection classes and their outer codes, and the bytes as the
units of the module read and write them (R173 to R178, R181, R182, R187, R193, R195). -/

namespace Sys2Proof.Machine

set_option Elab.async false

/-! ## Address map (R175 to R178, R195) -/

/-- Granules below which the re-sown map reaches (R195). -/
def resowGranules : Nat := 97517568

/-- Bytes of the populated part of a stack (R175, R195). -/
def State.populated (s : State) (k : Nat) : Nat :=
  match (s.dev k).resow with
  | .running => 0x5D0000000
  | .complete => 0x5D0000000
  | _ => 0x600000000

/-- The memory (p of R356) and the offset in its window of an address; none in the holes between windows. -/
def mpaWindow (a : Nat) : Option (Nat × Nat) :=
  if a < 0x6000000000 then some (a / 0x800000000, a % 0x800000000)
  else if 0x8000000000 ≤ a && a < 0x18000000000 then some (12 + (a - 0x8000000000) / 0x1000000000, a % 0x1000000000)
  else none

/-- Whether a memory answers: trained, not failed, enabled (R176, R366, R445). -/
def Device.serves (d : Device) : Bool := d.enabled && (d.st = .ready || d.st = .selfRefresh)

/-- A range table entry: base offset, size, class and enable (R184, R202). -/
structure Range where
  base : Nat
  size : Nat
  cls  : Nat
  on   : Bool
  busy : Bool
  deriving DecidableEq, Repr

/-- Entry e of the range table of stack k. -/
def State.range (s : State) (k e : Nat) : Range :=
  { base := s.rgBits .memRangeCfg 0 9 k e * 0x4000000, size := s.rgBits .memRangeCfg 16 9 k e * 0x4000000,
    cls := s.rgBits .memRangeCfg 32 2 k e, on := s.rgBit .memRangeCfg 40 k e, busy := s.rgBit .memRangeCfg 41 k e }

/-- Data bytes of a range (R181): D is 15/16 of S for class W, 31/32 for class A, S for class N. -/
def Range.data (r : Range) : Nat :=
  if r.cls = 2 then r.size / 16 * 15 else if r.cls = 1 then r.size / 32 * 31 else r.size

/-- The enabled entry that covers an offset of a stack. -/
def State.rangeAt (s : State) (k off : Nat) : Option Nat :=
  (List.range 64).find? (fun e => let r := s.range k e; r.on && r.base ≤ off && off < r.base + r.size)

/-- The protection class of an address: 0 N, 1 A, 2 W (R173, R176). -/
def State.mpaClass (s : State) (a : Nat) : Nat :=
  match mpaWindow a with
  | some (p, off) => if p ≥ 12 then 2 else
      match s.rangeAt p off with
      | some e => (s.range p e).cls
      | none => 0
  | none => 0

/-- Whether an address lies in a hole or a check area (R175, R176, R181, R366). -/
def State.isHole (s : State) (a : Nat) : Bool :=
  match mpaWindow a with
  | none => true
  | some (p, off) =>
    !(s.dev p).serves ||
    (if p ≥ 12 then off ≥ 0xF00000000
     else off ≥ s.populated p ||
       (match s.rangeAt p off with
        | some e => let r := s.range p e; off ≥ r.base + r.data
        | none => false))

/-- Whether every byte of a range is served memory (R176). Holes and check areas begin and end at multiples of 1 MiB, so one
address of each aligned 1 MiB that the range touches says it. -/
def State.mpaOk (s : State) (a n : Nat) : Bool :=
  n = 0 || (upFrom (a / 0x100000) ((a % 0x100000 + n + 0xFFFFF) / 0x100000)).all (fun g => !s.isHole (g * 0x100000))

/-- Whether every byte of a range has class W (R173); classes, too, change only at multiples of 1 MiB. -/
def State.allW (s : State) (a n : Nat) : Bool :=
  (upFrom (a / 0x100000) ((a % 0x100000 + n + 0xFFFFF) / 0x100000)).all (fun g => s.mpaClass (g * 0x100000) = 2)

/-- The pseudo-channel of a granule by the map of R177. -/
def pcOld (g : Nat) : Nat :=
  (g ^^^ (g >>> 5) ^^^ (g >>> 10) ^^^ (g >>> 15) ^^^ (g >>> 20) ^^^ (g >>> 25)) % 32

/-- The pseudo-channel of a granule by the map of R195. -/
def pcNew (retired g : Nat) : Nat :=
  let surv := (List.range 32).filter (· ≠ retired)
  (surv[(g % 31 + g / 31 % 31) % 31]?).getD 0

/-- Where an offset of a stack lies before a retirement: the pseudo-channel, and the byte address within it (R177). -/
def placeOld (off : Nat) : Nat × Nat := (pcOld (off >>> 8), (off >>> 8 >>> 5 <<< 8) ||| off % 256)

/-- Where an offset of a stack lies by the 31-way map (R195). -/
def placeNew (retired off : Nat) : Nat × Nat := (pcNew retired (off >>> 8), (off >>> 8) / 31 <<< 8 ||| off % 256)

/-- Where an offset of a package lies: the channel, and the address within it (R178). -/
def placeBulk (off : Nat) : Nat × Nat :=
  let g := off >>> 8
  ((g ^^^ (g >>> 2) ^^^ (g >>> 4) ^^^ (g >>> 6)) % 4, (g >>> 2 <<< 8) ||| off % 256)

/-- Where an offset of a memory lies on its devices: the pseudo-channel or channel, and the byte address within it (R177, R178,
R195, R197). -/
def State.place (s : State) (p off : Nat) : Nat × Nat :=
  if p ≥ 12 then placeBulk off
  else
    let d := s.dev p
    match d.retired with
    | some r => if (d.resow = .running || d.resow = .complete) && d.wmark ≤ off >>> 8 then placeNew r off else placeOld off
    | none => placeOld off

/-- The pseudo-channel or channel of an offset. -/
def State.channel (s : State) (p off : Nat) : Nat := (s.place p off).1

/-- Whether a line still lies on a pseudo-channel that failed its retraining (R193). -/
def State.onFailedPc (s : State) (a : Nat) : Bool :=
  match mpaWindow a with
  | some (p, off) => (s.dev p).retiredFailed && p < 12 && (s.dev p).retired = some (s.channel p off)
  | none => false

/-- Whether a line reads as detected (R187, R193). -/
def State.lineDetected (s : State) (l : Nat) : Bool := s.mpaClass l ≠ 0 && (s.memory.marks.contains l || s.onFailedPc l)

/-! ## Bytes -/

/-- One byte as its controller delivers it: a class N byte of a failed pseudo-channel reads zero (R193). -/
def State.byte (s : State) (a : Nat) : Byte :=
  if s.onFailedPc a && s.mpaClass a = 0 then 0 else byteAt s.memory.mem a

/-- n bytes as their controllers deliver them. -/
def State.memBytes (s : State) (a n : Nat) : List Byte := (upFrom a n).map s.byte

/-- A number in n bytes at an MPA. A unit's look into a table that it works by (watch table, group table, send list, digest table)
reports no detected line (DESIGN CHOICE, log entry 112). -/
def State.memNum (s : State) (a n : Nat) : Nat := leNat (s.memBytes a n)

/-- A memory with bytes written from an address, those at which lost holds discarded. -/
def putKept (lost : Nat → Bool) (m : List Host.Cell) (a : Nat) : List Byte → List Host.Cell
  | [] => m
  | b :: bs => putKept lost (if lost a then m else sput unwritten m a b) (a + 1) bs

/-- Whether a range holds the whole of a line. -/
def coversLine (a n l : Nat) : Bool := a ≤ l && l + 64 ≤ a + n

/-- The memory with bytes written at an MPA: bytes on a failed pseudo-channel are discarded (R193), and a line written whole has
a valid check code again (R172, R187). -/
def State.memPut (s : State) (a : Nat) (b : List Byte) : State :=
  { s with memory := { s.memory with
      mem := if s.memory.dev.any (fun e => e.2.retiredFailed) then putKept s.onFailedPc s.memory.mem a b
             else putBytes s.memory.mem a b,
      marks := s.memory.marks.filter (fun l => !coversLine a b.length l),
      errs := s.memory.errs.filter (fun e => !coversLine a b.length e.1) } }

/-- The memory with a number written in n bytes at an MPA. -/
def State.memPutNum (s : State) (a n v : Nat) : State := s.memPut a (leBytes n v)

/-- Adds to a number in n bytes at an MPA, wrapping. -/
def State.memAdd (s : State) (a n k : Nat) : State := if k = 0 then s else s.memPutNum a n (s.memNum a n + k)

/-- Adds to a number in n bytes at an MPA, saturating. -/
def State.memAddSat (s : State) (a n k : Nat) : State :=
  if k = 0 then s else s.memPutNum a n (min (s.memNum a n + k) (256 ^ n - 1))

/-! ## Outer codes (R181, R182) -/

/-- Device errors of a line with one more: equal symbols add without carry, and a symbol without an error is not listed. -/
def addSymbol (es : List (Nat × BitVec 16)) (e : Nat × BitVec 16) : List (Nat × BitVec 16) :=
  sput 0 es e.1 (sget 0 es e.1 ^^^ e.2)

/-- Device errors of a line with more. -/
def addSymbols (es ds : List (Nat × BitVec 16)) : List (Nat × BitVec 16) := ds.foldl addSymbol es

/-- The 64 bytes of the data symbols of an error pattern; symbol k is bytes 2k and 2k + 1. -/
def symbolBytes (es : List (Nat × BitVec 16)) : List Byte := (List.range 32).flatMap (fun k => leBytes 2 (sget 0 es k).toNat)

/-- Bytes with those of an error pattern added. -/
def xorBytes (b e : List Byte) : List Byte := (b.zip e).map (fun x => x.1 ^^^ x.2)

/-- One bit of a CRC-16 with polynomial 0x8BB7, most significant bit first (R181, R253, PRESUMED, log entry 21). -/
def crc16Bit (c : BitVec 16) : BitVec 16 := if c.msb then (c <<< 1) ^^^ 0x8BB7#16 else c <<< 1

/-- The CRC-16 of bytes, initial value 0 (R253). That a line of class A is checked by the same CRC, of which R181 gives the polynomial
alone, is a DESIGN CHOICE, log entry 95. -/
def crc16 (b : List Byte) : BitVec 16 :=
  b.foldl (fun c (x : Byte) => crc16Bit^[8] (c ^^^ ((BitVec.setWidth 16 x) <<< (8 : Nat)))) (0 : BitVec 16)

/-- What the outer code makes of a line's device errors: no error, a correction, a correction of the wrong symbol, an error that
the code does not see, or a detected line. The symbols are those in which the bytes delivered differ from those written. -/
inductive Decoded where
  | clean
  | corrected
  | miscorrected (wrong : List (Nat × BitVec 16))
  | unseen (wrong : List (Nat × BitVec 16))
  | detected (wrong : List (Nat × BitVec 16))
  deriving DecidableEq, Repr

/-- The decoder of a class (R182): class W corrects every error within one of its 34 symbols, and reports any other as detected
unless its syndrome points to a single symbol; class A finds what its CRC-16 finds; class N finds nothing.
Which patterns point to a single symbol follows from the code's polynomials, which the manual does not give: free value, log
entry 12. -/
def decodeErrors (cls : Nat) (es : List (Nat × BitVec 16)) : Decoded :=
  if es = [] then .clean
  else if cls = 2 then
    (match es with
     | [_] => .corrected
     | _ =>
       match Config.rsPointsTo es with
       | some e => .miscorrected (addSymbols es [e])
       | none => .detected es)
  else if cls = 1 && crc16 (symbolBytes es) ≠ sget 0 es 32 then .detected es
  else .unseen es

/-- The check bytes of a data line (R181). Those of class W follow from polynomials that the manual does not give: a free value,
zero for a line of zeros (DEDUCED, log entry 95). -/
def checkBytes (cls : Nat) (line : List Byte) : List Byte :=
  if line.all (· = 0) then List.replicate (if cls = 2 then 4 else 2) 0
  else if cls = 2 then leBytes 4 (Config.rsCheck line).toNat else leBytes 2 (crc16 line).toNat

/-- Data lines of a class whose check bytes share one check line (R181). -/
def linesPerCheck (cls : Nat) : Nat := if cls = 2 then 16 else 32

/-- Where the check bytes of data line i lie, from the start of the check lines (R181). -/
def checkOffset (cls i : Nat) : Nat := i / linesPerCheck cls * 64 + i % linesPerCheck cls * (64 / linesPerCheck cls)

end Sys2Proof.Machine
end

