-- ==== Sys2Proof/Machine/Furrow.lean ====
section
/-! DEFINITION. Furrow images: the instruction words of R118 to R123, the tables of R115, R122, R125 and R126, and the checks
that LOAD_FURROW makes (R113 to R117, R124, R127, R450, R451). -/

namespace Sys2Proof.Machine

set_option Elab.async false

/-! ## Instruction words -/

/-- A wide reference at a bit position (R114). -/
def wref (w lo : Nat) : Ref := { buf := bits w (lo + 12) 5, off := bits w lo 12 }
/-- A short reference at a bit position (R114). -/
def sref (w lo : Nat) : Ref := { buf := bits w (lo + 7) 5, off := bits w lo 7 }

/-- A shape field (R120). -/
def shapeOf (v : Nat) : Shape :=
  match v % 4 with
  | 0 => .tile
  | 1 => .row
  | 2 => .col
  | _ => .one

/-- A shaped operand: a short reference and a shape field. -/
def vop (w lo sh : Nat) : VOp := { ref := sref w lo, shape := shapeOf (bits w sh 2) }

/-- Keeps a decoded instruction when a condition on its word holds. -/
def keepIf {α : Type} (b : Bool) (i : α) : Option α := if b then some i else none

/-- The two-source vector layout (R120). -/
def v2f (w : Nat) : V2F := { d := vop w 44 18, a := vop w 32 16, b := vop w 20 14 }
/-- The three-source vector layout (R120). -/
def v3f (w : Nat) : V3F := { d := vop w 44 6, a := vop w 32 4, b := vop w 20 2, c := vop w 8 0 }

/-- A predicate field (R120). -/
def predOf : Nat → Option Pred
  | 0 => some .eq | 1 => some .ne | 2 => some .lt | 3 => some .le | 4 => some .gt | 5 => some .ge | _ => none

/-- Whether a format code is one of R115 that an instruction may name. -/
def fmtValid (f : Nat) : Bool := f ≤ 8

/-- The array queue (R118). -/
def decodeArray (t w : Nat) : Option Instr :=
  match bits w 56 8 with
  | 0x00 => keepIf (bits w 0 4 == 0)
      (.opx t { bank := bits w 54 2, a := wref w 37, b := wref w 20, k := bits w 8 12 + 1, sa := bits w 6 2, sb := bits w 4 2 })
  | 0x01 => keepIf (bits w 0 3 == 0)
      (.alt t { dxBank := bits w 55 1, dwBank := 2 + bits w 54 1, dy := wref w 37, w := wref w 20, x := wref w 3 })
  | 0x02 => keepIf (bits w 0 1 == 0 && bits w 3 5 ≤ 16)
      (.shx t { bank := bits w 54 2, a := wref w 37, b := wref w 20, rows := bits w 8 12 + 1, taps := bits w 3 5 + 1,
                str := bits w 1 2 + 1 })
  | 0x03 => keepIf (bits w 0 54 == 0) (.aclr t (bits w 54 2))
  | 0x04 => keepIf (bits w 0 16 == 0)
      (.drn t { bank := bits w 54 2, dst := wref w 37, sr := bit w 36, srSeq := bits w 24 12, gref := bits w 19 5,
                measure := bit w 18, tithe := bit w 17, wide := bit w 16 })
  | _ => none

/-- VCVT forms (R120). -/
def cvtFormOf : Nat → Option CvtForm
  | 0 => some .plain | 1 => some .field | 2 => some .code | _ => none

/-- Reduction operations (R120). -/
def redOpOf : Nat → Option RedOp
  | 0 => some .add | 1 => some .max | 2 => some .min | _ => none

/-- The vector queue (R120). -/
def decodeVector (t w : Nat) : Option Instr :=
  match bits w 56 8 with
  | 0x40 => keepIf (bits w 0 14 == 0) (.vadd t (v2f w))
  | 0x41 => keepIf (bits w 0 14 == 0) (.vmul t (v2f w))
  | 0x42 => some (.vfma t (v3f w))
  | 0x43 => do
      let p ← predOf (bits w 11 3)
      keepIf (bits w 0 11 == 0) (.vcmp t { ops := v2f w, pred := p })
  | 0x44 => some (.vsel t (v3f w))
  | 0x45 => keepIf (bits w 0 14 == 0) (.vmin t (v2f w))
  | 0x46 => keepIf (bits w 0 14 == 0) (.vmax t (v2f w))
  | 0x47 => do
      let f ← cvtFormOf (bits w 28 2)
      keepIf (bits w 0 1 == 0 && fmtValid (bits w 24 4) && fmtValid (bits w 20 4))
        (.vcvt t { d := vop w 44 30, a := vop w 32 30, form := f, srcFmt := bits w 24 4, dstFmt := bits w 20 4,
                   sr := bit w 19, srSeq := bits w 7 12, gref := bits w 2 5, measure := bit w 1 })
  | 0x48 => do
      let o ← redOpOf (bits w 26 2)
      keepIf (bits w 0 24 == 0)
        (.vrdc t { d := vop w 44 30, a := vop w 32 28, op := o, column := bit w 25, accum := bit w 24 })
  | 0x49 => some (.vpos t { d := vop w 44 30, addend := vop w 32 28, o := signed (bits w 16 12) 12,
                            sr := signed (bits w 8 8) 8, sc := signed (bits w 0 8) 8 })
  | 0x4A => keepIf (bits w 0 16 == 0) (.vrnd t { d := vop w 44 18, pos := vop w 32 16, ctrl := sref w 20 })
  | _ => none

/-- The move queue (R121). -/
def decodeMove (t w : Nat) : Option Instr :=
  let m : MoveF := { stream := bits w 50 6, ref := wref w 33, lines := bits w 21 12 + 1, off := bits w 0 21 }
  match bits w 56 8 with
  | 0x80 => some (.get t m)
  | 0x81 => some (.put t m)
  | 0x82 => some (.xfer t { src := wref w 39, dst := wref w 22, dx := signed (bits w 15 7) 7, dy := signed (bits w 9 6) 6,
                            lines := bits w 0 9 + 1 })
  | 0x83 => keepIf (bits w 0 51 == 0) (.swap t (bits w 51 5))
  | _ => none

/-- The control queue (R123). -/
def decodeControl (t w : Nat) : Option Instr :=
  let kind := bits w 54 2
  let tally := bits w 38 16
  match bits w 56 8 with
  | 0xC0 => keepIf (bits w 0 2 == 0 && bits w 22 16 ≠ 0 && (kind ≥ 2 || tally < 64))
      (.sig t { kind := kind, tally := tally, inc := bits w 22 16, dx := signed (bits w 15 7) 7,
                dy := signed (bits w 9 6) 6, stream := bits w 3 6, bare := bit w 2 })
  | 0xC1 => keepIf (kind == 0 && tally < 64 || kind == 2)
      (.wait t { kind := kind, tally := tally, index := bits w 36 2, step := bits w 20 16, base := bits w 1 19,
                 timeout := bit w 0 })
  | 0xC2 => keepIf ((kind == 0 && tally < 64 || kind == 2) && bits w 22 16 ≠ 0 && bits w 0 22 == 0)
      (.take t { kind := kind, tally := tally, amount := bits w 22 16 })
  | 0xC3 => keepIf (bits w 0 51 == 0) (.bind t { wire := bits w 52 4, timeout := bit w 51 })
  | 0xC4 => keepIf (kind ≤ 2 && bits w 42 12 ≠ 0 && bits w 18 24 ≠ 0 && bits w 0 18 == 0)
      (.loop t { depth := kind, body := bits w 42 12, count := bits w 18 24 })
  | 0xC5 => keepIf (bits w 53 3 ≠ 7 && bits w 35 16 ≠ 0 && bits w 0 35 == 0)
      (.brc t { cond := bits w 53 3, n := bits w 51 2, disp := signed (bits w 35 16) 16 })
  | 0xC6 => keepIf (bits w 0 56 == 0) (.yield t)
  | 0xC7 => keepIf (bits w 0 56 == 0) (.pend t)
  | _ => none

/-- The instruction that a 64-bit word spells on a tile; none where R113 refuses it. -/
def decodeFurrow (t w : Nat) : Option Instr :=
  match bits w 62 2 with
  | 0 => decodeArray t w
  | 1 => decodeVector t w
  | 2 => decodeMove t w
  | _ => decodeControl t w

/-! ## Tables -/

/-- The number that n bytes of a list hold from an offset. -/
def numIn (b : List Byte) (off n : Nat) : Nat := leNat ((b.drop off).take n)

/-- A buffer entry from its 128 bits (R115). -/
def bufEntry (v : Nat) : BufEntry :=
  { h0 := bits v 0 20, h1 := bits v 20 20, double := bit v 40, fmt := bits v 41 4, width := bits v 45 4 + 1,
    depth := bits v 49 10 + 1, index := bits v 59 2, stride := signed (bits v 61 16) 16, scale := bits v 77 20,
    gauge := bits v 97 5 }

/-- A gauge entry from its 128 bits (R125). -/
def gaugeEntry (v : Nat) : GaugeRef :=
  { outLayer := bits v 0 16, outRole := bits v 16 3, outP := bit v 19, aP := bit v 20, bP := bit v 21, aRole := bits v 24 3,
    bRole := bits v 27 3, aLayer := bits v 32 16, bLayer := bits v 48 16, d := signed (bits v 64 8) 8,
    titheL := bits v 72 16, m0 := bits v 88 16, rowIdx := bits v 104 2, colIdx := bits v 106 2, n0 := bits v 112 16 }

/-- A stream entry from its 256 bits (R122). -/
def streamEntry (v : Nat) : Stream :=
  { base := bits v 0 64, node := bits v 64 16, gatherer := bits v 80 8, compress := bit v 88, floor := bits v 96 8,
    prio := bits v 104 8, run := bits v 112 16, pitch := bits v 128 32, st0 := signed (bits v 160 32) 32,
    st1 := signed (bits v 192 32) 32, st2 := signed (bits v 224 32) 32 }

/-- The n entries of a table of fixed entry size. -/
def tableOf {α : Type} (b : List Byte) (off size n : Nat) (f : Nat → α) : List α :=
  (List.range n).map (fun k => f (numIn b (off + k * size) size))

/-- Counts of the tables: buffers, gauges, streams (R126). -/
def counts (b : List Byte) : Nat × Nat × Nat := (numIn b 1 1, numIn b 2 1, numIn b 3 1)

/-- The offset of the first instruction (R126). -/
def codeOffset (b : List Byte) : Nat := let c := counts b; 64 + 16 * c.1 + 16 * c.2.1 + 32 * c.2.2

/-- The header and tables of an image (R126). -/
def parseImage (b : List Byte) : Image :=
  let c := counts b
  { nInstr := numIn b 4 2, banks := BitVec.ofNat 4 (numIn b 6 1), wires := BitVec.ofNat 16 (numIn b 8 2),
    tBase := numIn b 0xA 1, tCount := numIn b 0xB 1, layer := numIn b 0xC 2, role := numIn b 0xE 1 % 8,
    timeout := numIn b 0x10 4, fpBase := numIn b 0x14 4, fpSize := numIn b 0x18 4, save := numIn b 0x1C 4,
    bufs := tableOf b 64 16 c.1 bufEntry,
    gauges := tableOf b (64 + 16 * c.1) 16 c.2.1 gaugeEntry,
    streams := tableOf b (64 + 16 * c.1 + 16 * c.2.1) 32 c.2.2 streamEntry,
    codeOff := codeOffset b }

/-! ## Formats of buffers -/

/-- Bits of an element of a format code (R43, R115). -/
def fmtBits : Nat → Nat
  | 2 => 6 | 3 => 6 | 4 => 4 | 5 => 16 | 6 => 16 | 7 => 32 | _ => 8

/-- Whether a format carries block scales in the array and the bin (R25, R46). -/
def blockScaled (f : Nat) : Bool := f == 2 || f == 3 || f == 4

/-- Lines that a 64-element row takes (R95, R115). -/
def rowLines (f : Nat) : Nat := if fmtBits f = 32 then 4 else if fmtBits f = 16 then 2 else 1

/-- Bytes of one A-side column (R119). -/
def colBytes (f : Nat) : Nat := 2 * fmtBits f

/-- Bytes of one B-side row as read (R119). -/
def bRowBytes (f : Nat) : Nat := if fmtBits f = 16 then 128 else 64

/-- Bytes of one half's scale part (R450). -/
def BufEntry.partBytes (b : BufEntry) : Nat := (16 * b.depth * b.width + 63) / 64 * 64

/-- The linear pieces of a half, one for each bank: start and bytes (R115). -/
def BufEntry.pieces (b : BufEntry) (half : Nat) : List (Nat × Nat) :=
  (List.range b.width).map (fun k => (half + k * Config.bankBytes, b.depth * 64))

/-- The pieces of both halves. -/
def BufEntry.allPieces (b : BufEntry) : List (Nat × Nat) :=
  b.pieces b.h0 ++ (if b.double then b.pieces b.h1 else [])

/-- The scale parts of a buffer (R450). -/
def BufEntry.scaleParts (b : BufEntry) : List (Nat × Nat) :=
  [(b.scale, b.partBytes)] ++ (if b.double then [(b.scale + b.partBytes, b.partBytes)] else [])

/-- Whether two ranges share a byte. -/
def meets (x y : Nat × Nat) : Bool := x.1 < y.1 + y.2 && y.1 < x.1 + x.2

/-- Whether a range lies inside another. -/
def inside (x y : Nat × Nat) : Bool := y.1 ≤ x.1 && x.1 + x.2 ≤ y.1 + y.2

/-- Whether no two ranges of two lists meet. -/
def apart (xs ys : List (Nat × Nat)) : Bool := xs.all (fun x => ys.all (fun y => !meets x y))

/-- Whether the lists of ranges are pairwise apart. -/
def allApart : List (List (Nat × Nat)) → Bool
  | [] => true
  | x :: xs => xs.all (apart x) && allApart xs

/-- The footprint of an image. -/
def Image.footprint (m : Image) : Nat × Nat := (m.fpBase, m.fpSize)

/-- The width that a GAUGE buffer must have, by the role of its gauge (R115). -/
def gaugeWidth (role : Nat) : Nat := if role = 2 || role = 3 then 2 else 4

/-! ## Checks -/

/-- R115: one buffer entry, with its 128 bits. -/
def bufOk (m : Image) (v : Nat) (b : BufEntry) : Bool :=
  bits v 102 26 == 0 && b.h0 % 64 == 0 && b.h1 % 64 == 0 && (b.double || b.h1 == b.h0)
  && (b.fmt ≤ 8 || b.fmt == 15) && b.scale % 64 == 0
  && ([b.h0, b.h1].all (fun h => h / Config.bankBytes + b.width ≤ 16
        && h % Config.bankBytes / 64 + b.depth ≤ 768))
  && b.allPieces.all (fun p => inside p m.footprint)
  && (!b.double || apart (b.pieces b.h0) (b.pieces b.h1))
  && (b.fmt ≠ 15 ||
      match m.gauges[b.gauge]? with
      | some g => g.outP && b.width == gaugeWidth g.outRole && b.stride % (b.width : Int) == 0
      | none => false)

/-- R125: one gauge entry, with its 128 bits. -/
def gaugeOk (v : Nat) (g : GaugeRef) : Bool :=
  bits v 22 2 == 0 && bits v 30 2 == 0 && bits v 108 4 == 0 && g.outRole ≤ 4 && g.aRole ≤ 4 && g.bRole ≤ 4

/-- R122, R165: one stream entry, with its 256 bits. -/
def streamOk (v : Nat) (x : Stream) : Bool := bits v 48 16 == 0 && x.gatherer < Config.numGatherers && bits v 89 7 == 0
  && (!x.compress || x.base % 0x100000 == 0 && x.node == 0
        && [(x.run : Int), x.pitch, x.st0, x.st1, x.st2].all (fun v => v % 64 == 0))

/-- The formats that buffers hold: none for a GAUGE buffer whose format is not yet known (R451). -/
abbrev FmtOf := Nat → Option Nat

/-- Lines off to off + n - 1 of a buffer lie in a half (R116), with every index at 0. -/
def linesOk (m : Image) (r : Ref) (n : Nat) : Bool :=
  match m.bufs[r.buf]? with
  | some b => r.off + n ≤ b.depth * b.width && (b.fmt ≠ 15 || r.off % b.width == 0)
  | none => false

/-- A line offset scaled under R115 for the current format. -/
def BufEntry.offset (b : BufEntry) (f off : Nat) : Nat := if b.fmt = 15 then off * rowLines f / b.width else off

/-- Whether n bytes from a line of a buffer lie in a half, the line scaled under R115 for the current format. -/
def bytesOk (m : Image) (f : Nat) (r : Ref) (n : Nat) : Bool :=
  match m.bufs[r.buf]? with
  | some b =>
    let o := b.offset f r.off
    o * 64 + n ≤ b.depth * b.width * 64 && (b.fmt ≠ 15 || r.off % b.width == 0)
  | none => false

/-- Whether nb scale lines of a side lie in the scale part, the first being the line offset, scaled under R115, times num over
den (R116, R450). -/
def scaleLinesOk (m : Image) (f : Nat) (r : Ref) (num den nb : Nat) : Bool :=
  match m.bufs[r.buf]? with
  | some b => (b.offset f r.off * num / den + nb) * 64 ≤ b.partBytes
  | none => false

/-- An A side of n steps with a stride (R24, R25, R116, R119). sides are its own and the other formats. -/
def aSideOk (m : Image) (fo : FmtOf) (r : Ref) (n str : Nat) : Bool :=
  match fo r.buf with
  | none => linesOk m r 1
  | some f => f ≤ 6 && bytesOk m f r ((n - 1) * str * colBytes f + colBytes f)
      && (!blockScaled f || scaleLinesOk m f r 64 (32 * colBytes f) ((n + 31) / 32))

/-- The B side of an OPX (R24, R116, R119). -/
def bSideOk (m : Image) (fo : FmtOf) (r : Ref) (n str : Nat) : Bool :=
  match fo r.buf with
  | none => linesOk m r 1
  | some f => f ≤ 6 && bytesOk m f r ((n - 1) * str * bRowBytes f + bRowBytes f)
      && (!blockScaled f || scaleLinesOk m f r 64 2048 ((n + 31) / 32))

/-- The B rows of an SHX (R117, R450). -/
def shxRowsOk (m : Image) (fo : FmtOf) (r : Ref) (rows n : Nat) : Bool :=
  match m.bufs[r.buf]?, fo r.buf with
  | some b, some f =>
    f ≤ 6 && b.width == (if fmtBits f = 16 then 3 else 2) && bytesOk m f r (rows * b.width * 64)
      && (!blockScaled f || scaleLinesOk m f r 1 (b.width * 32) ((n + 31) / 32))
  | some _, none => linesOk m r 1
  | none, _ => false

/-- R25: a sweep with a block-scaled side has a multiple of 32 steps. -/
def stepsOk (fo : FmtOf) (bufs : List Nat) (n : Nat) : Bool :=
  !(bufs.any (fun b => (fo b).any blockScaled)) || n % 32 == 0

/-- R36: an ALT side is 8-bit or 16-bit floating point. -/
def altFmtOk (fo : FmtOf) (buf : Nat) : Bool :=
  match fo buf with
  | none => true
  | some f => f == 0 || f == 1 || f == 5 || f == 6

/-- Whether a sweep obeys the rules that depend on formats (R24, R25, R36, R38, R116, R117, R451).
DEDUCED, log entry 58. -/
def sweepOk (m : Image) (fo : FmtOf) : Instr → Bool
  | .opx _ f => aSideOk m fo f.a f.k (2 ^ f.sa) && bSideOk m fo f.b f.k (2 ^ f.sb) && stepsOk fo [f.a.buf, f.b.buf] f.k
  | .alt _ f =>
    altFmtOk fo f.dy.buf && altFmtOk fo f.w.buf && altFmtOk fo f.x.buf
      && bSideOk m fo f.dy 16 1 && bSideOk m fo f.w 64 1 && aSideOk m fo f.x 16 1
  | .shx _ f =>
    (f.taps - 1) * f.str ≤ 16 && aSideOk m fo f.a (f.rows * f.taps) 1 && shxRowsOk m fo f.b f.rows (f.rows * f.taps)
      && stepsOk fo [f.a.buf, f.b.buf] (f.rows * f.taps)
  | _ => true

/-- Lines of a vector operand of a format (R95). -/
def vopLines (sh : Shape) (f : Nat) : Nat :=
  match sh with
  | .tile => 16 * rowLines f
  | .row => rowLines f
  | .col => 1
  | .one => 1

/-- A vector operand of a format (R95, R116, R117). -/
def vopOk (m : Image) (f : Nat) (v : VOp) : Bool :=
  linesOk m v.ref (vopLines v.shape f) &&
  match v.shape, m.bufs[v.ref.buf]? with
  | .tile, some b => b.width == rowLines f && v.ref.off % rowLines f == 0
  | .row, some b => b.width == rowLines f && v.ref.off % rowLines f == 0
  | _, some _ => true
  | _, none => false

/-- Rows of a shape (R94). -/
def shapeRows : Shape → Nat
  | .tile => 16 | .col => 16 | .row => 1 | .one => 1
/-- Columns of a shape (R94). -/
def shapeCols : Shape → Nat
  | .tile => 64 | .row => 64 | .col => 1 | .one => 1

/-- R94: a source is no larger than the destination. -/
def fits (src dst : Shape) : Bool := shapeRows src ≤ shapeRows dst && shapeCols src ≤ shapeCols dst

/-- R127: a DOUBLE buffer is not both read and written by one instruction on one tile. -/
def notBoth (m : Image) (w : Nat) (rs : List Nat) : Bool :=
  match m.bufs[w]? with
  | some b => !b.double || !rs.contains w
  | none => true

/-- A gauge reference is none or within the table. -/
def grefOk (m : Image) (g : Nat) : Bool := g == 31 || g < m.gauges.length

/-- Whether a bank lies in the declared set (R29, R127). -/
def bankOk (m : Image) (b : Nat) : Bool := m.banks.getLsbD b

/-- Whether a local tally lies in the declared range (R127). -/
def tallyOk (m : Image) (kind k : Nat) : Bool := kind ≥ 2 || (m.tBase ≤ k && k < m.tBase + m.tCount)

/-- R115: a move on a GAUGE buffer has its counts, offsets and stream terms multiples of the width. -/
def gaugeMoveOk (m : Image) (buf : Nat) (vals : List Int) : Bool :=
  match m.bufs[buf]? with
  | some b => b.fmt ≠ 15 || vals.all (fun v => v % (b.width : Int) == 0)
  | none => false

/-- The checks of a GET or PUT (R115, R116, R165). -/
def moveOk (m : Image) (f : MoveF) : Bool :=
  linesOk m f.ref f.lines &&
  match m.streams[f.stream]? with
  | some x => gaugeMoveOk m f.ref.buf [f.lines, f.ref.off, f.off, x.run, x.pitch, x.st0, x.st1, x.st2]
      && (!x.compress || [(f.lines : Int), f.off].all (fun v => v % 64 == 0))
  | none => false

/-- A vector instruction's operands in FP32, and R94. -/
def vecOk (m : Image) (d : VOp) (srcs : List VOp) : Bool :=
  vopOk m 7 d && srcs.all (fun a => vopOk m 7 a && fits a.shape d.shape) && notBoth m d.ref.buf (srcs.map (·.ref.buf))

/-- R101: the shapes that a reduction takes. -/
def redShapeOk (column : Bool) (d a : Shape) : Bool :=
  match column, a, d with
  | false, .tile, .col => true
  | false, .row, .one => true
  | true, .tile, .row => true
  | true, .col, .one => true
  | _, _, _ => false

/-- Format of a VCVT's source and destination (R100). -/
def vcvtFmts (f : VcvtF) : Nat × Nat :=
  match f.form with
  | .plain => (f.srcFmt, f.dstFmt)
  | .field => (7, 7)
  | .code => (7, 8)

/-- The checks of one instruction but for control flow (R113 to R117, R127). -/
def instrOk (m : Image) (fo : FmtOf) (i : Instr) : Bool :=
  sweepOk m fo i &&
  match i with
  | .opx _ f => bankOk m f.bank
  | .alt _ f => bankOk m f.dxBank && bankOk m f.dwBank
  | .shx _ f => bankOk m f.bank
  | .aclr _ b => bankOk m b
  | .drn _ f =>
    bankOk m f.bank && grefOk m f.gref &&
    (match m.bufs[f.dst.buf]? with
     | some b => let l := if b.fmt = 15 then b.width else rowLines b.fmt
                 b.width == l && linesOk m f.dst (16 * l)
                   && (!blockScaled b.fmt || 2 * (f.dst.off + 15) + 2 ≤ b.partBytes)
     | none => false)
  | .vadd _ f => vecOk m f.d [f.a, f.b]
  | .vmul _ f => vecOk m f.d [f.a, f.b]
  | .vmin _ f => vecOk m f.d [f.a, f.b]
  | .vmax _ f => vecOk m f.d [f.a, f.b]
  | .vcmp _ f => vecOk m f.ops.d [f.ops.a, f.ops.b]
  | .vfma _ f => vecOk m f.d [f.a, f.b, f.c]
  | .vsel _ f => vecOk m f.d [f.a, f.b, f.c]
  | .vcvt _ f =>
    vopOk m (vcvtFmts f).1 f.a && vopOk m (vcvtFmts f).2 f.d && grefOk m f.gref && notBoth m f.d.ref.buf [f.a.ref.buf]
      && (f.form ≠ .plain || !(blockScaled f.srcFmt || blockScaled f.dstFmt) || f.d.shape == .tile || f.d.shape == .row)
  | .vrdc _ f =>
    vopOk m 7 f.d && vopOk m 7 f.a && redShapeOk f.column f.d.shape f.a.shape
      && notBoth m f.d.ref.buf (f.a.ref.buf :: (if f.accum then [f.d.ref.buf] else []))
  | .vpos _ f => vecOk m f.d (if f.addend.ref.buf = 31 then [] else [f.addend])
  | .vrnd _ f => vecOk m f.d [f.pos] && linesOk m f.ctrl 1 && notBoth m f.d.ref.buf [f.ctrl.buf]
  | .get _ f => moveOk m f
  | .put _ f => moveOk m f
  | .xfer _ f =>
    linesOk m f.src f.lines && linesOk m f.dst f.lines && gaugeMoveOk m f.src.buf [f.lines] && gaugeMoveOk m f.dst.buf [f.lines]
      && (f.dx ≠ 0 || f.dy ≠ 0 || notBoth m f.dst.buf [f.src.buf])
  | .swap _ b => (m.bufs[b]?).any (·.double)
  | .sig _ f => tallyOk m f.kind f.tally && (f.kind ≠ 3 || f.stream < m.streams.length)
  | .wait _ f => tallyOk m f.kind f.tally
  | .take _ f => tallyOk m f.kind f.tally
  | .bind _ f => m.wires.getLsbD f.wire
  | _ => true

/-- R124: control flow. body holds the enclosing loops, innermost first, as first and last instruction of the body. -/
def flowOk (total : Nat) : Nat → List (Nat × Nat) → List Instr → Bool
  | _, _, [] => true
  | p, body, i :: is =>
    let body := body.filter (fun b => p ≤ b.2)
    let last := (body.head?.map (·.2)).getD (total - 1)
    match i with
    | .loop _ f => f.depth == body.length && p + f.body ≤ last && flowOk total (p + 1) ((p + 1, p + f.body) :: body) is
    | .brc _ f =>
      let target : Int := p + f.disp
      let first := (body.head?.map (·.1)).getD 0
      (f.cond == 0 || f.n < body.length) && (first : Int) ≤ target && target ≤ (last : Int) && flowOk total (p + 1) body is
    | _ => flowOk total (p + 1) body is

/-- The buffers whose scale area the furrow can use (R116, R450). -/
def scaleUsers (m : Image) (is : List Instr) : List Nat :=
  let can (b : Nat) : Bool := match m.bufs[b]? with
    | some e => blockScaled e.fmt || (e.fmt == 15 && (m.gauges[e.gauge]?).any (fun g => g.outRole ≤ 1))
    | none => false
  is.flatMap (fun i => match i with
    | .opx _ f => [f.a.buf, f.b.buf].filter can
    | .shx _ f => [f.a.buf, f.b.buf].filter can
    | .drn _ f => [f.dst.buf].filter can
    | .vcvt _ f => if f.form = .plain then
        (if blockScaled f.srcFmt then [f.a.ref.buf] else []) ++ (if blockScaled f.dstFmt then [f.d.ref.buf] else []) else []
    | _ => [])

/-- R116, R450: scale parts lie in the footprint, apart from every half and from each other. -/
def scalesOk (m : Image) (is : List Instr) : Bool :=
  let us := (scaleUsers m is).dedup
  let parts := us.filterMap (fun b => (m.bufs[b]?).map (·.scaleParts))
  parts.all (fun ps => ps.all (fun p => inside p m.footprint && m.bufs.all (fun b => apart [p] b.allPieces)))
    && allApart parts

/-- The formats known when an image is loaded: every format but a gauge's (R451). -/
def loadFmt (m : Image) : FmtOf := fun b => match m.bufs[b]? with
  | some e => if e.fmt = 15 then none else some e.fmt
  | none => none

/-- The instructions of an image on a tile; none where a word is refused (R113). -/
def imageCode (b : List Byte) (t : Nat) : Option (List Instr) :=
  (List.range (numIn b 4 2)).mapM (fun k => decodeFurrow t (numIn b (codeOffset b + 8 * k) 8))

/-- The header checks of R126 and R127, for an image at a bin address. -/
def headerOk (b : List Byte) (addr : Nat) (m : Image) : Bool :=
  b.length ≥ 64 && numIn b 0 1 == 1 && m.bufs.length ≤ 31 && m.gauges.length ≤ 31 && m.streams.length ≤ 64
  && 1 ≤ m.nInstr && m.nInstr ≤ 16384 && numIn b 7 1 == 0 && numIn b 0xF 1 == 0 && numIn b 0x20 32 == 0
  && numIn b 6 1 < 16 && numIn b 0xE 1 ≤ 4 && m.tBase ≤ 63 && m.tBase + m.tCount ≤ 64
  && m.fpBase % 64 == 0 && m.fpSize % 64 == 0 && m.fpBase + m.fpSize ≤ Config.binBytes
  && m.save % 64 == 0 && inside (m.save, 64) m.footprint && inside (addr, b.length) m.footprint
  && m.codeOff + 8 * m.nInstr ≤ b.length

/-- Every check of LOAD_FURROW on an image at a bin address: the image when it passes them all. -/
def checkImage (b : List Byte) (addr : Nat) : Option Image :=
  let m := parseImage b
  if headerOk b addr m
     && (List.range m.bufs.length).all (fun k => (m.bufs[k]?).all (bufOk m (numIn b (64 + 16 * k) 16)))
     && (List.range m.gauges.length).all
          (fun k => (m.gauges[k]?).all (gaugeOk (numIn b (64 + 16 * m.bufs.length + 16 * k) 16)))
     && (List.range m.streams.length).all
          (fun k => (m.streams[k]?).all
            (streamOk (numIn b (64 + 16 * m.bufs.length + 16 * m.gauges.length + 32 * k) 32)))
     && allApart (m.bufs.map (·.allPieces))
  then
    match imageCode b 0 with
    | none => none
    | some is =>
      if is.getLast? == some (.pend 0) && is.all (instrOk m (loadFmt m)) && flowOk is.length 0 [] is && scalesOk m is
      then some m else none
  else none

/-- The tiles that the XFERs of an image reach from a tile set, checked at RUN_PASS (R121). -/
def xferTargetsOk (is : List Instr) (tiles : List Nat) : Bool :=
  is.all (fun i => match i with
    | .xfer _ f => tiles.all (fun t =>
        let x : Int := (t % 48 : Nat) + f.dx
        let y : Int := (t / 48 : Nat) + f.dy
        0 ≤ x && x < 48 && 0 ≤ y && y < 32 && tiles.contains (y * 48 + x).toNat)
    | _ => true)

/-- Every layer that an image names (R63). -/
def Image.layers (m : Image) : List Nat :=
  m.layer :: m.gauges.flatMap (fun g =>
    (if g.outP then [g.outLayer] else []) ++ (if g.aP then [g.aLayer] else []) ++ (if g.bP then [g.bLayer] else []))

end Sys2Proof.Machine
end

