-- ==== Sys2Proof/Machine/Operands.lean ====
section
/-! DEFINITION. Operand references of a running pass: halves, lines, scale parts (R114 to R117, R130, R450), and elements in
line layout (R45, R95). -/

namespace Sys2Proof.Machine

set_option Elab.async false

/-- The layout of a format code (R115). -/
def fmtOfCode : Nat → Fmt
  | 0 => e4m3 | 1 => e5m2 | 2 => e3m2 | 3 => e2m3 | 4 => e2m1 | 5 => bf16 | 6 => fp16 | _ => fp32

/-- The value of an element of a format code; code 8 is E8M0 (R43). -/
def decodeElem (f v : Nat) : FVal :=
  if f = 8 then
    match e8m0Exp v with
    | some e => .fin false 1 e
    | none => .nan
  else (fmtOfCode f).decode v

/-- A conversion to a format code (R50, R449). -/
def convertElem (f : Nat) (rnd : Rounding) (g : Int) (x : FVal) : Nat × Cls :=
  if f = 8 then convertE8m0 rnd g x else (fmtOfCode f).convert rnd g x

/-- Elements of w bits each from packed bytes (R45). -/
def unpack (w n : Nat) (b : List Byte) : List Nat := let v := leNat b; (List.range n).map (fun i => bits v (i * w) w)

/-- Packed bytes of elements of w bits each (R45). -/
def pack (w : Nat) (xs : List Nat) : List Byte :=
  leBytes ((xs.length * w + 7) / 8) (xs.foldr (fun x acc => x % 2 ^ w + 2 ^ w * acc) 0)

/-- The value of a loop counter selected by an index field: 0 none, 1 L0, 2 L1, 3 L2; a counter that no loop encloses
reads 0 (R116). -/
def SeqState.counter (q : SeqState) (sel : Nat) : Nat :=
  if sel = 0 then 0 else ((q.loops[sel - 1]?).map (·.cur)).getD 0

/-- The half of a buffer that a reader or a writer touches (R130). -/
def halfOf (b : BufEntry) (q : SeqState) (buf : Nat) (write : Bool) : Nat :=
  if !b.double then 0 else if q.swapped.contains buf = write then 1 else 0

/-- The base of a half. -/
def BufEntry.base (b : BufEntry) (h : Nat) : Nat := if h = 0 then b.h0 else b.h1

/-- The bin address of line j of a half (R115). -/
def BufEntry.lineAddr (b : BufEntry) (h j : Nat) : Nat :=
  let a := b.base h
  (a / Config.bankBytes + j % b.width) * Config.bankBytes + a % Config.bankBytes + j / b.width * 64

/-- The bin address of byte x of a half (R115). -/
def BufEntry.byteAddr (b : BufEntry) (h x : Nat) : Nat := b.lineAddr h (x / 64) + x % 64

/-- A place in a half of a buffer: the entry, the half, the format in force and the first line. -/
structure Place where
  buf  : BufEntry
  half : Nat
  fmt  : Nat
  line : Int
  deriving DecidableEq, Repr

/-- Resolves a reference with the loop counters: fmt is the format in which the instruction takes the operand, and cur the
format in force of the buffer, by which a GAUGE buffer's lines scale (R115, R116). -/
def place (m : Image) (q : SeqState) (r : Ref) (write : Bool) (fmt cur : Nat) : Option Place :=
  (m.bufs[r.buf]?).map (fun b =>
    let o : Int := r.off + q.counter b.index * b.stride
    { buf := b, half := halfOf b q r.buf write, fmt := fmt,
      line := if b.fmt = 15 then o * rowLines cur / b.width else o })

/-- Whether n bytes from byte x after the place's first line lie within the half (R116). -/
def Place.has (p : Place) (x n : Nat) : Bool := 0 ≤ p.line && p.line * 64 + x + n ≤ (p.buf.depth * p.buf.width * 64 : Nat)

/-- The byte offset within the half of the place's first line. -/
def Place.x0 (p : Place) : Nat := p.line.toNat * 64

/-- n bytes from byte x after the place's first line. -/
def Place.read (p : Place) (bin : SMap Byte) (x n : Nat) : List Byte :=
  (upFrom (p.x0 + x) n).map (fun y => byteAt bin (p.buf.byteAddr p.half y))

/-- The bin with bytes written from byte x after the place's first line. -/
def Place.write (p : Place) (bin : SMap Byte) (x : Nat) (data : List Byte) : SMap Byte :=
  (data.zipIdx).foldl (fun m d => sput unwritten m (p.buf.byteAddr p.half (p.x0 + x + d.2)) d.1) bin

/-- The bin lines, by address, that n bytes from byte x after the place's first line touch. -/
def Place.lines (p : Place) (x n : Nat) : List Nat :=
  (upFrom ((p.x0 + x) / 64) ((p.x0 % 64 + x % 64 + n + 63) / 64)).map (fun j => p.buf.lineAddr p.half j)

/-- n elements of the place's format from byte x (R45). -/
def Place.codes (p : Place) (bin : SMap Byte) (x n : Nat) : List Nat :=
  unpack (fmtBits p.fmt) n (p.read bin x ((n * fmtBits p.fmt + 7) / 8))

/-- The bin address of a byte of the half's scale part (R450). -/
def Place.scaleAddr (p : Place) (pos : Nat) : Nat := p.buf.scale + p.half * p.buf.partBytes + pos

/-- Whether n bytes from a position lie within the half's scale part (R116, R450). -/
def Place.scaleHas (p : Place) (pos n : Nat) : Bool := pos + n ≤ p.buf.partBytes

/-- The bin lines that n scale bytes from a position touch. -/
def Place.scaleLines (p : Place) (pos n : Nat) : List Nat :=
  (upFrom (p.scaleAddr pos / 64) ((p.scaleAddr pos % 64 + n + 63) / 64)).map (· * 64)

/-- An element scaled by an E8M0 code (R46). -/
def scaledElem (f v code : Nat) : FVal :=
  match e8m0Exp code with
  | some e => (decodeElem f v).scale e
  | none => .nan

/-! ## Rows of vector operands and drains (R33, R95) -/

/-- Elements in one row of a shape. -/
def rowElems (sh : Shape) : Nat := match sh with
  | .tile => 64 | .row => 64 | .col => 16 | .one => 1

/-- Rows that an operand's elements are stored in: a COL operand is one line of 16 elements (R95). -/
def storedRows (sh : Shape) : Nat := match sh with
  | .tile => 16 | _ => 1

/-- Bytes that row r of an operand takes from, and its first byte after the place's first line (R95). -/
def rowSpan (sh : Shape) (f r : Nat) : Nat × Nat := (r * rowLines f * 64, (rowElems sh * fmtBits f + 7) / 8)

/-- Position of the two scale bytes of row r of a place (R33, R95, R450). -/
def Place.rowScale (p : Place) (r : Nat) : Nat := 2 * (p.line.toNat + r * rowLines p.fmt)

/-- Whether every line and scale byte of an operand lies where it must (R95, R116): the L lines of a row lie in L consecutive
banks of the half, so that a row whose first line is no multiple of L reaches outside it. -/
def Place.shapeOk (p : Place) (sh : Shape) : Bool :=
  (sh = .col || sh = .one || p.line % rowLines p.fmt == 0) &&
  (List.range (storedRows sh)).all (fun r =>
    let sp := rowSpan sh p.fmt r
    p.has sp.1 sp.2 && (!blockScaled p.fmt || p.scaleHas (p.rowScale r) 2))

/-- The bin lines that an operand touches. -/
def Place.shapeLines (p : Place) (sh : Shape) : List Nat :=
  (List.range (storedRows sh)).flatMap (fun r =>
    let sp := rowSpan sh p.fmt r
    p.lines sp.1 sp.2 ++ (if blockScaled p.fmt then p.scaleLines (p.rowScale r) 2 else []))

/-- The raw codes of the stored rows of an operand. -/
def Place.rows (p : Place) (bin : SMap Byte) (sh : Shape) : List (List Nat) :=
  (List.range (storedRows sh)).map (fun r => p.codes bin (rowSpan sh p.fmt r).1 (rowElems sh))

/-- The scale code of element c of row r of a block-scaled operand (R450). -/
def Place.scaleOf (p : Place) (bin : SMap Byte) (r c : Nat) : Nat :=
  (byteAt bin (p.scaleAddr (p.rowScale r + c / 32))).toNat

/-- The bin with stored rows of codes written (R95). -/
def Place.putRows (p : Place) (bin : SMap Byte) (sh : Shape) (rows : List (List Nat)) : SMap Byte :=
  (rows.zipIdx).foldl (fun m r => p.write m (rowSpan sh p.fmt r.2).1 (pack (fmtBits p.fmt) r.1)) bin

/-- Element (r, c) of an operand stored in rows, broadcast (R94). An element of a COL operand stands in its one row. -/
def elemAt (sh : Shape) (rows : List (List Nat)) (r c : Nat) : Nat :=
  match sh with
  | .tile => ((rows[r]?).getD [])[c]?.getD 0
  | .row => ((rows[0]?).getD [])[c]?.getD 0
  | .col => ((rows[0]?).getD [])[r]?.getD 0
  | .one => ((rows[0]?).getD [])[0]?.getD 0

/-- Stored rows of a destination from a function of the element's row and column (R94, R95). -/
def buildRows {α : Type} (sh : Shape) (f : Nat → Nat → α) : List (List α) :=
  match sh with
  | .tile => (List.range 16).map (fun r => (List.range 64).map (f r))
  | .row => [(List.range 64).map (f 0)]
  | .col => [(List.range 16).map (fun r => f r 0)]
  | .one => [[f 0 0]]

end Sys2Proof.Machine
end

