-- ==== Sys2Proof/Machine/Flags.lean ====
section
/-! DEFINITION. Outcome counts and the numeric watch (R54, R61 to R87): gauges, step counts, histograms, tithe samples. -/

namespace Sys2Proof.Machine

set_option Elab.async false

/-- The watch table as a pass or an attempt sees it: the bank's base, bank 0's base, the step and the latched head-room,
decay and seeding count (R64, R287), and the gauges that the attempt holds (R65). -/
structure Watch where
  bank  : Nat
  bank0 : Nat
  step  : Option Nat
  h     : Nat
  seed  : Nat
  seeding : List Nat
  layers : Nat
  tithe : Nat
  gauges : List HeldGauge
  deriving DecidableEq, Repr

/-- The head-room field (R89). -/
def headroom (cfg : Nat) : Nat := min (bits cfg 0 3) 4

/-- The offset of the second bank (R87, R287). -/
def watchBank (a : Attempt) : Nat := if a.overlap then a.step % 2 * 0x4000000 else 0

/-- The n-th latched word of an attempt: 0 WATCH_CTL, 1 decay, 2 GAUGE_CFG, 3 SEED_CFG, 4 SELECT_CFG, 5 TITHE_CFG,
6 TITHE_ABS, 7 SILENT_CFG (R64). -/
def Attempt.latch (a : Attempt) (n : Nat) : Nat := ((a.latched[n]?).map (·.toNat)).getD 0

/-- The watch table of an attempt. -/
def watchOf (a : Attempt) : Watch :=
  { bank := a.wbase + watchBank a, bank0 := a.wbase, step := some a.step, h := headroom (a.latch 2),
    seed := a.latch 3 % 256, seeding := a.seeding, layers := a.layers, tithe := a.latch 5,
    gauges := a.gauges }

/-- The layers whose history count is below the seeding count (R70). -/
def seedingLayers (s : State) (base layers seed : Nat) : List Nat :=
  (List.range layers).filter (fun l => s.memNum (base + l * 0x400 + 0x2C2) 1 < seed)

/-- The watch table of a pass without a step tag: bank 0, the registers as they stand (R451, DEDUCED, log entry 20). -/
def State.liveWatch (s : State) : Watch :=
  let base := s.rg .numWatchBase
  let layers := min (s.rgBits .numWatchCtl 0 17) 65536
  let seed := s.rgBits .numSeedCfg 0 8
  { bank := base, bank0 := base, step := none, h := headroom (s.rg .numGaugeCfg), seed := seed,
    seeding := [], layers := layers, tithe := s.rg .numTitheCfg, gauges := [] }

/-- The watch table of a pass. -/
def State.watch (s : State) (p : Pass) : Watch :=
  match p.step.bind s.attempt? with
  | some a => watchOf a
  | none => s.liveWatch

/-- The address of a layer's entry in the pass's bank. -/
def Watch.entry (w : Watch) (l : Nat) : Nat := w.bank + l * 0x400
/-- The address of a layer's entry in bank 0, where the shared items stand (R287). -/
def Watch.shared (w : Watch) (l : Nat) : Nat := w.bank0 + l * 0x400

/-- Whether a layer is seeding (R70). -/
def Watch.isSeeding (w : Watch) (s : State) (l : Nat) : Bool :=
  match w.step with
  | some _ => w.seeding.contains l
  | none => s.memNum (w.shared l + 0x2C2) 1 < w.seed

/-- The gauge that an attempt read at its STEP_OPEN (R65). -/
def Watch.held (w : Watch) (layer role : Nat) : Option HeldGauge := if role < 5 then w.gauges[layer * 5 + role]? else none

/-- The format of a gauge in the watch table (R61, R71). -/
def tableFmt (s : State) (w : Watch) (layer role : Nat) : Nat :=
  if role = 4 then 7
  else if role = 2 || role = 3 then s.memNum (w.entry layer + 0x2C0) 1
  else s.memNum (w.entry layer + role * 16 + 13) 1

/-- The current format of a gauge: that of the attempt's STEP_OPEN, or without a step tag that of the table (R61, R65, R451). -/
def gaugeFmt (s : State) (w : Watch) (layer role : Nat) : Nat :=
  match w.held layer role with
  | some g => g.fmt
  | none => tableFmt s w layer role

/-- The est of a gauge: as it was at STEP_OPEN, or without a step tag that of the table (R65, R74). -/
def gaugeEst (s : State) (w : Watch) (layer role : Nat) : Word :=
  match w.held layer role with
  | some g => g.est
  | none => BitVec.ofNat 32 (s.memNum (w.entry layer + role * 16) 4)

/-- Whether a format takes a gauge exponent (R67). -/
def gaugedFmt (f : Nat) : Bool := f == 0 || f == 1 || f == 6

/-- The exponent of R67 from an estimate, a format and the head-room. -/
def expFrom (est : Word) (f h : Nat) : Int :=
  match val32 est, (fmtOfCode f).magnitude false (fmtOfCode f).maxCode with
  | .fin _ m e, .fin _ n k =>
    if !gaugedFmt f || m = 0 then 0
    else
      let c := magLog2 n k - magLog2 m e
      let g0 := if magLt n k m (e + c) then c - 1 else c
      max (-127) (min 127 (g0 - h))
  | _, _ => 0

/-- Whether a gauge's exponent comes from the direct amax (R72). -/
def usesDirect (s : State) (w : Watch) (layer role : Nat) : Bool := role ≤ 1 && w.isSeeding s layer

/-- The exponent of a gauge in the watch table (R61, R67). -/
def tableExp (s : State) (w : Watch) (layer role : Nat) : Int :=
  if role ≠ 4 && gaugedFmt (tableFmt s w layer role) then signed (s.memNum (w.entry layer + role * 16 + 12) 1) 8 else 0

/-- The exponent of a gauge (R61, R65, R67, R72): while its layer is seeding, that of the direct amax of the attempt. -/
def gaugeExp (s : State) (w : Watch) (layer role : Nat) : Int :=
  if usesDirect s w layer role then
    expFrom (BitVec.ofNat 32 (s.memNum (w.entry layer + role * 16 + 8) 4)) (gaugeFmt s w layer role) w.h
  else
    match w.held layer role with
    | some g => g.exp
    | none => tableExp s w layer role

/-- Every gauge of the table as STEP_OPEN reads it (R65). -/
def readGauges (s : State) (w : Watch) : List HeldGauge :=
  (List.range w.layers).flatMap (fun l => (List.range 5).map (fun r =>
    { exp := tableExp s w l r, fmt := tableFmt s w l r, est := BitVec.ofNat 32 (s.memNum (w.entry l + r * 16) 4) }))

/-- The format in force of a buffer of a pass (R115). -/
def bufFmt (s : State) (w : Watch) (m : Image) (buf : Nat) : Nat :=
  match m.bufs[buf]? with
  | some b =>
    if b.fmt = 15 then
      match m.gauges[b.gauge]? with
      | some g => gaugeFmt s w g.outLayer g.outRole
      | none => 7
    else b.fmt
  | none => 7

/-- The scale and the attribution of a DRN or VCVT (R62): layer, role, g, g_out, and the gauges it names. -/
structure Scaling where
  layer : Nat
  role  : Nat
  g     : Int
  gout  : Int
  uses  : List (Nat × Nat)
  deriving DecidableEq, Repr

/-- The scaling of an instruction with a gauge reference, 31 being none (R62, R125). An instruction whose reference names no
output gauge is attributed to the pass's layer and role (DESIGN CHOICE, log entry 91). -/
def scaling (s : State) (w : Watch) (m : Image) (gref : Nat) : Scaling :=
  match m.gauges[gref]? with
  | some r =>
    let go := if r.outP then gaugeExp s w r.outLayer r.outRole else 0
    let ga := if r.aP then gaugeExp s w r.aLayer r.aRole else 0
    let gb := if r.bP then gaugeExp s w r.bLayer r.bRole else 0
    let named := (if r.outP then [(r.outLayer, r.outRole)] else []) ++ (if r.aP then [(r.aLayer, r.aRole)] else [])
      ++ (if r.bP then [(r.bLayer, r.bRole)] else [])
    { layer := if r.outP then r.outLayer else m.layer, role := if r.outP then r.outRole else m.role,
      g := r.d + go - ga - gb, gout := go, uses := named.filter (fun x => usesDirect s w x.1 x.2) }
  | none => { layer := m.layer, role := m.role, g := 0, gout := 0, uses := [] }

/-- What an instruction reports to the watch (R66, R77): its source magnitudes in the tensor's own units, its outcomes and
its count of non-zero outputs. -/
structure Counted where
  layer   : Nat
  role    : Nat
  sources : List FVal
  outs    : List Cls
  nonzero : Nat
  gauged  : Bool
  measure : Bool
  uses    : List (Nat × Nat)
  deriving DecidableEq, Repr

/-- Whether a value is finite and not zero. -/
def FVal.nonzeroFin : FVal → Bool
  | .fin _ m _ => m ≠ 0
  | _ => false

/-- The largest magnitude within the FP32 range among finite values, as an FP32 word (R66). A magnitude that FP32 does not hold is
rounded to the nearest even (DESIGN CHOICE, log entry 92). -/
def amaxOf (xs : List FVal) : Word :=
  let best := xs.foldl (fun (acc : FVal) x => match x with
    | .fin _ m e => if (FVal.lt acc (.fin false m e)) && !fp32.above m e then .fin false m e else acc
    | _ => acc) (.fin false 0 0)
  round32 best

/-- The histogram bin of a source element (R74). -/
def histBin (est : Word) (x : FVal) : Option Nat :=
  match val32 est, x with
  | .fin _ m e, .fin _ n f =>
    if m = 0 || n = 0 then none else some (max 0 (min 31 (magLog2 m e - magLog2 n f))).toNat
  | _, _ => none

/-- Folds an amax into an FP32 field of the table (R66, R72). -/
def foldAmax (a : Nat) (v : Word) (s : State) : State :=
  if (val32 (BitVec.ofNat 32 (s.memNum a 4))).lt (val32 v) then s.memPutNum a 4 v.toNat else s

/-- Adds the histogram counts of source elements (R74). -/
def addHist (a : Nat) (est : Word) (xs : List FVal) (s : State) : State :=
  each (xs.filterMap (histBin est)) (fun b s => s.memAddSat (a + 4 * b) 4 1) s

/-- What an instruction adds to the step counts (R77). -/
def Counted.counts (c : Counted) : StepCounts :=
  { elems := c.outs.length, sources := c.sources.countP FVal.nonzeroFin, nonzero := c.nonzero,
    overflow := c.outs.count .overflow, underflow := c.outs.count .underflow, nonfinite := c.outs.count .nonfinite }

/-- The sum of step counts. -/
def StepCounts.add (a b : StepCounts) : StepCounts :=
  { elems := a.elems + b.elems, sources := a.sources + b.sources, nonzero := a.nonzero + b.nonzero,
    overflow := a.overflow + b.overflow, underflow := a.underflow + b.underflow, nonfinite := a.nonfinite + b.nonfinite }

/-- Adds counts to a layer's step counts and job totals of a role, and sets the gauge record's outcome flags (R73, R77). -/
def addCounts (w : Watch) (layer role : Nat) (c : StepCounts) (s : State) : State :=
  let e := w.entry layer
  let rec_ := e + role * 16
  let cnt := e + 0x50 + role * 48
  let tot := w.shared layer + 0x140 + role * 24
  let s := (((((s.memAdd cnt 8 c.elems).memAdd (cnt + 8) 8 c.sources).memAdd (cnt + 16) 8 c.nonzero).memAdd (cnt + 24) 8
    c.overflow).memAdd (cnt + 32) 8 c.underflow).memAdd (cnt + 40) 8 c.nonfinite
  let s := ((s.memAdd tot 8 c.overflow).memAdd (tot + 8) 8 c.underflow).memAdd (tot + 16) 8 c.nonfinite
  let fl := s.memNum (rec_ + 14) 1
  if c.overflow = 0 && c.nonfinite = 0 then s
  else s.memPutNum (rec_ + 14) 1 (fl ||| (if c.overflow = 0 then 0 else 1) ||| (if c.nonfinite = 0 then 0 else 2))

/-- Adds an instruction's outcomes to the tile's counters, the layer entry, the gauge's amax and histogram, and its measure
(R66, R72 to R77). An instruction of a pass without a step tag enters no amax and no histogram (DEDUCED, log entry 20). -/
def account (w : Watch) (t : Nat) (c : Counted) (s : State) : State :=
  let k := c.counts
  let e := w.entry c.layer
  let rec_ := e + c.role * 16
  let s := ((s.inc .numTileCntOvf k.overflow t).inc .numTileCntUdf k.underflow t).inc .numTileCntNonf k.nonfinite t
  let s := addCounts w c.layer c.role k s
  match w.step with
  | none => s
  | some n =>
    let amax := amaxOf c.sources
    let s := foldAmax (rec_ + 4) amax s
    let est := gaugeEst s w c.layer c.role
    let s := if c.gauged && c.role = 2 then addHist (e + 0x1C0) est c.sources s
             else if c.gauged && c.role = 3 then addHist (e + 0x240) est c.sources s else s
    let s := s.updAttempt n (fun a => { a with used := (a.used ++ c.uses).dedup })
    if c.measure then
      let s := foldAmax (rec_ + 8) amax s
      if ((s.attempt? n).any (fun a => a.used.contains (c.layer, c.role))) then
        (s.memPutNum (rec_ + 14) 1 (s.memNum (rec_ + 14) 1 ||| 4)).flag .numStatus 1
      else s
    else s

/-! ## The tithe (R79, R80) -/

/-- The mixing function of R79. -/
def tmix (a b c : Word) : Word :=
  let h := a * 0x9E3779B1#32 + b * 0x85EBCA77#32 + c * 0xC2B2AE3D#32
  let h := (h ^^^ (h >>> 15)) * 0x2C1B3C6D#32
  let h := (h ^^^ (h >>> 12)) * 0x297A2D39#32
  h ^^^ (h >>> 15)

/-- rate_log2 within its range (R89). -/
def titheRate (cfg : Nat) : Nat := max 6 (min 12 (bits cfg 0 4))

/-- The offset o of R79 for a step, a layer and a micro-batch. -/
def titheOff (step layer mb rate : Nat) : Nat :=
  (tmix (BitVec.ofNat 32 step) (BitVec.ofNat 32 (layer ||| (mb <<< 16))) 0).toNat % 2 ^ rate

/-- Whether a row block is sampled, and its slot (R79). -/
def titheSlot (step layer mb rate m : Nat) : Option Nat :=
  let o := titheOff step layer mb rate
  if (m + o) % 2 ^ rate = 0 then some ((m + o) / 2 ^ rate) else none

/-- The column group of a sampled sub-block (R79). -/
def titheGroup (step layer mb nBlk : Nat) : Nat :=
  (tmix (BitVec.ofNat 32 step) (BitVec.ofNat 32 (layer ||| (mb <<< 16))) (BitVec.ofNat 32 (1 + nBlk))).toNat % 8

/-- Where row r of a tithe block of a layer is kept, at consumer input index k (R80). -/
def titheAddr (s : State) (w : Watch) (layer mb slot rate r k : Nat) : Nat :=
  let e := w.shared layer
  let kk := s.memNum (e + 0x338) 4
  let mm := s.memNum (e + 0x340) 4
  let slots := (mm + 2 ^ rate - 2) / 2 ^ rate + 1
  s.memNum (e + 0x330) 8 + ((mb * slots + slot) * 16 + r) * kk * 4 + k * 4

/-- Whether the tithe of a layer is on: the register's enable and the layer's own (R87, R89). -/
def titheOn (s : State) (w : Watch) (layer : Nat) : Bool :=
  bit w.tithe 7 && bit (s.memNum (w.shared layer + 0x344) 4) 0

end Sys2Proof.Machine
end

