-- ==== Sys2Proof/Machine/Digest.lean ====
section
/-! DEFINITION. Twin update's shard maps and digests (R304, R307, R308), and whether the module is protected (R311). -/

namespace Sys2Proof.Machine

set_option Elab.async false

/-! ## Shard and mirror maps (R304) -/

/-- One segment of the shard or mirror map: its base in each area and its blocks. -/
structure MapSeg where
  a0     : Nat
  a1     : Nat
  blocks : Nat
  deriving DecidableEq, Repr

/-- The base of a segment in an area. -/
def MapSeg.base (g : MapSeg) (area : Nat) : Nat := if area % 2 = 0 then g.a0 else g.a1

/-- Segment i of the shard map, or of the mirror map. -/
def State.mapSeg (s : State) (mirror : Bool) (i : Nat) : MapSeg :=
  if mirror then { a0 := s.rg .stpMirrorSegA0 i, a1 := s.rg .stpMirrorSegA1 i, blocks := s.rg .stpMirrorSegBlocks i }
  else { a0 := s.rg .stpShardSegA0 i, a1 := s.rg .stpShardSegA1 i, blocks := s.rg .stpShardSegBlocks i }

/-- The segments of a map, in order; one without blocks is disabled. -/
def State.mapSegs (s : State) (mirror : Bool) : List MapSeg := (List.range 16).map (s.mapSeg mirror)

/-- Blocks of a map. -/
def mapBlocks (gs : List MapSeg) : Nat := (gs.map (·.blocks)).sum

/-- Bytes of a block. -/
def blockSize : Nat := 0x10000

/-- The address of block b of a map in an area. -/
def blockAddr (area : Nat) : List MapSeg → Nat → Nat
  | [], _ => 0
  | g :: gs, b => if b < g.blocks then g.base area + b * blockSize else blockAddr area gs (b - g.blocks)

/-- The block of a map that an address lies in, blocks numbered from k. -/
def blockOf (area : Nat) : Nat → List MapSeg → Nat → Option Nat
  | _, [], _ => none
  | k, g :: gs, a =>
    if g.base area ≤ a && a < g.base area + g.blocks * blockSize then some (k + (a - g.base area) / blockSize)
    else blockOf area (k + g.blocks) gs a

/-- The address of a byte offset in a map (R322). -/
def mapAddr (area : Nat) (gs : List MapSeg) (off : Nat) : Nat := blockAddr area gs (off / blockSize) + off % blockSize

/-! ## Digests (R307) -/

/-- One step of the product in GF(2^64). -/
def gfStep (x : Quad × Quad × Quad) : Quad × Quad × Quad :=
  let (a, b, p) := x
  (if a.msb then (a <<< 1) ^^^ 0x1B#64 else a <<< 1, b >>> 1, if b.getLsbD 0 then p ^^^ a else p)

/-- The product in GF(2^64). -/
def gfmul (a b : Quad) : Quad := (gfStep^[64] (a, b, 0)).2.2

/-- The base z. -/
def digestZ : Quad := 0x9E3779B97F4A7C15#64

/-- z to the power i + 1, the weight of word i. -/
def digestWeight : Nat → Quad
  | 0 => digestZ
  | i + 1 => gfmul (digestWeight i) digestZ

/-- The digest of words. -/
def digestWords (ws : List Quad) : Quad :=
  (ws.foldl (fun (x : Quad × Quad) w => (x.1 ^^^ gfmul w x.2, gfmul x.2 digestZ)) (0, digestZ)).1

/-! ## The digest tables (R308, R287) -/

/-- Whether twin update is enabled. -/
def State.mirrorOn (s : State) : Bool := s.rgBit .stpMirrorCfg 16
/-- The partner's node id. -/
def State.partner (s : State) : Nat := s.rgBits .stpMirrorCfg 0 16
/-- Whether the module is unprotected (R311). -/
def State.unprotected (s : State) : Bool := !s.mirrorOn || s.steps.lost

/-- The parity by which an attempt's state is kept apart (R287). -/
def Attempt.parity (a : Attempt) : Nat := if a.overlap then a.step % 2 else 0

/-- The slot of an attempt's step record (R297). -/
def State.recAddr (s : State) (a : Attempt) : Nat := s.rg .stpRecBase + a.seq % 4 * 0x500000

/-- The base of an attempt's digest table of its own shard, or of its mirror. -/
def State.digestBase (s : State) (a : Attempt) (mirror : Bool) : Nat :=
  s.rg .stpDigestBase + a.parity * 0x4000000 + (if mirror then 0x2000000 else 0)

/-- The block digests of an attempt's table. -/
def State.blockDigests (s : State) (a : Attempt) (mirror : Bool) (lo n : Nat) : List Quad :=
  (upFrom lo n).map (fun b => BitVec.ofNat 64 (s.memNum (s.digestBase a mirror + 8 * b) 8))

/-- The number of digest groups of a map. -/
def groupsOf (blocks : Nat) : Nat := (blocks + 1023) / 1024

/-- The digest of group k of an attempt's table. -/
def State.groupDigest (s : State) (a : Attempt) (mirror : Bool) (k : Nat) : Quad :=
  digestWords (s.blockDigests a mirror (1024 * k) (min 1024 (mapBlocks (s.mapSegs mirror) - 1024 * k)))

/-- The attempt whose updates write an area: the one whose sealing makes that area current (R160, R294). -/
def State.writerOf (s : State) (area : Nat) : Option Attempt :=
  s.steps.attempts.find? (fun a => (a.step + 1) % 2 == area && a.st != .sealed && a.st != .refused)

/-- Folds the 64-bit word at an address into the table of a map, when it lies in that map's NEXT area (R308). -/
def foldWord (mirror : Bool) (area a : Nat) (s : State) : State :=
  match blockOf area 0 (s.mapSegs mirror) a, s.writerOf area with
  | some b, some y =>
    let e := s.digestBase y mirror + 8 * b
    let i := (a - blockAddr area (s.mapSegs mirror) b) / 8
    let v := gfmul (BitVec.ofNat 64 (s.memNum a 8)) (digestWeight i)
    s.memPutNum e 8 ((BitVec.ofNat 64 (s.memNum e 8) ^^^ v).toNat)
  | _, _ => s

/-- The area in state NEXT, if there is one. -/
def State.nextArea (s : State) : Option Nat :=
  if s.steps.area0 = .next then some 0 else if s.steps.area1 = .next then some 1 else none

/-- Folds the words of a range that has been written, while twin update is enabled (R308, DEDUCED, log entry 28). -/
def foldRange (a n : Nat) (s : State) : State :=
  match s.nextArea with
  | some area =>
    if s.mirrorOn && n ≠ 0 then
      each (upFrom (a / 8) ((a + n - 1) / 8 + 1 - a / 8)) (fun w s => foldWord true area (8 * w) (foldWord false area (8 * w) s)) s
    else s
  | none => s

end Sys2Proof.Machine
end

