-- ==== Sys2Proof/Machine/Transport.lean ====
section
/-! DEFINITION. The transport formats of the collective engine and of winnowing (R242, R331): blocks of 32 elements as raw
bytes, as BF16, or as FP8 elements with one E8M0 scale; and the access to a range's blocks of 32 elements (R241). -/

namespace Sys2Proof.Machine

set_option Elab.async false

/-- An element with no random bits, for a conversion to nearest even. -/
def plainElem (x : FVal) : FVal × Rounding := (x, none)

/-- The format of a transport code with a scale: 2 E4M3, 3 E5M2 (R240, R331). -/
def transportFmt (t : Nat) : Fmt := if t = 2 then e4m3 else e5m2

/-- A block of elements in a transport: its codes, its scale code and the outcome classes (R242). -/
def encodeBlock (t : Nat) (xs : List FVal) : List Nat × Nat × List Cls :=
  if t = 1 then
    let cs := xs.map (fun x => bf16.convert none 0 x)
    (cs.map (·.1), 0, cs.map (·.2))
  else
    let r := (transportFmt t).convertBlock 0 (xs.map plainElem)
    (r.2.map (·.1), r.1, r.2.map (·.2))

/-- The value of an element of a transport block, widened exactly (R46, R242). -/
def widenElem (t v scale : Nat) : FVal :=
  if t = 1 then bf16.decode v
  else
    match e8m0Exp scale with
    | some e => ((transportFmt t).decode v).scale e
    | none => .nan

/-- The bytes of a block in a transport: 64 B of BF16, or 32 elements and their scale. -/
def blockBytes (t : Nat) (codes : List Nat) (scale : Nat) : List Byte :=
  if t = 1 then codes.flatMap (leBytes 2) else codes.flatMap (leBytes 1) ++ leBytes 1 scale

/-- Bytes of one block in a transport other than raw. -/
def transportBytes (t : Nat) : Nat := if t = 1 then 64 else 33

/-- The values of a block from its transport bytes. -/
def blockValues (t : Nat) (b : List Byte) : List FVal :=
  if t = 1 then (unpack 16 32 b).map (fun v => widenElem 1 v 0)
  else
    let sc := numIn b 32 1
    (unpack 8 32 b).map (fun v => widenElem t v sc)

/-! ## Blocks of elements in memory -/

/-- Bytes of 32 elements of a format. -/
def fmtBlock (f : Nat) : Nat := 4 * fmtBits f

/-- The codes of a block of 32 elements at an address, those past n zero (R241). -/
def blockCodes (s : State) (f a n : Nat) : List Nat :=
  (unpack (fmtBits f) 32 (s.memBytes a (fmtBlock f))).zipIdx.map (fun x => if x.2 < n then x.1 else 0)

/-- The bytes that the first n codes of a block leave at an address, the bits of later elements kept (R241). -/
def mergeCodes (s : State) (f a n : Nat) (codes : List Nat) : List Byte :=
  let old := unpack (fmtBits f) 32 (s.memBytes a (fmtBlock f))
  (pack (fmtBits f) (codes.take n ++ old.drop n)).take ((n * fmtBits f + 7) / 8)

end Sys2Proof.Machine
end

