-- ==== Sys2Proof/Machine/Image.lean ====
section
/-! DEFINITION. Harvest images: their segments and blocks, winnowing, the CRC-64, and the harvest bitmap (R329 to R333). -/

namespace Sys2Proof.Machine

set_option Elab.async false

/-! ## CRC-64 (R332) -/

/-- One bit of the CRC-64. -/
def crc64Bit (c : Quad) : Quad := if c.msb then (c <<< 1) ^^^ 0x42F0E1EBA9EA3693#64 else c <<< 1

/-- The CRC-64 of bytes: not reflected, initial value 0, no final exclusive-or. -/
def crc64 (b : List Byte) : Quad :=
  b.foldl (fun (c : Quad) (x : Byte) => crc64Bit^[8] (c ^^^ (BitVec.setWidth 64 x <<< 56))) 0

/-! ## Winnowing (R331) -/

/-- Bytes of an image block of a mode. -/
def imageBytes (mode : Nat) : Nat := if mode = 0 then 65536 else if mode = 1 then 32768 else 16896

/-- What winnowing a block gives: its bytes, and its overflow, underflow-to-zero and non-finite outcomes. -/
structure Winnowed where
  bytes : List Byte
  ovf   : Nat
  udf   : Nat
  nonf  : Nat
  deriving DecidableEq, Repr

/-- An image block from the bytes of its source block. -/
def winnow (mode : Nat) (b : List Byte) : Winnowed :=
  if mode = 0 then { bytes := b, ovf := 0, udf := 0, nonf := 0 }
  else
    let xs := (unpack 32 (b.length / 4) b).map (decodeElem 7)
    let rs := (pieces 32 xs).map (encodeBlock mode)
    let cls := rs.flatMap (·.2.2)
    let codes := rs.flatMap (·.1)
    { bytes := if mode = 1 then codes.flatMap (leBytes 2) else codes.flatMap (leBytes 1) ++ rs.flatMap (fun r => leBytes 1 r.2.1),
      ovf := cls.countP (· == .overflow), udf := cls.countP (· == .underflow), nonf := cls.countP (· == .nonfinite) }

/-- The bytes of a source block, widened exactly from its image block (R331). -/
def widen (mode : Nat) (b : List Byte) : List Byte :=
  if mode = 0 then b
  else
    let codes := if mode = 1 then unpack 16 16384 b else unpack 8 16384 b
    let scales := b.drop 16384
    codes.zipIdx.flatMap (fun x =>
      leBytes 4 (round32 (widenElem mode x.1 (((scales[x.2 / 32]?).map (·.toNat)).getD 0))).toNat)

/-! ## Segments and blocks (R329, R330, R333) -/

/-- Image blocks of segments. -/
def segsBlocks (gs : List HSeg) : Nat := (gs.map (·.blocks)).sum

/-- Image bytes of segments, after one another. -/
def segsBytes (gs : List HSeg) : Nat := (gs.map (fun g => g.blocks * imageBytes g.mode)).sum

/-- Where the data of an image of n blocks starts: the next 64 KiB boundary after its header and CRC table. -/
def dataOffset (n : Nat) : Nat := (1024 + 8 * n + 0xFFFF) / 0x10000 * 0x10000

/-- Gives segments their image offsets, from an offset. -/
def layOut : Nat → List HSeg → List HSeg
  | _, [] => []
  | o, g :: gs => { g with imgOff := o } :: layOut (o + g.blocks * imageBytes g.mode) gs

/-- The segment that holds an image block, and the block's place in it. -/
def segAt : List HSeg → Nat → Option (HSeg × Nat)
  | [], _ => none
  | g :: gs, k => if k < g.blocks then some (g, k) else segAt gs (k - g.blocks)

/-- The offset of an image block. -/
def HSeg.blockOff (g : HSeg) (j : Nat) : Nat := g.imgOff + j * imageBytes g.mode

/-- The source blocks of segments: those of the watch table stand last and are written at admission. -/
def sourceBlocks (gs : List HSeg) : Nat := segsBlocks (gs.filter (fun g => g.kind != 1))

/-- The source segments, each with the index of its first block in the harvest bitmap. -/
def segBlocks : Nat → List HSeg → List (Nat × HSeg)
  | _, [] => []
  | k, g :: gs => if g.kind = 1 then segBlocks k gs else (k, g) :: segBlocks (k + g.blocks) gs

/-- The indices of the source blocks of a harvest that a range touches. -/
def HarvestOp.touched (h : HarvestOp) (a n : Nat) : List Nat :=
  (segBlocks 0 h.segs).flatMap (fun x =>
    (upFrom (a / 0x10000) ((a % 0x10000 + n + 0xFFFF) / 0x10000)).filterMap (fun b =>
      if x.2.base ≤ b * 0x10000 && b * 0x10000 < x.2.base + x.2.blocks * 0x10000 then some (x.1 + b - x.2.base / 0x10000)
      else none))

/-- Bytes of the harvest bitmap of an operation (R330). -/
def HarvestOp.bitmapBytes (h : HarvestOp) : Nat :=
  (((h.segs.filter (fun g => g.kind ≠ 1)).map (·.blocks)).sum + 7) / 8

/-- Whether a block's bit in the harvest bitmap is still 1. -/
def State.uncopied (s : State) (i : Nat) : Bool :=
  bit (s.byte (s.rg .hrvBitmapBase + i / 8)).toNat (i % 8)

/-- Whether a write is held at its controller for a block that the harvest engine has yet to copy (R330). -/
def State.copyHeld (s : State) (a n : Nat) : Bool :=
  match s.hrv.op with
  | some h => (h.touched a n).any s.uncopied
  | none => false

/-- Clears a block's bit in the harvest bitmap. -/
def clearBlock (i : Nat) (s : State) : State :=
  let a := s.rg .hrvBitmapBase + i / 8
  let v := (s.byte a).toNat
  s.memPutNum a 1 (if bit v (i % 8) then v - 2 ^ (i % 8) else v)

/-- Changes the harvest in progress. -/
def updHarvest (f : HarvestOp → HarvestOp) (s : State) : State := { s with hrv := { s.hrv with op := s.hrv.op.map f } }

end Sys2Proof.Machine
end

