-- ==== Sys2Proof/Machine/Memory.lean ====
section
/-! DEFINITION. The memory tiers as the units read and write them: the address map, the range tables, protection classes,
detected lines, corrections, retirement and the transposing write (R148 to R156, R173 to R202). -/

namespace Sys2Proof.Machine

set_option Elab.async false

/-! ## Reports -/

/-- The step named for a read without a tag: the oldest attempt in OPEN, RUN or CHECK (R189). -/
def State.oldestStep (s : State) : Nat :=
  match s.steps.attempts.filter (fun a => a.st = .openSt || a.st = .run || a.st = .check) with
  | [] => 0xFFFFFFFF
  | a :: as => (as.foldl (fun m b => min m b.step) a.step) % 2 ^ 32

/-- A line found detected by a reader: counters and MEM_DETECTED (R187, R189). -/
def reportDetected (l reader step : Nat) (s : State) : State :=
  match mpaWindow l with
  | none => s
  | some (p, off) =>
    let s := if p < 12 then (s.inc .memStkDet 1 p).setRg .memStkLastdet l p
             else (s.inc .memPkgDet 1 (p - 12)).setRg .memPkgLastdet l (p - 12)
    let s := if p < 12 then (match s.rangeAt p off with
      | some e => s.inc .memRangeDet 1 p e
      | none => s) else s
    raiseEvent .memDetected p
      (detail [(0, 8, l), (8, 1, s.mpaClass l), (9, 1, reader), (10, 1, if p < 12 then p else p - 12),
        (11, 1, s.channel p off), (12, 4, step)]) s

/-- Latches a module fault: the first cause holds (R383). Its effects follow in Fault.lean. -/
def latchFault (c : FaultCause) (s : State) : State :=
  if s.stw.fault.isNone then { s with stw := { s.stw with fault := some c } } else s

/-- Retires a pseudo-channel of a stack, or fails the stack at the second (R192). cause as R189; failed when its retraining
failed (R193). -/
def retirePc (k pc cause : Nat) (failed : Bool) (s : State) : State :=
  let d := s.dev k
  match d.retired with
  | some r => if r = pc then s else latchFault (.failedDevice k) (s.setDev k { d with st := .failed })
  | none =>
    let s := s.setDev k { d with retired := some pc, retiredFailed := failed, resow := .awaiting }
    let s := { s with stw := { s.stw with nv := { s.stw.nv with pcRetired := sinsert k pc s.stw.nv.pcRetired } } }
    raiseEvent .pcRetired k (detail [(10, 1, k), (11, 1, pc), (12, 1, cause)]) s

/-- The event MEM_CORRECTED, at most once per 1 ms (R186, R189). -/
def reportCorrected (p l : Nat) (s : State) : State :=
  let d := { s.dev p with corrSince := (s.dev p).corrSince + 1, corrLine := l }
  let due : Bool := match d.corrAt with
    | some t => t + msCycles 1 ≤ s.cyc
    | none => true
  if due then
    raiseEvent .memCorrected p
      (detail [(0, 8, l), (8, 1, s.mpaClass l), (9, 1, if p < 12 then 0 else 1), (10, 1, if p < 12 then p else p - 12),
        (11, 1, s.channel p ((mpaWindow l).map (·.2) |>.getD 0)), (12, 4, d.corrSince)])
      (s.setDev p { d with corrSince := 0, corrAt := some s.cyc })
  else s.setDev p d

/-- Adds a correction to its pseudo-channel's window, and retires it above the threshold (R192, R201). -/
def countPcCorr (k pc : Nat) (s : State) : State :=
  let w := s.aon / 25000000
  let s := if (s.dev k).corrWin = w then s
           else (each (List.range 32) (fun q s => s.setRg .memPcCorr 0 k q) s).updDev k (fun d => { d with corrWin := w })
  let s := s.incSat .memPcCorr 1 k pc
  let thr := s.rgBits .memRetireThr 0 16
  if thr ≠ 0 && s.rg .memPcCorr k pc > thr then retirePc k pc 2 false s else s

/-- Counts a line that the decoder has corrected (R186). -/
def countCorrected (l : Nat) (s : State) : State :=
  match mpaWindow l with
  | some (p, off) =>
    let s := if p < 12 then s.inc .memStkCorr 1 p else s.inc .memPkgCorr 1 (p - 12)
    let s := if p < 12 then (match s.rangeAt p off with
      | some e => s.inc .memRangeCorr 1 p e
      | none => s) else s
    let s := reportCorrected p l s
    if p < 12 then countPcCorr p (s.channel p off) s else s
  | none => s

/-- 16-bit symbols of a line of a class with its check code (R181, R182). -/
def lineSymbols (cls : Nat) : Nat := if cls = 2 then 34 else if cls = 1 then 33 else 32

/-- What the devices report by now of a line (R182, R186, DESIGN CHOICE, log entry 12): symbols that no longer hold what was
written, which the next read of the line meets; a correction of the inner code, which is counted; or an error that the inner code
cannot correct, which is counted on a class N line. -/
def reportFinding (f : Finding) (s : State) : State :=
  match f with
  | .errors line es =>
    let l := line / 64 * 64
    let mine := es.filter (fun e => e.1 < lineSymbols (s.mpaClass l))
    { s with memory := { s.memory with errs := sput [] s.memory.errs l (addSymbols (sget [] s.memory.errs l) mine) } }
  | .inner line =>
    (match mpaWindow line with
     | some (p, _) => if p < 12 then s.inc .memStkInner 1 p else s
     | none => s)
  | .innerFailed line =>
    (match mpaWindow line with
     | some (p, _) => if p < 12 && s.mpaClass line = 0 then s.inc .memStkDet 1 p else s
     | none => s)

/-- The memory with a line's bytes changed in the symbols of an error pattern. -/
def alterLine (l : Nat) (es : List (Nat × BitVec 16)) (s : State) : State :=
  { s with memory := { s.memory with mem := putBytes s.memory.mem l (xorBytes (bytesAt s.memory.mem l 64) (symbolBytes es)) } }

/-- Marks a line whose check code no longer fits its data: it stays detected until it is written whole (R187). -/
def markDetected (l : Nat) (s : State) : State :=
  { s with memory := { s.memory with marks := if s.memory.marks.contains l then s.memory.marks else s.memory.marks ++ [l] } }

/-- A read meets the device errors of a line: the decoder of its class corrects it, which is counted and written back, corrects it
wrongly, does not see the error, or finds the line detected (R182, R186, R187). -/
def meetErrors (l : Nat) (s : State) : State :=
  let es := sget [] s.memory.errs l
  let s := { s with memory := { s.memory with errs := serase s.memory.errs l } }
  match decodeErrors (s.mpaClass l) es with
  | .clean => s
  | .corrected => countCorrected l s
  | .miscorrected w => countCorrected l (alterLine l w s)
  | .unseen w => alterLine l w s
  | .detected w => markDetected l (alterLine l w s)

/-! ## Token buckets (R199, R214) -/

/-- Units of a byte in which buckets count: what a percentage of a bandwidth in bytes per µs brings in one cycle is whole in them. -/
def tokenUnit : Nat := 175000

/-- The bandwidth of a memory, in bytes per µs (R173, R174, R195). -/
def State.bytesPerUs (s : State) (p : Nat) : Nat :=
  if p ≥ 12 then 68300 else if (s.dev p).retired.isSome then 1190400 else 1228800

/-- The tokens missing from a bucket after its refill, at a rate in units per cycle. -/
def Bucket.missing (b : Bucket) (rate now : Nat) : Nat := b.used - rate * (now - b.since)

/-- Whether a bucket of a depth in bytes has the tokens of n bytes; a request larger than the bucket needs a full one.
DESIGN CHOICE, log entry 100. -/
def Bucket.has (b : Bucket) (rate now depth n : Nat) : Bool := b.missing rate now + min n depth * tokenUnit ≤ depth * tokenUnit

/-- A bucket from which the tokens of n bytes are taken. -/
def Bucket.take (b : Bucket) (rate now depth n : Nat) : Bucket :=
  { used := min (depth * tokenUnit) (b.missing rate now + n * tokenUnit), since := now }

/-- Bytes of the bucket of a hot stack (R199). -/
def hotDepth : Nat := 1048576

/-- The refill of the bucket of a hot stack: half of its bandwidth (R199). -/
def State.hotRate (s : State) (p : Nat) : Nat := 50 * s.bytesPerUs p

/-- Whether a hot stack has no tokens for n bytes at an address (R199). -/
def State.hotShort (s : State) (a n : Nat) : Bool :=
  match mpaWindow a with
  | some (p, _) => (s.dev p).level = .hot && !(s.dev p).hotTok.has (s.hotRate p) s.cyc hotDepth n
  | none => false

/-- n bytes of a request reach a memory: its stack leaves self-refresh, the time without a request begins anew, and a hot stack's
tokens are taken (R180, R199). -/
def wakeDev (a n : Nat) (s : State) : State :=
  match mpaWindow a with
  | some (p, _) =>
    let d := s.dev p
    if d.enabled && (d.st = .selfRefresh || d.quietAt.isSome || d.level = .hot) then
      s.setDev p { d with st := if d.st = .selfRefresh then .ready else d.st, quietAt := none,
                          hotTok := if d.level = .hot then d.hotTok.take (s.hotRate p) s.cyc hotDepth n else d.hotTok }
    else s
  | none => s

/-- What a read delivers: the bytes, and the lines that are detected (R187, R193). -/
structure ReadOut where
  data : List Byte
  bad  : List Nat
  deriving DecidableEq, Repr

/-- The lines that a range touches. -/
def linesOf (a n : Nat) : List Nat := (upFrom (a / 64) ((a % 64 + n + 63) / 64)).map (· * 64)

/-- Reads n bytes as they stand, class N bytes of a failed pseudo-channel as zero (R193). -/
def readRange (s : State) (a n : Nat) : ReadOut := { data := s.memBytes a n, bad := (linesOf a n).filter s.lineDetected }

/-- A controller reads lines: the decoder meets their errors, and each detected line is reported for its reader (R186, R187).
DEDUCED, log entry 79. -/
def meetLines (a n reader step : Nat) (s : State) : State :=
  let s := each ((s.memory.errs.map (·.1)).filter (fun l => a < l + 64 && l < a + n)) meetErrors s
  each ((linesOf a n).filter s.lineDetected) (fun l s => reportDetected l reader step s) s

/-- The effects of a read on the module: the stack wakes, and its lines are read (R180). -/
def noteRead (a n reader step : Nat) (s : State) : State := meetLines a n reader step (wakeDev a n s)

/-- Reads n bytes for a reader: what it delivers, and the module after it. -/
def readBy (reader step a n : Nat) (s : State) : ReadOut × State :=
  let s := noteRead a n reader step s
  (readRange s a n, s)

/-- Stores the check bytes of the data lines of a range whose entry is disabled, so that they stand in memory as its devices hold
them (R181, R184): those of data that is not zero, of lines with device errors, and of lines whose check code does not fit. -/
def storeChecks (a : Nat) (r : Range) (s : State) : State :=
  let hit (x : Nat) : Bool := a ≤ x && x < a + r.data
  let kept : List Nat := s.memory.mem.map (fun e => e.1 / 64 * 64)
  let wrong : List Nat := s.memory.errs.map (·.1)
  let lines : List Nat := ((kept ++ wrong ++ s.memory.marks).filter hit).dedup
  let s := each lines (fun l s =>
    let es := sget [] s.memory.errs l
    let code := if s.memory.marks.contains l then leBytes (if r.cls = 2 then 4 else 2) (Config.brokenCheck l).toNat
                else checkBytes r.cls (bytesAt s.memory.mem l 64)
    let code := xorBytes code (leBytes 2 (sget 0 es 32).toNat ++ leBytes 2 (sget 0 es 33).toNat)
    let s := alterLine l es s
    { s with memory := { s.memory with mem := putBytes s.memory.mem (a + r.data + checkOffset r.cls ((l - a) / 64)) code } }) s
  { s with memory := { s.memory with errs := s.memory.errs.filter (fun e => !hit e.1),
                                     marks := s.memory.marks.filter (fun l => !hit l) } }

/-! ## The transposing write (R148 to R156) -/

/-- A transposing window's registers (R155, R156). -/
structure Window where
  row  : Nat
  col  : Nat
  kb   : Nat
  nb   : Nat
  e    : Nat
  turn : Bool
  pr   : Nat
  pc   : Nat
  on   : Bool
  deriving DecidableEq, Repr

/-- Window w of stack k. -/
def State.xwin (s : State) (k w : Nat) : Window :=
  { row := s.rg .memXpwRowbase k w, col := s.rg .memXpwColbase k w, kb := s.rgBits .memXpwGeom 0 16 k w,
    nb := s.rgBits .memXpwGeom 16 16 k w, e := 1 + s.rgBits .memXpwGeom 32 1 k w, turn := s.rgBit .memXpwGeom 33 k w,
    pr := s.rgBits .memXpwPitch 0 24 k w * 64, pc := s.rgBits .memXpwPitch 32 24 k w * 64, on := s.rgBit .memXpwCtl 0 k w }

/-- The row-order range (R148). -/
def Window.rowRange (x : Window) : Nat × Nat := (x.row, 64 * x.kb * x.pr)
/-- The column-order range (R148). -/
def Window.colRange (x : Window) : Nat × Nat := (x.col, 64 * x.nb * x.pc)

/-- The enabled window whose row-order range holds an address. -/
def State.windowAt (s : State) (a : Nat) : Option (Nat × Nat) :=
  match mpaWindow a with
  | some (k, _) =>
    if k ≥ 12 then none
    else ((List.range 64).find? (fun w => let x := s.xwin k w
            x.on && x.rowRange.1 ≤ a && a < x.rowRange.1 + x.rowRange.2)).map (fun w => (k, w))
  | none => none

/-- The elements that a write of bytes carries: k, n and the element's bits (R149). Only whole elements are turned. -/
def Window.elements (x : Window) (a : Nat) (b : List Byte) : List (Nat × Nat × Nat) :=
  (List.range b.length).filterMap (fun i =>
    let o := a + i - x.row
    let k := o / x.pr
    let c := o % x.pr
    if c % x.e = 0 && c < 64 * x.nb * x.e && i + x.e ≤ b.length then some (k, c / x.e, leNat ((b.drop i).take x.e)) else none)

/-- Puts bytes at an address as they stand. -/
def putRaw (a : Nat) (b : List Byte) (s : State) : State := s.memPut a b

/-! ## Copying a harvested block (R330, R332) -/

/-- A write of the harvest engine: a range, if it is not a hole. -/
def enginePut (a : Nat) (b : List Byte) (s : State) : State := if s.mpaOk a b.length then s.memPut a b else s

/-- A block that fails its read-back twice: HARVEST_VERIFY_FAIL, and the image is marked failed (R332, R340). dest and op are
the event's destination and operation. -/
def verifyFailed (dest op i : Nat) (got : Quad) (s : State) : State :=
  let s := s.inc .hrvVerifyFails 1
  let s := raiseEvent .harvestVerifyFail 0 (detail [(0, 1, dest), (1, 1, op), (4, 4, i), (8, 8, got.toNat)]) s
  if op = 0 then updHarvest (fun h => { h with failed := true }) s else s

/-- Writes an image block and reads it back: a block that differs is written once more, and one that differs again has failed. -/
def writeVerified (dest op i a : Nat) (b : List Byte) (s : State) : State :=
  let (r1, s) := readBy 4 s.oldestStep a b.length (enginePut a b s)
  if crc64 r1.data = crc64 b then s
  else
    let (r2, s) := readBy 4 s.oldestStep a b.length (enginePut a b s)
    if crc64 r2.data = crc64 b then s else verifyFailed dest op i (crc64 r2.data) s

/-- Copies source block i of the harvest in progress to the image: winnowed, written, read back, counted and cleared in the
bitmap (R330 to R332). -/
def copyBlock (i : Nat) (s : State) : State :=
  match s.hrv.op.bind (fun h => segAt h.segs i) with
  | none => s
  | some (g, j) =>
    let a := g.base + j * 0x10000
    let (r, s) := readBy 4 s.oldestStep a 0x10000 s
    let w := winnow g.mode r.data
    let s := writeVerified 0 0 i (s.rg .hrvAreaBase + g.blockOff j) w.bytes s
    let one (h : HarvestOp) : HarvestOp :=
      { h with crcs := sput 0 h.crcs i (crc64 w.bytes), ovf := h.ovf + w.ovf, udf := h.udf + w.udf, nonf := h.nonf + w.nonf }
    let s := updHarvest one s
    clearBlock i (s.setRgBits .hrvProgress 0 32 (s.rgBits .hrvProgress 0 32 + 1))

/-- The blocks that a copy-ahead of a block copies with it: the next 15 uncopied blocks of its segment (R330). -/
def State.aheadOf (s : State) (i : Nat) : List Nat :=
  match s.hrv.op.bind (fun h => (segBlocks 0 h.segs).find? (fun x => x.1 ≤ i && i < x.1 + x.2.blocks)) with
  | some x => ((upFrom (i + 1) (x.1 + x.2.blocks - (i + 1))).filter s.uncopied).take 15
  | none => []

/-- The copy-ahead of a block: it is copied ahead of the writes to it, and the next uncopied ones with it. -/
def copyAheadOf (i : Nat) (s : State) : State := each (i :: s.aheadOf i) copyBlock s

/-- Copies the blocks that a write to a range would change before the engine has copied them, for which the write is held once
(R330). -/
def copyFirst (a n : Nat) (s : State) : State :=
  match s.hrv.op with
  | some h =>
    if s.copyHeld a n then
      each ((h.touched a n).filter s.uncopied) (fun i s => if s.uncopied i then copyAheadOf i s else s) (s.inc .hrvHolds 1)
    else s
  | none => s

/-- Writes bytes at an address without turning them; a harvested block is copied first, and the digest unit folds the bytes
(R308, R330). -/
def rawWrite (a : Nat) (b : List Byte) (s : State) : State := foldRange a b.length (putRaw a b (copyFirst a b.length s))

/-- The address of turned row n of block (i, j) of a window. -/
def Window.turned (x : Window) (i j n : Nat) : Nat := x.col + (64 * j + n) * x.pc + 64 * i * x.e

/-- Writes the elements of turned row n of an assembly buffer: the whole lines of a row that is complete, and else the elements
that have arrived, merged into their lines (R150, R151). -/
def AsmBuf.turnRow (x : Window) (b : AsmBuf) (n : Nat) (s : State) : State :=
  let es := b.elems.filter (fun e => e.1 % 64 = n)
  let a := x.turned b.i b.j n
  if es.length = 64 then putRaw a (es.flatMap (fun e => leBytes x.e e.2.toNat)) s
  else each es (fun e s => putRaw (a + e.1 / 64 * x.e) (leBytes x.e e.2.toNat) s) s

/-- Writes the elements of an assembly buffer to their turned places, and frees it; the digest unit folds the turned lines
(R150, R151, R308). -/
def spillBuf (b : AsmBuf) (s : State) : State :=
  let x := s.xwin b.stack b.window
  let s := each (List.range 64) (fun n s => copyFirst (x.turned b.i b.j n) (64 * x.e) s) s
  let s := each (List.range 64) (b.turnRow x) s
  let s := each (List.range 64) (fun n s => foldRange (x.turned b.i b.j n) (64 * x.e) s) s
  { s with memory := { s.memory with asm := s.memory.asm.filter (· ≠ b) } }

/-- Flushes an incomplete block (R151). -/
def flushBuf (b : AsmBuf) (s : State) : State := (spillBuf b s).inc .memXpwFlushes 1 b.stack b.window

/-- Assembly buffers of one controller (R150). -/
def asmLimit : Nat := 16

/-- Replaces the list of assembly buffers. -/
def State.setAsm (s : State) (l : List AsmBuf) : State := { s with memory := { s.memory with asm := l } }

/-- Whether a buffer holds block (i, j) of a window. -/
def AsmBuf.holds (b : AsmBuf) (k w i j : Nat) : Bool := b.stack == k && b.window == w && b.i == i && b.j == j

/-- Gives a block a buffer: a buffer of another writer is flushed first, and when all are taken the oldest is (R151). -/
def takeBuf (k w i j writer : Nat) (s : State) : State :=
  let s := match s.memory.asm.find? (fun b => b.holds k w i j) with
    | some b => if b.pass = writer then s else flushBuf b s
    | none => s
  match s.memory.asm.find? (fun b => b.holds k w i j) with
  | some _ => s
  | none =>
    let mine : List AsmBuf := s.memory.asm.filter (fun b => b.stack == k)
    let s := match mine with
      | b :: _ => if mine.length ≥ asmLimit then flushBuf b s else s
      | [] => s
    let fresh : AsmBuf := { stack := k, window := w, i := i, j := j, pass := writer, elems := [], acks := [] }
    s.setAsm (s.memory.asm ++ [fresh])

/-- The buffer with one more element, and one more acknowledgement that waits for it. -/
def AsmBuf.add (b : AsmBuf) (key : Nat) (v : BitVec 16) (ack : Option Nat) : AsmBuf :=
  { b with elems := sinsert key v b.elems,
           acks := match ack with
             | some x => if b.acks.contains x then b.acks else b.acks ++ [x]
             | none => b.acks }

/-- Adds one element to its block's buffer, for a writer (a pass's sequence number plus one, or 0 for every other unit) and
a transfer whose acknowledgement waits; a block whose every element has arrived is written (R150, R151). -/
def addElement (k w writer : Nat) (ack : Option Nat) (el : Nat × Nat × Nat) (s : State) : State :=
  let i := el.1 / 64
  let j := el.2.1 / 64
  let s := takeBuf k w i j writer s
  let s := s.setAsm (s.memory.asm.map (fun b =>
    if b.holds k w i j then b.add (el.1 % 64 * 64 + el.2.1 % 64) (BitVec.ofNat 16 el.2.2) ack else b))
  match s.memory.asm.find? (fun b => b.holds k w i j) with
  | some b => if b.elems.length = 4096 then (spillBuf b s).inc .memXpwBlocks 1 k w else s
  | none => s

/-- A write at a controller: turned where a window's row-order range holds it, and written as addressed unless the window is
in TURN mode (R149, R153). -/
def ctrlWriteLine (writer : Nat) (ack : Option Nat) (a : Nat) (b : List Byte) (s : State) : State :=
  let s := wakeDev a b.length s
  match s.windowAt a with
  | some (k, w) =>
    let x := s.xwin k w
    let s := if x.turn then s else rawWrite a b s
    each (x.elements a b) (addElement k w writer ack) s
  | none => rawWrite a b s

/-- A write of any length, line by line. fuel bounds the lines. -/
def ctrlWriteFuel (writer : Nat) (ack : Option Nat) : Nat → Nat → List Byte → State → State
  | 0, _, _, s => s
  | f + 1, a, b, s =>
    if b = [] then s
    else
      let n := 64 - a % 64
      ctrlWriteFuel writer ack f (a + n) (b.drop n) (ctrlWriteLine writer ack a (b.take n) s)

/-- A write of any length at the controllers. -/
def ctrlWrite (writer : Nat) (ack : Option Nat) (a : Nat) (b : List Byte) (s : State) : State :=
  ctrlWriteFuel writer ack (b.length / 64 + 2) a b s

/-- Flushes every incomplete block of a writer (R151). -/
def flushWriter (writer : Nat) (s : State) : State :=
  each (s.memory.asm.filter (fun b => b.pass == writer)) flushBuf s

/-- Flushes every buffer of a window (R151). -/
def flushWindow (k w : Nat) (s : State) : State :=
  each (s.memory.asm.filter (fun b => b.stack == k && b.window == w)) flushBuf s

/-- Whether an assembly buffer still holds the acknowledgement of a transfer (R150). -/
def State.ackHeld (s : State) (x : Nat) : Bool := s.memory.asm.any (fun b => b.acks.contains x)

/-! ## Holds at a controller -/

/-- Whether a request to an address waits: its range initialises, its pseudo-channel is paused (R184, R190). -/
def State.reqHeld (s : State) (a : Nat) : Bool :=
  match mpaWindow a with
  | none => false
  | some (p, off) =>
    (s.dev p).paused.contains (s.channel p off) ||
    (p < 12 && (match s.rangeAt p off with
      | some e => (s.range p e).busy
      | none => false))

/-- Whether some requests wait: a range initialises or a pseudo-channel is paused. -/
def State.someHeld (s : State) : Bool :=
  s.memory.dev.any (fun e => e.2.paused != [] || (e.1 < Config.numStacks && (List.range 64).any (fun r => (s.range e.1 r).busy)))

/-- Whether a request to any byte of a range waits. -/
def State.rangeHeld (s : State) (a n : Nat) : Bool :=
  s.someHeld && (upFrom (a / 256) ((a % 256 + n + 255) / 256)).any (fun g => s.reqHeld (g * 256))

/-- Whether a request of a gatherer to a line of a range stands in a controller's order (R212). -/
def State.lineQueued (s : State) (a n : Nat) : Bool :=
  s.gath.xfers.any (fun x => x.st = .requested && x.node == 0 && a < x.mpa + 64 * x.lines && x.mpa < a + n)

/-- Whether a request of an engine or of the remote service unit to a range waits: for its range, for its pseudo-channel, for the
tokens of a hot stack, or behind an earlier request to one of its lines (R184, R190, R199, R212).
DESIGN CHOICE, log entry 99. -/
def State.engineHeld (s : State) (a n : Nat) : Bool := s.rangeHeld a n || s.lineQueued a n || s.hotShort a n

end Sys2Proof.Machine
end

