-- ==== Sys2Proof/Machine/Packet.lean ====
section
/-! DEFINITION. Packets and flits of the Plynar fabric as bytes (R253, R254, R257 to R260), and how a packet is routed and
queued at a port (R256, R262 to R266). -/

namespace Sys2Proof.Machine

set_option Elab.async false

/-! ## Check codes -/

/-- One bit of the reflected CRC-32 of IEEE 802.3 (R259). -/
def crc32Bit (c : BitVec 32) : BitVec 32 := if c.getLsbD 0 then (c >>> 1) ^^^ 0xEDB88320#32 else c >>> 1

/-- The CRC-32 of bytes (R259). -/
def crc32 (b : List Byte) : BitVec 32 :=
  ~~~(b.foldl (fun c (x : Byte) => crc32Bit^[8] (c ^^^ BitVec.setWidth 32 x)) 0xFFFFFFFF#32)

/-! ## Packets -/

/-- A packet's header, payload and trailer signal (R258, R259). spec holds the type-specific bytes 31:22. -/
structure Packet where
  type    : Nat
  flags   : Nat
  dst     : Nat
  src     : Nat
  xid     : Nat
  idx     : Nat
  hop     : Nat
  inc     : Nat
  addr    : Nat
  spec    : List Byte
  payload : List Byte
  tally   : Nat
  sigInc  : Nat
  deriving DecidableEq, Repr

/-- The lane that a packet type belongs to (R260); none for an invalid type. -/
def laneOf : Nat → Option Nat
  | 0x01 => some 0 | 0x02 => some 2 | 0x03 => some 0 | 0x04 => some 2 | 0x05 => some 0 | 0x06 => some 2
  | 0x10 => some 1 | 0x11 => some 1 | 0x20 => some 3 | 0x21 => some 3
  | 0x30 => some 2 | 0x31 => some 2 | 0x32 => some 2 | 0x34 => some 2 | 0x35 => some 2 | 0x38 => some 2 | 0x39 => some 2
  | _ => none

/-- The first n bytes of a list, padded with zeros. -/
def padTo (n : Nat) (b : List Byte) : List Byte := b.take n ++ List.replicate (n - b.length) 0

/-- The 32-byte header (R258). -/
def Packet.header (p : Packet) : List Byte :=
  leBytes 1 p.type ++ leBytes 1 p.flags ++ leBytes 2 p.dst ++ leBytes 2 p.src ++ leBytes 2 p.payload.length
    ++ leBytes 4 p.xid ++ leBytes 2 p.idx ++ leBytes 1 p.hop ++ leBytes 1 p.inc ++ leBytes 6 p.addr ++ padTo 10 p.spec

/-- The bytes of a packet (R257, R259). -/
def Packet.bytes (p : Packet) : List Byte :=
  let hp := p.header ++ p.payload
  hp ++ leBytes 4 (crc32 hp).toNat ++ leBytes 2 p.tally ++ leBytes 2 p.sigInc ++ leBytes 8 0

/-- Flits of a packet with L payload bytes (R257). -/
def flitCount (l : Nat) : Nat := (48 + l + 55) / 56

/-- A packet read from bytes; the length field says how many are the payload's. -/
def parsePacket (b : List Byte) : Packet :=
  let l := numIn b 6 2
  { type := numIn b 0 1, flags := numIn b 1 1, dst := numIn b 2 2, src := numIn b 4 2, xid := numIn b 8 4, idx := numIn b 12 2,
    hop := numIn b 14 1, inc := numIn b 15 1, addr := numIn b 16 6, spec := (b.drop 22).take 10,
    payload := (b.drop 32).take l, tally := numIn b (32 + l + 4) 2, sigInc := numIn b (32 + l + 6) 2 }

/-- A number in n bytes of the type-specific part, by header offset (22 to 31). -/
def Packet.specNum (p : Packet) (off n : Nat) : Nat := numIn p.spec (off - 22) n

/-- Whether a packet is the first, or the last, of its transfer, and carries a signal (R258). -/
def Packet.first (p : Packet) : Bool := p.flags.testBit 2
def Packet.last (p : Packet) : Bool := p.flags.testBit 3
def Packet.hasSig (p : Packet) : Bool := p.flags.testBit 4

/-- The detected-line mask of a data packet (R260, R261). -/
def Packet.mask (p : Packet) : Nat := p.specNum 23 8

/-- A mask from a list of flags. -/
def maskOf (l : List Bool) : Nat := l.foldr (fun b n => (if b then 1 else 0) + 2 * n) 0

/-! ## Routing and queueing -/

/-- The queue of packets whose route has no port that is up (R269). -/
def parkPort : Nat := 18

/-- The ports of a node's route (R264); the entries of 0x0000 and 0xFFFF are ignored (R279). -/
def State.routeOf (s : State) (node : Nat) : List Nat :=
  if node = 0 || node = 0xFFFF then [] else setBits (BitVec.ofNat 18 (s.rg .fabRoute node))

/-- The ports of a node's route that are up and not being disabled (R366). -/
def State.upPorts (s : State) (node : Nat) : List Nat :=
  (s.routeOf node).filter (fun p => (s.port p).st = .up && (s.disabling 2 p).isNone)

/-- Transfers to a node and lane that are not yet acknowledged. -/
def State.earlier (s : State) (node vl : Nat) : List OutXfer := s.fab.out.filter (fun x => x.node == node && x.vl == vl)

/-- The port for a transfer, and the transfers on other ports that its last packet waits for (R264). -/
def choosePort (s : State) (node vl : Nat) (ordered : Bool) : Nat × List Nat :=
  let up := s.upPorts node
  if vl = 1 || vl = 2 then ((up.head?).getD parkPort, [])
  else
    let before := s.earlier node vl
    match if ordered then before.getLast? else none with
    | some x =>
      let port := if (s.disabling 2 x.port).isSome then (up.head?).getD parkPort else x.port
      (port, (before.filter (fun y => y.port != port)).map (·.xid))
    | none => ((up[s.fab.turn % max 1 up.length]?).getD parkPort, [])

/-- Puts packets on a port's queue. -/
def enqueue (port : Nat) (ps : List OutPacket) (s : State) : State := s.updPort port (fun p => { p with txq := p.txq ++ ps })

/-- The flags of the k-th of n packets on a lane, the last one with or without a signal (R258). -/
def packetFlags (vl k n : Nat) (sig : Bool) : Nat :=
  vl + (if k = 0 then 4 else 0) + (if k + 1 = n then 8 else 0) + (if sig && k + 1 = n then 16 else 0)

/-- A piece of a transfer's payload: address, bytes and type-specific bytes. -/
structure Piece where
  addr : Nat
  spec : List Byte
  data : List Byte
  deriving DecidableEq, Repr

/-- Cuts a range into pieces that span no 4 KiB boundary of the target (R261); mask gives the detected lines. -/
def cutFuel : Nat → Nat → List Byte → List Bool → List Piece
  | 0, _, _, _ => []
  | f + 1, a, b, d =>
    if b = [] then []
    else
      let n := min b.length (4096 - a % 4096)
      let ls := (n + 63) / 64
      { addr := a, spec := 0 :: leBytes 8 (maskOf (d.take ls)), data := b.take n } :: cutFuel f (a + n) (b.drop n) (d.drop ls)

/-- The pieces of a write. -/
def cut (a : Nat) (b : List Byte) (d : List Bool) : List Piece := cutFuel (b.length / 4096 + 2) a b d

/-- A packet of this module. -/
def State.ownPacket (s : State) (type node xid idx flags : Nat) (x : Piece) (tally inc : Nat) : Packet :=
  { type := type, flags := flags, dst := node, src := s.nodeId, xid := xid, idx := idx, hop := s.rgBits .fabCfg 0 8,
    inc := s.ownInc, addr := x.addr, spec := x.spec, payload := x.data, tally := tally, sigInc := inc }

/-- The queue entry of a packet. -/
def Packet.out (p : Packet) (vl : Nat) (req : Bool) (after : List Nat) : OutPacket :=
  { bytes := p.bytes, vl := vl, req := req, xid := p.xid, node := p.dst, after := after }

/-- The type of a queued packet. -/
def OutPacket.type (p : OutPacket) : Nat := numIn p.bytes 0 1

/-- Takes the next transfer id, skipping those still held (R258, R431). fuel bounds the search. -/
def freeXid (s : State) : Nat → Nat → Nat
  | 0, x => x
  | f + 1, x => if s.fab.out.any (fun o => o.xid == x % 2 ^ 32) then freeXid s f (x + 1) else x % 2 ^ 32

/-- Sends one transfer of packets that its receiver acknowledges (R262, R264): the state and the transfer's id. A signal, if
any, is carried by the last packet (R232). -/
def sendXfer (type node vl : Nat) (ordered req : Bool) (purpose : Purpose) (ps : List Piece) (sig : Option (Nat × Nat))
    (s : State) : State × Nat :=
  let xid := freeXid s (s.fab.out.length + 1) s.fab.nextXid
  let lo := (ps.head?.map (·.addr)).getD 0
  let hi := ps.foldl (fun m x => max m (x.addr + x.data.length)) lo
  let overlaps := s.fab.out.any (fun o => o.node == node && o.vl == vl && o.lo < hi && lo < o.hi)
  let (port, after) := choosePort s node vl (ordered || sig.isSome || overlaps)
  let n := ps.length
  let pkts := ps.zipIdx.map (fun x =>
    let k := x.2
    (s.ownPacket type node xid k (packetFlags vl k n sig.isSome) x.1
      (if k + 1 = n then (sig.map (·.1)).getD 0 else 0) (if k + 1 = n then (sig.map (·.2)).getD 0 else 0)).out vl req
      (if k + 1 = n then after else []))
  let o : OutXfer := { xid := xid, node := node, vl := vl, port := port, packets := n, acked := 0, lo := lo, hi := hi,
                       ordered := ordered || sig.isSome || overlaps, purpose := purpose, since := s.cyc, extend := 0 }
  (enqueue port pkts { s with fab := { s.fab with nextXid := xid + 1, turn := s.fab.turn + 1, out := s.fab.out ++ [o] } }, xid)

/-- Sends one packet that no receiver acknowledges: messages, responses, signals, collective and seal packets. The lane
follows from the type; port is none where the route decides; pass is the pass whose signal the packet is (R144). -/
def sendPacketOf (pass : Option Nat) (type node xid idx : Nat) (port : Option Nat) (x : Piece) (sig : Option (Nat × Nat))
    (s : State) : State :=
  let vl := (laneOf type).getD 0
  let (port, after) := match port with
    | some q => (q, [])
    | none => choosePort s node vl (type = 0x05)
  let p := s.ownPacket type node xid idx (packetFlags vl 0 1 sig.isSome) x ((sig.map (·.1)).getD 0) ((sig.map (·.2)).getD 0)
  enqueue port [{ p.out vl false after with sigPass := pass }] s

/-- Sends one packet that belongs to no pass's signals. -/
def sendPacket (type node xid idx : Nat) (port : Option Nat) (x : Piece) (sig : Option (Nat × Nat)) (s : State) : State :=
  sendPacketOf none type node xid idx port x sig s

/-- Sends a message with a fresh transfer id. -/
def sendMessage (type node : Nat) (x : Piece) (s : State) : State :=
  let xid := freeXid s (s.fab.out.length + 1) s.fab.nextXid
  sendPacket type node xid 0 none x none { s with fab := { s.fab with nextXid := xid + 1 } }

/-- Where an answer goes: by the route when it is valid, otherwise by the port of arrival (R265). -/
def State.answerPort (s : State) (node port : Nat) : Option Nat := if (s.routeOf node).isEmpty then some port else none

/-- The type-specific bytes from (header offset, size, value) fields. -/
def specBytes (fs : List (Nat × Nat × Nat)) : List Byte :=
  leBytes 10 (fs.foldl (fun v f => v ||| (f.2.2 % 256 ^ f.2.1 * 256 ^ (f.1 - 22))) 0)

end Sys2Proof.Machine
end

