-- ==== Sys2Proof/Machine/Gather.lean ====
section
/-! DEFINITION. Gatherers as shared operations: how a move becomes transfers, tags and credit floors, the return of a tag, and
what becomes of the transfers of an abandoned pass (R203 to R218). -/

namespace Sys2Proof.Machine

set_option Elab.async false

/-! ## Transfers -/

/-- A transfer in flight. -/
def State.xfer? (s : State) (x : Nat) : Option Xfer := s.gath.xfers.find? (fun y => y.id == x)
/-- Changes a transfer. -/
def State.updXfer (s : State) (x : Nat) (f : Xfer → Xfer) : State :=
  { s with gath := { s.gath with xfers := s.gath.xfers.map (fun y => if y.id = x then f y else y) } }
/-- Removes a transfer: its tag returns. A shared tag that returns ends the window of its gatherer's buffer-cycle watch
(R209). -/
def State.dropXfer (s : State) (x : Nat) : State :=
  let w := (s.gath.xfers.filter (fun y => y.id == x && y.reserve = some false)).foldl (fun m y => serase m y.gath) s.gath.window
  { s with gath := { s.gath with xfers := s.gath.xfers.filter (fun y => y.id != x), window := w } }

/-- Bytes of a transfer. -/
def Xfer.bytes (x : Xfer) : Nat := x.lines * 64

/-- One line of a move: its memory address and its bin line (R121, R122). -/
structure MoveLine where
  mpa : Int
  bin : Nat
  deriving DecidableEq, Repr

/-- The factor of R115 by which a GAUGE buffer's moves are scaled: L over w. -/
def gaugeRatio (b : BufEntry) (f : Nat) : Nat × Nat := if b.fmt = 15 then (rowLines f, b.width) else (1, 1)

/-- The number of lines of a move in the format in force (R115). -/
def moveCount (b : BufEntry) (f lines : Nat) : Nat := let r := gaugeRatio b f; lines * r.1 / r.2

/-- The memory address of line j of a move (R122), every term but the base scaled under R115. -/
def moveMpa (q : SeqState) (b : BufEntry) (x : Stream) (f : Nat) (m : MoveF) (j : Nat) : Int :=
  let r := gaugeRatio b f
  let sc : Int → Int := fun v => v * r.1 / r.2
  let n := moveCount b f m.lines
  let run := if x.run = 0 then n else x.run * r.1 / r.2
  x.base + 64 * (sc m.off + sc (q.counter 1 * x.st0) + sc (q.counter 2 * x.st1) + sc (q.counter 3 * x.st2)
    + (j / run : Nat) * sc x.pitch + (j % run : Nat))

/-- The lines of a move, in order. -/
def moveLines (q : SeqState) (p : Place) (x : Stream) (m : MoveF) : List MoveLine :=
  (List.range (moveCount p.buf p.fmt m.lines)).map (fun j =>
    { mpa := moveMpa q p.buf x p.fmt m j, bin := p.buf.lineAddr p.half (p.line.toNat + j) })

/-- Groups consecutive lines into transfers: consecutive addresses within one aligned 256-byte granule (R204). Each group is
a first address and the bin lines. -/
def groupLines : List (Nat × Nat) → List (Nat × List Nat)
  | [] => []
  | (a, b) :: rest =>
    match groupLines rest with
    | (a', bs) :: gs => if a' = a + 64 && a / 256 = a' / 256 then (a, b :: bs) :: gs else (a, [b]) :: (a', bs) :: gs
    | [] => [(a, [b])]

/-- What the transfers of one move share. -/
structure MoveCtx where
  gath     : Nat
  tile     : Nat
  pass     : Nat
  stream   : Nat
  prio     : Nat
  deadline : Bool
  move     : Nat
  write    : Bool
  node     : Nat
  fmt      : Nat
  issued   : Bool
  refetch  : Bool
  order    : Nat
  deriving DecidableEq, Repr

/-- Adds a waiting transfer. -/
def addXfer (c : MoveCtx) (mpa : Nat) (bins : List Nat) (lines : Nat) (data : List Byte) (block : Option (Nat × Nat))
    (s : State) : State :=
  let x : Xfer :=
    { id := s.gath.nextId, gath := c.gath, tile := c.tile, pass := c.pass, stream := c.stream, prio := c.prio,
      deadline := c.deadline, move := c.move, write := c.write, node := c.node, mpa := mpa, lines := lines, bins := bins,
      fmt := c.fmt, reserve := none, issued := c.issued, st := .waiting, data := data, detected := [], discard := false,
      refetch := c.refetch, block := block, since := s.cyc, order := c.order }
  { s with gath := { s.gath with xfers := s.gath.xfers ++ [x], nextId := s.gath.nextId + 1 } }

/-- The packets that the transfers of a remote move make: each takes up to 16 consecutive transfers of contiguous addresses
within 4 KiB (R261). The result pairs each group with its packet index. -/
def packetIndex : Nat → Nat → Nat → List (Nat × List Nat) → List (Nat × (Nat × List Nat))
  | _, _, _, [] => []
  | k, next, used, (a, bs) :: gs =>
    if used ≠ 0 && used < 16 && a = next && a % 4096 ≠ 0 then (k, (a, bs)) :: packetIndex k (a + 64 * bs.length) (used + 1) gs
    else
      let k' := if used = 0 then k else k + 1
      (k', (a, bs)) :: packetIndex k' (a + 64 * bs.length) 1 gs

/-! ## Tags and credit floors (R207, R208) -/

/-- Tags that a pass reserves at a gatherer (R208). -/
def Pass.reserve (p : Pass) (g : Nat) : Nat :=
  ((p.img.streams.filter (fun x => x.gatherer == g)).map (fun x => x.floor * 8 * p.tiles.length)).sum

/-- Tags reserved at a gatherer by every resident and suspended pass (R208). -/
def State.reserved (s : State) (g : Nat) : Nat :=
  ((s.passes.filter (fun p => p.ending.isNone)).map (fun p => p.reserve g)).sum

/-- Transfers that hold a tag of a gatherer. -/
def State.tagged (s : State) (g : Nat) : List Xfer := s.gath.xfers.filter (fun x => x.gath == g && x.reserve.isSome)

/-- Whether the pass of a transfer still holds its reservation: until it retires or is abandoned (R208). -/
def State.reserves (s : State) (x : Xfer) : Bool := (s.pass? x.pass).any (fun p => p.ending.isNone)

/-- Shared tags of a gatherer that are held; a reserved tag counts as shared once its pass has released its reservation
(R208). -/
def State.sharedHeld (s : State) (g : Nat) : Nat :=
  (s.tagged g).countP (fun x => x.reserve == some false || !s.reserves x)

/-- Size of the shared part of a gatherer. -/
def State.sharedSize (s : State) (g : Nat) : Nat := Config.numTags - s.reserved g

/-- Reserved tags that a stream of a pass holds on a tile. -/
def State.reserveHeld (s : State) (x : Xfer) : Nat :=
  (s.tagged x.gath).countP (fun y => y.pass == x.pass && y.tile == x.tile && y.stream == x.stream && y.reserve == some true)

/-- The floor of a transfer's stream, in tags; an abandoned pass has none (R208). -/
def State.floorTags (s : State) (x : Xfer) : Nat :=
  if s.reserves x then (((s.pass? x.pass).bind (fun p => p.img.streams[x.stream]?)).map (fun y => y.floor * 8)).getD 0 else 0

/-- Whether a tag can be drawn for a transfer, and from which part: the reserve first (R207). A gatherer never has more than its
2,048 tags out (R204, R208). -/
def State.tagFor (s : State) (x : Xfer) : Option Bool :=
  if Config.numTags ≤ (s.tagged x.gath).length then none
  else if s.reserveHeld x < s.floorTags x then some true
  else if s.sharedHeld x.gath < s.sharedSize x.gath then some false
  else none

/-- Whether a read transfer, or one that it will bring about, is still to be requested: it holds no tag, or it is a header of a
compressed block that has not landed, whose granules it will ask for (R204, R207). -/
def Xfer.unrequested (x : Xfer) : Bool :=
  !x.write && ((x.st = .waiting && x.reserve.isNone) || (x.node = 0 && x.block.any (·.2 = 0) && x.st ≠ .landed))

/-- Whether a transfer waits for a tag: it may be requested, in program order on its stream and tile, and not before its GET
issues where R206 or R209 forbid fetching ahead. -/
def State.mayRequest (s : State) (x : Xfer) : Bool :=
  x.st = .waiting && x.reserve.isNone && (x.issued || !x.refetch) &&
  (x.write || !(s.gath.xfers.any (fun y =>
    y.unrequested && y.pass = x.pass && y.tile = x.tile && y.stream = x.stream && y.move < x.move)))

/-- Whether one waiting transfer takes precedence over another (R207). -/
def Xfer.before (x y : Xfer) : Bool :=
  if x.deadline ≠ y.deadline then x.deadline
  else if x.prio ≠ y.prio then x.prio > y.prio
  else if x.order ≠ y.order then x.order < y.order
  else x.id < y.id

/-- The waiting transfer of a gatherer that is granted next. -/
def State.nextGrant (s : State) (g : Nat) : Option Xfer :=
  (s.gath.xfers.filter (fun x => x.gath == g && s.mayRequest x && (s.tagFor x).isSome)).foldl
    (fun best x => match best with
      | none => some x
      | some b => if x.before b then some x else some b) none

/-! ## The return of a tag -/

/-- Raises FETCH_CANCELLED once a gatherer holds no more transfers of an abandoned pass (R217, R221). -/
def fetchCancelled (q g : Nat) (s : State) : State :=
  match s.pass? q with
  | none => s
  | some p =>
    match sfind p.dropped g with
    | none => s
    | some (bytes, n) =>
      if s.gath.xfers.any (fun x => x.pass == q && x.gath == g) then s
      else
        let cause := match p.ending with
          | some (.cancelled, _) => 0
          | _ => 1
        raiseEvent .fetchCancelled g (detail [(0, 1, g), (1, 1, cause), (4, 8, bytes), (12, 4, n)])
          (s.updPass q (fun p => { p with dropped := serase p.dropped g }))

/-- A tag returns that an abandoned pass may have held: FETCH_CANCELLED is raised if it was the gatherer's last (R217). -/
def returnTag (x : Xfer) (s : State) : State := fetchCancelled x.pass x.gath (s.dropXfer x.id)

/-- Adds to what a gatherer discarded and dropped of a pass. -/
def noteDropped (q g bytes n : Nat) (s : State) : State :=
  s.updPass q (fun p => let o := sget (0, 0) p.dropped g; { p with dropped := sinsert g (o.1 + bytes, o.2 + n) p.dropped })

/-- Discards a transfer's data and returns its tag (R216). -/
def discardXfer (x : Xfer) (s : State) : State :=
  fetchCancelled x.pass x.gath
    ((noteDropped x.pass x.gath x.bytes 0 (s.dropXfer x.id)).inc .gthCancelled x.bytes x.gath)

/-- What becomes of one transfer of an abandoned pass (R216, R218). -/
def endXfer (x : Xfer) (s : State) : State :=
  if x.write then s
  else
    match x.st with
    | .waiting => noteDropped x.pass x.gath 0 1 (s.dropXfer x.id)
    | .requested => s.updXfer x.id (fun y => { y with discard := true })
    | .arrived => s.updXfer x.id (fun y => { y with discard := true })
    | _ => discardXfer x s

/-- The read transfers on the fabric that a pass awaits. -/
def remoteReads (s : State) (q : Nat) : List (Nat × Nat) :=
  (s.gath.xfers.filterMap (fun x =>
    if x.pass = q && !x.write && x.node ≠ 0 && x.st = .requested then x.block.map (fun b => (x.node, b.1)) else none)).dedup

/-- Ends the transfers of an abandoned pass: each as R216 states, and a cancel notice for each remote read (R218). -/
def endXfers (q : Nat) (s : State) : State :=
  let s := each (remoteReads s q) (fun r s => sendPacket 0x30 r.1 r.2 0 none { addr := 0, spec := [], data := [] } none
    { s with fab := { s.fab with cancelled := s.fab.cancelled ++ [r] } }) s
  let xs := s.gath.xfers.filter (fun x => x.pass == q)
  let s := each xs endXfer s
  each ((xs.map (·.gath)).dedup) (fun g s => fetchCancelled q g s) s

end Sys2Proof.Machine
end

