-- ==== Sys2Proof/Machine/Sync.lean ====
section
/-! DEFINITION. Tallies, signals and waits as shared operations (R225 to R235), and the state of a pass on a tile. -/

namespace Sys2Proof.Machine

set_option Elab.async false

/-! ## The state of a pass on a tile -/

/-- The sequencer state of a pass on a tile. -/
def State.seq? (s : State) (t q : Nat) : Option SeqState := (s.tile t).seqs.find? (fun x => x.pass == q)
/-- Changes the sequencer state of a pass on a tile. -/
def State.updSeq (s : State) (t q : Nat) (f : SeqState → SeqState) : State :=
  s.updTile t (fun tl => { tl with seqs := tl.seqs.map (fun x => if x.pass = q then f x else x) })
/-- The lowest free slot of a tile, 4 when none is free (R134). -/
def Tile.freeSlot (tl : Tile) : Nat :=
  ((List.range 4).find? (fun k => !tl.seqs.any (fun x => x.slot == k && !x.suspended))).getD 4

/-- A pass admitted over a pre-emption takes the slot that has become free (R140). A slot number of 4 says that it waits. -/
def Tile.fillSlot (tl : Tile) : Tile :=
  if tl.freeSlot = 4 then tl
  else
    match tl.seqs.find? (fun x => x.slot == 4) with
    | some w => { tl with seqs := tl.seqs.map (fun x => if x.pass = w.pass then { x with slot := tl.freeSlot } else x) }
    | none => tl

/-- Removes a pass from a tile: its slot is free. -/
def State.dropSeq (s : State) (t q : Nat) : State :=
  s.updTile t (fun tl => ({ tl with seqs := tl.seqs.filter (fun x => x.pass != q),
                                    running := if tl.running = some q then none else tl.running } : Tile).fillSlot)

/-- Closes loop bodies after an instruction at p - 1: the loops still open, bottom first, and where execution continues
(R124). fuel bounds the open loops. -/
def closeLoops : Nat → List LoopCtr → Nat → List LoopCtr × Nat
  | 0, ls, p => (ls, p)
  | f + 1, ls, p =>
    match ls.getLast? with
    | none => (ls, p)
    | some l =>
      if p = l.start + l.body then
        if l.cur + 1 < l.count then (ls.dropLast ++ [{ l with cur := l.cur + 1 }], l.start)
        else closeLoops f ls.dropLast p
      else (ls, p)

/-- The sequencer state with execution continuing at p. -/
def SeqState.goto (q : SeqState) (p : Nat) : SeqState :=
  let r := closeLoops (q.loops.length + 1) q.loops p
  { q with pc := r.2, loops := r.1, hold := none }

/-- The sequencer state after an instruction that falls through. -/
def SeqState.next (q : SeqState) : SeqState := q.goto (q.pc + 1)

/-! ## Tallies (R225 to R230) -/

/-- The distance a - b modulo 2^32. -/
def tdist (a b : Word) : Word := a - b

/-- What a signal did to a tally (R226, R230). -/
inductive SigOut where
  | applied | doubled | overrun
  deriving DecidableEq, Repr

/-- A signal of increment i at a tally (R226, R230). -/
def Tally.signal (y : Tally) (i : Word) : Tally × SigOut :=
  if y.gate then
    if y.count = 0 then ({ y with count := 1 }, .applied)
    else ({ y with double := if y.double = 0xFFFFFFFF#32 then y.double else y.double + 1 }, .doubled)
  else if (tdist (y.count + i) y.ref).msb then (y, .overrun)
  else ({ y with count := y.count + i }, .applied)

/-- Whether a wait for a target is satisfied (R227). -/
def Tally.meets (y : Tally) (target : Word) : Bool := !(tdist y.count target).msb

/-- The tally after a wait for a target completes (R227, R230). -/
def Tally.waited (y : Tally) (target : Word) : Tally :=
  let d := tdist target y.ref
  if !y.gate && d ≠ 0 && !d.msb then { y with ref := target } else y

/-- The tally after a TAKE (R228, R230). -/
def Tally.take (y : Tally) (a : Word) : Tally :=
  if y.gate then { y with count := 0 } else { y with count := y.count - a, ref := y.ref - a }

/-- A tally: local to a tile, or a module tally. -/
def State.tally (s : State) (dest : Option Nat) (k : Nat) : Tally :=
  match dest with
  | some t => sget .init (s.tile t).tallies k
  | none => s.mtally k

/-- Sets a tally. -/
def State.setTally (s : State) (dest : Option Nat) (k : Nat) (y : Tally) : State :=
  match dest with
  | some t => s.updTile t (fun tl => { tl with tallies := sput .init tl.tallies k y })
  | none => s.setMtally k y

/-- The tile field of an event: 0xFFFF for a module tally (R248). -/
def tileField (dest : Option Nat) : Nat := dest.getD 0xFFFF

/-- The source fields of TALLY_OVERRUN (R248). -/
def SigSource.fields : SigSource → Nat × Nat
  | .tile t => (0, t)
  | .remote n => (1, n)
  | .host => (2, 0xFFFF)
  | .coll => (3, 0xFFFF)

/-- Raises TALLY_DOUBLE, at most once per tally per 1 ms (R230). -/
def tallyDoubled (dest : Option Nat) (k : Nat) (y : Tally) (s : State) : State :=
  let due : Bool := match y.last with
    | some c => c + msCycles 1 ≤ s.cyc
    | none => true
  if due then
    (raiseEvent .tallyDouble (tileField dest)
      (detail [(0, 1, if dest.isSome then 0 else 2), (2, 2, tileField dest), (4, 2, k), (8, 4, y.double.toNat)])
      (s.setTally dest k { y with last := some s.cyc })).flag .tilSyncStatus 2
  else s

/-- Raises TALLY_OVERRUN (R226, R248). -/
def tallyOverrun (src : SigSource) (dest : Option Nat) (k : Nat) (y : Tally) (i : Nat) (s : State) : State :=
  (raiseEvent .tallyOverrun (tileField dest)
    (detail [(0, 1, if dest.isSome then 0 else 2), (1, 1, src.fields.1), (2, 2, tileField dest), (4, 2, k),
      (6, 2, src.fields.2), (8, 4, y.count.toNat), (12, 4, i)]) s).flag .tilSyncStatus 1

/-- Whether a hold is a wait on a tally of which kind 0 names the tile's own and kind 2 a module tally. -/
def Hold.waitsOn (h : Option Hold) (t : Nat) (dest : Option Nat) (k : Nat) : Option Word :=
  match h with
  | some (.wait kind tally target _ _) =>
    if tally = k && (if kind = 2 then dest = none else dest = some t) then some target else none
  | _ => none

/-- The passes on tiles, by tile and then slot. -/
def State.residents (s : State) : List (Nat × SeqState) :=
  s.tiles.flatMap (fun e => ((List.range 4).flatMap (fun k => e.2.seqs.filter (fun x => x.slot == k && !x.suspended)) ++
    e.2.seqs.filter (·.suspended)).map (fun x => (e.1, x)))

/-- The tally that a WAIT of a kind on a tile names: one of the tile's own, or for kind 2 a module tally (R123). -/
def waitDest (t kind : Nat) : Option Nat := if kind = 2 then none else some t

/-- Completes the wait that a pass holds on a tile, if its tally meets it (R227). -/
def evalWait (t q : Nat) (s : State) : State :=
  match (s.seq? t q).bind (·.hold) with
  | some (.wait kind k target _ _) =>
    let y := s.tally (waitDest t kind) k
    if y.meets target then (s.setTally (waitDest t kind) k (y.waited target)).updSeq t q SeqState.next else s
  | _ => s

/-- Subtracts this cycle's TAKEs from their tallies (R228, R230). -/
def applyTakes (s : State) : State :=
  each s.sync.takes (fun x s => s.setTally x.1 x.2.1 ((s.tally x.1 x.2.1).take x.2.2)) { s with sync := { s.sync with takes := [] } }

/-- A cycle ends at the tallies: its signals have been applied; its TAKEs follow, and then every pending WAIT is evaluated against
the resulting count (R229). -/
def tallyCycle (s : State) : State :=
  let s := applyTakes s
  each s.residents (fun x s => evalWait x.1 x.2.pass s) s

/-- Applies a signal at a tally of this module: the state, and whether it was refused (R226, R230). The waits on the tally are
evaluated when the cycle ends (R229). -/
def applySignal (src : SigSource) (dest : Option Nat) (k i : Nat) (s : State) : State × Bool :=
  let (y, o) := (s.tally dest k).signal (BitVec.ofNat 32 i)
  let s := s.setTally dest k y
  match o with
  | .applied => (s, false)
  | .doubled => (tallyDoubled dest k y s, false)
  | .overrun => (tallyOverrun src dest k y i s, true)

/-- A TAKE reaches a tally: it is applied after this cycle's signals (R228, R229). -/
def queueTake (dest : Option Nat) (k a : Nat) (s : State) : State :=
  { s with sync := { s.sync with takes := s.sync.takes ++ [(dest, k, BitVec.ofNat 32 a)] } }

/-- A module tally after this cycle's TAKEs. -/
def State.mtallyTaken (s : State) (k : Nat) : Tally :=
  s.sync.takes.foldl (fun y x => if x.1 = none && x.2.1 = k then y.take x.2.2 else y) (s.mtally k)

/-- Whether the trigger tally of an engine's next command satisfies a wait for need, counted from its reference (R227, R240,
R305). -/
def State.triggerMet (s : State) (k need : Nat) : Bool := let y := s.mtallyTaken k; y.meets (y.ref + BitVec.ofNat 32 need)

/-- An engine completes its wait for need at a trigger tally, and takes need from it (R227, R228, R240, R305). -/
def takeNeed (k need : Nat) (s : State) : State :=
  let y := s.mtally k
  let n := BitVec.ofNat 32 need
  s.setMtally k ((y.waited (y.ref + n)).take n)

/-! ## Signals on their way (R131 to R133, R231 to R235) -/

/-- Adds a signal that is on its way. -/
def addSignal (x : PendSig) (s : State) : State := { s with sync := { s.sync with signals := s.sync.signals ++ [x] } }

/-- Whether a transfer of a tile still keeps a fenced signal back: a read until it is written to the bin, a write until its
acknowledgement (R133). -/
def State.xferOpen (s : State) (x : Nat) : Bool := s.gath.xfers.any (fun y => y.id == x)

/-- Whether a write transfer to a node has not yet been handed to lane 0 (R232). -/
def State.xferUnsent (s : State) (x : Nat) : Bool := s.gath.xfers.any (fun y => y.id == x && y.st == .waiting)

/-- Whether a descriptor that writes memory has yet to make its bytes visible (R235): those of a DATA_IN are, unless an assembly
buffer holds some (R150). -/
def State.workWrites (s : State) : Work → Bool
  | .dataIn _ k => s.ackHeld k
  | .harvest => true
  | .recovery => true
  | .restore => true
  | _ => false

/-- Whether the fence conditions of a signal are met (R131, R133, R232, R235). -/
def State.fenceMet (s : State) (x : PendSig) : Bool :=
  match x.source with
  | .remote n => !x.fence.any (fun i => s.fab.inn.any (fun y => y.src == n && y.xid == i)) &&
      !x.lines.any s.ackHeld
  | .host => !s.host.inflight.any (fun i => x.fence.contains i.ring && (x.desc.any (fun d => i.id < d)) && s.workWrites i.work)
  | .coll => !x.lines.any s.ackHeld
  | _ =>
    !x.lines.any (fun l => s.gath.mesh.any (fun m => m.id == l)) &&
    !x.fence.any (if x.node = 0 then s.xferOpen else s.xferUnsent)

/-- The transfers of a tile that have issued: reads, and writes. -/
def State.tileXfers (s : State) (t : Nat) (f : Xfer → Bool) : List Nat :=
  (s.gath.xfers.filter (fun x => x.tile == t && x.issued && f x)).map (·.id)

/-- The transfer of the most recent of the PUTs that a signal follows, while its last packet is queued and carries no signal (R232). -/
def State.carrier (s : State) (x : PendSig) : Option OutXfer :=
  let last := x.fence.foldl max 0
  let newest : Option OutXfer := if x.fence = [] then none else s.fab.out.find? (fun o => o.node == x.node && o.vl == 0 && (match o.purpose with
    | .moves xs => xs.contains last
    | _ => false))
  newest.filter (fun o => (s.port o.port).txq.any (fun p => p.type == 0x01 && p.xid == o.xid && p.node == o.node &&
    (parsePacket p.bytes).last && !(parsePacket p.bytes).hasSig))

/-- Where a signal of kind 3 goes: into the trailer of the last packet of the most recent of the PUTs before it, whose transfer it
makes an ordered one, or behind them in a packet of its own (R232, R264). -/
def sendRemoteSignal (x : PendSig) (s : State) : State :=
  match s.carrier x with
  | some o =>
    let before := s.fab.out.takeWhile (fun y => !(y.xid == o.xid && y.node == o.node))
    let after := (before.filter (fun y => y.node == o.node && y.vl == 0 && y.port != o.port)).map (·.xid)
    let one (y : OutXfer) : OutXfer := if y.xid = o.xid && y.node = o.node then { y with ordered := true } else y
    let put (p : OutPacket) : OutPacket :=
      let k := parsePacket p.bytes
      if p.type = 0x01 && p.xid = o.xid && p.node = o.node && k.last then
        { p with bytes := ({ k with flags := k.flags ||| 16, tally := x.tally, sigInc := x.inc } : Packet).bytes,
                 sigPass := x.pass, after := after }
      else p
    ({ s with fab := { s.fab with out := s.fab.out.map one } } : State).updPort o.port (fun pt => { pt with txq := pt.txq.map put })
  | none =>
    let xid := freeXid s (s.fab.out.length + 1) s.fab.nextXid
    let s := { s with fab := { s.fab with nextXid := xid + 1 } }
    let (port, after) := choosePort s x.node 0 true
    let p := s.ownPacket 0x05 x.node xid 0 (packetFlags 0 0 1 true) { addr := 0, spec := [], data := [] } x.tally x.inc
    enqueue port [{ p.out 0 false after with sigPass := x.pass }] s

/-- Sends every signal of kind 3 whose earlier writes have all been handed to lane 0, in order (R232). -/
def sendRemoteSignals (s : State) : State :=
  each (s.sync.signals.filter (fun x => x.node ≠ 0 && s.fenceMet x))
    (fun x s => sendRemoteSignal x { s with sync := { s.sync with signals := s.sync.signals.filter (· ≠ x) } }) s

/-- Drops the signals of an abandoned pass that are not yet applied and have not left the module (R144). -/
def dropSignals (q : Nat) (s : State) : State :=
  let s := { s with sync := { s.sync with signals := s.sync.signals.filter (fun x => x.pass ≠ some q) } }
  each (List.range (Config.numPorts + 1)) (fun k s => s.updPort k (fun pt => { pt with
    txq := (pt.txq.filter (fun p => !(p.sigPass = some q && p.type ≠ 0x01))).map (fun p =>
      if p.sigPass = some q then
        let k := parsePacket p.bytes
        { p with bytes := ({ k with flags := k.flags &&& 0xEF, tally := 0, sigInc := 0 } : Packet).bytes, sigPass := none }
      else p) })) s

/-! ## Binder wires (R236, R237) -/

/-- Tiles whose input on a wire is high: those that wait at it, and those of its pass that have issued PEND. -/
def State.wireHigh (s : State) (w : Wire) : List Nat :=
  w.mask.filter (fun t => w.high.contains t || (match s.seq? t w.owner with
    | some x => x.pended
    | none => true))

/-- Gives the wires of a pass their masks (R236). -/
def bindWires (q : Nat) (ws : BitVec 16) (tiles : List Nat) (s : State) : State :=
  each (setBits ws) (fun w s =>
    { s with sync := { s.sync with wires := sinsert w { owner := q, mask := tiles, high := [], count := 0 } s.sync.wires } }) s

/-- Frees the wires of a pass (R236). -/
def freeWires (q : Nat) (s : State) : State :=
  { s with sync := { s.sync with wires := s.sync.wires.filter (fun e => e.2.owner != q) } }

end Sys2Proof.Machine
end

