-- ==== Sys2Proof/Machine/Settle.lean ====
section
/-! DEFINITION. Completing accepted descriptors, and the descriptors that wait for others to complete: FENCE, CANCEL and
DISABLE (R362 to R366, R444). -/

namespace Sys2Proof.Machine

set_option Elab.async false

/-- Completes an accepted descriptor: it leaves the list, and its completion goes to the companion ring. -/
def complete (d : Nat) (st : Status) (reason : Nat) (result payload : List Byte) (s : State) : State :=
  match s.inflight? d with
  | some i => finish i st reason result payload (s.dropInflight d)
  | none => s

/-- Completes an accepted descriptor that has waited for something excluded: its promise counts from now (R284, R360). -/
def completeWaited (d : Nat) (st : Status) (result : List Byte) (s : State) : State :=
  complete d st 0 result [] (s.updInflight d (fun i => { i with excluded := s.cyc - i.start }))

/-- Whether a FENCE holds a ring (R363). -/
def State.fenced (s : State) (r : Nat) : Bool := s.host.inflight.any (fun i => i.ring == r && (match i.work with
  | .fence _ => true
  | _ => false))

/-- Whether the work of a descriptor is a DISABLE. -/
def Work.disables : Work → Bool
  | .disable _ => true
  | _ => false

/-- Whether this module sends a recovery stream (R321). It may receive one at the same time, which HRV_STATUS then shows (R319, R342,
DEDUCED, log entry 68). -/
def State.sendsStream (s : State) : Bool := (s.inflight? s.hrv.recDesc).any (fun i => i.work = .recovery)

/-- Whether something of an object is in flight; a DISABLE never counts on the ring it travels on (R366). -/
def State.busy (s : State) (op : DisableOp) : Bool :=
  match op.object with
  | 0 => !(s.ring op.index).completion && s.host.inflight.any (fun i => i.ring == op.index && !i.work.disables)
  | 1 => s.passes.any (fun p => p.tiles.contains op.index && !p.done.contains op.index)
  | 2 => !(s.port op.index).replay.isEmpty || !(s.port op.index).txq.isEmpty
  | 3 => s.passes.any (fun p => p.demand.any (fun e => e.p == op.index)) ||
         s.hrv.op.any (fun h => h.rates.any (fun e => e.p == op.index)) || s.hrv.recRates.any (fun e => e.p == op.index)
  | 4 => s.passes.any (fun p => p.img.streams.any (fun x => x.gatherer == op.index))
  | _ => s.hrv.op.isSome || s.hrv.restore.isSome || s.sendsStream

/-- A port in electrical idle (R280, R366). -/
def Port.idle (p : Port) : Port :=
  { Port.init with quarantine := p.quarantine, violInt := p.violInt, violCnt := p.violCnt, violSince := p.violSince,
                   violAt := p.violAt, lateSince := p.lateSince, lateAt := p.lateAt }

/-- The object's enable bit clears as its DISABLE completes (R366, R444).
DEDUCED, log entry 62. -/
def applyDisabled (op : DisableOp) (s : State) : State :=
  match op.object with
  | 0 => s.setRing op.index { s.ring op.index with enable := false, held := none, splitSince := none, short := false }
  | 1 => (s.setRgBits .tilEnable (op.index % 32) 1 0 (op.index / 32)).updTile op.index (fun t => { t with clocked := false })
  | 2 => s.updPort op.index Port.idle
  | 3 => s.updDev op.index (fun d => { d with enabled := false, st := if d.st = .ready then .selfRefresh else d.st })
  | 4 => { s with gath := { s.gath with enable := s.gath.enable &&& ~~~(1#48 <<< op.index) } }
  | _ => s.setRgBits .hrvEnable 0 1 0

/-- Whether none of the descriptors that one waits for remains. -/
def State.gone (s : State) (waits : List Nat) : Bool := !s.host.inflight.any (fun i => waits.contains i.id)

/-- Completes a DATA_IN, a FENCE, a CANCEL or a DISABLE whose wait is over (R302, R363, R364, R366). -/
def settleOne (d : Nat) (s : State) : State :=
  match s.inflight? d with
  | none => s
  | some i =>
    match i.work with
    | .fence ws => if s.gone ws then completeWaited d .ok [] s else s
    | .cancel ws n => if s.gone ws then completeWaited d .ok (leBytes 24 n) s else s
    | .dataIn copies k => if copies = [] && !s.ackHeld k then complete d .ok 0 [] [] s else s
    | .disable op => if s.busy op then s else completeWaited d .disabled [] (applyDisabled op s)
    | _ => s

/-- Completes every descriptor whose wait is over, in the order of consumption. -/
def settle (s : State) : State :=
  let ids := s.host.inflight.map (·.id)
  each (ids ++ ids) settleOne s

end Sys2Proof.Machine
end

