-- ==== Sys2Proof/Machine/Touch.lean ====
section
/-! DEFINITION. What an instruction of the issue queues touches in the bin: the sides of sweeps, the operands of drains, vector
instructions and moves (R20, R25, R94 to R97, R111, R112, R114 to R117, R119, R128 to R130, R450). -/

namespace Sys2Proof.Machine

set_option Elab.async false

/-! ## The instruction that a sequencer runs (R111, R112) -/

/-- A running pass on a tile, as one of its instructions sees it: q is the sequencer's state, and v the same state with the
place, the loop counters and the move number of the instruction. fmts gives the format in force of each buffer (R115, R65), and
earlier the instructions before this one that have not issued; order is the count of the moves dispatched before it (R207). -/
structure Ctx where
  t  : Nat
  p  : Pass
  q  : SeqState
  v  : SeqState
  w  : Watch
  fmts : List Nat
  queued : Bool
  earlier : List Queued
  order : Nat
  deriving DecidableEq, Repr

/-- The format in force of a buffer (R115). -/
def Ctx.fmt (c : Ctx) (buf : Nat) : Nat := (c.fmts[buf]?).getD 7

/-- The context of an earlier instruction that has not issued. -/
def Ctx.at (c : Ctx) (e : Queued) : Ctx :=
  { c with v := { c.q with pc := e.pc, loops := e.loops, moves := e.move }, order := e.order }

/-- The bin lines that an instruction reads, and those that it writes; none when it touches a line outside its half (R116). -/
abbrev Touch := Ctx → State → Option (List Nat × List Nat)

/-- An instruction that touches no bin line. -/
def noTouch : Touch := fun _ _ => some ([], [])

/-! ## Sweep sides (R20, R25, R119, R450) -/

/-- One side of a sweep: where it lies, the bytes between its vectors, the bytes and elements of one vector, and its first
scale line. -/
structure Side where
  pl    : Place
  step  : Nat
  bytes : Nat
  n     : Nat
  j0    : Nat
  deriving DecidableEq, Repr

/-- An A side with a stride (R119, R450). -/
def aSide (p : Place) (str : Nat) : Side :=
  let a := colBytes p.fmt
  { pl := p, step := str * a, bytes := a, n := 16, j0 := p.x0 / (32 * a) }

/-- The B side of an OPX, or the rows of an ALT (R119, R450). -/
def bSide (p : Place) (str : Nat) : Side :=
  let r := bRowBytes p.fmt
  { pl := p, step := str * r, bytes := (64 * fmtBits p.fmt + 7) / 8, n := 64, j0 := p.x0 / 2048 }

/-- The B rows of an SHX: 80 elements each, w lines apart, of which a row load reads every line (R23, R38, R39, R117, R450). -/
def shxSide (p : Place) : Side :=
  { pl := p, step := p.buf.width * 64, bytes := p.buf.width * 64, n := 80,
    j0 := p.line.toNat / p.buf.width / 32 }

/-- Whether n vectors of a side lie within its half, and the scale lines of nb blocks within its scale part (R116). -/
def Side.ok (x : Side) (n nb : Nat) : Bool :=
  (List.range n).all (fun k => x.pl.has (k * x.step) x.bytes) && (!blockScaled x.pl.fmt || x.pl.scaleHas (x.j0 * 64) (nb * 64))

/-- The bin lines that n vectors of a side touch, with the scale lines of nb blocks. -/
def Side.lines (x : Side) (n nb : Nat) : List Nat :=
  (List.range n).flatMap (fun k => x.pl.lines (k * x.step) x.bytes)
    ++ (if blockScaled x.pl.fmt then x.pl.scaleLines (x.j0 * 64) (nb * 64) else [])

/-- The codes of vector k of a side. -/
def Side.codes (x : Side) (bin : SMap Byte) (k : Nat) : List Nat := x.pl.codes bin (k * x.step) x.n

/-- The scale code of element e in K block b (R25, R450). -/
def Side.scale (x : Side) (bin : SMap Byte) (b e : Nat) : Nat := (byteAt bin (x.pl.scaleAddr ((x.j0 + b) * 64 + e))).toNat

/-- The value of a code of a side: element e in K block b (R43, R46). -/
def Side.value (x : Side) (bin : SMap Byte) (b e code : Nat) : FVal :=
  if blockScaled x.pl.fmt then scaledElem x.pl.fmt code (x.scale bin b e) else decodeElem x.pl.fmt code

/-! ## The array queue -/

/-- A wide operand in the format in force. -/
def operand (c : Ctx) (r : Ref) (write : Bool) : Option Place := place c.p.img c.v r write (c.fmt r.buf) (c.fmt r.buf)

/-- The sides of an OPX. -/
def opxSides (f : OpxF) (c : Ctx) : Option (Side × Side) := do
  let a ← operand c f.a false
  let b ← operand c f.b false
  return (aSide a (2 ^ f.sa), bSide b (2 ^ f.sb))

/-- What an OPX touches. -/
def opxTouch (f : OpxF) : Touch := fun c _ => do
  let (a, b) ← opxSides f c
  let nb := (f.k + 31) / 32
  if a.ok f.k nb && b.ok f.k nb then some (a.lines f.k nb ++ b.lines f.k nb, []) else none

/-- The sides of an ALT: the chunk's rows, the weight rows and the X columns. -/
def altSides (f : AltF) (c : Ctx) : Option (Side × Side × Side) := do
  let dy ← operand c f.dy false
  let w ← operand c f.w false
  let x ← operand c f.x false
  return (bSide dy 1, bSide w 1, aSide x 1)

/-- What an ALT touches. -/
def altTouch (f : AltF) : Touch := fun c _ => do
  let (dy, w, x) ← altSides f c
  if dy.ok 16 0 && w.ok 64 0 && x.ok 16 0 then some (dy.lines 16 0 ++ w.lines 64 0 ++ x.lines 16 0, []) else none

/-- The sides of an SHX. -/
def shxSides (f : ShxF) (c : Ctx) : Option (Side × Side) := do
  let a ← operand c f.a false
  let b ← operand c f.b false
  return (aSide a 1, shxSide b)

/-- What an SHX touches. -/
def shxTouch (f : ShxF) : Touch := fun c _ => do
  let (a, b) ← shxSides f c
  let n := f.rows * f.taps
  let nb := (n + 31) / 32
  if a.ok n nb && b.ok f.rows nb then some (a.lines n nb ++ b.lines f.rows nb, []) else none

/-- What a DRN touches: the 16 rows of its destination and their scales. -/
def drnTouch (f : DrnF) : Touch := fun c _ => do
  let p ← operand c f.dst true
  if p.shapeOk .tile then some ([], p.shapeLines .tile) else none

/-! ## The vector queue -/

/-- A vector operand in a format that its instruction fixes (R120). -/
def vplace (c : Ctx) (v : VOp) (write : Bool) (f : Nat) : Option Place := place c.p.img c.v v.ref write f (c.fmt v.ref.buf)

/-- The lines of an operand, if it lies where it must. -/
def vlines (c : Ctx) (v : VOp) (write : Bool) (f : Nat) : Option (List Nat) := do
  let p ← vplace c v write f
  if p.shapeOk v.shape then some (p.shapeLines v.shape) else none

/-- What a vector instruction touches: sources and destination, each with its format. -/
def vecTouch (d : VOp) (df : Nat) (srcs : List (VOp × Nat)) (extra : List Nat → Option (List Nat)) : Touch := fun c _ => do
  let rd ← srcs.mapM (fun x => vlines c x.1 false x.2)
  let wr ← vlines c d true df
  let ex ← extra wr
  some (rd.flatten ++ ex, wr)

/-- The control line of a VRND (R107). -/
def vrndCtl (c : Ctx) (f : VrndF) : Option Place := vplace c { ref := f.ctrl, shape := .one } false 7

/-- What a VRND touches. -/
def vrndTouch (f : VrndF) : Touch := fun c s => do
  let (rd, wr) ← vecTouch f.d 7 [(f.pos, 7)] (fun _ => some []) c s
  let p ← vrndCtl c f
  if p.has 0 64 then some (rd ++ p.lines 0 64, wr) else none

/-- What a two-source instruction touches. -/
def v2Touch (f : V2F) : Touch := vecTouch f.d 7 [(f.a, 7), (f.b, 7)] (fun _ => some [])
/-- What a three-source instruction touches. -/
def v3Touch (f : V3F) : Touch := vecTouch f.d 7 [(f.a, 7), (f.b, 7), (f.c, 7)] (fun _ => some [])

/-! ## The move queue -/

/-- A move as its transfers are formed: its place, stream, first and last memory address and line count. -/
structure MoveAt where
  p : Place
  x : Stream
  n : Nat
  deriving DecidableEq, Repr

/-- Resolves a GET or PUT. -/
def moveAt (c : Ctx) (f : MoveF) (write : Bool) : Option MoveAt := do
  let p ← operand c f.ref write
  let x ← c.p.img.streams[f.stream]?
  return { p := p, x := x, n := moveCount p.buf p.fmt f.lines }

/-- The bin lines of a move, if they lie within the half (R116). -/
def MoveAt.bins (m : MoveAt) : Option (List Nat) := if m.p.has 0 (m.n * 64) then some (m.p.lines 0 (m.n * 64)) else none

/-- The source of an XFER and its number of lines in the format in force. A move on a GAUGE buffer states its counts for the
buffer's width; where both buffers are GAUGE buffers the source's factor holds (R115, DESIGN CHOICE, log entry 87). -/
def xferSource (c : Ctx) (f : XferF) : Option (Place × Nat) := do
  let p ← operand c f.src false
  let d ← operand c f.dst true
  return (p, if p.buf.fmt = 15 then moveCount p.buf p.fmt f.lines else moveCount d.buf d.fmt f.lines)

/-- What an XFER touches on the sending tile. -/
def xferTouch (f : XferF) : Touch := fun c _ => do
  let (p, n) ← xferSource c f
  if p.has 0 (n * 64) then some (p.lines 0 (n * 64), []) else none

/-- What a SWAP waits for: writes to the producer half, and reads of the consumer half. -/
def swapTouch (buf : Nat) : Touch := fun c _ =>
  match c.p.img.bufs[buf]? with
  | some b =>
    let ls := fun h => (List.range (b.depth * b.width)).map (b.lineAddr h)
    some ([], ls (halfOf b c.v buf true) ++ ls (halfOf b c.v buf false))
  | none => some ([], [])

/-! ## Any instruction of a queue -/

/-- The issue queue of an instruction: 0 array, 1 vector, 2 move, 3 control. LOOP and BRC are resolved at the fetch, and WAIT,
BIND, YIELD and PEND issue when every earlier instruction has, so that they stand at the fetch until then (R111, R132, R139,
R143). -/
def queueOf : Instr → Option Nat
  | .opx _ _ => some 0 | .alt _ _ => some 0 | .shx _ _ => some 0 | .aclr _ _ => some 0 | .drn _ _ => some 0
  | .vadd _ _ => some 1 | .vmul _ _ => some 1 | .vmin _ _ => some 1 | .vmax _ _ => some 1 | .vcmp _ _ => some 1
  | .vfma _ _ => some 1 | .vsel _ _ => some 1 | .vcvt _ _ => some 1 | .vrdc _ _ => some 1 | .vpos _ _ => some 1
  | .vrnd _ _ => some 1
  | .get _ _ => some 2 | .put _ _ => some 2 | .xfer _ _ => some 2 | .swap _ _ => some 2
  | .sig _ _ => some 3 | .take _ _ => some 3
  | _ => none

/-- What an instruction of a queue touches. -/
def touchOf : Instr → Touch
  | .opx _ f => opxTouch f
  | .alt _ f => altTouch f
  | .shx _ f => shxTouch f
  | .drn _ f => drnTouch f
  | .vadd _ f => v2Touch f
  | .vmul _ f => v2Touch f
  | .vmin _ f => v2Touch f
  | .vmax _ f => v2Touch f
  | .vcmp _ f => v2Touch f.ops
  | .vfma _ f => v3Touch f
  | .vsel _ f => v3Touch f
  | .vcvt _ f => vecTouch f.d (vcvtFmts f).2 [(f.a, (vcvtFmts f).1)] (fun _ => some [])
  | .vrdc _ f => vecTouch f.d 7 [(f.a, 7)] (fun w => some (if f.accum then w else []))
  | .vpos _ f => vecTouch f.d 7 (if f.addend.ref.buf = 31 then [] else [(f.addend, 7)]) (fun _ => some [])
  | .vrnd _ f => vrndTouch f
  | .get _ f => fun c _ => ((moveAt c f true).bind MoveAt.bins).map (fun b => ([], b))
  | .put _ f => fun c _ => ((moveAt c f false).bind MoveAt.bins).map (fun b => (b, []))
  | .xfer _ f => xferTouch f
  | .swap _ b => swapTouch b
  | _ => noTouch

/-- Whether two sets of bin lines have none in common. -/
def noneShared (a b : List Nat) : Bool := a.all (fun x => !b.contains x)

/-- Whether a fenced SIG of a kind stands behind an instruction: kinds 0 and 2 behind drains, vector writes and moves, kind 1
behind XFERs, kind 3 behind PUTs (R131, R133). -/
def fencedBy (kind : Nat) (i : Instr) : Bool :=
  match i with
  | .xfer _ _ => kind ≠ 3
  | .put _ _ => kind ≠ 1
  | .get _ _ => kind = 0 || kind = 2
  | .drn _ _ => kind = 0 || kind = 2
  | i => (kind = 0 || kind = 2) && queueOf i = some 1

/-- Whether no earlier instruction that has not issued keeps an instruction back: it reads no line that they write, and writes
none that they read or write; a SWAP touches every line of its buffer; a fenced SIG follows the instructions that it is fenced
behind (R112, R129, R130, R133, DESIGN CHOICE, log entry 13). -/
def Ctx.free (c : Ctx) (i : Instr) (rd wr : List Nat) (s : State) : Bool :=
  c.earlier.all (fun e =>
    let x := ((touchOf e.instr (c.at e) s).getD ([], []))
    noneShared x.2 (rd ++ wr) && noneShared x.1 wr &&
    (match i with
     | .sig _ f => f.bare || !fencedBy f.kind e.instr
     | _ => true))

end Sys2Proof.Machine
end

