-- ==== Sys2Proof/Machine/Pass.lean ====
section
/-! DEFINITION. Passes on tiles as shared operations: which instruction a sequencer presents, holding and advancing, choosing
the next pass, abandonment and completion (R111, R112, R129, R136, R137, R143, R144, R158, R217). -/

namespace Sys2Proof.Machine

set_option Elab.async false

/-! ## Which pass runs (R136, R137) -/

/-- Whether a hold is a switching condition (R136). -/
def Hold.switching : Hold → Bool
  | .wait _ _ _ _ _ => true
  | .bind _ _ _ => true
  | .pend => false

/-- Whether an issued GET of a tile has yet to write one of these bin lines (R128, R129). -/
def State.getPending (s : State) (t : Nat) (ls : List Nat) : Bool :=
  s.gath.xfers.any (fun x => x.tile == t && !x.write && x.issued && x.bins.any ls.contains)

/-- Whether a PUT of a tile has yet to read one of these bin lines (R128, R129). -/
def State.putPending (s : State) (t : Nat) (ls : List Nat) : Bool :=
  s.gath.xfers.any (fun x => x.tile == t && x.write && x.st = .waiting && x.data.isEmpty && x.bins.any ls.contains)

/-- Whether one of these bin lines waits for a GET that is not yet visible: one that has issued, or an earlier one of the queue
(R136). -/
def State.behindGet (s : State) (t : Nat) (earlier : List Queued) (ls : List Nat) : Bool :=
  s.getPending t ls || earlier.any (fun e => !noneShared e.gets ls)

/-- Whether an instruction of a list is held behind a GET, earlier being those before the list. -/
def State.anyBehindGet (s : State) (t : Nat) : List Queued → List Queued → Bool
  | _, [] => false
  | earlier, e :: es => (e.held ≠ [] && s.behindGet t earlier e.held) || s.anyBehindGet t (earlier ++ [e]) es

/-- Whether a pass has an instruction held on a switching condition on a tile (R136). -/
def State.heldSwitching (s : State) (t : Nat) (x : SeqState) : Bool :=
  x.hold.any Hold.switching || s.anyBehindGet t [] x.queue

/-- Whether a resident pass is ready to run: neither suspended nor finished, none of its instructions held on a switching
condition, and its banks apart from those another pass keeps (R136). -/
def State.readyOn (s : State) (t : Nat) (kept : List Nat) (x : SeqState) : Bool :=
  x.slot < 4 && !x.suspended && !x.pended && !s.heldSwitching t x &&
  (match s.pass? x.pass with
   | some p => p.ending.isNone && kept.all (fun b => !p.img.banks.getLsbD b)
   | none => false)

/-- Whether one pass goes before another (R137). -/
def Pass.precedes (a b : Pass) : Bool := if a.deadline ≠ b.deadline then a.deadline else a.seq < b.seq

/-- The pass that R137 chooses among passes. -/
def choosePass : List Pass → Option Pass
  | [] => none
  | p :: ps => some (ps.foldl (fun best x => if x.precedes best then x else best) p)

/-- The banks that a pass keeps on a tile: those in which it holds an undrained block, and all that it declares once it waits at
PEND, which clears them (R29, R136, R143, DEDUCED, log entry 88). -/
def State.banksKept (s : State) (x : SeqState) : List Nat :=
  if x.pended then (match s.pass? x.pass with
    | some p => (List.range 4).filter p.img.banks.getLsbD
    | none => x.parts)
  else x.parts

/-- Banks that the passes of a tile other than one keep (R29). -/
def State.keptBanks (s : State) (t : Nat) (skip : Nat) : List Nat :=
  ((s.tile t).seqs.filter (fun x => x.pass != skip)).flatMap s.banksKept

/-- The ready resident passes of a tile other than one pass, banks respected (R136, R137). -/
def State.nextPassOn (s : State) (t : Nat) (skip : Option Nat) : Option Nat :=
  (choosePass (((s.tile t).seqs.filter (fun x => skip ≠ some x.pass && s.readyOn t (s.keptBanks t x.pass) x)).filterMap
    (fun x => s.pass? x.pass))).map (·.seq)

/-- Gives an idle sequencer its next pass. -/
def dispatchNext (t : Nat) (s : State) : State :=
  if (s.tile t).running.isNone then s.updTile t (fun tl => { tl with running := s.nextPassOn t none }) else s

/-! ## The instruction that a sequencer presents (R111, R112) -/

/-- Whether a tile's sequencer works: its quadrant's PLL runs, and no wake walk has yet to reach it. A gated tile wakes when it
has an instruction to issue (R377, R378). -/
def State.tileWorks (s : State) (t : Nat) : Bool :=
  s.alive && s.pllOf (quadrantOf t) = .running && !(s.tile t).waking

/-- The word at a pass's program counter, fetched from the bin (R111). -/
def fetchWord (tl : Tile) (p : Pass) (q : SeqState) : Nat := numAt tl.bin (p.addr + p.img.codeOff + 8 * q.pc) 8

/-- The formats in force of an image's buffers (R65, R115). -/
def State.fmtsOf (s : State) (w : Watch) (m : Image) : List Nat := (List.range m.bufs.length).map (bufFmt s w m)

/-- The running pass of a tile that may issue: its sequencer works, and the pass neither ends nor is suspended. -/
def runningOn (s : State) (t : Nat) : Option (Pass × SeqState) :=
  let tl := s.tile t
  if !s.tileWorks t then none
  else
    match tl.running.bind s.pass?, tl.running.bind (s.seq? t) with
    | some p, some q => if p.ending.isNone && !q.suspended then some (p, q) else none
    | _, _ => none

/-- Whether the word at a pass's fetch address decodes to an instruction (R111). -/
def fetches (s : State) (t : Nat) (p : Pass) (q : SeqState) (i : Instr) : Bool :=
  q.pc < p.img.nInstr && decodeFurrow t (fetchWord (s.tile t) p q) = some i

/-- The context of the instruction at the fetch address. -/
def fetchCtx (s : State) (t : Nat) (p : Pass) (q : SeqState) : Ctx :=
  let w := s.watch p
  { t := t, p := p, q := q, v := q, w := w, fmts := s.fmtsOf w p.img, queued := false, earlier := q.queue,
    order := s.gath.dispatches }

/-- The running pass of a tile when i is its oldest instruction of i's queue that has not issued: one dispatched before, or,
where none is, the one at the fetch address, which is dispatched and issued at once (R111, R112).
DESIGN CHOICE, log entry 13. -/
def present (s : State) (t : Nat) (i : Instr) : Option Ctx :=
  match runningOn s t with
  | none => none
  | some (p, q) =>
    let c := fetchCtx s t p q
    match q.queue.find? (fun e => queueOf i ≠ none && queueOf e.instr = queueOf i) with
    | some e =>
      if e.instr = i then some { c.at e with queued := true, earlier := q.queue.takeWhile (fun x => x ≠ e) } else none
    | none => if fetches s t p q i then some c else none

/-- Whether an instruction is a GET or PUT. -/
def isMove : Instr → Bool
  | .get _ _ => true
  | .put _ _ => true
  | _ => false

/-- The sequencer state once the instruction of a context has issued: it leaves its queue, or the fetch moves past it (R111,
R112, R124). -/
def Ctx.step (c : Ctx) (i : Instr) (q : SeqState) : SeqState :=
  if c.queued then { q with queue := q.queue.eraseP (fun e => queueOf e.instr = queueOf i) }
  else { q.next with moves := if isMove i then q.moves + 1 else q.moves }

/-- Counts the dispatch of a GET or PUT (R207). -/
def noteDispatch (i : Instr) (s : State) : State :=
  if isMove i then { s with gath := { s.gath with dispatches := s.gath.dispatches + 1 } } else s

/-- Issues an instruction of a running pass; the tile's clock runs. -/
def advance (c : Ctx) (i : Instr) (s : State) : State :=
  let s := if c.queued then s else noteDispatch i s
  (s.updSeq c.t c.q.pass (c.step i)).updTile c.t (fun tl => { tl with clocked := true })

/-- Records that the instruction at the fetch address, a WAIT or BIND, holds its pass. -/
def setHold (c : Ctx) (h : Hold) (s : State) : State := s.updSeq c.t c.q.pass (fun q => { q with hold := some h })

/-- Instructions that an issue queue holds (R111). -/
def queueSize : Nat := 16

/-- The sequencer state with the instruction at the fetch address dispatched into its queue. -/
def SeqState.push (q : SeqState) (i : Instr) (held gets : List Nat) (order : Nat) : SeqState :=
  { q.next with queue := q.queue ++ [{ pc := q.pc, loops := q.loops, move := q.moves, instr := i, held := held, gets := gets,
                                       order := order }],
                moves := if isMove i then q.moves + 1 else q.moves }

/-- Dispatches the instruction at the fetch address, held behind other instructions, into its queue (R111); ahead is what the
dispatch of a GET lets its gatherer do (R206). -/
def dispatchAs (ahead : Ctx → State → State) (i : Instr) (held gets : List Nat) (c : Ctx) (s : State) : State :=
  ahead c (((noteDispatch i s).updSeq c.t c.q.pass (fun q => q.push i held gets c.order)).updTile c.t
    (fun tl => { tl with clocked := true }))

/-- The bin lines that an instruction writes when it is a GET. -/
def getLines (i : Instr) (wr : List Nat) : List Nat := match i with
  | .get _ _ => wr
  | _ => []

/-- Dispatches an instruction that stands at the fetch address behind others of its queue, while the queue has room (R111). -/
def dispatchBehind (ahead : Ctx → State → State) (t : Nat) (i : Instr) (s : State) : State :=
  match runningOn s t with
  | some (p, q) =>
    if q.hold.isNone && queueOf i ≠ none && fetches s t p q i
        && (q.queue.filter (fun e => queueOf e.instr = queueOf i)).length < queueSize then
      let c := fetchCtx s t p q
      dispatchAs ahead i [] (getLines i ((touchOf i c s).getD ([], [])).2) c s
    else s
  | none => s

/-- An instruction that may not issue yet stays in its queue, or is dispatched into it; held are the lines for which it waits
for a GET. -/
def keepBack (ahead : Ctx → State → State) (c : Ctx) (i : Instr) (held gets : List Nat) (s : State) : State :=
  if c.queued then
    dispatchBehind ahead c.t i (s.updSeq c.t c.q.pass (fun q =>
      { q with queue := q.queue.map (fun e => if e.pc = c.v.pc && e.loops = c.v.loops then { e with held := held } else e) }))
  else dispatchAs ahead i held gets c s

/-! ## Completion (R143, R144, R158, R217) -/

/-- The fence count of an area: the micro-batches bound to it (R158). -/
def State.fenceCount (s : State) (area : Nat) : Nat := s.steps.binds.countP (fun b => b.2 % 2 == area)

/-- The state of a version area. -/
def State.area (s : State) (a : Nat) : AreaSt := if a = 0 then s.steps.area0 else s.steps.area1

/-- Sets the state of a version area. -/
def State.setArea (s : State) (a : Nat) (v : AreaSt) : State :=
  { s with steps := if a = 0 then { s.steps with area0 := v } else { s.steps with area1 := v } }

/-- A HELD area whose fence count has reached 0 becomes NEXT (R160). -/
def freeHeld (a : Nat) (s : State) : State := if s.area a = .held && s.fenceCount a = 0 then s.setArea a .next else s

/-- Unbinds a micro-batch (R158). -/
def unbind (mb : Nat) (s : State) : State :=
  freeHeld 1 (freeHeld 0 { s with steps := { s.steps with binds := s.steps.binds.filter (fun b => b.1 != mb) } })

/-- Completes the RUN_PASS of a pass that has ended: a close pass unbinds its micro-batch whatever its status, and the result
carries the pass id and the tile that ended it (R158, R362, DEDUCED, log entry 22). -/
def completePass (p : Pass) (st : Status) (t : Nat) (s : State) : State :=
  let s := { s with passes := s.passes.filter (fun x => x.seq != p.seq) }
  let s := if p.role = 2 then unbind p.mb s else s
  complete p.desc st 0 (leBytes 4 p.passId.toNat ++ leBytes 20 t) [] s

/-- Whether every tile of a pass has reached its PEND (R143, R151). -/
def State.allPended (s : State) (p : Pass) : Bool :=
  p.tiles.all (fun t => p.done.contains t || (s.seq? t p.seq).any (·.pended))

/-- Completes an abandoned pass once every tag that it held has returned (R217). -/
def settlePass (q : Nat) (s : State) : State :=
  match s.pass? q with
  | some p =>
    (match p.ending with
     | some (st, t) => if s.gath.xfers.any (fun x => x.pass == q) then s else settle (completePass p st t s)
     | none => s)
  | none => s

/-- A tile with the accumulator banks of a set cleared to +0.0 (R27). -/
def Tile.clearBanks (tl : Tile) (banks : BitVec 4) : Tile :=
  { tl with acc := tl.acc.filter (fun e => !banks.getLsbD (e.1 / 1024)),
            opBits := tl.opBits.filter (fun e => !banks.getLsbD e.1) }

/-- What one tile does when it abandons a pass (R144): nothing further issues, its banks are cleared, its slot is free. -/
def abandonOn (p : Pass) (t : Nat) (s : State) : State :=
  if (s.seq? t p.seq).isSome then
    dispatchNext t ((s.dropSeq t p.seq).updTile t (fun tl => tl.clearBanks p.img.banks))
  else s

/-- The rank of a status among causes that take effect in the same cycle, the highest first (R420). ABORTED by a module fault, which
goes before all, is the fault's own (abortAll). -/
def Status.rank : Status → Nat
  | .malformed => 0 | .abandoned => 1 | .limit => 2 | .cancelled => 3 | _ => 4

/-- Abandons a pass with a status (R144): the first cause holds, and the highest rank among those of one cycle (R420). Its
completion follows when its tags have returned. -/
def abandonPass (q : Nat) (st : Status) (t : Nat) (s : State) : State :=
  match s.pass? q with
  | some p =>
    if p.ending.isSome then
      if p.endedAt = s.cyc && p.ending.any (fun e => st.rank < e.1.rank) then
        s.updPass q (fun p => { p with ending := some (st, t) })
      else s
    else
      let s := s.updPass q (fun p => { p with ending := some (st, t), endedAt := s.cyc })
      let s := { s with gath := { s.gath with mesh := s.gath.mesh.filter (fun m => m.pass != q) } }
      let s := freeWires q (dropSignals q s)
      let s := each p.tiles (abandonOn p) s
      settlePass q (endXfers q (flushWriter (q + 1) s))
  | none => s

/-! ## One instruction -/

/-- Runs one instruction of a tile, if its sequencer presents it: a line outside a half abandons the pass, a line that a GET
has yet to write holds the instruction on a switching condition, a line that an earlier instruction has yet to read or write or
that a PUT has yet to read holds it, and otherwise it takes effect. A held instruction stays in its queue (R111, R112, R116,
R129, R136). -/
def runWith (ahead : Ctx → State → State) (t : Nat) (i : Instr) (eff : Ctx → State → State) (s : State) : State :=
  match present s t i with
  | none => dispatchBehind ahead t i s
  | some c =>
    match touchOf i c s with
    | none => abandonPass c.p.seq .malformed t s
    | some (rd, wr) =>
      if s.behindGet t c.earlier (rd ++ wr) then keepBack ahead c i (rd ++ wr) (getLines i wr) s
      else if !c.free i rd wr s || s.putPending t wr then keepBack ahead c i [] (getLines i wr) s
      else advance c i (eff c s)

/-- Runs one instruction of a tile whose dispatch does nothing of its own. -/
def runOp (t : Nat) (i : Instr) (eff : Ctx → State → State) (s : State) : State := runWith (fun _ s => s) t i eff s

end Sys2Proof.Machine
end

