-- ==== Sys2Proof/Machine/Lanes.lean ====
section
/-! DEFINITION. The lane generator (R104 to R106, R108), and the conversion of rows with their outcome counts (R50 to R56, R62,
R66). -/

namespace Sys2Proof.Machine

set_option Elab.async false

/-- One round of the lane generator on (x0, x1, x2, x3) (R104). -/
def laneRound (k : Word) (i : Nat) (x : Word × Word × Word × Word) : Word × Word × Word × Word :=
  let x0 := x.1 + x.2.1 + k + BitVec.ofNat 32 i
  let x3 := (x.2.2.2 ^^^ x0).rotateLeft 16
  let x2 := x.2.2.1 + x3
  let x1 := (x.2.1 ^^^ x2).rotateLeft 12
  (x1, x2, x3, x0)

/-- The lane generator: ten rounds (R104). -/
def laneGen (key : Quad) (x : Word × Word × Word × Word) : Word × Word × Word × Word :=
  (List.range 10).foldl (fun y i => laneRound (if i % 2 = 0 then key.setWidth 32 else (key >>> (32 : Nat)).setWidth 32) i y) x

/-- The fields of a counter that a pass fixes (R105, R106). -/
structure LaneKey where
  key   : Quad
  step  : Nat
  mb    : Nat
  layer : Nat
  deriving DecidableEq, Repr

/-- The counter of R105. -/
def LaneKey.counter (k : LaneKey) (domain pos lane block : Nat) : Word × Word × Word × Word :=
  (BitVec.ofNat 32 (pos % 2 ^ 20 + lane % 64 * 2 ^ 20 + domain % 16 * 2 ^ 26),
   BitVec.ofNat 32 (block % 2 ^ 16 + k.layer % 2 ^ 16 * 2 ^ 16),
   BitVec.ofNat 32 k.step,
   BitVec.ofNat 32 (k.step / 2 ^ 32 % 256 + k.mb % 2 ^ 24 * 256))

/-- Word 0 of the generator's output. -/
def LaneKey.word (k : LaneKey) (domain pos lane block : Nat) : Word := (laneGen k.key (k.counter domain pos lane block)).1

/-- The lane key of an instruction attributed to a layer (R106). -/
def laneKey (s : State) (p : Pass) (layer : Nat) : LaneKey :=
  { key := s.steps.key, step := p.stepNum, mb := p.mb, layer := layer }

/-- The rounding of element (r, c) of an instruction (R51, R52, R108). -/
def roundingAt (k : LaneKey) (sr : Bool) (srSeq t r c : Nat) : Rounding :=
  if sr then some ((k.word 1 (srSeq * 16 + r) c t).setWidth 16) else none

/-- A converted row: codes, the scale codes of its two blocks when the format is block-scaled, and the outcome classes. -/
structure Converted where
  codes  : List Nat
  scales : List Nat
  outs   : List Cls
  deriving DecidableEq, Repr

/-- Converts one row of elements, each with its rounding, to a format with a scale g (R50, R55, R56). -/
def convertRow (f : Nat) (g : Int) (xs : List (FVal × Rounding)) : Converted :=
  if blockScaled f then
    let bs := (pieces 32 xs).map (fun b => (fmtOfCode f).convertBlock g b)
    { codes := bs.flatMap (fun b => b.2.map (·.1)), scales := bs.map (·.1), outs := bs.flatMap (fun b => b.2.map (·.2)) }
  else
    let cs := xs.map (fun x => convertElem f x.2 g x.1)
    { codes := cs.map (·.1), scales := [], outs := cs.map (·.2) }

/-- Whether a code of a format is not a zero. -/
def nonzeroCode (f v : Nat) : Bool := f = 8 || v % 2 ^ (fmtBits f - 1) ≠ 0

/-- Whether a value is not a zero.
DEDUCED, log entry 17. -/
def FVal.nonzero : FVal → Bool
  | .fin _ m _ => m ≠ 0
  | _ => true

/-- Non-zero elements of a converted row: in a block whose scale is NaN every element is NaN (R46, R77). -/
def Converted.nonzero (f : Nat) (x : Converted) : Nat :=
  if x.scales = [] then x.codes.countP (nonzeroCode f)
  else (((pieces 32 x.codes).zip x.scales).map (fun b => if b.2 = 255 then b.1.length else b.1.countP (nonzeroCode f))).sum

/-- The bin with converted rows written at a place, with their scales (R33, R95, R450). -/
def Place.putConverted (p : Place) (bin : SMap Byte) (sh : Shape) (rows : List Converted) : SMap Byte :=
  let bin := p.putRows bin sh (rows.map (·.codes))
  rows.zipIdx.foldl (fun m r => r.1.scales.zipIdx.foldl
    (fun m c => sput unwritten m (p.scaleAddr (p.rowScale r.2 + c.2)) (BitVec.ofNat 8 c.1)) m) bin

/-- A tile with another bin. -/
def State.setBin (s : State) (t : Nat) (bin : SMap Byte) : State := s.updTile t (fun tl => { tl with bin := bin })

/-- Reports an instruction's outcomes to the watch, and to its pass's LOSS count (R66, R77, R86). -/
def report (c : Ctx) (n : Counted) (s : State) : State :=
  let nf := n.outs.count .nonfinite
  let s := account c.w c.t n s
  if n.role = 4 && nf ≠ 0 then
    s.updPass c.p.seq (fun p => { p with lossLayer := if p.losses = 0 then n.layer else p.lossLayer, losses := p.losses + nf })
  else s

end Sys2Proof.Machine
end

