-- ==== Sys2Proof/Machine/Coll.lean ====
section
/-! DEFINITION. The collective engine as shared operations (R239 to R243): group entries, commands, chunks, folding and
placement. The manual gives the chunk index of a COLL packet and not the chunk's size: DESIGN CHOICE, log entry 25. -/

namespace Sys2Proof.Machine

set_option Elab.async false

/-! ## Group entries and commands (R239 to R241) -/

/-- An entry of the group table (R239). -/
structure CollEntry where
  n       : Nat
  own     : Nat
  timeout : Nat
  members : Nat
  cmds    : Nat
  count   : Nat
  parity  : Nat
  rest    : Nat
  deriving DecidableEq, Repr

/-- The entry of a group. -/
def State.collEntry (s : State) (g : Nat) : CollEntry :=
  let a := s.rg .fabCollBase + g * 64
  { n := s.memNum a 2, own := s.memNum (a + 2) 2, timeout := s.memNum (a + 4) 4, members := s.memNum (a + 8) 8,
    cmds := s.memNum (a + 16) 8, count := s.memNum (a + 24) 2, parity := s.memNum (a + 26) 1, rest := s.memNum (a + 27) 37 }

/-- The node id of a member. -/
def State.collMember (s : State) (e : CollEntry) (m : Nat) : Nat := s.memNum (e.members + 2 * m) 2

/-- A collective command (R240). -/
structure CollCmd where
  op     : Nat
  trans  : Nat
  red    : Nat
  role   : Nat
  rsv    : Nat
  fin    : Nat
  fout   : Nat
  elems  : Nat
  input  : Nat
  root   : Nat
  output : Nat
  layer  : Nat
  trigger : Nat
  need   : Nat
  done   : Nat
  inc    : Nat
  deriving DecidableEq, Repr

/-- Command k of a group. -/
def State.collCmd (s : State) (e : CollEntry) (k : Nat) : CollCmd :=
  let a := e.cmds + k * 32
  let b2 := s.memNum (a + 2) 1
  let b3 := s.memNum (a + 3) 1
  { op := s.memNum a 1, trans := s.memNum (a + 1) 1, red := bits b2 0 2, role := bits b2 4 3, rsv := bits b2 2 2 + bits b2 7 1,
    fin := bits b3 0 4, fout := bits b3 4 4, elems := s.memNum (a + 4) 4, input := s.memNum (a + 8) 6,
    root := s.memNum (a + 14) 2, output := s.memNum (a + 16) 6, layer := s.memNum (a + 22) 2,
    trigger := s.memNum (a + 24) 2, need := s.memNum (a + 26) 2, done := s.memNum (a + 28) 2, inc := s.memNum (a + 30) 2 }

/-- Whether a command reduces. -/
def CollCmd.reduces (c : CollCmd) : Bool := c.op = 0 || c.op = 2

/-- Whether the transport stands in the operation's row of R241. -/
def CollCmd.transportOk (c : CollCmd) : Bool :=
  c.trans ≤ 3 && (if c.reduces then c.trans ≠ 0 else if c.op = 4 then c.trans = 0 else true)

/-- Whether a command is valid in a group of n members (R240, R241). -/
def CollCmd.valid (c : CollCmd) (n : Nat) : Bool :=
  c.op ≤ 4 && c.transportOk && c.red ≤ 2 && c.role ≤ 4 && c.rsv = 0 && fmtValid c.fin && fmtValid c.fout &&
  (!c.reduces || ((c.fin = 5 || c.fin = 7) && (c.fout = 5 || c.fout = 7))) &&
  (c.trans ≠ 0 || c.fin = c.fout) &&
  (c.op ≠ 4 || (c.elems % n = 0 && c.elems / n * fmtBits c.fin % 8 = 0)) &&
  (c.op ≠ 3 || c.root < n) && c.need ≠ 0 && c.inc ≠ 0

/-- Whether a group may be enabled (R239, R265). -/
def State.collValid (s : State) (g : Nat) : Bool :=
  let e := s.collEntry g
  let ids := (List.range e.n).map (s.collMember e)
  1 ≤ e.n && e.n ≤ 65534 && e.own < e.n && e.rest = 0 && e.parity ≤ 2 && 1 ≤ e.count &&
  s.collMember e e.own = s.nodeId && ids.all (fun n => n = s.nodeId || !(s.routeOf n).isEmpty) && ids.Nodup && !ids.contains 0 && !ids.contains 0xFFFF &&
  (List.range e.count).all (fun k => (s.collCmd e k).valid e.n)

/-! ## Geometry (R241) -/

/-- Blocks of 32 elements of a command. -/
def CollCmd.blocks (c : CollCmd) : Nat := (c.elems + 31) / 32

/-- The blocks that a member owns: the first, and the first after them. -/
def CollCmd.shard (c : CollCmd) (n i : Nat) : Nat × Nat := (i * c.blocks / n, (i + 1) * c.blocks / n)

/-- Bytes of one block on the wire. -/
def CollCmd.unit (c : CollCmd) : Nat := if c.trans = 0 then fmtBlock c.fin else transportBytes c.trans

/-- Blocks of one chunk: as many whole blocks as 4,096 bytes hold (DESIGN CHOICE, log entry 25). -/
def CollCmd.perChunk (c : CollCmd) : Nat := 4096 / c.unit

/-- Chunks of a number of blocks. -/
def CollCmd.chunks (c : CollCmd) (k : Nat) : Nat := (k + c.perChunk - 1) / c.perChunk

/-- Chunks of a member's shard. -/
def CollCmd.shardChunks (c : CollCmd) (n i : Nat) : Nat := let r := c.shard n i; c.chunks (r.2 - r.1)

/-- Bytes of one part of an all-to-all. -/
def CollCmd.partBytes (c : CollCmd) (n : Nat) : Nat := c.elems / n * fmtBits c.fin / 8

/-- Chunks that member i receives from member m: for an all-reduce those of its own shard's reduction, then those of the
sender's reduced shard (DESIGN CHOICE, log entry 25). -/
def CollCmd.expected (c : CollCmd) (n i m : Nat) : Nat :=
  if m = i then 0
  else if c.elems = 0 then 1
  else match c.op with
    | 0 => c.shardChunks n i
    | 1 => c.shardChunks n m
    | 2 => c.shardChunks n i + c.shardChunks n m
    | 3 => if m = c.root then c.chunks c.blocks else 0
    | _ => (c.partBytes n + 4095) / 4096

/-- Bytes of a chunk of blocks, k of them in all. -/
def CollCmd.blockChunkBytes (c : CollCmd) (k j : Nat) : Nat := min c.perChunk (k - j * c.perChunk) * c.unit

/-- Bytes of chunk j that member i receives from member m. -/
def CollCmd.chunkBytes (c : CollCmd) (n i m j : Nat) : Nat :=
  let own := (c.shard n i).2 - (c.shard n i).1
  let theirs := (c.shard n m).2 - (c.shard n m).1
  if c.elems = 0 then 0
  else match c.op with
    | 0 => c.blockChunkBytes own j
    | 1 => c.blockChunkBytes theirs j
    | 2 => if j < c.shardChunks n i then c.blockChunkBytes own j else c.blockChunkBytes theirs (j - c.shardChunks n i)
    | 3 => c.blockChunkBytes c.blocks j
    | _ => min 4096 (c.partBytes n - j * 4096)

/-! ## Encoding a member's blocks -/

/-- Elements of block b that lie below E. -/
def CollCmd.live (c : CollCmd) (b : Nat) : Nat := min 32 (c.elems - 32 * b)

/-- Counts of conversions (R77, R243). -/
def convCounts (srcs : List FVal) (nonzero : Nat) (outs : List Cls) : StepCounts :=
  { elems := outs.length, sources := srcs.countP FVal.nonzeroFin, nonzero := nonzero,
    overflow := outs.count .overflow, underflow := outs.count .underflow, nonfinite := outs.count .nonfinite }

/-- One block as it goes on the wire: bytes, counts, and its values widened. -/
structure WireBlock where
  bytes  : List Byte
  counts : StepCounts
  values : List FVal
  deriving DecidableEq, Repr

/-- Encodes values, the first n of them counted (R242). -/
def CollCmd.encode (c : CollCmd) (n : Nat) (xs : List FVal) : WireBlock :=
  let (codes, scale, outs) := encodeBlock c.trans xs
  let values := codes.map (fun v => widenElem c.trans v scale)
  { bytes := blockBytes c.trans codes scale,
    counts := convCounts (xs.take n) ((values.take n).countP FVal.nonzero) (outs.take n), values := values }

/-- Block b of a member's input, which stands at place rel of the input (R241). -/
def State.inputBlock (s : State) (c : CollCmd) (b rel : Nat) : WireBlock :=
  let codes := blockCodes s c.fin (c.input + rel * fmtBlock c.fin) (c.live b)
  if c.trans = 0 then { bytes := pack (fmtBits c.fin) codes, counts := .zero, values := codes.map (decodeElem c.fin) }
  else c.encode (c.live b) (codes.map (decodeElem c.fin))

/-- Blocks lo to hi - 1 of the input, the first standing at place rel. -/
def State.inputBlocks (s : State) (c : CollCmd) (lo hi rel : Nat) : List WireBlock :=
  (List.range (hi - lo)).map (fun k => s.inputBlock c (lo + k) (rel + k))

/-- The chunks of blocks. -/
def CollCmd.chunked (c : CollCmd) (bs : List WireBlock) : List (List Byte) :=
  (pieces c.perChunk bs).map (fun p => p.flatMap (·.bytes))

/-! ## Output (R241, R242) -/

/-- A write of a unit of the module: a range, if it is not a hole; ack names what waits until its bytes are visible (R150). -/
def unitWriteFor (ack : Option Nat) (a : Nat) (b : List Byte) (s : State) : State :=
  if s.mpaOk a b.length then ctrlWrite 0 ack a b s else s

/-- A write of which nothing waits to see that it is visible. -/
def unitWrite (a : Nat) (b : List Byte) (s : State) : State := unitWriteFor none a b s

/-- Adds to the counts of a group's running command. -/
def addGroupCounts (g : Nat) (k : StepCounts) (s : State) : State :=
  let y := s.group g
  s.setGroup g { y with counts := y.counts.add k }

/-- Writes block b, of which the output holds place rel, from values; raw bytes go unchanged (R241, R242). With FP4 and FP6 each
element is converted on its own, without a block scale (R55, DESIGN CHOICE, log entry 107). -/
def putValues (g : Nat) (c : CollCmd) (b rel : Nat) (xs : List FVal) (s : State) : State :=
  let n := c.live b
  let r := xs.map (fun x => convertElem c.fout none 0 x)
  let a := c.output + rel * fmtBlock c.fout
  addGroupCounts g (convCounts (xs.take n) (((r.map (·.1)).take n).countP (nonzeroCode c.fout)) ((r.map (·.2)).take n))
    (unitWriteFor (s.group g).ack a (mergeCodes s c.fout a n (r.map (·.1))) s)

/-- Writes block b from its bytes on the wire. -/
def putBlock (g : Nat) (c : CollCmd) (b rel : Nat) (bytes : List Byte) (s : State) : State :=
  if c.trans = 0 then
    let a := c.output + rel * fmtBlock c.fout
    unitWriteFor (s.group g).ack a (mergeCodes s c.fout a (c.live b) (unpack (fmtBits c.fout) 32 bytes)) s
  else putValues g c b rel (blockValues c.trans bytes) s

/-- Writes blocks from block b from their bytes on the wire. -/
def putBlocks (g : Nat) (c : CollCmd) (b : Nat) (bytes : List Byte) (s : State) : State :=
  each (pieces c.unit bytes).zipIdx (fun x s => putBlock g c (b + x.2) (b + x.2) x.1 s) s

/-! ## Folding (R242) -/

/-- One folding step and its counts. -/
def foldStep (red : Nat) (acc : Word) (x : FVal) : Word × StepCounts :=
  let w := round32 x
  let (r, k) := if red = 0 then add32 acc w else minmax32 (red = 1) acc w
  let exact := if red = 0 then (val32 acc).add (val32 w) else val32 r
  (r, { elems := 1, sources := if exact.nonzeroFin then 1 else 0, nonzero := if (val32 r).eq (.fin false 0 0) then 0 else 1,
        overflow := if k = .overflow then 1 else 0, underflow := if k = .underflow then 1 else 0,
        nonfinite := if k = .nonfinite then 1 else 0 })

/-- Folds the contributions of one element, in ascending member order. -/
def foldElem (red : Nat) : List FVal → Word × StepCounts
  | [] => (0, .zero)
  | x :: xs => xs.foldl (fun a y => let r := foldStep red a.1 y; (r.1, a.2.add r.2)) (round32 x, .zero)

/-- The values that member m contributes to block k of this member's shard, from the chunks received. -/
def contribution (c : CollCmd) (cs : List CollChunk) (m k : Nat) : List FVal :=
  match cs.find? (fun x => x.member == m && x.chunk == k / c.perChunk) with
  | some x => blockValues c.trans ((x.data.drop (k % c.perChunk * c.unit)).take c.unit)
  | none => []

/-- The words of block k of this member's shard, folded, and the counts of the folding; lo is the shard's first block and rel
where the input holds block k. -/
def State.foldBlock (s : State) (c : CollCmd) (n own : Nat) (cs : List CollChunk) (lo k : Nat) : List Word × StepCounts :=
  let mine := (s.inputBlock c (lo + k) (lo + k)).values
  let cols := (List.range n).map (fun m => if m = own then mine else contribution c cs m k)
  let es := (List.range 32).map (fun e => foldElem c.red (cols.map (fun v => (v[e]?).getD (.fin false 0 0))))
  (es.map (·.1), ((es.take (c.live (lo + k))).map (·.2)).foldl StepCounts.add .zero)

/-! ## Sending chunks -/

/-- Sends chunk j of a command to a member (R260). -/
def sendChunk (g : Nat) (e : CollEntry) (cmd m j : Nat) (data : List Byte) (s : State) : State :=
  sendMessage 0x10 (s.collMember e m)
    { addr := 0, spec := specBytes [(22, 2, g), (24, 2, cmd), (26, 4, j), (30, 2, e.own)], data := data } s

/-- Sends chunks, numbered from j0, to a member. -/
def sendChunks (g : Nat) (e : CollEntry) (cmd m j0 : Nat) (cs : List (List Byte)) (s : State) : State :=
  each cs.zipIdx (fun x s => sendChunk g e cmd m (j0 + x.2) x.1 s) s

/-- The members other than this one. -/
def CollEntry.others (e : CollEntry) : List Nat := (List.range e.n).filter (· ≠ e.own)

/-- What a member sends at a command's start (R241, R242): its contributions, its shard, its root data or its parts. -/
def sendInputs (g : Nat) (e : CollEntry) (k : Nat) (c : CollCmd) (s : State) : State :=
  if c.elems = 0 then each e.others (fun m s => sendChunk g e k m 0 [] s) s
  else match c.op with
    | 1 =>
      let r := c.shard e.n e.own
      let bs := s.inputBlocks c r.1 r.2 0
      addGroupCounts g ((bs.map (·.counts)).foldl StepCounts.add .zero)
        (each e.others (fun m s => sendChunks g e k m 0 (c.chunked bs) s) s)
    | 3 =>
      if e.own = c.root then
        let bs := s.inputBlocks c 0 c.blocks 0
        addGroupCounts g ((bs.map (·.counts)).foldl StepCounts.add .zero)
          (each e.others (fun m s => sendChunks g e k m 0 (c.chunked bs) s) s)
      else s
    | 4 =>
      let p := c.partBytes e.n
      each e.others (fun m s => sendChunks g e k m 0 (pieces 4096 (s.memBytes (c.input + m * p) p)) s) s
    | _ =>
      each (List.range e.n) (fun m s =>
        let r := c.shard e.n m
        let bs := s.inputBlocks c r.1 r.2 r.1
        let s := addGroupCounts g ((bs.map (·.counts)).foldl StepCounts.add .zero) s
        if m = e.own then s else sendChunks g e k m 0 (c.chunked bs) s) s

/-- What a member places of its own input at a command's start (R241). -/
def placeOwn (g : Nat) (e : CollEntry) (c : CollCmd) (s : State) : State :=
  let r := c.shard e.n e.own
  match c.op with
  | 1 => each (List.range (r.2 - r.1)) (fun k s => putBlock g c (r.1 + k) (r.1 + k) (s.inputBlock c (r.1 + k) k).bytes s) s
  | 3 => if e.own = c.root then each (List.range c.blocks) (fun k s => putBlock g c k k (s.inputBlock c k k).bytes s) s else s
  | 4 => let p := c.partBytes e.n
         unitWriteFor (s.group g).ack (c.output + e.own * p) (s.memBytes (c.input + e.own * p) p) s
  | _ => s

/-- Places a chunk that is no contribution (R241). -/
def placeChunk (g : Nat) (e : CollEntry) (c : CollCmd) (x : CollChunk) (s : State) : State :=
  match c.op with
  | 1 => putBlocks g c ((c.shard e.n x.member).1 + x.chunk * c.perChunk) x.data s
  | 2 => let k := c.shardChunks e.n e.own
         if x.chunk < k then s else putBlocks g c ((c.shard e.n x.member).1 + (x.chunk - k) * c.perChunk) x.data s
  | 3 => putBlocks g c (x.chunk * c.perChunk) x.data s
  | 4 => unitWriteFor (s.group g).ack (c.output + x.member * c.partBytes e.n + x.chunk * 4096) x.data s
  | _ => s

/-- Whether every contribution to this member's shard has come. -/
def Group.folded (y : Group) (e : CollEntry) (c : CollCmd) : Bool :=
  e.others.all (fun m => (List.range (c.shardChunks e.n e.own)).all (fun j =>
    y.chunks.any (fun x => x.member == m && x.chunk == j)))

/-- Folds this member's shard once every contribution has come; a reduce-scatter writes it, an all-reduce sends it in the
transport format and writes what that widens to (R242). -/
def tryFold (g : Nat) (e : CollEntry) (k : Nat) (c : CollCmd) (s : State) : State :=
  let y := s.group g
  if !c.reduces || c.elems = 0 || y.reduced || !y.folded e c then s
  else
    let r := c.shard e.n e.own
    let s := s.setGroup g { y with reduced := true }
    let fs := (List.range (r.2 - r.1)).map (fun b => s.foldBlock c e.n e.own y.chunks r.1 b)
    let s := addGroupCounts g ((fs.map (·.2)).foldl StepCounts.add .zero) s
    if c.op = 0 then each fs.zipIdx (fun f s => putValues g c (r.1 + f.2) f.2 (f.1.1.map val32) s) s
    else
      let bs := fs.zipIdx.map (fun f => c.encode (c.live (r.1 + f.2)) (f.1.1.map val32))
      let s := addGroupCounts g ((bs.map (·.counts)).foldl StepCounts.add .zero) s
      let s := each bs.zipIdx (fun b s => putValues g c (r.1 + b.2) (r.1 + b.2) b.1.values s) s
      each e.others (fun m s => sendChunks g e k m (c.shardChunks e.n m) (c.chunked bs) s) s

/-! ## Progress -/

/-- Chunks received of a member. -/
def Group.got (y : Group) (m : Nat) : Nat := y.chunks.countP (fun x => x.member == m)

/-- Whether a running command has all that it needs (R240). -/
def Group.complete (y : Group) (e : CollEntry) (c : CollCmd) : Bool :=
  e.others.all (fun m => y.got m = c.expected e.n e.own m) && (!c.reduces || c.elems = 0 || y.reduced)

/-- The lowest member that has not delivered, 0xFFFF when all have. -/
def Group.missing (y : Group) (e : CollEntry) (c : CollCmd) : Nat :=
  (e.others.find? (fun m => y.got m < c.expected e.n e.own m)).getD 0xFFFF

/-- The watch table that a group's counts go to: that of the attempt whose step has the group's parity, else of the oldest
open attempt (R243, R287, DESIGN CHOICE, log entry 25). -/
def State.collWatch (s : State) (e : CollEntry) : Watch :=
  match s.steps.attempts.find? (fun a => e.parity = 0 || a.step % 2 + 1 = e.parity) with
  | some a => watchOf a
  | none => s.liveWatch

end Sys2Proof.Machine
end

