-- ==== Sys2Proof/Machine/Dump.lean ====
section
/-! DEFINITION. Dumps of what waits (R245 to R247), and the event WAIT_TIMEOUT with its automatic dump (R238, R244, R248). -/

namespace Sys2Proof.Machine

set_option Elab.async false

/-- A record of 16 bytes from (offset, size, value) fields. -/
def dumpRec (fs : List (Nat × Nat × Nat)) : List Byte := leBytes 16 (detail fs).toNat

/-- The record of a wire in use (R246). -/
def wireRec (s : State) (w : Nat) (x : Wire) : List Byte :=
  let up := s.wireHigh x
  let low := x.mask.filter (fun t => !up.contains t)
  dumpRec [(0, 1, 4), (1, 1, w), (2, 2, x.mask.length), (4, 2, up.length),
    (6, 2, low.foldl min ((low.head?).getD 0xFFFF)), (8, 4, x.count)]

/-- The record of a pass held on a tile at a WAIT or a BIND (R246). -/
def waitRec (t : Nat) (q : SeqState) : Option (List Byte) :=
  match q.hold with
  | some (.wait kind tally target since _) =>
    some (dumpRec [(0, 1, 3), (1, 1, kind), (2, 2, t), (4, 2, tally), (6, 1, q.slot), (8, 4, target.toNat), (12, 4, since)])
  | some (.bind w since _) =>
    some (dumpRec [(0, 1, 3), (1, 1, 4), (2, 2, t), (4, 2, w), (6, 1, q.slot), (12, 4, since)])
  | _ => none

/-- The groups in a state. -/
def State.groupsIn (s : State) (st : GState) : List (Nat × Group) := s.coll.groups.filter (fun e => e.2.st = st)

/-- Whether a group waits at the trigger of its next command. -/
def State.triggers (s : State) (x : Nat × Group) : Bool := x.2.st = .idle && x.2.cmd < (s.collEntry x.1).count

/-- The record of a pending collective trigger (R246). -/
def triggerRec (s : State) (x : Nat × Group) : List Byte :=
  let c := s.collCmd (s.collEntry x.1) x.2.cmd
  dumpRec [(0, 1, 3), (1, 1, 5), (2, 2, 0xFFFF), (4, 2, c.trigger), (8, 4, (s.mtally c.trigger).ref.toNat + c.need),
    (12, 4, x.2.since)]

/-- The record of a collective in progress (R246). -/
def collRec (s : State) (x : Nat × Group) : List Byte :=
  let e := s.collEntry x.1
  let c := s.collCmd e x.2.cmd
  dumpRec [(0, 1, 5), (1, 1, c.op), (2, 2, x.1), (4, 2, x.2.cmd), (6, 2, x.2.missing e c), (8, 4, x.2.chunks.length),
    (12, 4, (e.others.map (c.expected e.n e.own)).sum)]

/-- The records of the local tallies of a pass on its tiles (R245, R246). -/
def localRecs (s : State) (p : Pass) : List (List Byte) :=
  p.tiles.flatMap (fun t => (upFrom p.img.tBase p.img.tCount).filterMap (fun k =>
    let y := s.tally (some t) k
    if y.count = 0 && y.ref = 0 then none
    else some (dumpRec [(0, 1, 2), (1, 1, k), (2, 2, t), (4, 4, y.count.toNat), (8, 4, y.ref.toNat)])))

/-- The record of a module tally (R246). -/
def mtallyRec (s : State) (k : Nat) : List Byte :=
  let y := s.mtally k
  dumpRec [(0, 1, 1), (1, 1, if y.gate then 1 else 0), (2, 2, k), (4, 4, y.count.toNat), (8, 4, y.ref.toNat),
    (12, 4, y.double.toNat)]

/-- The records of classes 1 to 4 (R245). -/
def dumpCommon (s : State) : List (List Byte) :=
  s.sync.wires.map (fun e => wireRec s e.1 e.2)
    ++ s.residents.filterMap (fun x => waitRec x.1 x.2)
    ++ ((s.coll.groups.filter s.triggers).map (triggerRec s))
    ++ ((s.groupsIn .running).map (collRec s))
    ++ (s.passes.filter (fun p => p.ending.isNone)).flatMap (localRecs s)

/-- The module tallies of a range that a dump lists (R245). -/
def dumpTallies (s : State) (lo hi : Nat) : List Nat :=
  (s.sync.mtal.filter (fun e => lo ≤ e.1 && e.1 ≤ hi && (e.2.count ≠ 0 || e.2.ref ≠ 0 || e.2.double ≠ 0))).map (·.1)

/-- The records of a SYNC_DUMP (R245). -/
def dumpAll (s : State) (lo hi : Nat) : List (List Byte) := dumpCommon s ++ (dumpTallies s lo hi).map (mtallyRec s)

/-- Wires at which a tile waits. -/
def State.wiresWaiting (s : State) : List Nat := (s.sync.wires.filter (fun e => e.2.high ≠ [])).map (·.1)

/-- The mask of wire numbers. -/
def wireMask (ws : List Nat) : Nat := (ws.map (2 ^ ·)).sum

/-- The header of a dump (R246). -/
def dumpHeader (s : State) (cause n next : Nat) (truncated : Bool) : List Byte :=
  leBytes 6 s.aon ++ leBytes 2 0 ++ leBytes 1 cause ++ leBytes 1 (if truncated then 1 else 0) ++ leBytes 2 n ++ leBytes 4 next
    ++ leBytes 2 (wireMask (s.sync.wires.map (·.1))) ++ leBytes 2 (wireMask s.wiresWaiting) ++ leBytes 2 s.nodeId ++ leBytes 10 0

/-- The payload of a SYNC_DUMP from a cursor (R245). -/
def dumpPayload (s : State) (cursor lo hi : Nat) : List Byte :=
  let rs := dumpAll s lo hi
  let part := (rs.drop cursor).take 250
  let more := cursor + 250 < rs.length
  dumpHeader s 0 part.length (if more then cursor + 250 else 0) more ++ part.flatten

/-- Writes an automatic dump, of which extra is the record of class 5, if there is one (R247). -/
def autoDump (cause : Nat) (extra : List (List Byte)) (s : State) : State :=
  let base := s.rg .tilDumpBase
  if base = 0 then s
  else
    let slots := 2 ^ min 8 (s.rgBits .tilDumpCfg 0 4)
    let rs := dumpCommon s ++ extra
    let a := base + s.rg .tilDumpCount % slots * 4096
    (unitWrite a (dumpHeader s cause (min 254 rs.length) 0 (rs.length > 254) ++ (rs.take 254).flatten) s).inc .tilDumpCount 1

/-- A wait that passed its deadline: WAIT_TIMEOUT, then its dump (R238, R244, R248). -/
def waitTimedOut (cause who what slot target : Nat) (extra : List (List Byte)) (s : State) : State :=
  let slotNo := if s.rg .tilDumpBase = 0 then 0xFFFFFFFF else s.rg .tilDumpCount
  autoDump cause extra
    ((raiseEvent .waitTimeout who
      (detail [(0, 1, cause), (2, 2, who), (4, 2, what), (6, 2, slot), (8, 4, target), (12, 4, slotNo)]) s).flag
      .tilSyncStatus 3)

end Sys2Proof.Machine
end

