-- ==== Sys2Proof/Machine/Fault.lean ====
section
/-! DEFINITION. The module fault (R365, R383): what its declaration does to work in flight, pins, events, tiles, memories and
ports. -/

namespace Sys2Proof.Machine

set_option Elab.async false

/-- The cause numbers of STW_STATUS (R399). -/
def faultNum : FaultCause → Nat
  | .criticalStack _ => 1
  | .failedDevice _ => 2
  | .nodeIdLost _ => 3
  | .dieTemperature => 4
  | .inputVoltage => 5

/-- The memory that a fault names, 0xFF for none (R397). -/
def faultDevice : FaultCause → Nat
  | .criticalStack k => k
  | .failedDevice p => p
  | _ => 0xFF

/-- The node id that a fault names (R397). -/
def faultNode : FaultCause → Nat
  | .nodeIdLost n => n
  | _ => 0

/-- The hottest compute-die junction. -/
def State.hottest (s : State) : Nat := s.stw.temps.foldl max 0

/-- Input voltage in units of 10 mV (R397, R398). -/
def State.input10 (s : State) : Nat := s.rgBits .stwInput 0 16 / 10

/-- What a pass completes with at a module fault: ABORTED, unless a cause of an earlier cycle has ended it (R365, R420).
DEDUCED, log entry 110. -/
def Pass.faultStatus (p : Pass) (now : Nat) : Status × Nat :=
  match p.ending with
  | some e => if p.endedAt < now then e else (.aborted, e.2)
  | none => (.aborted, (p.tiles.head?).getD 0)

/-- The passes and accepted descriptors that have not completed complete with ABORTED (R365). -/
def abortAll (s : State) : State :=
  let s := each s.passes (fun p s => completePass p (p.faultStatus s.cyc).1 (p.faultStatus s.cyc).2 s) s
  each (s.host.inflight.map (·.id)) (fun d s => complete d .aborted 0 [] [] s) s

/-- A tile whose work has been aborted: nothing resident, the banks of the passes abandoned cleared (R27), its clock gated. -/
def Tile.gated (banks : BitVec 4) (tl : Tile) : Tile := { tl.clearBanks banks with seqs := [], running := none, clocked := false, waking := false, testUntil := 0 }

/-- A memory in self-refresh, if it was ready (R383). -/
def Device.resting (d : Device) : Device :=
  { d with st := if d.st = .ready then .selfRefresh else d.st, queue := [], paused := [] }

/-- The banks that the passes of a tile declare. -/
def State.declaredOn (s : State) (t : Nat) : BitVec 4 :=
  s.passes.foldl (fun b p => if p.tiles.contains t && (s.seq? t p.seq).isSome then b ||| p.img.banks else b) 0

/-- Whether a packet of a collective chunk is still to be sent by a port (R199, R244). -/
def Port.collSending (p : Port) : Bool := p.st = .up && (p.txq.any (fun x => x.type == 0x10) || p.rest.any (fun x => x.1.type == 0x10))

/-- Whether a packet of a collective chunk is still to be sent. -/
def State.collSending (s : State) : Bool := s.fab.ports.any (fun e => e.2.collSending)

/-- A port at a module fault: one that has packets of a collective chunk to send keeps them alone (R383). -/
def Port.faulted (p : Port) : Port :=
  if p.collSending then { p with txq := p.txq.filter (fun x => x.type == 0x10), rest := p.rest.filter (fun x => x.1.type == 0x10) }
  else p.idle

/-- Every port goes to electrical idle. -/
def idlePorts (s : State) : State :=
  { s with fab := { s.fab with ports := s.fab.ports.map (fun e => (e.1, e.2.idle)), restBy := none } }

/-- Whether the packets of a collective chunk that were in flight at a module fault are still being sent (R383). -/
def State.resting (s : State) : Bool := s.stw.mainOn && s.stw.fault.isSome && s.fab.restBy.isSome

/-- After a module fault every port goes to electrical idle once the packets in flight for the current collective chunk have been
sent, and within 1 ms (R383). -/
def restPorts (s : State) : State :=
  if s.stw.fault.isSome && s.fab.restBy.isSome && (!s.collSending || s.fab.restBy.any (· ≤ s.cyc)) then idlePorts s else s

/-- Work that stands in the gatherers, the mesh, the tallies' signals and wires, and the engines ends, the banks given by
tile are cleared (R27), and so is the harvest bitmap (R334, R365, R383). -/
def dropWork (banks : Nat → BitVec 4) (s : State) : State :=
  let s := match s.hrv.op with
    | some h => s.memPut (s.rg .hrvBitmapBase) (List.replicate h.bitmapBytes 0)
    | none => s
  { s with
    tiles := s.tiles.map (fun e => (e.1, e.2.gated (banks e.1))),
    gath := { s.gath with xfers := [], mesh := [], window := [] },
    sync := { s.sync with signals := [], wires := [], takes := [] },
    memory := { s.memory with dev := s.memory.dev.map (fun e => (e.1, e.2.resting)) },
    hrv := { s.hrv with op := none, restore := none, recovery := .idle, recRates := [], recWait := none, holds := [] },
    fab := { s.fab with ports := s.fab.ports.map (fun e => (e.1, e.2.faulted)), restBy := some (s.cyc + msCycles 1), out := [], inn := [], acks := [], claim := none } }

/-- The effects of a module fault that has been latched, in the order of R383; they take place once. -/
def faultEffects (c : FaultCause) (s : State) : State :=
  let banks := s.declaredOn
  let s := abortAll s
  let s := { s with stw := { s.stw with faultPin := true, pll := s.stw.pll.map (fun _ => PllSt.off), walks := [] } }
  let s := raiseEvent .moduleFault 0
    (detail [(0, 1, faultNum c), (1, 1, faultDevice c), (2, 2, s.hottest), (4, 2, s.input10), (6, 2, faultNode c)]) s
  restPorts ((dropWork banks s).flag .stwAlertStatus 4)

/-- Carries out a fault that has been latched and not yet declared. -/
def checkFault (s : State) : State :=
  match s.stw.fault with
  | some c => if s.stw.faultPin then s else faultEffects c s
  | none => s

/-- Declares a module fault; while one holds, a further cause changes nothing (R383). -/
def declareFault (c : FaultCause) (s : State) : State := checkFault (latchFault c s)

/-- The fault of a critical stack is declared once the packets in flight for the current collective chunk have left (R199,
R244). -/
def finishCritical (s : State) : State :=
  match s.coll.ending with
  | some k => if s.collSending then s else declareFault (.criticalStack k) { s with coll := { s.coll with ending := none } }
  | none => s

end Sys2Proof.Machine
end

