-- ==== Sys2Proof/Machine/Ports.lean ====
section
/-! DEFINITION. Ports as shared operations: flits, credits, the choice of the next packet, violations and late packets, and
declaring a port down (R253 to R257, R263, R267, R271 to R273). -/

namespace Sys2Proof.Machine

set_option Elab.async false

/-! ## Flits (R253) -/

/-- The bytes of a flit. -/
def flitBytes (f : BitVec 512) : List Byte := leBytes 64 f.toNat

/-- The kind of a flit. -/
def flitKind (f : BitVec 512) : Nat := bits f.toNat 0 2
/-- The lane of a flit. -/
def flitVl (f : BitVec 512) : Nat := bits f.toNat 2 2
/-- The sequence field of a flit. -/
def flitSeq (f : BitVec 512) : Nat := bits f.toNat 8 24

/-- The CRC-16 that a flit must carry: over bytes 5:0 and 63:8. -/
def flitCrc (f : BitVec 512) : Nat := (crc16 ((flitBytes f).take 6 ++ (flitBytes f).drop 8)).toNat

/-- Whether a flit passes its CRC-16. -/
def flitOk (f : BitVec 512) : Bool := bits f.toNat 48 16 = flitCrc f

/-- Whether the reserved bits of a flit's control word are zero. -/
def flitRsvOk (f : BitVec 512) : Bool := bits f.toNat 4 4 = 0 && bits f.toNat 32 16 = 0

/-- A flit from its kind, lane, sequence field and body. -/
def mkFlit (kind vl seq : Nat) (body : List Byte) : BitVec 512 :=
  let w := kind + vl * 4 + seq % 2 ^ 24 * 256
  let f : BitVec 512 := BitVec.ofNat 512 (w + leNat (padTo 56 body) * 2 ^ 64)
  BitVec.ofNat 512 (f.toNat + flitCrc f * 2 ^ 48)

/-- The flits of a packet on a lane, from a sequence number (R257). -/
def packetFlits (vl seq : Nat) (b : List Byte) : List (BitVec 512) :=
  (pieces 56 b).zipIdx.map (fun x => mkFlit (if x.2 = 0 then 1 else 2) vl (seq + x.2) x.1)

/-- The bodies of flits, joined. -/
def flitBodies (fs : List (BitVec 512)) : List Byte := fs.flatMap (fun f => (flitBytes f).drop 8)

/-! ## Receive buffers (R256, R257) -/

/-- Flits of the receive buffer of each lane (R256). -/
def bufferFlits : List Nat := [1024, 512, 256, 512]
/-- Read requests that a port holds (R256). -/
def requestEntries : Nat := 256

/-- The value at an index of a list of numbers. -/
def nth (l : List Nat) (i : Nat) : Nat := (l[i]?).getD 0
/-- The list with the number at an index changed. -/
def updNth (l : List Nat) (i : Nat) (f : Nat → Nat) : List Nat := l.set i (f (nth l i))

/-- The flits accepted on a lane. -/
def Port.lane (p : Port) (vl : Nat) : List (BitVec 512) := (p.rx[vl]?).getD []
/-- Replaces the flits of a lane. -/
def Port.setLane (p : Port) (vl : Nat) (fs : List (BitVec 512)) : Port := { p with rx := p.rx.set vl fs }

/-- The flits of the packet at the head of a list: the first, and the continuations that follow it. -/
def headRun : List (BitVec 512) → List (BitVec 512)
  | [] => []
  | f :: fs => f :: fs.takeWhile (fun g => flitKind g = 2)

/-- What stands at the head of a lane. -/
inductive Head where
  | empty
  | partial_
  | bad (n reason : Nat)
  | whole (n : Nat) (p : Packet)
  deriving DecidableEq, Repr

/-- The packet at the head of a lane: whole once it has the flits that its length asks for; a length above 4,096 or in
disagreement with the flits is bad (R272). -/
def headOf (fs : List (BitVec 512)) : Head :=
  match fs with
  | [] => .empty
  | f :: _ =>
    let run := headRun fs
    let p := parsePacket (flitBodies run)
    let l := numIn (flitBodies [f]) 6 2
    if flitKind f ≠ 1 || l > 4096 then .bad run.length 3
    else if run.length < flitCount l then (if run.length < fs.length then .bad run.length 3 else .partial_)
    else if run.length > flitCount l then .bad run.length 3
    else .whole run.length p

/-- Removes n flits from the head of a lane; their credits are owed to the partner (R256). -/
def popFlits (port vl n : Nat) (s : State) : State :=
  s.updPort port (fun p => { p.setLane vl ((p.lane vl).drop n) with owed := updNth p.owed vl (· + n) })

/-! ## Declaring a port down (R267, R273, R278) -/

/-- Raises LINK_RETRAIN (R278). -/
def linkEvent (port state downUs resent viol : Nat) (s : State) : State :=
  raiseEvent .linkRetrain port
    (detail [(0, 1, port), (1, 1, (s.port port).cause), (2, 1, state), (4, 4, min downUs 0xFFFFFFFF), (8, 4, resent),
      (12, 4, viol)]) s

/-- Declares a port down for a cause; it keeps its buffers for 250 ms (R267, R268). -/
def portDown (port cause : Nat) (s : State) : State :=
  let p := s.port port
  if p.st ≠ .up then s
  else
    let s := s.setPort port { p with st := .downHeld, locked := false, hello := false, downAt := s.cyc, retryAt := s.cyc, cause := cause,
                                     quarantine := p.quarantine || cause = 4 }
    linkEvent port 2 0 0 (if cause = 4 then p.violCnt else 0) (s.inc .fabPortRetrains 1 port)

/-! ## Violations and late packets (R271 to R273) -/

/-- Whether an event limited to one per 1 ms is due. -/
def State.due (s : State) (t : Option Nat) : Bool := match t with
  | some c => c + msCycles 1 ≤ s.cyc
  | none => true

/-- Violations in one interval above which a port is quarantined (R273). -/
def violationLimit : Nat := 64

/-- Counts a violation, quarantines the port above the limit, and raises PROTOCOL_VIOLATION (R272, R273). -/
def countViolation (port reason src type : Nat) (s : State) : State :=
  let i := s.aon / 25000
  let p := s.port port
  let n := if p.violInt = i then p.violCnt + 1 else 1
  let s := (s.setPort port { p with violInt := i, violCnt := n, violSince := p.violSince + 1 }).incSat .fabPortViol 1 port
  let s := if n = violationLimit + 1 then portDown port 4 s else s
  if s.due (s.port port).violAt then
    let q := s.port port
    raiseEvent .protocolViolation port
      (detail [(0, 1, port), (1, 1, reason), (2, 2, src), (4, 1, type), (5, 1, if q.quarantine then 1 else 0),
        (8, 4, q.violSince)])
      (s.setPort port { q with violSince := 0, violAt := some s.cyc })
  else s

/-- Whether a number names a module (R274). -/
def isNode (n : Nat) : Bool := 0 < n && n < 0xFFFF

/-- A packet dropped as a violation: counted, and answered with a NAK_PKT when its source is a node (R272). -/
def violation (port reason : Nat) (p : Packet) (s : State) : State :=
  let s := countViolation port reason (if isNode p.src then p.src else 0) p.type s
  if isNode p.src && s.nodeId ≠ 0 then
    sendPacket 0x35 p.src p.xid p.idx (s.answerPort p.src port) { addr := 0, spec := specBytes [(22, 1, reason)], data := [] }
      none s
  else s

/-- A packet dropped as late: counted, with PROTOCOL_LATE at most once per port per 1 ms (R271). -/
def latePacket (port cause : Nat) (p : Packet) (s : State) : State :=
  let s := (s.updPort port (fun q => { q with lateSince := q.lateSince + 1 })).incSat .fabPortLate 1 port
  let q := s.port port
  if s.due q.lateAt then
    raiseEvent .protocolLate port
      (detail [(0, 1, port), (1, 1, cause), (2, 2, p.src), (4, 4, p.xid), (8, 4, q.lateSince)])
      (s.setPort port { q with lateSince := 0, lateAt := some s.cyc })
  else s

/-! ## Checks of a whole packet (R272) -/

/-- Whether a type may carry a signal in its trailer (R232, R258, R260). -/
def carriesSignal (t : Nat) : Bool := t = 0x01 || t = 0x05 || t = 0x06 || t = 0x20 || t = 0x21

/-- Bytes of the type-specific part that a type uses, as (first, last) header offsets (R260). -/
def specUsed : Nat → List (Nat × Nat)
  | 0x01 => [(23, 30)] | 0x02 => [(22, 23)] | 0x03 => [(22, 30)] | 0x04 => [(22, 22)]
  | 0x10 => [(22, 31)] | 0x11 => [(22, 29)] | 0x20 => [(22, 31)] | 0x21 => [(22, 31)]
  | 0x32 => [(22, 27)] | 0x34 => [(22, 22)] | 0x35 => [(22, 22)] | 0x38 => [(22, 24)] | 0x39 => [(22, 24)]
  | _ => []

/-- Whether the reserved parts of a packet are zero. -/
def Packet.rsvOk (p : Packet) (trailer : List Byte) : Bool :=
  p.flags / 32 = 0 &&
  (upFrom 22 10).all (fun o => (specUsed p.type).any (fun r => r.1 ≤ o && o ≤ r.2) || p.specNum o 1 = 0) &&
  (p.hasSig || (p.tally = 0 && p.sigInc = 0)) && (trailer.drop 8).all (· = 0)

/-- The violation that a whole packet makes by itself, if any (R272, R274): the first reason of the table that holds. -/
def State.packetFault (s : State) (vl : Nat) (b : List Byte) (p : Packet) : Option Nat :=
  let body := (b.take (32 + p.payload.length))
  if (laneOf p.type).isNone then some 1
  else if laneOf p.type ≠ some vl || p.flags % 4 ≠ vl then some 2
  else if (crc32 body).toNat ≠ numIn b (32 + p.payload.length) 4 then some 4
  else if !(p.dst = s.nodeId || p.dst = 0xFFFF) || (p.dst = 0xFFFF && p.type ≠ 0x38) || (s.nodeId = 0 && p.type ≠ 0x38) then
    some 5
  else if (p.src = 0 && p.type ≠ 0x38) || p.src = 0xFFFF then some 6
  else if !p.rsvOk ((b.drop (32 + p.payload.length)).take 16) then some 9
  else if p.hasSig && (!carriesSignal p.type || p.sigInc = 0) then some 11
  else none

/-! ## Sending (R255, R256, R263) -/

/-- Whether the transfers that a packet waits for have all ended (R264). -/
def State.afterMet (s : State) (p : OutPacket) : Bool :=
  !p.after.any (fun x => s.fab.out.any (fun o => o.xid == x && o.node == p.node))

/-- Flits of a queued packet. -/
def OutPacket.flits (p : OutPacket) : Nat := (p.bytes.length + 55) / 56

/-- Whether a read request may leave a port: every earlier write that it overlaps has left (R264, R266). -/
def State.behindMet (s : State) (port : Nat) (p : OutPacket) : Bool :=
  !p.behind.any (fun x => (s.port port).txq.any (fun y => y.type == 0x01 && y.node == p.node && y.xid == x) ||
    (s.port port).rest.any (fun y => y.1.type == 0x01 && y.1.node == p.node && y.1.xid == x) ||
    s.gath.xfers.any (fun y => y.write && y.st = .waiting && y.node == p.node && y.block.any (·.1 == x)))

/-- The next packet of a lane: the first in the queue that waits for nothing and behind no earlier packet of its pair; a read
request that waits holds no message back. -/
def State.nextOnLane (s : State) (port vl : Nat) : List OutPacket → List Nat → Option OutPacket
  | [], _ => none
  | p :: ps, blocked =>
    if p.vl ≠ vl then s.nextOnLane port vl ps blocked
    else if blocked.contains p.node then s.nextOnLane port vl ps blocked
    else if s.afterMet p && s.behindMet port p && (!p.req || 1 ≤ (s.port port).reqCred) then some p
    else s.nextOnLane port vl ps (if p.req then blocked else p.node :: blocked)

/-- Whether a port holds credit for a packet (R256). -/
def Port.hasCredit (q : Port) (p : OutPacket) : Bool := p.flits ≤ nth q.credits p.vl && (!p.req || 1 ≤ q.reqCred)

/-- The order in which a port tries its lanes (R263). -/
def Port.laneOrder (q : Port) : List Nat := if q.vl3Turn then [2, 1, 3, 0] else [2, 1, 0, 3]

/-- The packet that a port sends next (R263). -/
def State.nextPacket (s : State) (port : Nat) : Option OutPacket :=
  let q := s.port port
  q.laneOrder.findSome? (fun vl => (s.nextOnLane port vl q.txq []).bind (fun p => if q.hasCredit p then some p else none))

/-- Sends flits on a port. -/
def emitFlits (port : Nat) (fs : List (BitVec 512)) (s : State) : State := each fs (fun f s => s.emit (.flit port f)) s

/-- Flits that a replay buffer holds (R255). -/
def replaySize : Nat := 4096

/-! ## Acknowledgements of writes (R150, R261) -/

/-- Sends a WRITE_ACK with a status. -/
def sendAck (port node xid idx status : Nat) (s : State) : State :=
  sendPacket 0x04 node xid idx (s.answerPort node port) { addr := 0, spec := specBytes [(22, 1, status)], data := [] } none s

/-- Sends the acknowledgements that nothing holds any longer (R150, R302). -/
def releaseAcks (s : State) : State :=
  let free := s.fab.acks.filter (fun a => !(a.copy || s.ackHeld a.id))
  each free (fun a s => sendAck a.port a.node a.xid a.idx 0 s)
    { s with fab := { s.fab with acks := s.fab.acks.filter (fun a => a.copy || s.ackHeld a.id) } }

end Sys2Proof.Machine
end

