-- ==== Sys2Proof/Machine/Twin.lean ====
section
/-! DEFINITION. The step unit's shared operations: the log rings (R299 to R302), the mirror's transfers and the digest
comparison (R305 to R311). -/

namespace Sys2Proof.Machine

set_option Elab.async false

/-! ## Steps and attempts -/

/-- The last sealed step of the job, if there is one (R316). -/
def State.lastSealed (s : State) : Option Nat :=
  if s.rgBit .stpLastSealed 40 then some (s.rgBits .stpLastSealed 0 40) else none

/-- The step number that stands for a step not yet named: a job's first step before its STEP_OPEN (DESIGN CHOICE, log entry 29). -/
def futureStep : Nat := 2 ^ 40

/-- The step that the next STEP_OPEN is to open (R283, R299). -/
def State.nextStepNo (s : State) : Nat :=
  let k := match s.lastSealed with
    | some n => n + 1
    | none => (s.steps.firstStep.orElse (fun _ => s.steps.restored)).getD futureStep
  if k ≠ futureStep && (s.attempt? k).any (fun a => a.st = .check) then k + 1 else k

/-- The attempts of a step so far: the highest number, and why the last one ended (0 refusal, 1 rollback). -/
def State.tried (s : State) (step : Nat) : Option (Nat × Nat) :=
  (s.steps.tried.find? (fun x => x.1 == step)).map (·.2)

/-- Changes every attempt. -/
def State.mapAttempts (s : State) (f : Attempt → Attempt) : State :=
  { s with steps := { s.steps with attempts := s.steps.attempts.map f } }

/-- The attempt in CHECK. -/
def State.checking (s : State) : Option Attempt := s.steps.attempts.find? (fun a => a.st == .check)

/-- The open attempts, lowest step first. -/
def State.openAttempts (s : State) : List Attempt :=
  List.insertionSort (fun a b => a.step ≤ b.step)
    (s.steps.attempts.filter (fun a => a.st = .openSt || a.st = .run || a.st = .check))

/-- The step and attempt number that a fabric log entry, or an untagged DATA_IN, belongs to now (R299). -/
def State.logStep (s : State) : Nat × Nat :=
  match s.openAttempts.find? (fun a => a.st != .check) with
  | some a => (a.step, a.num)
  | none => (s.nextStepNo, ((s.tried s.nextStepNo).map (·.1)).getD 0)

/-! ## Log rings (R299 to R301) -/

/-- Bytes held in a log ring. -/
def LogRing.used (r : LogRing) : Nat := (r.ents.map (·.size)).sum

/-- Bytes of an entry with a payload of len bytes (R300). -/
def entrySize (len : Nat) : Nat := 64 + (len + 63) / 64 * 64

/-- The padding that an entry of n bytes needs before it, and where it then stands (R300). -/
def LogRing.place (r : LogRing) (size n : Nat) : Nat × Nat := if r.tail + n ≤ size then (0, r.tail) else (size - r.tail, 0)

/-- Whether an entry of n bytes fits (R301). -/
def LogRing.fits (r : LogRing) (size n : Nat) : Bool := n ≤ size && r.used + (r.place size n).1 + n ≤ size

/-- The glean log's size. -/
def State.logSize (s : State) : Nat := s.rg .stpLogSize

/-- The next entry index of a step (R299). -/
def LogRing.nextIdx (r : LogRing) (step : Nat) : Nat :=
  r.ents.foldl (fun m e => if e.step = step && e.kind ≠ 0xFF then max m (e.idx + 1) else m) 0

/-- The 64-byte header of an entry (R300). src is the ring number or the source node, crc the payload's CRC-32. -/
def LogEnt.header (e : LogEnt) (src crc : Nat) : List Byte :=
  leBytes 2 0x4C47 ++ leBytes 1 e.kind ++ leBytes 1 e.num ++ leBytes 5 e.step ++ leBytes 3 0 ++ leBytes 4 e.idx
    ++ leBytes 8 e.target ++ leBytes 4 e.len ++ leBytes 2 src ++ leBytes 2 0 ++ leBytes 4 crc ++ leBytes 28 0

/-- Raises LOG_HIGH when the bytes held reach 75 % of the log (R301). -/
def logHigh (s : State) : State :=
  let u := s.steps.log.used
  if !s.steps.log.high && s.logSize * 3 ≤ u * 4 && u ≠ 0 then
    raiseEvent .logHigh 0 (detail [(0, 8, u), (8, 8, s.logSize)])
      { s with steps := { s.steps with log := { s.steps.log with high := true } } }
  else s

/-- Appends an entry with its bytes to the glean log, padding first where it would cross the end (R300, R301). -/
def appendEntry (e : LogEnt) (bytes : List Byte) (s : State) : State :=
  let r := s.steps.log
  let base := s.rg .stpLogBase
  let (pad, off) := r.place s.logSize e.size
  let p : LogEnt := { off := r.tail, size := pad, kind := 0xFF, num := e.num, step := e.step, idx := 0, target := 0, len := 0 }
  let s := if pad = 0 then s else unitWrite (base + r.tail) (p.header 0 0) s
  let s := unitWrite (base + off) bytes s
  let tail := if off + e.size = s.logSize then 0 else off + e.size
  logHigh { s with steps := { s.steps with log := { r with
    ents := r.ents ++ (if pad = 0 then [] else [p]) ++ [{ e with off := off }], tail := tail } } }

/-- The bytes of an entry: header and padded payload. -/
def LogEnt.bytes (e : LogEnt) (src : Nat) (data : List Byte) : List Byte :=
  e.header src (crc32 data).toNat ++ padTo (e.size - 64) data

/-- A new entry of a step. -/
def State.newEntry (s : State) (kind step num target len : Nat) : LogEnt :=
  { off := 0, size := entrySize len, kind := kind, num := num, step := step, idx := s.steps.log.nextIdx step,
    target := target, len := len }

/-- Releases the entries of the sealed step from the head of a ring forwards (R294, R301). -/
def LogRing.release (r : LogRing) (step : Nat) : LogRing := { r with ents := r.ents.dropWhile (fun e => e.step ≤ step) }

/-- LOG_HIGH may be raised again once the bytes held fall below 60 % (R301). -/
def State.relaxLog (s : State) : State :=
  if s.steps.log.used * 10 < s.logSize * 6 then
    { s with steps := { s.steps with log := { s.steps.log with high := false } } }
  else s

/-- The payload of an entry of the glean log, if its CRC-32 agrees and no line of it reads as detected (R303). -/
def State.entryPayload (s : State) (e : LogEnt) : Option (List Byte) :=
  let a := s.rg .stpLogBase + e.off
  let h := readRange s a 64
  let d := readRange s (a + 64) e.len
  if h.bad = [] && d.bad = [] && (crc32 d.data).toNat = numIn h.data 32 4 then some d.data else none

/-! ## Transfers of one operation (R262) -/

/-- Splits pieces into transfers at the 256 MiB boundaries of their addresses. -/
def splitPieces : List Piece → List (List Piece)
  | [] => []
  | x :: xs =>
    match splitPieces xs with
    | (y :: ys) :: gs => if x.addr / 0x10000000 = y.addr / 0x10000000 then (x :: y :: ys) :: gs else [x] :: (y :: ys) :: gs
    | _ => [[x]]

/-- Runs what sends the transfers of an operation: those that it adds belong to the operation (R262). -/
def underOp (op : Nat) (f : State → State) (s : State) : State :=
  let old := s.fab.out
  let s := f s
  { s with fab := { s.fab with out := s.fab.out.map (fun o => if old.any (fun x => x.xid == o.xid && x.node == o.node) then o
                                                              else { o with op := op }) } }

/-- A number for a new operation. -/
def newOp (s : State) : Nat × State := (s.fab.nextOp, { s with fab := { s.fab with nextOp := s.fab.nextOp + 1 } })

/-- Sends transfers on a lane; the signal, if any, travels in the last packet of the last one (R262). -/
def sendParts (type node vl : Nat) (purpose : Purpose) (ps : List Piece) (sig : Option (Nat × Nat)) (s : State) : State :=
  let gs := splitPieces ps
  each gs.zipIdx (fun g s =>
    (sendXfer type node vl false false purpose g.1 (if g.2 + 1 = gs.length then sig else none) s).1) s

/-- Sends the transfers of one operation (R262). -/
def sendOperation (type node vl : Nat) (purpose : Purpose) (ps : List Piece) (sig : Option (Nat × Nat)) (s : State) : State :=
  let (op, s) := newOp s
  underOp op (sendParts type node vl purpose ps sig) s

/-- The pieces of a MIRROR transfer: its kind, the detected-line mask and the step's low byte (R306). -/
def mirrorPieces (kind step a : Nat) (data : List Byte) (bad : List Bool) : List Piece :=
  (cut a data bad).map (fun p => { p with spec := leBytes 1 kind ++ (p.spec.drop 1) ++ leBytes 1 step })

/-- Whether an operation has transfers that are not yet acknowledged. -/
def State.unackedFor (s : State) (p : Purpose) : Bool := s.fab.out.any (fun o => o.purpose == p)

/-- Bytes that a unit reads, with the flag of each line (R187). -/
def State.readMarked (s : State) (a n : Nat) : List Byte × List Bool :=
  let r := readRange s a n
  (r.data, (linesOf a n).map r.bad.contains)

/-! ## The mirror (R302, R305, R309 to R311) -/

/-- Whether an attempt's mirror sends and digests go to the partner (R311, R326). -/
def State.twin (s : State) (a : Attempt) : Bool := s.mirrorOn && (!s.steps.lost || a.remirror)

/-- Sends the mirror copy of a glean-log entry to the partner; the address field holds the entry's offset in the log
(R302, DEDUCED, log entry 30). -/
def sendCopy (off step : Nat) (bytes : List Byte) (purpose : Purpose) (s : State) : State × Nat :=
  sendXfer 0x20 s.partner 3 false false purpose (mirrorPieces 1 step off bytes []) none s

/-- The place of a block of the CURRENT shard. -/
def State.shardBlock (s : State) (b : Nat) : Nat := blockAddr s.steps.curArea (s.mapSegs false) b

/-- Sends blocks of the CURRENT shard as kind 6 or 7, the address field holding their offset in the map (R306, log entry
30). Lines read as detected are reported for a fabric send (R187). -/
def sendBlocks (c : CopyOut) (s : State) : State :=
  let s := each c.blocks (fun b s => noteRead (s.shardBlock b) blockSize 3 s.oldestStep s) s
  let ps := c.blocks.flatMap (fun b =>
    let r := s.readMarked (s.shardBlock b) blockSize
    mirrorPieces c.kind c.step (b * blockSize) r.1 r.2)
  sendOperation 0x20 s.partner 3 (if c.kind = 6 then .repair else .initial) ps c.sig s

/-- Sends the copies whose blocks can be read; the others wait (R184, R190, R309, R310). -/
def sendCopies (s : State) : State :=
  let held (c : CopyOut) : Bool := c.blocks.any (fun b => s.engineHeld (s.shardBlock b) blockSize)
  each (s.steps.copies.filter (fun c => !held c)) sendBlocks
    { s with steps := { s.steps with copies := s.steps.copies.filter held } }

/-- Starts a copy of blocks to the partner. -/
def startCopy (c : CopyOut) (s : State) : State := sendCopies { s with steps := { s.steps with copies := s.steps.copies ++ [c] } }

/-- Whether the initial copy still has packets to send, or awaits acknowledgements. -/
def State.copying (s : State) : Bool := s.unackedFor .initial || s.steps.copies.any (fun c => c.kind == 7)

/-- Starts the initial copy of the CURRENT shard, its last packet with the signal of R309. -/
def sendInitial (step : Nat) (s : State) : State :=
  startCopy { kind := 7, step := step, blocks := List.range (mapBlocks (s.mapSegs false)),
              sig := some (s.rgBits .stpMirrorCfg 32 16, 1) } s

/-- The repair of the partner's mirror after a refusal: this module sends the blocks of its shard, and awaits those of its mirror
that have not come already (R310). -/
def startRepair (step : Nat) (out inn : List Nat) (s : State) : State :=
  let s := { s with steps := { s.steps with
    repairOut := out, repairIn := inn.filter (fun b => !s.steps.repairGot.contains b), repairGot := [] } }
  if out = [] then s else startCopy { kind := 6, step := step, blocks := out, sig := none } s

/-- A log copy's owner goes on: the DATA_IN no longer waits for the partner, or the WRITE may be acknowledged (R302). -/
def releaseCopy (desc ack : Option Nat) (s : State) : State :=
  let s := match desc with
    | some d => settle (s.updInflight d (fun i => match i.work with
      | .dataIn _ k => { i with work := .dataIn [] k, excluded := s.cyc - i.start }
      | _ => i))
    | none => s
  match ack with
  | some i => releaseAcks { s with fab := { s.fab with
      acks := s.fab.acks.map (fun a => if a.id = i then { a with copy := false } else a) } }
  | none => s

/-- Releases every log copy that waits, none being needed any longer (R311). -/
def releaseCopies (s : State) : State :=
  let waits := s.fab.out.filterMap (fun o => match o.purpose with
    | .logCopy d a => some (d, a)
    | _ => none)
  let s := { s with fab := { s.fab with out := s.fab.out.map (fun o => match o.purpose with
    | .logCopy _ _ => { o with purpose := .sig }
    | _ => o) } }
  each waits (fun w s => releaseCopy w.1 w.2 s) s

/-- The step of an UNPROTECTED record: that of the open attempt, or of the last sealed step (R315). -/
def State.protStep (s : State) : Nat := match s.openAttempts.head? with
  | some a => a.step
  | none => s.lastSealed.getD 0

/-- Raises UNPROTECTED (R311). -/
def unprotectedEvent (cause direction : Nat) (s : State) : State :=
  raiseEvent .unprotected 0 (detail [(0, 2, s.partner), (2, 1, cause), (3, 1, direction), (4, 5, s.protStep)]) s

/-- The partner is lost (R311): the module is unprotected, and nothing waits for the partner any longer. A copy that was
re-establishing the mirror ends with it.
DEDUCED, log entry 82. -/
def partnerLost (cause : Nat) (s : State) : State :=
  if !s.mirrorOn then s
  else
    let was := s.steps.lost
    let k := if was then s.steps.lostCause else cause
    let s := { s with steps := { s.steps with lost := true, lostCause := k, repairOut := [], repairIn := [], repairGot := [], copies := [],
                                              remirror := false,
                                              remirrorCopied := false } }
    let s := s.mapAttempts (fun a => { a with initial := false, remirror := false })
    let s := if was then s else unprotectedEvent cause 0 s
    releaseCopies s

/-! ## The digest comparison (R309, R310) -/

/-- The digest at an index of a kind received for a step. -/
def State.gotDigest (s : State) (step kind i : Nat) : Option Quad :=
  s.steps.digests.findSome? (fun d =>
    if d.step = step && d.kind = kind && d.index ≤ i && i < d.index + d.data.length / 8 then
      some (BitVec.ofNat 64 (numIn d.data (8 * (i - d.index)) 8))
    else none)

/-- Sends digests from an index as packets of one kind (R306). -/
def sendDigests (a : Attempt) (kind lo : Nat) (ds : List Quad) (s : State) : State :=
  let ps : List Piece := (pieces 512 ds).zipIdx.map (fun x =>
    { addr := lo + 512 * x.2, spec := leBytes 1 kind ++ leBytes 8 0 ++ leBytes 1 a.step,
      data := x.1.flatMap (fun d => leBytes 8 d.toNat) })
  if ps = [] then s else (sendXfer 0x20 s.partner 3 false false .digests ps none s).1

/-- The group digests of an attempt's table. -/
def State.groupDigests (s : State) (a : Attempt) (mirror : Bool) : List Quad :=
  (List.range (groupsOf (mapBlocks (s.mapSegs mirror)))).map (s.groupDigest a mirror)

/-- The groups in which a table differs from the partner's; none until every digest has come. -/
def State.badGroups (s : State) (a : Attempt) (mirror : Bool) (kind : Nat) : Option (List Nat) :=
  let ds := s.groupDigests a mirror
  let got := (List.range ds.length).map (s.gotDigest (a.step % 256) kind)
  if got.all Option.isSome then
    some (((ds.zip got).zipIdx.filter (fun x => some x.1.1 ≠ x.1.2)).map (·.2))
  else none

/-- The blocks of a group. -/
def State.blocksOf (s : State) (mirror : Bool) (k : Nat) : List Nat :=
  upFrom (1024 * k) (min 1024 (mapBlocks (s.mapSegs mirror) - 1024 * k))

/-- The blocks of groups in which a table differs from the partner's; none until every digest has come. -/
def State.badBlocks (s : State) (a : Attempt) (mirror : Bool) (kind : Nat) (groups : List Nat) : Option (List Nat) :=
  let bs := groups.flatMap (s.blocksOf mirror)
  let got := bs.map (s.gotDigest (a.step % 256) kind)
  if got.all Option.isSome then
    some (((bs.zip got).filter (fun x => (s.blockDigests a mirror x.1 1).head? ≠ x.2)).map (·.1))
  else none

/-- Sends the block digests of differing groups (R309). -/
def sendBlockDigests (a : Attempt) (mirror : Bool) (kind : Nat) (groups : List Nat) (s : State) : State :=
  each groups (fun k s =>
    let bs := s.blocksOf mirror k
    sendDigests a kind (1024 * k) (s.blockDigests a mirror (1024 * k) bs.length) s) s

/-- Ends the comparison with a set of mismatching blocks, own and mirrored, raising TWIN_MISMATCH when it is not empty
(R310). -/
def endCompare (a : Attempt) (own mir : List Nat) (mirrorOk : Bool) (s : State) : State :=
  let all := own ++ mir
  let s := s.updAttempt a.step (fun a => { a with digestDone := true, mirrorOk := mirrorOk,
                                                  mismatch := own.map (2 * ·) ++ mir.map (2 * · + 1) })
  if all = [] then s
  else raiseEvent .twinMismatch 0
    (detail [(0, 5, a.step), (5, 1, a.num), (6, 2, s.partner), (8, 4, all.length),
      (12, 4, all.foldl min ((all.head?).getD 0))]) s

/-- Carries the comparison of the attempt in CHECK as far as the digests received allow (R309). -/
def compareDigests (s : State) : State :=
  match s.checking with
  | none => s
  | some a =>
    if a.digestDone || !a.digestSent || !s.twin a then s
    else
      match s.badGroups a false 3, s.badGroups a true 2 with
      | some og, some mg =>
        if og = [] && mg = [] then endCompare a [] [] true s
        else
          let s := if a.blocksSent then s
            else sendBlockDigests a true 5 mg (sendBlockDigests a false 4 og
              (s.updAttempt a.step (fun a => { a with blocksSent := true })))
          (match s.badBlocks a false 5 og, s.badBlocks a true 4 mg with
           | some ob, some mb => endCompare a ob mb (mb = []) s
           | _, _ => s)
      | _, _ => s

/-! ## The end of a recovery stream (R323) -/

/-- The steps that count as attempted after a stream, with their highest attempt numbers. -/
def State.streamFacts (s : State) (b : List Byte) : List (Nat × Nat) :=
  let l := numIn b 0 5
  let named := if bit (numIn b 5 1) 0 then
      (if bit (numIn b 18 1) 0 then [(l + 1, numIn b 16 1)] else []) ++ (if bit (numIn b 18 1) 1 then [(l + 2, numIn b 17 1)] else [])
    else []
  let es := s.steps.log.ents.filter (fun e => e.kind ≠ 0xFF && !(named.map (·.1)).contains e.step)
  named ++ ((es.map (·.step)).dedup).map (fun k => (k, ((es.filter (fun e => e.step = k)).map (·.num)).foldl max 0))

/-- The end packet's signal has been applied: the counts of its payload are compared with what has been written (R323). -/
def endStream (b : List Byte) (s : State) : State :=
  let s := { s with hrv := { s.hrv with streamEnded := true } }
  if s.hrv.gotBlocks = numIn b 20 4 * blockSize && s.hrv.gotLogs = numIn b 24 4 && s.hrv.gotSide = numIn b 28 8 then
    let s := { s with hrv := { s.hrv with recovery := RecSt.received }, steps := { s.steps with facts := s.streamFacts b } }
    raiseEvent .standinComplete 0
      (detail [(0, 2, numIn b 36 2), (2, 5, numIn b 6 5), (7, 4, numIn b 20 4), (11, 3, numIn b 24 4),
        (14, 2, min ((s.cyc - s.hrv.claimAt) / msCycles 1) 0xFFFF)]) s
  else s.flag .hrvStatus 6

end Sys2Proof.Machine
end

