-- ==== Sys2Proof/Machine/Abandon.lean ====
section
/-! DEFINITION. How a transfer ends at either end: acknowledged, or abandoned with its reason and what follows for its owner
(R213, R262, R268 to R271, R275, R311, R321, R334). -/

namespace Sys2Proof.Machine

set_option Elab.async false

/-! ## Owners whose transfers have all been acknowledged -/

/-- A mirror send entry completes when none of its packets is unacknowledged (R305). -/
def mirrorDone (s : State) : State :=
  if s.unackedFor .mirrorSend then s
  else s.mapAttempts (fun a => if a.mirrorBusy then { a with mirrorBusy := false, mirrorPos := a.mirrorPos + 1 } else a)

/-- The initial copy is complete when every kind 7 packet has been acknowledged (R309, R326). -/
def initialDone (s : State) : State :=
  if s.copying || !s.steps.attempts.any (·.initial) then s
  else
    let s := s.mapAttempts (fun a => { a with initial := false })
    { s with steps := { s.steps with remirrorCopied := s.steps.remirror } }

/-- The repair is sent when every kind 6 packet has been acknowledged (R310). -/
def repairDone (s : State) : State :=
  if s.unackedFor .repair then s else { s with steps := { s.steps with repairOut := [] } }

/-- Ends the recovery channel's sending with a status (R321). -/
def endRecovery (st : Status) (s : State) : State :=
  if s.sendsStream then
    let r : RecSt := if s.hrv.recovery = .sending then .idle else s.hrv.recovery
    settle (complete s.hrv.recDesc st 0 [] [] { s with hrv := { s.hrv with recovery := r, recRates := [], recWait := none } })
  else s

/-- The recovery stream is sent when its end packet, and all before it, are acknowledged (R321). -/
def recoveryDone (s : State) : State := if s.unackedFor .recovery then s else endRecovery .ok s

/-! ## Harvest -/

/-- Ends a harvest with a status: the bitmap is cleared, every hold ends, and nothing is read back any longer (R334). -/
def endHarvest (st : Status) (s : State) : State :=
  match s.hrv.op with
  | some h =>
    let s := s.memPut (s.rg .hrvBitmapBase) (List.replicate h.bitmapBytes 0)
    settle (complete h.desc st 0 [] []
      { s with hrv := { s.hrv with op := none }, fab := { s.fab with inn := s.fab.inn.filter (fun i => !i.back) } })
  | none => s

/-! ## The source's end -/

/-- Removes a transfer of this module's, and the packets of it that no port has begun to send. -/
def removeOut (o : OutXfer) (s : State) : State :=
  let s := { s with fab := { s.fab with out := s.fab.out.filter (fun x => !(x.xid == o.xid && x.node == o.node)) } }
  each (List.range (Config.numPorts + 1)) (fun k s => s.updPort k (fun p =>
    { p with txq := p.txq.filter (fun q => !(q.xid == o.xid && q.node == o.node && q.vl == o.vl && q.type != 0x03)) })) s

/-- Abandons the passes of transfers, whose tags return, with a status; the tile reported is that of the transfer (R213, R217,
R270). -/
def abandonFor (st : Status) (xs : List Xfer) (s : State) : State :=
  each xs (fun x s => settlePass x.pass (abandonPass x.pass st x.tile (returnTag x s))) s

/-- Abandons the passes of transfers with ABANDONED (R213, R270). -/
def abandonPasses (xs : List Xfer) (s : State) : State := abandonFor .abandoned xs s

/-- What an owner does when one of its transfers is abandoned (R262, R270, R311, R321, R334). cause is the UNPROTECTED
cause. -/
def ownerAbandoned (o : OutXfer) (cause : Nat) (s : State) : State :=
  match o.purpose with
  | .moves xs => abandonPasses (s.gath.xfers.filter (fun x => xs.contains x.id)) s
  | .logCopy d a => releaseCopy d a (partnerLost cause s)
  | .mirrorSend => mirrorDone (partnerLost cause s)
  | .digests => partnerLost cause s
  | .repair => partnerLost cause s
  | .initial => partnerLost cause s
  | .recovery => endRecovery .abandoned s
  | .export_ => endHarvest .abandoned s
  | _ => s

/-- The detail of TRANSFER_ABANDONED at the source's end (R278). -/
def OutXfer.detail (o : OutXfer) (reason : Nat) : BitVec 128 :=
  Machine.detail [(0, 1, o.port), (1, 1, o.vl), (2, 2, o.node), (4, 4, o.xid), (8, 2, o.acked), (10, 1, 0), (11, 1, reason),
    (12, 1, 1)]

/-- Tells the other end that a transfer is abandoned; a receiver without a route to the source answers on the port by which the
transfer came (R260, R265, R270, DEDUCED, log entry 37). -/
def sendAbandon (node xid reason : Nat) (port : Option Nat) (s : State) : State :=
  sendPacket 0x34 node xid 0 port { addr := 0, spec := specBytes [(22, 1, reason)], data := [] } none s

/-- Ends one outgoing transfer at its source, telling the other end if it is to be told (R269, R270). -/
def endOut (reason : Nat) (tell : Bool) (o : OutXfer) (s : State) : State :=
  let s := raiseEvent .transferAbandoned o.port (o.detail reason) (removeOut o s)
  if tell then sendAbandon o.node o.xid reason none s else s

/-- The other transfers of an operation that has split into several (R262). -/
def State.siblings (s : State) (o : OutXfer) : List OutXfer :=
  s.fab.out.filter (fun x => x.op = o.op && o.op ≠ 0 && !(x.xid == o.xid && x.node == o.node))

/-- Abandons an outgoing transfer at its source, and with it every other transfer of its operation, of which nothing more is
sent (R262, R269, R270). -/
def abandonOut (reason : Nat) (tell : Bool) (o : OutXfer) (s : State) : State :=
  if s.fab.out.any (fun x => x.xid == o.xid && x.node == o.node) then
    let more := s.siblings o
    let s := each more (endOut reason true) (endOut reason tell o s)
    ownerAbandoned o (if reason = 4 then 2 else 1) s
  else s

/-! ## Transfers without a record of their own: responses, signals and the packets of lane 1 -/

/-- Whether a queued packet is a response to a read. -/
def OutPacket.answers (p : OutPacket) (node xid : Nat) : Bool := p.type == 0x03 && p.node == node && p.xid == xid

/-- Returns the request credit of a response's request, once its last response has been sent (R256). -/
def returnRequest (p : OutPacket) (s : State) : State :=
  match p.credit with
  | some q => s.updPort q (fun x => { x with reqOwed := x.reqOwed + 1 })
  | none => s

/-- Drops the responses to a read that are not yet sent, returning their request credits: the indices dropped (R218). -/
def dropResponses (node xid : Nat) (s : State) : State × List Nat :=
  let ks := List.range (Config.numPorts + 1)
  let ps := ks.flatMap (fun k => (s.port k).txq.filter (fun p => p.answers node xid))
  let s := each ks (fun k s => s.updPort k (fun q => { q with txq := q.txq.filter (fun p => !p.answers node xid) })) s
  (each ps returnRequest { s with fab := { s.fab with serving := s.fab.serving.filter (fun x => !(x.1 == node && x.2.1 == xid)) } },
    ps.map (fun p => (parsePacket p.bytes).idx))

/-- Whether a read that this module serves has responses still to be formed or sent. -/
def State.serves (s : State) (node xid : Nat) : Bool :=
  s.fab.serving.any (fun x => x.1 == node && x.2.1 == xid) ||
  (List.range (Config.numPorts + 1)).any (fun k => (s.port k).txq.any (fun p => p.answers node xid))

/-- Packet types that are transfers of their own, or of a served read, without a record at this source: READ_RESP, SIGNAL, COLL
and SEAL. -/
def looseType (t : Nat) : Bool := t = 0x03 || t = 0x05 || t = 0x10 || t = 0x11

/-- Abandons at its source a transfer without a record: its packets not yet sent are dropped, and the event is raised (R268 to
R270, R275). -/
def abandonLoose (port reason : Nat) (tell : Bool) (x : Nat × Nat × Nat) (s : State) : State :=
  let (type, node, xid) := x
  let s := if type = 0x03 then (dropResponses node xid s).1
    else each (List.range (Config.numPorts + 1)) (fun k s => s.updPort k (fun q =>
      { q with txq := q.txq.filter (fun p => !(p.type == type && p.node == node && p.xid == xid)) })) s
  let s := raiseEvent .transferAbandoned port
    (Machine.detail [(0, 1, port), (1, 1, (laneOf type).getD 0), (2, 2, node), (4, 4, xid), (11, 1, reason), (12, 1, 1)]) s
  if tell then sendAbandon node xid reason none s else s

/-- Abandons a read that this module serves for a node, if it still does (R270, R272). -/
def abandonServed (port reason node xid : Nat) (s : State) : State :=
  if s.serves node xid then abandonLoose port reason false (0x03, node, xid) s else s

/-- The transfers without a record that are queued for a node, each with its port, and the reads served for it. -/
def State.looseFor (s : State) (node : Nat) : List (Nat × (Nat × Nat × Nat)) :=
  let queued : List (Nat × (Nat × Nat × Nat)) := (List.range (Config.numPorts + 1)).flatMap (fun k =>
    ((s.port k).txq.filter (fun p => p.node == node && looseType p.type)).map (fun p => (k, (p.type, node, p.xid))))
  let served : List (Nat × (Nat × Nat × Nat)) :=
    (s.fab.serving.filter (fun x => x.1 == node)).map (fun x => (x.2.2, (0x03, node, x.2.1)))
  (queued ++ served).foldl (fun acc x => if acc.any (fun y => y.2 == x.2) then acc else acc ++ [x]) []

/-! ## The receiver's end -/

/-- Whether an entry is an awaited remote read, not an inbound transfer. -/
def InXfer.isRead (i : InXfer) : Bool := i.reads ≠ [] || i.back

/-- The detail of TRANSFER_STALLED, and of TRANSFER_ABANDONED at the receiver's end (R278). -/
def InXfer.detail (i : InXfer) (extra : List (Nat × Nat × Nat)) : BitVec 128 :=
  Machine.detail ([(0, 1, i.port), (1, 1, i.vl), (2, 2, i.src), (4, 4, i.xid), (8, 2, i.got),
    (10, 1, if i.isRead then 1 else 0)] ++ extra)

/-- Whether two entries are the same transfer. -/
def InXfer.same (i j : InXfer) : Bool := i.src == j.src && i.xid == j.xid && i.isRead == j.isRead

/-- A recovery stream that is abandoned at the receiver leaves the recovery state (R327); nothing else of it changes. -/
def streamAbandoned (i : InXfer) (s : State) : State :=
  if i.vl = 3 && s.hrv.recovery = .receiving then { s with hrv := { s.hrv with recovery := .idle } } else s

/-- Drops the fenced signal that waits for an inbound transfer: it is never applied (R270). -/
def dropFenced (i : InXfer) (s : State) : State :=
  { s with sync := { s.sync with signals := s.sync.signals.filter (fun x =>
      !(x.source == .remote i.src && x.fence.contains i.xid)) } }

/-- Abandons an open inbound transfer, or an awaited remote read (R213, R270). -/
def abandonIn (reason : Nat) (tell : Bool) (i : InXfer) (s : State) : State :=
  if s.fab.inn.any i.same then
    let s := { s with fab := { s.fab with inn := s.fab.inn.filter (fun j => !i.same j) } }
    let s := raiseEvent .transferAbandoned i.port (i.detail [(11, 1, reason), (12, 1, 0)]) s
    let s := if i.back then endHarvest .abandoned s
             else if i.isRead then abandonPasses (s.gath.xfers.filter (fun x => i.reads.contains x.id)) s
             else streamAbandoned i (dropFenced i s)
    if tell then sendAbandon i.src i.xid reason (s.answerPort i.src i.port) s else s
  else s

/-! ## Nodes (R275) -/

/-- Abandons every transfer with a node, in either direction. -/
def abandonNode (node reason : Nat) (s : State) : State :=
  let s := each (s.fab.out.filter (fun o => o.node == node)) (abandonOut reason false) s
  let s := each (s.looseFor node) (fun x s => abandonLoose x.1 reason false x.2 s) s
  each (s.fab.inn.filter (fun i => i.src == node)) (abandonIn reason false) s

/-- The incarnation recorded for a node (R275). -/
def State.incOf (s : State) (node : Nat) : Nat := (sget 0 s.fab.incarn node).toNat

/-- Whether incarnation j is newer than incarnation k (R275). -/
def newer (j k : Nat) : Bool := let d := (j + 256 - k % 256) % 256; 1 ≤ d && d ≤ 127

/-- Records a node's incarnation. -/
def setInc (node j : Nat) (s : State) : State :=
  { s with fab := { s.fab with incarn := sput 0 s.fab.incarn node (BitVec.ofNat 8 j) } }

/-- Whether a pass has a remote stream. -/
def Pass.remote (p : Pass) : Bool := p.img.streams.any (fun x => x.node != 0)

/-- The module gives up its id (R275). -/
def loseId (s : State) : State :=
  let n := s.nodeId
  let s := (s.setRgBits .fabNodeId 0 16 0).flag .fabStatus 2
  let s := each (s.passes.filter Pass.remote) (fun p s => abandonPass p.seq .abandoned ((p.tiles.head?).getD 0) s) s
  declareFault (.nodeIdLost n) s

/-- An arrival that carries an incarnation of a node: a newer one is recorded, and ends every transfer with the node
(R275). -/
def observe (node j : Nat) (s : State) : State :=
  if isNode node && newer j (s.incOf node) then
    let s := abandonNode node 4 (setInc node j s)
    let s := if node = s.partner then partnerLost 2 s else s
    if node = s.nodeId then loseId s else s
  else s

end Sys2Proof.Machine
end

