-- ==== Sys2Proof/Machine/Link.lean ====
section
/-! DEFINITION. The link of a port: link-control flits, bring-up and retraining, the acceptance and the sending of packet
flits, and the timers of transfers (R252 to R256, R263, R267 to R274). -/

namespace Sys2Proof.Machine

set_option Elab.async false

/-! ## Moving queued packets -/

/-- What tells the transfers of queued packets apart: lane, node and transfer id. -/
def OutPacket.key (p : OutPacket) : Nat × Nat × Nat := (p.vl, p.node, p.xid)

/-- The ports to which the transfers of queued packets go when their own cannot carry them: on lanes 0 and 3 the ports of their
routes that are up, one whole transfer at a time, and on lanes 1 and 2 the lowest of them; where none is up, the queue of R269. -/
def newPorts (s : State) : List OutPacket → Nat → List ((Nat × Nat × Nat) × Nat) → List ((Nat × Nat × Nat) × Nat)
  | [], _, acc => acc
  | p :: ps, turn, acc =>
    if acc.any (fun x => x.1 == p.key) then newPorts s ps turn acc
    else
      let up := s.upPorts p.node
      let spread := p.vl = 0 || p.vl = 3
      newPorts s ps (if spread then turn + 1 else turn)
        (acc ++ [(p.key, (up[if spread then turn % max 1 up.length else 0]?).getD parkPort)])

/-- Records that the transfer of a packet goes by another port. -/
def retarget (old new : Nat) (p : OutPacket) (s : State) : State :=
  { s with fab := { s.fab with
      out := s.fab.out.map (fun o => if o.xid = p.xid && o.node = p.node && o.port = old then { o with port := new } else o),
      serving := s.fab.serving.map (fun x => if p.type = 0x03 && x.1 = p.node && x.2.1 = p.xid then (x.1, x.2.1, new) else x) } }

/-- Whether a queued packet is the last of an ordered transfer (R264). -/
def State.isOrdered (s : State) (p : OutPacket) : Bool :=
  p.type = 0x05 || ((parsePacket p.bytes).last &&
    s.fab.out.any (fun o => o.ordered && o.xid == p.xid && o.node == p.node && o.vl == p.vl))

/-- The transfers on other ports that the last packet of an ordered transfer waits for (R264). -/
def State.waitList (s : State) (port : Nat) (p : OutPacket) : List Nat :=
  ((s.fab.out.takeWhile (fun o => !(o.xid == p.xid && o.node == p.node))).filter (fun o =>
    o.node == p.node && o.vl == p.vl && o.port != port)).map (·.xid)

/-- Moves the packets queued at a port to other ports of their routes; a CLAIM has no other, since every port that is up has its
own (R264, R268, R269, R279). -/
def moveQueue (port : Nat) (s : State) : State :=
  let ps := (s.port port).txq.filter (fun p => p.node ≠ 0xFFFF)
  let s := s.updPort port (fun p => { p with txq := [] })
  let chosen := newPorts s ps s.fab.turn []
  let s := each ps (fun p s =>
    let q := ((chosen.find? (fun x => x.1 == p.key)).map (·.2)).getD parkPort
    enqueue q [p] (retarget port q p s)) { s with fab := { s.fab with turn := s.fab.turn + chosen.length } }
  each (chosen.map (·.2)).dedup (fun k s => s.updPort k (fun q => { q with txq := q.txq.map (fun p =>
    if ps.contains p && s.isOrdered p then { p with after := s.waitList k p } else p) })) s

/-! ## Link-control flits (R254) -/

/-- Request entries that a port still holds: requests received whose last response has not been sent (R256). -/
def State.requestsHeld (s : State) (port : Nat) : Nat :=
  ((List.range (Config.numPorts + 1)).map (fun k => (s.port k).txq.countP (fun p => p.credit == some port))).sum
    + (s.port port).reqs.length

/-- The credits of each lane as they go into a link-control flit: increments, or absolute values. -/
def State.creditFields (s : State) (port : Nat) : List Nat :=
  let p := s.port port
  if p.absCred then (List.range 4).map (fun v => nth bufferFlits v - (p.lane v).length) else p.owed

/-- The request credits, likewise. -/
def State.requestField (s : State) (port : Nat) : Nat :=
  let p := s.port port
  if p.absCred then requestEntries - s.requestsHeld port else p.reqOwed

/-- Whether a NAK goes into the next link-control flit: at most once per 1 µs (R255). -/
def State.nakDue (s : State) (p : Port) : Bool := p.nak && (match p.nakAt with
  | some t => t + usCycles 1 ≤ s.cyc
  | none => true)

/-- The sequence number that a port sends next: the first that is not acknowledged, while it is down (R254). -/
def Port.nextSeq (p : Port) : Nat :=
  if p.st = .up then p.txSeq else ((p.replay.head?).map (·.seq)).getD p.txSeq

/-- The body of a link-control flit. -/
def State.controlBody (s : State) (port : Nat) : List Byte :=
  let p := s.port port
  let nak := s.nakDue p
  let hello := p.hello || p.st ≠ .up
  let flags := (if nak then 1 else 0) + (if hello then 4 else 0) + (if p.absCred then 8 else 0)
  leBytes 1 flags ++ leBytes 3 (if nak then p.expected else 0) ++ (s.creditFields port).flatMap (leBytes 2)
    ++ leBytes 2 (s.requestField port)
    ++ (if hello then leBytes 2 s.nodeId ++ leBytes 1 s.ownInc ++ leBytes 3 p.nextSeq else leBytes 6 0)

/-- Sends a link-control flit on a port. -/
def sendControl (port : Nat) (s : State) : State :=
  let p := s.port port
  let f := mkFlit 0 0 ((p.expected + 2 ^ 24 - 1) % 2 ^ 24) (s.controlBody port)
  let s := s.emit (.flit port f)
  s.setPort port { p with owed := [0, 0, 0, 0], reqOwed := 0, absCred := p.absCred && p.st ≠ .up, run := 0, rxCount := 0,
                          granted := if p.absCred then s.creditFields port
                                     else (p.granted.zip (s.creditFields port)).map (fun x => x.1 + x.2),
                          grantReq := if p.absCred then s.requestField port else p.grantReq + s.requestField port,
                          hello := p.hello && p.st ≠ .up, nakAt := if s.nakDue p then some s.cyc else p.nakAt }

/-- LINK_CONTROL_SEND: a port that has block lock sends a link-control flit: acknowledgement, NAK, credits and hello. -/
def linkControlSendOp (port : Nat) (s : State) : State :=
  if s.alive && port < Config.numPorts && (s.port port).locked then sendControl port (releaseAcks s) else s

/-- LINK_CONTROL_SEND (R254). -/
def execLinkControlSend (port : Nat) (s : State) : Host.Outcome State Fault Refusal := .next (linkControlSendOp port s)

/-- Sends packet flits, with a link-control flit after 63 of them without one (R254). -/
def sendFlits (port : Nat) (fs : List (BitVec 512)) (s : State) : State :=
  each fs (fun f s =>
    let s := if 63 ≤ (s.port port).run then sendControl port s else s
    (s.emit (.flit port f)).updPort port (fun p => { p with run := p.run + 1 })) s

/-- Resends the flits of the replay buffer from the first that keep holds for (R254, R255). -/
def resendFrom (port : Nat) (keep : ReplayFlit → Bool) (s : State) : State :=
  let fs := ((s.port port).replay.dropWhile (fun r => !keep r)).map (·.flit)
  ((sendFlits port fs s).inc .fabPortResent fs.length port).inc .fabPortFlitsTx fs.length port

/-! ## Bring-up (R252) -/

/-- Enables one port: it trains. -/
def enablePort (p : Nat) (s : State) : State :=
  if (s.port p).st = .disabled then s.updPort p (fun q => { q with st := .training, lastRx := s.cyc }) else s

/-- PORT_ENABLE: starts training of the disabled ports of a mask; a zero bit has no effect. -/
def portEnableOp (mask : BitVec 18) (s : State) : State := if s.alive then enableEach 2 0x300004 (setBits mask) enablePort s else s

/-- PORT_ENABLE (R252). -/
def execPortEnable (mask : BitVec 18) (s : State) : Host.Outcome State Fault Refusal :=
  .next (barWrite (Reg.offset ⟨.fabPortEn, 0, 0⟩) (portEnableOp mask) s)

/-- PCS_FEC_LOCK: training and lock complete on a port that is not up; it sends hellos from now on. -/
def pcsFecLockOp (port : Nat) (s : State) : State :=
  let p := s.port port
  if s.alive && port < Config.numPorts && p.st ≠ .disabled && p.st ≠ .up then
    s.setPort port { p with locked := true, hello := true, lastRx := s.cyc }
  else s

/-- PCS_FEC_LOCK (R252). -/
def execPcsFecLock (port : Nat) (s : State) : Host.Outcome State Fault Refusal := .next (pcsFecLockOp port s)

/-! ## What the replay buffer holds ends (R268) -/

/-- The transfers of this module with a packet in a port's replay buffer. -/
def State.replayed (s : State) (port : Nat) : List OutXfer :=
  s.fab.out.filter (fun o => (s.port port).replay.any (fun r =>
    (r.type == 0x01 || r.type == 0x20 || r.type == 0x21) && r.xid == o.xid && r.node == o.node))

/-- The reads of this module with a request in a port's replay buffer. -/
def State.replayedReads (s : State) (port : Nat) : List InXfer :=
  s.fab.inn.filter (fun i => i.isRead && (s.port port).replay.any (fun r => r.type == 0x02 && r.xid == i.xid && r.node == i.src))

/-- The transfers without a record that have a packet in a port's replay buffer, or part of one still to be sent. -/
def State.replayedLoose (s : State) (port : Nat) : List (Nat × Nat × Nat) :=
  (((s.port port).replay.filter (fun r => looseType r.type)).map (fun r => (r.type, r.node, r.xid))).dedup

/-- Flits of incomplete packets are discarded: each lane keeps the whole packets at its head. fuel bounds the packets. -/
def wholeOnly : Nat → List (BitVec 512) → List (BitVec 512)
  | 0, _ => []
  | f + 1, fs =>
    match headOf fs with
    | .whole n _ => fs.take n ++ wholeOnly f (fs.drop n)
    | .bad n _ => fs.take n ++ wholeOnly f (fs.drop n)
    | _ => []

/-- Releases what a down port kept: transfers in its replay buffer are abandoned, unsent packets move, incomplete packets are
discarded (R268). -/
def releaseBuffer (port reason : Nat) (s : State) : State :=
  let outs := s.replayed port
  let reads := s.replayedReads port
  let loose := s.replayedLoose port
  let s := s.updPort port (fun p => { p with replay := [], rest := none, rx := p.rx.map (fun l => wholeOnly l.length l),
                                             skip := [false, false, false, false], nak := false })
  let s := each outs (abandonOut reason true) s
  let s := each reads (abandonIn reason true) s
  let s := each loose (abandonLoose port reason true) s
  settle (moveQueue port s)

/-! ## A port comes up (R252, R268, R275) -/

/-- What a hello says. -/
structure Hello where
  node : Nat
  inc  : Nat
  next : Nat
  deriving DecidableEq, Repr

/-- The port is up: packets that waited for a port of their route leave the queue of R269. -/
def upNow (port : Nat) (f : Port → Port) (s : State) : State :=
  moveQueue parkPort (s.updPort port (fun p => { f p with st := .up, hello := true, absCred := true, lastRx := s.cyc, lastAck := s.cyc }))

/-- A port comes up with a new partner: both directions start again at sequence 0 (R268). -/
def upNew (port : Nat) (h : Hello) (reason : Nat) (s : State) : State :=
  let held := (s.port port).st = .up || (s.port port).st = .downHeld
  let s := releaseBuffer port reason s
  let s := if held then
      linkEvent port 1 (if (s.port port).st = .up then 0 else (s.cyc - (s.port port).downAt) / 1750) 0 0 s
    else s
  upNow port (fun p => { p with partner := h.node, partnerInc := h.inc, txSeq := 0, expected := 0, replay := [],
                                credits := [0, 0, 0, 0], reqCred := 0, owed := [0, 0, 0, 0], reqOwed := 0,
                                granted := [0, 0, 0, 0], grantReq := 0, rxCount := 0 }) s

/-- Replay flits that an acknowledged number does not cover. -/
def unacked (ack : Nat) (rs : List ReplayFlit) : List ReplayFlit :=
  rs.dropWhile (fun r => (ack + 2 ^ 24 - r.seq % 2 ^ 24) % 2 ^ 24 < 2 ^ 23)

/-- A port comes up again with the partner it had: it rewinds to one past the acknowledged number (R268). -/
def upSame (port ack : Nat) (s : State) : State :=
  let s := s.updPort port (fun p => { p with replay := unacked ack p.replay })
  upNow port (fun p => p) (resendFrom port (fun _ => true) s)

/-- The hello of a partner (R252, R268, R275). -/
def onHello (port ack : Nat) (h : Hello) (s : State) : State :=
  let p := s.port port
  let known := isNode h.node && newer h.inc (s.incOf h.node)
  let s := observe h.node h.inc s
  let same := p.partner = h.node && p.partnerInc = h.inc
  let downUs := (s.cyc - p.downAt) / 1750
  if !s.alive then s
  else match p.st with
  | .disabled => s
  | .training => upNew port h 3 s
  | .downHeld =>
    if same then
      let n := (unacked ack p.replay).length
      linkEvent port 0 downUs n 0 (upSame port ack s)
    else
      let s := s.updPort port (fun q => { q with cause := 6 })
      linkEvent port 0 downUs 0 0 (upNew port h (if known && p.partner = h.node then 4 else 3) s)
  | .downReleased =>
    let s := s.updPort port (fun q => { q with cause := if same then q.cause else 6 })
    linkEvent port 0 downUs 0 0 (upNew port h 3 s)
  | .up =>
    if same then s.updPort port (fun q => { q with hello := true })
    else
      let s := s.updPort port (fun q => { q with cause := 6 })
      linkEvent port 0 0 0 0 (upNew port h (if known then 4 else 3) s)

/-! ## LINK_CONTROL_RECEIVE (R254, R255) -/

/-- An acknowledgement frees the replay buffer. -/
def onAck (port ack : Nat) (s : State) : State :=
  settle (s.updPort port (fun p =>
    let rest := unacked ack p.replay
    { p with replay := rest, lastAck := if rest.length < p.replay.length then s.cyc else p.lastAck }))

/-- Unacknowledged flits of a lane that a port has sent. -/
def Port.inFlight (p : Port) (vl : Nat) : Nat := p.replay.countP (fun r => flitVl r.flit = vl)

/-- Credits arrive (R254, R256). Absolute values replace the counts; the flits not yet acknowledged, which the partner has yet to
take, use theirs from the new count (DEDUCED, log entry 97). -/
def onCredits (port : Nat) (abs : Bool) (c : List Nat) (r : Nat) (s : State) : State :=
  s.updPort port (fun p =>
    { p with credits := if abs then c.zipIdx.map (fun x => x.1 - p.inFlight x.2) else (p.credits.zip c).map (fun x => x.1 + x.2),
             reqCred := if abs then r else p.reqCred + r })

/-- LINK_CONTROL_RECEIVE: a link-control flit arrives. One that fails its CRC-16 asks for a NAK. -/
def linkControlReceiveOp (port : Nat) (flit : BitVec 512) (s : State) : State :=
  let p := s.port port
  if !s.alive || port ≥ Config.numPorts || !p.locked then s
  else if !flitOk flit then s.updPort port (fun p => { p with nak := p.nak || p.st = .up })
  else if flitKind flit ≠ 0 then s
  else
    let b := flitBytes flit
    let fl := numIn b 8 1
    let s := s.updPort port (fun p => { p with lastRx := s.cyc })
    let s := if fl.testBit 2 then
        onHello port (flitSeq flit) { node := numIn b 22 2, inc := numIn b 24 1, next := numIn b 25 3 } s
      else s
    if (s.port port).st ≠ .up then s
    else
      let s := onAck port (flitSeq flit) s
      let s := if fl.testBit 0 then
          resendFrom port (fun r => (r.seq + 2 ^ 24 - numIn b 9 3) % 2 ^ 24 < 2 ^ 23) s
        else s
      let s := onCredits port (fl.testBit 3) ((List.range 4).map (fun k => numIn b (12 + 2 * k) 2)) (numIn b 20 2) s
      if fl.testBit 1 then portDown port 3 s else s

/-- LINK_CONTROL_RECEIVE (R254). -/
def execLinkControlReceive (port : Nat) (flit : BitVec 512) (s : State) : Host.Outcome State Fault Refusal :=
  .next (linkControlReceiveOp port flit s)

/-! ## FLIT_RECEIVE (R255, R256, R272) -/

/-- A packet dropped as a violation ends its open transfer, or the awaited read that it answers (R270, R272). -/
def dropViolation (port reason : Nat) (p : Packet) (s : State) : State :=
  let s := violation port reason p s
  match s.fab.inn.find? (fun i => i.isRead == (p.type == 0x03) && i.src == p.src && i.xid == p.xid) with
  | some i => abandonIn 2 false i s
  | none => s

/-- A packet with nothing in it, for a violation that no packet makes. -/
def Packet.none : Packet :=
  { type := 0, flags := 0, dst := 0, src := 0, xid := 0, idx := 0, hop := 0, inc := 0, addr := 0, spec := [], payload := [],
    tally := 0, sigInc := 0 }

/-- The packet that flits begin; flits without a packet start are no packet. -/
def packetIn (fs : List (BitVec 512)) : Packet :=
  if fs.head?.any (fun f => flitKind f = 1) then parsePacket (flitBodies fs) else Packet.none

/-- Whether the flits of a lane that may still come belong to a packet already dropped. -/
def Port.skips (p : Port) (vl : Nat) : Bool := (p.skip[vl]?).getD false
/-- Marks or clears that. -/
def Port.setSkip (p : Port) (vl : Nat) (b : Bool) : Port := { p with skip := p.skip.set vl b }

/-- A read request without a request credit is a violation; another takes a request entry of its port (R256). -/
def takeRequest (port : Nat) (b : List Byte) (p : Packet) (s : State) : State :=
  if (s.port port).grantReq = 0 then dropViolation port 8 p s
  else s.updPort port (fun q => { q with reqs := q.reqs ++ [b], grantReq := q.grantReq - 1 })

/-- The request credit of a read request that is dropped returns (R256). -/
def returnDropped (port : Nat) (p : Packet) (s : State) : State :=
  if p.type = 0x02 && (s.port port).grantReq ≠ 0 then
    s.updPort port (fun q => { q with grantReq := q.grantReq - 1, reqOwed := q.reqOwed + 1 })
  else s

/-- Drops the packets at the head of a lane that break the protocol by themselves, and moves read requests to their entries (R256,
R272). fuel bounds the packets. -/
def scrubHead : Nat → Nat → Nat → State → State
  | 0, _, _, s => s
  | f + 1, port, vl, s =>
    let fs := (s.port port).lane vl
    match headOf fs with
    | .bad n reason =>
      let s := s.updPort port (fun q => q.setSkip vl (n = fs.length))
      let p := packetIn (fs.take n)
      scrubHead f port vl (dropViolation port reason p (returnDropped port p (popFlits port vl n s)))
    | .whole n p =>
      let b := flitBodies (fs.take n)
      (match s.packetFault vl b p with
       | some reason => scrubHead f port vl (dropViolation port reason p (returnDropped port p (popFlits port vl n s)))
       | none => if p.type = 0x02 then scrubHead f port vl (takeRequest port b p (popFlits port vl n s)) else s)
    | _ => s

/-- The packets of every lane of a port are checked as far as they have come. -/
def scrub (port vl : Nat) (s : State) : State := scrubHead (((s.port port).lane vl).length + 1) port vl s

/-- The flits of a lane after its last whole packet. -/
def openTail : Nat → List (BitVec 512) → List (BitVec 512)
  | 0, fs => fs
  | f + 1, fs =>
    match headOf fs with
    | .whole n _ => openTail f (fs.drop n)
    | _ => fs

/-- A flit discarded as a violation: the packet to which it belongs is dropped with it, and what is still to come of that packet is
discarded (R272). used says whether the flit had a credit, which returns. -/
def discardFlit (port reason : Nat) (used : Bool) (flit : BitVec 512) (s : State) : State :=
  let vl := flitVl flit
  let lane := (s.port port).lane vl
  let tail := if flitKind flit = 1 then [] else openTail lane.length lane
  let back := tail.length + (if used then 1 else 0)
  let s := s.updPort port (fun q => { (q.setLane vl (lane.take (lane.length - tail.length))).setSkip vl true with
    owed := updNth q.owed vl (· + back) })
  dropViolation port reason (packetIn (tail ++ [flit])) s

/-- A flit in its place in the sequence: accepted, or discarded for want of credit or for its reserved bits; what is left of a
packet already dropped is discarded, its credit returning (R255, R256, R272). -/
def acceptFlit (port : Nat) (flit : BitVec 512) (s : State) : State :=
  let vl := flitVl flit
  let s := s.updPort port (fun p => { p with expected := (p.expected + 1) % 2 ^ 24, nak := false, nakAt := none })
  let p := s.port port
  if nth p.granted vl = 0 then discardFlit port 8 false flit s
  else
    let s := s.setPort port { p with granted := updNth p.granted vl (· - 1) }
    if flitKind flit = 2 && p.skips vl then s.updPort port (fun q => { q with owed := updNth q.owed vl (· + 1) })
    else if !flitRsvOk flit then discardFlit port 9 true flit s
    else
      scrub port vl ((s.updPort port (fun q => (q.setLane vl (q.lane vl ++ [flit])).setSkip vl false)).inc .fabPortFlitsRx 1 port)

/-- Packet flits received after which an acknowledgement must have been sent (R255). -/
def ackEvery : Nat := 64

/-- Counts a packet flit received; an acknowledgement goes out at the latest with the 64th (R255). -/
def noteFlit (port : Nat) (s : State) : State :=
  let s := s.updPort port (fun p => { p with rxCount := p.rxCount + 1 })
  if ackEvery ≤ (s.port port).rxCount && (s.port port).locked then sendControl port s else s

/-- FLIT_RECEIVE: a packet flit arrives; it is accepted in sequence, discarded and NAKed when one is missing, discarded as a
duplicate, or discarded for its CRC-16 or kind. -/
def flitReceiveOp (port : Nat) (flit : BitVec 512) (s : State) : State :=
  let p := s.port port
  if !s.alive || port ≥ Config.numPorts || p.st ≠ .up then s
  else if !flitOk flit then s.updPort port (fun p => { p with nak := true })
  else
    let s := s.updPort port (fun p => { p with lastRx := s.cyc })
    if flitKind flit = 0 then s
    else if flitKind flit = 3 then countViolation port 1 0 0 (s.updPort port (fun p => { p with nak := true }))
    else
      let d := (flitSeq flit + 2 ^ 24 - p.expected % 2 ^ 24) % 2 ^ 24
      noteFlit port
        (if d = 0 then acceptFlit port flit s
         else if d < 2 ^ 23 then s.updPort port (fun p => { p with nak := true })
         else s.inc .fabPortDups 1 port)

/-- FLIT_RECEIVE (R255). -/
def execFlitReceive (port : Nat) (flit : BitVec 512) (s : State) : Host.Outcome State Fault Refusal :=
  .next (flitReceiveOp port flit s)

/-! ## PACKET_TRANSMIT (R255 to R257, R263) -/

/-- What the sending of a packet's last flit means: a response returns its request's credit; a request opens its read, and is the
latest progress of one with no response yet (R256, R269, R270). -/
def noteSent (p : OutPacket) (s : State) : State :=
  let s := returnRequest p s
  if p.req then
    { s with fab := { s.fab with inn := s.fab.inn.map (fun i =>
        if i.isRead && i.src = p.node && i.xid = p.xid then { i with opened := true, last := if i.got = 0 then s.cyc else i.last }
        else i) } }
  else s

/-- Notes when a packet of a transfer that its receiver acknowledges was sent (R269). -/
def notePacket (p : OutPacket) (s : State) : State :=
  let k := (parsePacket p.bytes).idx
  { s with fab := { s.fab with out := s.fab.out.map (fun o =>
      if o.xid = p.xid && o.node = p.node && o.vl = p.vl && p.type ≠ 0x03 then { o with waits := o.waits ++ [(k, s.cyc)] } else o) } }

/-- Sends flits of a packet as far as the replay buffer has room, and keeps the rest of them (R255). -/
def sendPart (port : Nat) (p : OutPacket) (fs : List ReplayFlit) (s : State) : State :=
  let q := s.port port
  let n := min fs.length (replaySize - q.replay.length)
  let now := fs.take n
  let s := s.setPort port { q with
    txSeq := (q.txSeq + n) % 2 ^ 24, replay := q.replay ++ now, rest := if n = fs.length then none else some (p, fs.drop n),
    lastAck := if q.replay = [] then s.cyc else q.lastAck }
  let s := (sendFlits port (now.map (·.flit)) s).inc .fabPortFlitsTx n port
  if n = fs.length then notePacket p (noteSent p s) else s

/-- Sends one packet of a port's queue. -/
def transmit (port : Nat) (p : OutPacket) (s : State) : State :=
  let q := s.port port
  let fs : List ReplayFlit := (packetFlits p.vl q.txSeq p.bytes).zipIdx.map (fun x =>
    { seq := (q.txSeq + x.2) % 2 ^ 24, flit := x.1, type := p.type, xid := p.xid, node := p.node })
  sendPart port p fs (s.setPort port { q with
    txq := q.txq.erase p, credits := updNth q.credits p.vl (· - fs.length), reqCred := if p.req then q.reqCred - 1 else q.reqCred,
    vl3Turn := if p.vl = 0 then true else if p.vl = 3 then false else q.vl3Turn })

/-- PACKET_TRANSMIT: a port that is up sends the next packet that holds credit, or goes on with the one that it has sent in part,
while its replay buffer has room. Without a node id it sends link-control flits alone. At a
module fault the packets of a collective chunk that were in flight still leave (R383). -/
def packetTransmitOp (port : Nat) (s : State) : State :=
  if !(s.alive || s.resting) || port ≥ Config.numPorts || (s.port port).st ≠ .up then s
  else
    let s := releaseAcks s
    if s.nodeId = 0 || replaySize ≤ (s.port port).replay.length then s
    else
      restPorts (finishCritical (match (s.port port).rest, s.nextPacket port with
        | some (p, fs), _ => sendPart port p fs s
        | none, some p => transmit port p s
        | none, none => s))

/-- PACKET_TRANSMIT (R263). -/
def execPacketTransmit (port : Nat) (s : State) : Host.Outcome State Fault Refusal := .next (packetTransmitOp port s)

/-! ## Timers and host requests of a port (R255, R267, R268, R273) -/

/-- ACK_TIMEOUT_RESEND: no acknowledgement has advanced for 10 µs while flits are unacknowledged. -/
def ackTimeoutResendOp (port : Nat) (s : State) : State :=
  let p := s.port port
  if s.alive && port < Config.numPorts && p.st = .up && p.replay ≠ [] && p.lastAck + usCycles 10 ≤ s.cyc then
    (resendFrom port (fun _ => true) s).updPort port (fun p => { p with lastAck := s.cyc })
  else s

/-- ACK_TIMEOUT_RESEND (R255). -/
def execAckTimeoutResend (port : Nat) (s : State) : Host.Outcome State Fault Refusal := .next (ackTimeoutResendOp port s)

/-- LINK_SILENCE_TIMEOUT: no valid flit has arrived for 1 ms. -/
def linkSilenceTimeoutOp (port : Nat) (s : State) : State :=
  if s.alive && port < Config.numPorts && (s.port port).lastRx + msCycles 1 ≤ s.cyc then portDown port 0 s else s

/-- LINK_SILENCE_TIMEOUT (R267). -/
def execLinkSilenceTimeout (port : Nat) (s : State) : Host.Outcome State Fault Refusal := .next (linkSilenceTimeoutOp port s)

/-- PCS_LOCK_LOSS: the PCS loses block lock or alignment. -/
def pcsLockLossOp (port : Nat) (s : State) : State :=
  if s.alive && port < Config.numPorts then
    if (s.port port).st = .up then portDown port 1 s else s.updPort port (fun p => { p with locked := false, hello := false })
  else s

/-- PCS_LOCK_LOSS (R267). -/
def execPcsLockLoss (port : Nat) (s : State) : Host.Outcome State Fault Refusal := .next (pcsLockLossOp port s)

/-- FEC_LIMIT_EXCEEDED: the FEC reports the codewords that it could not correct in 1 ms, and those that it corrected; above the
limit the port is declared down. -/
def fecLimitExceededOp (port codewords corrected : Nat) (s : State) : State :=
  if s.alive && port < Config.numPorts && (s.port port).st = .up then
    let s := (s.inc .fabPortFecUncorr codewords port).inc .fabPortFecCorr corrected port
    if max 1 (s.rgBits .fabCfg 8 8) < codewords then portDown port 2 s else s
  else s

/-- FEC_LIMIT_EXCEEDED (R267); corrected is 0 unless the command reports corrections (R279). -/
def execFecLimitExceeded (port codewords : Nat) (s : State) (corrected : Nat := 0) : Host.Outcome State Fault Refusal :=
  .next (fecLimitExceededOp port codewords corrected s)

/-- PORT_RETRAIN_RETRY: a port that is down retrains again, 1 s after it was declared down and every 1 s. -/
def portRetrainRetryOp (port : Nat) (s : State) : State :=
  let p := s.port port
  if s.alive && port < Config.numPorts && (p.st = .downHeld || p.st = .downReleased) && p.retryAt + msCycles 1000 ≤ s.cyc then
    s.setPort port { p with locked := false, hello := false, retryAt := s.cyc }
  else s

/-- PORT_RETRAIN_RETRY (R267). -/
def execPortRetrainRetry (port : Nat) (s : State) : Host.Outcome State Fault Refusal := .next (portRetrainRetryOp port s)

/-- PORT_RETRAIN: the host writes retrain in FAB_PORT_CTL. -/
def portRetrainOp (port : Nat) (s : State) : State :=
  if s.alive && port < Config.numPorts then portDown port 5 s else s

/-- PORT_RETRAIN (R267). -/
def execPortRetrain (port : Nat) (s : State) : Host.Outcome State Fault Refusal :=
  .next (barWrite (Reg.offset ⟨.fabPortCtl, port, 0⟩) (portRetrainOp port) s)

/-- CLEAR_QUARANTINE: the host clears the quarantine bit. -/
def clearQuarantineOp (port : Nat) (s : State) : State :=
  if s.alive && port < Config.numPorts then s.updPort port (fun p => { p with quarantine := false }) else s

/-- CLEAR_QUARANTINE (R273). -/
def execClearQuarantine (port : Nat) (s : State) : Host.Outcome State Fault Refusal :=
  .next (barWrite (Reg.offset ⟨.fabPortCtl, port, 0⟩) (clearQuarantineOp port) s)

/-- REPLAY_BUFFER_RELEASE: a port has been down for 250 ms. -/
def replayBufferReleaseOp (port : Nat) (s : State) : State :=
  let p := s.port port
  if s.alive && port < Config.numPorts && p.st = .downHeld && p.downAt + msCycles 250 ≤ s.cyc then
    linkEvent port 1 ((s.cyc - p.downAt) / 1750) 0 0
      (releaseBuffer port 3 (s.updPort port (fun q => { q with st := .downReleased })))
  else s

/-- REPLAY_BUFFER_RELEASE (R268). -/
def execReplayBufferRelease (port : Nat) (s : State) : Host.Outcome State Fault Refusal := .next (replayBufferReleaseOp port s)

/-! ## Timers of transfers (R269, R270) -/

/-- The stall timeout in cycles. -/
def State.stallTime (s : State) : Nat := usCycles (max 1 (s.rg .fabStallTo))
/-- The abandon timeout in cycles. -/
def State.abandonTime (s : State) : Nat := msCycles (max 1 (s.rg .fabAbandonTo))

/-- STALL_TIMEOUT: open transfer x has made no progress for the stall timeout. -/
def stallTimeoutOp (x : Nat) (s : State) : State :=
  match s.fab.inn[x]? with
  | some i =>
    if s.alive && i.tracked && i.opened && !i.stalled && i.last + s.stallTime + usCycles i.extend ≤ s.cyc then
      raiseEvent .transferStalled i.port (i.detail [])
        { s with fab := { s.fab with inn := s.fab.inn.map (fun j => if i.same j then { j with stalled := true } else j) } }
    else s
  | none => s

/-- STALL_TIMEOUT (R270). -/
def execStallTimeout (x : Nat) (s : State) : Host.Outcome State Fault Refusal := .next (stallTimeoutOp x s)

/-- Whether a node's route has had no port up for the abandon timeout, for a transfer that has waited since a cycle (R269). -/
def State.routeLost (s : State) (node since : Nat) : Bool :=
  (s.upPorts node).isEmpty && since + s.abandonTime ≤ s.cyc &&
  (s.routeOf node).all (fun p => (s.port p).downAt + s.abandonTime ≤ s.cyc)

/-- ABANDON_TIMEOUT: transfer x, of those open at this receiver and then of those of this source, has waited for the abandon
timeout: since its latest progress, or since its oldest unacknowledged packet was sent; or its route has had no port up for it. -/
def abandonTimeoutOp (x : Nat) (s : State) : State :=
  if !s.alive then s
  else
    match s.fab.inn[x]?, s.fab.out[x - s.fab.inn.length]? with
    | some i, _ =>
      if i.isRead && !i.opened then (if s.routeLost i.src i.last then abandonIn 3 false i s else s)
      else if i.tracked && i.last + s.abandonTime + usCycles i.extend ≤ s.cyc then abandonIn 0 true i s
      else s
    | none, some o =>
      if s.routeLost o.node o.since then abandonOut 3 true o s
      else if o.waits.any (fun w => w.2 + s.abandonTime + usCycles o.extend ≤ s.cyc) then abandonOut 0 true o s
      else s
    | none, none => s

/-- ABANDON_TIMEOUT (R270). -/
def execAbandonTimeout (x : Nat) (s : State) : Host.Outcome State Fault Refusal := .next (abandonTimeoutOp x s)

/-! ## FAB_NODE_ID (R274) -/

/-- Whether any port is enabled. -/
def State.anyPort (s : State) : Bool := (List.range Config.numPorts).any (fun p => (s.port p).st ≠ .disabled)

/-- FAB_NODE_ID_WRITE: sets the node id and incarnation; ignored while any port is enabled. The module's own record follows
(DEDUCED, log entry 31). -/
def fabNodeIdWriteOp (v : Word) (s : State) : State :=
  if !s.alive then s
  else if s.anyPort then s.flag .fabStatus 0
  else
    let s := s.writeRg ⟨.fabNodeId, 0, 0⟩ v.toNat
    if isNode s.nodeId then setInc s.nodeId s.ownInc s else s

/-- FAB_NODE_ID_WRITE (R274). -/
def execFabNodeIdWrite (value : Word) (s : State) : Host.Outcome State Fault Refusal :=
  .next (barWrite (Reg.offset ⟨.fabNodeId, 0, 0⟩) (fabNodeIdWriteOp value) s)

end Sys2Proof.Machine
end

