-- ==== Sys2Proof/Machine/Power.lean ====
section
/-! DEFINITION. Quadrant PLLs, the waking of tiles, and what takes effect at a job boundary: the shares of a memory and the
retirement of failed tiles (R12 to R14, R18, R214, R215, R376 to R378, R396, R443). -/

namespace Sys2Proof.Machine

set_option Elab.async false

/-- Sets the state of a quadrant PLL. -/
def State.setPll (s : State) (q : Nat) (v : PllSt) : State := { s with stw := { s.stw with pll := lput s.stw.pll q v } }

/-- Starts a quadrant PLL that is off (R376). -/
def startPll (q : Nat) (s : State) : State := if s.pllOf q = .off then s.setPll q .locking else s

/-- The quadrants that the bounding rectangle of tiles meets (R376). -/
def rectQuads (ts : List Nat) : List Nat :=
  (List.range 4).filter (fun q =>
    ts.any (fun t => (t % 48 < 24) = (q % 2 = 0)) && ts.any (fun t => (t / 48 < 16) = (q / 2 = 0)))

/-- The quadrants that work on tiles and gatherers keeps running (R376). -/
def workQuads (ts gs : List Nat) : List Nat := (List.range 4).filter (fun q => (rectQuads ts).contains q || (gs.map (· / 12)).contains q)

/-- Wakes a tile: at once when its PLL runs, otherwise with the wake walk that follows the lock (R377, R378).
DESIGN CHOICE, log entry 7. -/
def wakeTile (t : Nat) (s : State) : State :=
  let on : Bool := s.pllOf (quadrantOf t) = .running
  s.updTile t (fun tl => { tl with clocked := tl.clocked || on, waking := !(tl.clocked || on), testUntil := 0 })

/-- Ends the self test on a tile for which work arrives, which is no longer idle (R393). -/
def endSlice (t : Nat) (s : State) : State := s.updTile t (fun tl => { tl with testUntil := 0, busyAt := s.cyc })

/-! ## What a write changes at the next job boundary (R214, R215) -/

/-- The remote allowance in force of a memory, in per cent. -/
def State.allowance (s : State) (p : Nat) : Nat := min 40 (if s.boundary then s.rgBits .gthRemoteCfg 0 7 p else sget 0 s.gath.remote p)

/-- Whether a stack is in fixed-split mode. -/
def State.fixedSplit (s : State) (k : Nat) : Bool := k < 12 && (if s.boundary then s.rgBit .gthArbCtl k else s.gath.splits.getLsbD k)

/-- What is in force at a job boundary stays in force until the next one.
DEDUCED, log entry 74. -/
def latchBoundary (s : State) : State :=
  if s.boundary then
    { s with gath := { s.gath with splits := BitVec.ofNat 12 (s.rgBits .gthArbCtl 0 12),
                                   remote := (List.range 28).foldl (fun m p => sput 0 m p (s.rgBits .gthRemoteCfg 0 7 p)) [] } }
  else s

/-! ## Failed tiles (R12, R14, R442, R443) -/

/-- The row key of a failed tile: a logical tile, or 1,536 + the row key for a spare tile that no logical tile uses. -/
def failedRow (t : Nat) : Nat := if t < Config.numTiles then rowKey t else t - Config.numTiles

/-- The physical column of a failed tile. -/
def State.failedCol (s : State) (t : Nat) : Nat := if t < Config.numTiles then s.physCol t else 24

/-- The tile id that events give for a failed tile. -/
def failedId (t : Nat) : Nat := if t < Config.numTiles then t else (Config.spareId (t - Config.numTiles)).toNat

/-- Whether a failed tile cannot be shifted out: its row holds a retired tile, or an earlier failure awaits the boundary. -/
def State.pendAbsent (s : State) (t : Nat) : Bool :=
  (sfind s.stw.nv.retired (failedRow t)).isSome ||
  (s.stw.nv.failed.takeWhile (· ≠ t)).any (fun u => failedRow u = failedRow t)

/-- Tiles retired on a die: rows of the quadrant that hold a retired tile.
DEDUCED, log entry 47. -/
def State.dieRetired (s : State) (q : Nat) : Nat := s.stw.nv.retired.countP (fun e => e.1 / 16 = q)

/-- Raises TILE_RETIRED (R397). -/
def retiredEvent (t col outcome : Nat) (s : State) : State :=
  let r := failedRow t
  raiseEvent .tileRetired (failedId t)
    (detail [(0, 2, failedId t), (2, 1, r / 16), (3, 1, r % 16), (4, 1, col), (5, 1, outcome), (6, 1, s.dieRetired (r / 16))]) s

/-- The state with another non-volatile store. -/
def State.setNv (s : State) (v : Nv) : State := { s with stw := { s.stw with nv := v } }

/-- A failed tile is shifted out, or marked absent when its row holds a retired tile. A spare tile that cannot be shifted leaves
no logical tile to mark. Bins, tallies and counters stay with their logical tiles.
DESIGN CHOICE, log entry 106. -/
def retireTile (t col : Nat) (s : State) : State :=
  let v := s.stw.nv
  let r := failedRow t
  if (sfind v.retired r).isNone then retiredEvent t col 0 (s.setNv { v with retired := sinsert r col v.retired })
  else if t < Config.numTiles then retiredEvent t col 1 (s.setNv { v with absent := v.absent ++ [t] })
  else s

/-- TILE_RETIREMENT_APPLY: at a job boundary, with retirement enabled, every failed tile is retired. -/
def tileRetirementApplyOp (s : State) : State :=
  let v := s.stw.nv
  if s.alive && s.boundary && s.rgBit .stwTestCfg 1 then
    each (v.failed.map (fun t => (t, s.failedCol t))) (fun x s => retireTile x.1 x.2 s) (s.setNv { v with failed := [] })
  else s

end Sys2Proof.Machine
end

