-- ==== Sys2Proof/Machine/Service.lean ====
section
/-! DEFINITION. The order in which a controller serves the requests of gatherers and of the remote service unit: arrival order,
the remote allowance, the hot level's tokens and the fixed split (R184, R190, R199, R212 to R215, R299). -/

namespace Sys2Proof.Machine

set_option Elab.async false

/-! ## Requests of gatherers (R212) -/

/-- The queue of a memory as transfers, in arrival order. -/
def State.queued (s : State) (p : Nat) : List Xfer := ((s.dev p).queue.filterMap s.xfer?).filter (fun x => x.st = .requested)

/-- Whether a queued request waits by itself: for its range, its pseudo-channel or the copy of a harvested block (R184, R190,
R330). -/
def State.xferHeld (s : State) (x : Xfer) : Bool := s.reqHeld x.mpa || (x.write && s.copyHeld x.mpa x.bytes)

/-- Whether two transfers share a line. -/
def Xfer.meetsLine (x y : Xfer) : Bool := meets (x.mpa, x.bytes) (y.mpa, y.bytes)

/-- The requests of a queue that may be served: none that waits, and none behind an earlier one to one of its lines that does
(R212). -/
def State.servable (s : State) : List Xfer → List Xfer → List Xfer
  | [], _ => []
  | x :: xs, waiting =>
    if s.xferHeld x || waiting.any x.meetsLine then s.servable xs (x :: waiting) else x :: s.servable xs waiting

/-! ## Requests of the remote service unit (R213, R266, R299) -/

/-- Whether a target lies in a logged region (R299). -/
def State.inLogRegion (s : State) (a : Nat) : Bool :=
  (List.range 8).any (fun r => let b := s.rg .stpLogRegionBase r; let n := s.rg .stpLogRegionSize r; b ≤ a && a < b + n)

/-- Whether a WRITE is logged: a job runs and its target lies in a logged region (R299, DEDUCED, log entry 32). -/
def State.logsWrite (s : State) (p : Packet) : Bool := s.steps.job && s.inLogRegion p.addr

/-- Whether a write to a range waits at its controller (R184, R190, R199, R212, R330). -/
def State.writeHeld (s : State) (a n : Nat) : Bool := s.engineHeld a n || s.copyHeld a n

/-- Whether a WRITE waits for its controller or for space in the glean log (R184, R190, R301, R330). -/
def State.writeWaits (s : State) (p : Packet) : Bool :=
  s.writeHeld p.addr p.payload.length || (s.logsWrite p && !s.steps.log.fits s.logSize (entrySize p.payload.length))

/-- Bytes that a read request asks for. -/
def Packet.readLen (p : Packet) : Nat := p.specNum 22 2

/-- Whether a WRITE that has come on a port writes to bytes that a read request asks for (R266). -/
def State.writeAhead (s : State) (port : Nat) (p : Packet) : Bool :=
  ((s.port port).lane 0).any (fun f => flitKind f = 1 && (let w := parsePacket (flitBodies [f])
    w.type == 0x01 && w.src == p.src && meets (w.addr, numIn (flitBodies [f]) 6 2) (p.addr, p.readLen)))

/-- Whether a read request waits at its controller, or for an earlier write of its source to its bytes. -/
def State.readWaits (s : State) (port : Nat) (p : Packet) : Bool := s.engineHeld p.addr p.readLen || s.writeAhead port p

/-- Whether a port has a request of the remote service unit for a memory that does not wait. -/
def State.remoteReady (s : State) (m port : Nat) : Bool :=
  let here (a : Nat) : Bool := (mpaWindow a).any (fun w => w.1 == m)
  ((s.port port).reqs.any (fun b => let p := parsePacket b; here p.addr && !s.readWaits port p)) ||
  (match headOf ((s.port port).lane 0) with
   | .whole _ p => p.type == 0x01 && here p.addr && !s.writeWaits p
   | _ => false)

/-! ## The fixed split (R215) -/

/-- A class of requests in fixed-split mode. -/
inductive ServeClass where
  | read | write | remote
  deriving DecidableEq, Repr

/-- The class to which a slot of a round belongs: 12 local reads, 5 local writes, 3 remote requests. -/
def slotClass (i : Nat) : ServeClass := if i % 20 < 12 then .read else if i % 20 < 17 then .write else .remote

/-- Whether a class has a request that may be served. -/
def State.classReady (s : State) (p : Nat) : ServeClass → Bool
  | .read => (s.servable (s.queued p) []).any (fun x => !x.write)
  | .write => (s.servable (s.queued p) []).any (·.write)
  | .remote => (List.range Config.numPorts).any (s.remoteReady p)

/-- The classes in the order in which a slot of a class goes to the next one. -/
def ServeClass.order : ServeClass → List ServeClass
  | .read => [.read, .write, .remote]
  | .write => [.write, .remote, .read]
  | .remote => [.remote, .read, .write]

/-- The class that a stack serves next, the slot in which it does, and the remote granules served ahead of their slots that are
then still to be paid; fuel is their number now. -/
def State.turnFrom (s : State) (p : Nat) : Nat → Nat → Option ServeClass × Nat × Nat
  | 0, slot => ((slotClass slot).order.find? (s.classReady p), slot, 0)
  | debt + 1, slot =>
    match (slotClass slot).order.find? (s.classReady p) with
    | some .remote => s.turnFrom p debt (slot + 1)
    | c => (c, slot, debt + 1)

/-- The turn of a stack in fixed-split mode. A packet of several granules pays with as many remote slots (DESIGN CHOICE, log entry
99). -/
def State.turn (s : State) (p : Nat) : Option ServeClass × Nat × Nat := s.turnFrom p (s.dev p).debt (s.dev p).slot

/-- Ends a turn of n granules. -/
def payTurn (p n : Nat) (s : State) : State :=
  if s.fixedSplit p then
    let t := s.turn p
    s.updDev p (fun d => { d with slot := (t.2.1 + 1) % 20, debt := t.2.2 + (n - 1) })
  else s

/-- The request that a controller serves next on a pseudo-channel or channel: the first in arrival order that may be served, of the
class whose turn it is in fixed-split mode, once a hot stack has the tokens (R184, R190, R199, R212, R215). -/
def State.nextServe (s : State) (p pc : Nat) : Option Xfer :=
  let xs := s.servable (s.queued p) []
  let xs := if !s.fixedSplit p then xs else (match (s.turn p).1 with
    | some .read => (xs.find? (fun x => !x.write)).toList
    | some .write => (xs.find? (·.write)).toList
    | _ => [])
  (xs.find? (fun x => s.channel p (((mpaWindow x.mpa).map (·.2)).getD 0) = pc)).filter (fun x => !s.hotShort x.mpa x.bytes)

/-! ## The remote allowance (R214) -/

/-- Bytes of the bucket of the remote allowance. -/
def remoteDepth : Nat := 262144

/-- The refill of the bucket of the remote allowance, half of it under the hot level. -/
def State.remoteRate (s : State) (p : Nat) : Nat :=
  s.allowance p * (if (s.dev p).level = .hot then s.bytesPerUs p / 2 else s.bytesPerUs p)

/-- Whether a remote request of n bytes waits for its turn at a memory: for the tokens of its allowance, with no allowance for every
local request that waits, and in fixed-split mode for a slot of its class. -/
def State.remoteHeld (s : State) (a n : Nat) : Bool :=
  match mpaWindow a with
  | none => false
  | some (p, _) =>
    if s.fixedSplit p then !((s.turn p).1 = some .remote)
    else if s.allowance p = 0 then s.queued p ≠ []
    else !(s.dev p).remote.has (s.remoteRate p) s.cyc remoteDepth n

/-- Pays for a remote request of n bytes. -/
def payRemote (a n : Nat) (s : State) : State :=
  match mpaWindow a with
  | none => s
  | some (p, _) =>
    if s.fixedSplit p then payTurn p ((n + 255) / 256) s
    else if s.allowance p = 0 then s
    else s.updDev p (fun d => { d with remote := d.remote.take (s.remoteRate p) s.cyc remoteDepth n })

end Sys2Proof.Machine
end

