-- ==== Sys2Proof/Machine/MemRows.lean ====
section
/-! DEFINITION. The events and host requests of the memory tiers: training, ranges, windows, self-refresh, retraining,
retirement, re-sowing, scrubbing and temperature (R154, R180, R184 to R200). -/

namespace Sys2Proof.Machine

set_option Elab.async false

/-- Whether a memory number is a stack. -/
def isStack (p : Nat) : Bool := p < Config.numStacks

/-- Whether a memory number exists (R356). -/
def isMemory (p : Nat) : Bool := p < Config.numMemories

/-! ## Training (R185, R197, R202) -/

/-- Starts training of an untrained memory. -/
def startTraining (p : Nat) (s : State) : State :=
  if (s.dev p).st = .untrained then s.updDev p (fun d => { d with st := .training }) else s

/-- MEM_TRAIN_STACKS: starts training of the untrained stacks of a mask. -/
def memTrainStacksOp (mask : BitVec 12) (s : State) : State := if s.alive then each (setBits mask) startTraining s else s

/-- MEM_TRAIN_STACKS (R185). -/
def execMemTrainStacks (mask : BitVec 12) (s : State) : Host.Outcome State Fault Refusal :=
  .next (barWrite (Reg.offset ⟨.memTrainCtl, 0, 0⟩) (memTrainStacksOp mask) s)

/-- MEM_TRAIN_PACKAGES: starts training of the untrained packages of a mask. -/
def memTrainPackagesOp (mask : BitVec 16) (s : State) : State :=
  if s.alive then each ((setBits mask).map (· + 12)) startTraining s else s

/-- MEM_TRAIN_PACKAGES (R185). -/
def execMemTrainPackages (mask : BitVec 16) (s : State) : Host.Outcome State Fault Refusal :=
  .next (barWrite (Reg.offset ⟨.memTrainCtl, 0, 0⟩) (memTrainPackagesOp mask) s)

/-- Writes every byte of a range as zero, with valid check codes (R184, R185). -/
def zeroRange (a n : Nat) (s : State) : State :=
  { s with memory := { s.memory with
      mem := s.memory.mem.filter (fun e => !(a ≤ e.1 && e.1 < a + n)),
      marks := s.memory.marks.filter (fun l => !(a ≤ l && l < a + n)),
      errs := s.memory.errs.filter (fun e => !(a ≤ e.1 && e.1 < a + n)) } }

/-- Channels of a memory. -/
def channelsOf (p : Nat) : List Nat := List.range (if isStack p then 32 else 4)

/-- A memory whose training has succeeded, its channels trained at the present temperature. -/
def Device.trained (d : Device) (p : Nat) (st : DevState) : Device :=
  { d with st := st, kept := true, trainTemp := (channelsOf p).map (fun c => (c, d.temp)) }

/-- A stack with a recorded retirement is trained on its survivors after a power-on (R197). -/
def trainRetired (k : Nat) (s : State) : State :=
  match sfind s.stw.nv.pcRetired k with
  | some pc =>
    if (s.dev k).kept then s
    else
      raiseEvent .pcRetired k (detail [(10, 1, k), (11, 1, pc), (12, 1, 4)])
        (s.updDev k (fun d => { d with retired := some pc, resow := .complete, wmark := 0 }))
  | none => s

/-- MEMORY_TRAINING_DONE: a stack in training reads ready; a package in training initialises its data area after a power-on
and reads ready once that has ended, and at once after a module reset. -/
def memoryTrainingDoneOp (p : Nat) (s : State) : State :=
  let d := s.dev p
  if !s.alive || !isMemory p then s
  else
    match d.st with
    | .training =>
      if isStack p then (trainRetired p s).updDev p (fun d => d.trained p .ready)
      else if d.kept then s.updDev p (fun d => d.trained p .ready)
      else (zeroRange (0x8000000000 + (p - 12) * 0x1000000000) 0x1000000000 s).updDev p (fun d => d.trained p .initialising)
    | .initialising => s.updDev p (fun d => { d with st := .ready })
    | _ => s

/-- MEMORY_TRAINING_DONE (R185). -/
def execMemoryTrainingDone (p : Nat) (s : State) : Host.Outcome State Fault Refusal := .next (memoryTrainingDoneOp p s)

/-! ## Ranges (R184) -/

/-- Whether two ranges (base, size) meet. -/
def rangesMeet (a n b m : Nat) : Bool := a < b + m && b < a + n

/-- Whether an entry may be enabled (R184). -/
def State.rangeOk (s : State) (k e : Nat) : Bool :=
  let r := s.range k e
  r.size ≠ 0 && r.base + r.size ≤ s.populated k && r.cls ≤ 2 &&
  (List.range 64).all (fun f => f = e || (let q := s.range k f; !q.on || !rangesMeet r.base r.size q.base q.size))

/-- RANGE_ENABLE: checks an entry, enables it, and starts the initialisation of a range of class W or A. -/
def rangeEnableOp (k e : Nat) (s : State) : State :=
  let r := s.range k e
  if !s.alive || !isStack k || e ≥ 64 || r.on then s
  else if !s.rangeOk k e then s.flag .memRangeCfg 42 k e
  else
    let s := ((s.flag .memRangeCfg 40 k e).setRg .memRangeDet 0 k e).setRg .memRangeCorr 0 k e
    if r.cls = 0 then s else (zeroRange (k * 0x800000000 + r.base) r.size s).flag .memRangeCfg 41 k e

/-- RANGE_ENABLE (R184). -/
def execRangeEnable (k e : Nat) (s : State) : Host.Outcome State Fault Refusal :=
  .next (barWrite (Reg.offset ⟨.memRangeCfg, k, e⟩) (rangeEnableOp k e) s)

/-- An entry's check bytes stand in memory as its devices hold them; class N has none (R181, R184). -/
def keepChecks (k e : Nat) (s : State) : State :=
  let r := s.range k e
  if r.on && r.cls ≠ 0 then storeChecks (k * 0x800000000 + r.base) r s else s

/-- RANGE_DISABLE: disables an entry; the device bytes stay, those of its check lines too. -/
def rangeDisableOp (k e : Nat) (s : State) : State :=
  if s.alive && isStack k && e < 64 && (s.range k e).on then (keepChecks k e s).setRgBits .memRangeCfg 40 2 0 k e else s

/-- RANGE_DISABLE (R184). -/
def execRangeDisable (k e : Nat) (s : State) : Host.Outcome State Fault Refusal :=
  .next (barWrite (Reg.offset ⟨.memRangeCfg, k, e⟩) (rangeDisableOp k e) s)

/-- RANGE_INIT_DONE: initialisation ends, and requests to the range are served. -/
def rangeInitDoneOp (k e : Nat) (s : State) : State :=
  if s.alive && isStack k && e < 64 && (s.dev k).serves then s.setRgBits .memRangeCfg 41 1 0 k e else s

/-- RANGE_INIT_DONE (R184). -/
def execRangeInitDone (k e : Nat) (s : State) : Host.Outcome State Fault Refusal := .next (rangeInitDoneOp k e s)

/-! ## Transposing windows (R151, R154) -/

/-- Whether a range lies in the populated part of a stack. -/
def State.inStack (s : State) (k : Nat) (r : Nat × Nat) : Bool :=
  k * 0x800000000 ≤ r.1 && r.1 + r.2 ≤ k * 0x800000000 + s.populated k

/-- The ranges of a window. -/
def Window.ranges (x : Window) : List (Nat × Nat) := [x.rowRange, x.colRange]

/-- Whether a window may be enabled (R148, R154). -/
def State.windowOk (s : State) (k w : Nat) : Bool :=
  let x := s.xwin k w
  x.ranges.all (s.inStack k) && x.kb ≠ 0 && x.nb ≠ 0 && 64 * x.nb * x.e ≤ x.pr && 64 * x.kb * x.e ≤ x.pc &&
  (List.range 64).all (fun v => v = w || (let y := s.xwin k v
    !y.on || x.ranges.all (fun a => y.ranges.all (fun b => !rangesMeet a.1 a.2 b.1 b.2))))

/-- WINDOW_ENABLE: checks a window and enables it. -/
def windowEnableOp (k w : Nat) (s : State) : State :=
  if !s.alive || !isStack k || w ≥ 64 || (s.xwin k w).on then s
  else if s.windowOk k w then s.flag .memXpwCtl 0 k w
  else s.flag .memXpwStatus 0 k w

/-- WINDOW_ENABLE (R154). -/
def execWindowEnable (k w : Nat) (s : State) : Host.Outcome State Fault Refusal :=
  .next (barWrite (Reg.offset ⟨.memXpwCtl, k, w⟩) (windowEnableOp k w) s)

/-- WINDOW_DISABLE: every buffer of the window is flushed before the enable bit reads 0. -/
def windowDisableOp (k w : Nat) (s : State) : State :=
  if s.alive && isStack k && w < 64 && (s.xwin k w).on then (flushWindow k w s).setRgBits .memXpwCtl 0 1 0 k w else s

/-- WINDOW_DISABLE (R151). -/
def execWindowDisable (k w : Nat) (s : State) : Host.Outcome State Fault Refusal :=
  .next (barWrite (Reg.offset ⟨.memXpwCtl, k, w⟩) (windowDisableOp k w) s)

/-! ## Self-refresh (R180) -/

/-- Whether admitted work declares demand on a memory. -/
def State.demanded (s : State) (p : Nat) : Bool :=
  s.passes.any (fun x => x.demand.any (fun e => e.p == p)) || s.hrv.op.any (fun h => h.rates.any (fun e => e.p == p))

/-- Whether a ready stack has no request, no admitted demand, no range that initialises, no busy window, and does not re-sow
(R180). -/
def State.quiet (s : State) (k : Nat) : Bool :=
  let d := s.dev k
  d.st = .ready && d.queue = [] && d.paused = [] && !s.demanded k && !s.memory.asm.any (fun b => b.stack == k) &&
  d.resow ≠ .running && (List.range 64).all (fun e => !(s.range k e).busy)

/-- A stack notes since when it has been quiet. -/
def noteQuiet (k : Nat) (s : State) : State :=
  let d := s.dev k
  if s.quiet k then (if d.quietAt.isSome then s else s.setDev k { d with quietAt := some s.cyc })
  else if d.quietAt.isSome then s.setDev k { d with quietAt := none }
  else s

/-- SELF_REFRESH_ENTRY: a stack that has been quiet for 100 µs enters self-refresh. -/
def selfRefreshEntryOp (k : Nat) (s : State) : State :=
  if s.alive && isStack k && s.quiet k && (s.dev k).quietAt.any (fun t => t + usCycles 100 ≤ s.cyc) then
    s.updDev k (fun d => { d with st := .selfRefresh, quietAt := none })
  else s

/-- SELF_REFRESH_ENTRY (R180). -/
def execSelfRefreshEntry (k : Nat) (s : State) : Host.Outcome State Fault Refusal := .next (selfRefreshEntryOp k s)

/-! ## Retraining (R190, R192, R198) -/

/-- Whether a channel may start retraining now (R190). -/
def State.mayRetrain (s : State) (p pc : Nat) : Bool :=
  let d := s.dev p
  let late (c : Nat) : Bool := match sfind d.retrainAt c with
    | some t => t + msCycles 1 ≤ s.cyc
    | none => true
  s.alive && isMemory p && d.serves && (channelsOf p).contains pc && d.paused = [] && !(d.retiredFailed && d.retired = some pc) &&
  (if isStack p then late pc else (channelsOf p).all late)

/-- Pauses a channel for retraining. -/
def startRetrain (p pc : Nat) (s : State) : State :=
  if s.mayRetrain p pc then
    let s := s.updDev p (fun d => { d with paused := [pc], retrainAt := sinsert pc s.cyc d.retrainAt,
                                           retrSince := d.retrSince + 1 })
    if isStack p then s.inc .memStkRetrains 1 p else s.inc .memPkgRetrains 1 (p - 12)
  else s

/-- Degrees by which the temperature moves between two trainings of a pseudo-channel (R190). -/
def driftLimit : Nat := 8

/-- Whether the temperature of a memory has moved 8 °C since a channel's last training. -/
def State.drifted (s : State) (p pc : Nat) : Bool :=
  let d := s.dev p
  match sfind d.trainTemp pc with
  | some t => t + driftLimit ≤ d.temp || d.temp + driftLimit ≤ t
  | none => false

/-- RETRAINING_START: a channel whose PHY error monitors have crossed their limit (phy), or whose temperature has drifted, starts
retraining.
DEDUCED, log entry 78. -/
def retrainingStartOp (p pc : Nat) (phy : Bool) (s : State) : State := if phy || s.drifted p pc then startRetrain p pc s else s

/-- RETRAINING_START (R190); the cause is the PHY unless the command says that it is the drift alone. -/
def execRetrainingStart (p pc : Nat) (s : State) (phy : Bool := true) : Host.Outcome State Fault Refusal :=
  .next (retrainingStartOp p pc phy s)

/-- HOST_RETRAIN: MEM_STK_CTL requests retraining of a pseudo-channel. -/
def hostRetrainOp (k pc : Nat) (s : State) : State :=
  if s.alive && isStack k then startRetrain k (pc % 32) (s.setRgBits .memStkCtl 0 5 pc k) else s

/-- HOST_RETRAIN (R190). -/
def execHostRetrain (k pc : Nat) (s : State) : Host.Outcome State Fault Refusal :=
  .next (barWrite (Reg.offset ⟨.memStkCtl, k, 0⟩) (hostRetrainOp k pc) s)

/-- Raises PC_RETRAIN, at most once per memory per 1 ms (R190, R189). -/
def retrainEvent (p pc result : Nat) (s : State) : State :=
  let d := s.dev p
  let due : Bool := match d.retrAt with
    | some t => t + msCycles 1 ≤ s.cyc
    | none => true
  if due then
    raiseEvent .pcRetrain p
      (detail [(9, 1, if isStack p then 0 else 1), (10, 1, if isStack p then p else p - 12), (11, 1, pc), (12, 1, result),
        (13, 1, sget 0 d.fails pc), (14, 2, d.retrSince)])
      (s.setDev p { d with retrSince := 0, retrAt := some s.cyc })
  else s

/-- Cycles that a retraining may take: 2 µs (R190). -/
def retrainLimit : Nat := usCycles 2

/-- The third failure in succession (R192, R198). -/
def retrainFailed (p pc : Nat) (s : State) : State :=
  if sget 0 (s.dev p).fails pc < 3 then s
  else if isStack p then
    if (s.dev p).retired = some pc then s.updDev p (fun d => { d with retiredFailed := true })
    else checkFault (retirePc p pc 1 true s)
  else declareFault (.failedDevice p) (s.updDev p (fun d => { d with st := .failed }))

/-- RETRAINING_TIMEOUT: a retraining that has not succeeded within 2 µs counts as failed, and the channel resumes. -/
def retrainingTimeoutOp (p pc : Nat) (s : State) : State :=
  let d := s.dev p
  if s.alive && isMemory p && d.paused.contains pc && (sfind d.retrainAt pc).any (fun t => t + retrainLimit ≤ s.cyc) then
    retrainFailed p pc
      (retrainEvent p pc 1 (s.setDev p { d with paused := d.paused.filter (· ≠ pc), fails := supd 0 d.fails pc (· + 1) }))
  else s

/-- RETRAINING_TIMEOUT (R190). -/
def execRetrainingTimeout (p pc : Nat) (s : State) : Host.Outcome State Fault Refusal := .next (retrainingTimeoutOp p pc s)

/-- RETRAINING_SUCCESS: within 2 µs a channel resumes with new settings, trained at the present temperature. -/
def retrainingSuccessOp (p pc : Nat) (s : State) : State :=
  let d := s.dev p
  if s.alive && isMemory p && d.paused.contains pc && (sfind d.retrainAt pc).any (fun t => s.cyc ≤ t + retrainLimit) then
    retrainEvent p pc 0
      (s.setDev p { d with paused := d.paused.filter (· ≠ pc), fails := serase d.fails pc,
                           trainTemp := sinsert pc d.temp d.trainTemp })
  else s

/-- RETRAINING_SUCCESS (R190). -/
def execRetrainingSuccess (p pc : Nat) (s : State) : Host.Outcome State Fault Refusal := .next (retrainingSuccessOp p pc s)

/-- HOST_RETIRE: MEM_STK_CTL retires a pseudo-channel. -/
def hostRetireOp (k pc : Nat) (s : State) : State :=
  if s.alive && isStack k && (s.dev k).st ≠ .failed then
    checkFault (retirePc k (pc % 32) 3 false (s.setRgBits .memStkCtl 0 5 pc k))
  else s

/-- HOST_RETIRE (R192). -/
def execHostRetire (k pc : Nat) (s : State) : Host.Outcome State Fault Refusal :=
  .next (barWrite (Reg.offset ⟨.memStkCtl, k, 0⟩) (hostRetireOp k pc) s)

/-! ## Re-sowing (R194 to R196) -/

/-- The offset above which re-sowing needs a stack empty (R194). -/
def resowArea : Nat := 0x5D0000000

/-- Whether an enabled entry or window reaches into the area that re-sowing needs. -/
def State.reachesTop (s : State) (k : Nat) : Bool :=
  (List.range 64).any (fun e => let r := s.range k e; r.on && resowArea < r.base + r.size) ||
  (List.range 64).any (fun w => let x := s.xwin k w
    x.on && x.ranges.any (fun r => k * 0x800000000 + resowArea < r.1 + r.2))

/-- RESOW_GO: starts re-sowing of a stack that awaits it; while an enabled entry or window reaches the area it sets cfg_err. -/
def resowGoOp (k : Nat) (s : State) : State :=
  if !s.alive || !isStack k then s
  else if s.reachesTop k then s.flag .memStkStatus 12 k
  else if (s.dev k).resow ≠ .awaiting then s
  else s.updDev k (fun d => { d with resow := .running, wmark := resowGranules })

/-- RESOW_GO (R194). -/
def execResowGo (k : Nat) (s : State) : Host.Outcome State Fault Refusal :=
  .next (barWrite (Reg.offset ⟨.memStkCtl, k, 0⟩) (resowGoOp k) s)

/-- What moving the granules of a list leaves of the lines on a pseudo-channel that failed: class N lines read zero, lines of
the other classes stay detected (R193, R196, DEDUCED, log entry 27). -/
def moveLost (k : Nat) (gs : List Nat) (s : State) : State :=
  each (gs.flatMap (fun g => (List.range 4).map (fun l => k * 0x800000000 + g * 256 + l * 64))) (fun l s =>
    if !s.onFailedPc l then s
    else if s.mpaClass l = 0 then zeroRange l 64 s
    else markDetected l s) s

/-- RESOW_MOVE: the next granule moves to its new place; below granule 1,024 the rest moves at once. -/
def resowMoveOp (k : Nat) (s : State) : State :=
  let d := s.dev k
  if !s.alive || !isStack k || d.resow ≠ .running || !d.serves then s
  else if d.wmark ≤ 1024 then
    (moveLost k (List.range d.wmark) s).updDev k (fun d => { d with wmark := 0, resow := .complete })
  else (moveLost k [d.wmark - 1] s).updDev k (fun d => { d with wmark := d.wmark - 1 })

/-- RESOW_MOVE (R196). -/
def execResowMove (k : Nat) (s : State) : Host.Outcome State Fault Refusal := .next (resowMoveOp k s)

/-! ## Patrol scrub (R188) -/

/-- PATROL_SCRUB: the scrubber reads one class W line, corrects and counts, and reports a detected line; found is what the devices
report meanwhile. -/
def patrolScrubOp (p line : Nat) (found : List Finding) (s : State) : State :=
  let l := line / 64 * 64
  if s.alive && s.rgBits .memScrubCfg 0 8 ≠ 0 && ((mpaWindow l).map (·.1)) = some p && (s.dev p).serves && !s.isHole l &&
    s.mpaClass l = 2 then
    checkFault (meetLines l 64 2 s.oldestStep ((each found reportFinding s).updDev p (fun d => { d with scrubPos := l })))
  else s

/-- PATROL_SCRUB (R188). -/
def execPatrolScrub (p line : Nat) (found : List Finding) (s : State) : Host.Outcome State Fault Refusal :=
  .next (patrolScrubOp p line found s)

/-! ## Temperature (R199, R200, R277) -/

/-- Whether a pass was admitted while a stack stood at its present hot level (R200). -/
def State.admittedHot (s : State) (p : Nat) (x : Pass) : Bool :=
  (s.dev p).level = .hot && x.hotAdm.contains (p, (s.dev p).episode)

/-- Bytes of demand on a memory that was admitted before it became hot and has not yet been moved (R200). -/
def State.outstanding (s : State) (p : Nat) : Nat :=
  (((s.passes.filter (fun x => !s.admittedHot p x)).map (fun x =>
    ((x.demand.filter (fun e => e.p == p)).map (fun e => (e.rd + e.wr) * 256)).sum - sget 0 x.moved p)).sum)

/-- The delay that a hot stack states, in µs: R × (1/(0.5 B) − 1/(0.92 B)) rounded up, which is 21 R / (23 B) (R200). -/
def State.hotDelay (s : State) (k : Nat) : Nat :=
  let b := 23 * s.bytesPerUs k
  (s.outstanding k * 21 + b - 1) / b

/-- The nodes other than this one in the member lists of enabled groups (R277). -/
def State.partners (s : State) : List Nat :=
  ((s.coll.groups.filter (fun e => e.2.st ≠ .disabled)).flatMap (fun e =>
    let y := s.collEntry e.1
    (List.range y.n).map (s.collMember y))).dedup.filter (· ≠ s.nodeId)

/-- Sends the HOLDOFF beacon to every partner (R277). -/
def sendHoldoff (k delay episode : Nat) (s : State) : State :=
  each s.partners (fun n s =>
    sendMessage 0x32 n { addr := 0, spec := specBytes [(22, 4, delay), (26, 1, k), (27, 1, episode)], data := [] } s) s

/-- Extends the promise of the passes that f selects (R17). -/
def extendPasses (f : Pass → Bool) (us : Nat) (s : State) : State :=
  each (s.passes.filter f) (fun p s => s.updInflight p.desc (fun i =>
    { i with extension := i.extension + usCycles us })) s

/-- Extends the deadlines of the groups in which the module takes part (R17, R244). -/
def extendGroups (f : Nat → Bool) (us : Nat) (s : State) : State :=
  { s with coll := { s.coll with groups := s.coll.groups.map (fun e =>
      if f e.1 then (e.1, { e.2 with deadline := e.2.deadline.map (· + us * 25) }) else e) } }

/-- States the delay of a hot stack: its increase extends promises, and event and beacon carry it (R200). -/
def stateDelay (k d : Nat) (s : State) : State :=
  let inc := d - (s.dev k).holdoff
  let s := extendGroups (fun _ => true) inc (extendPasses (fun p => p.demand.any (fun e => e.p == k) && !s.admittedHot k p) inc s)
  let s := s.updDev k (fun x => { x with holdoff := d })
  let s := raiseEvent .stackHot k (detail [(0, 4, d), (10, 1, k), (12, 1, (s.dev k).temp), (13, 1, 0)]) s
  sendHoldoff k d (s.dev k).episode s

/-- Raises the event of a level entered or left. -/
def levelEvent (code : EventCode) (k dir : Nat) (s : State) : State :=
  raiseEvent code k (detail [(10, 1, k), (12, 1, (s.dev k).temp), (13, 1, dir)]) s

/-- Settles the bucket of a memory's remote allowance at the rate until now: its level changes (R214). -/
def settleRemote (k : Nat) (s : State) : State :=
  s.updDev k (fun d => { d with remote := { used := d.remote.missing (s.remoteRate k) s.cyc, since := s.cyc } })

/-- Enters the hot level: a new episode, and its delay (R199, R200, R277). -/
def enterHot (k : Nat) (s : State) : State :=
  let delay := s.hotDelay k
  let ep := (s.fab.episode + 1) % 256
  let s := settleRemote k { s with fab := { s.fab with episode := ep } }
  let s := s.updDev k (fun d => { d with level := .hot, hotAt := s.aon, episode := ep, holdoff := 0,
                                         hotTok := { used := 0, since := s.cyc } })
  stateDelay k delay s

/-- Enters the critical level: the stack goes into self-refresh, and the module fault follows once the packets in flight for the
current collective chunk have left (R199, R244). -/
def enterCritical (k : Nat) (s : State) : State :=
  let s := s.updDev k (fun d => { d with level := .critical, st := if d.st = .ready then .selfRefresh else d.st })
  let s := levelEvent .stackCritical k 0 s
  finishCritical { s with coll := { s.coll with ending := s.coll.ending <|> some k } }

/-- One level up, if the temperature has reached its threshold. -/
def levelUp (k : Nat) (s : State) : State :=
  let d := s.dev k
  match d.level with
  | .normal => if 85 ≤ d.temp then levelEvent .stackWarm k 0 (s.setDev k { d with level := .warm }) else s
  | .warm => if 95 ≤ d.temp then enterHot k s else s
  | .hot => if 105 ≤ d.temp then enterCritical k s else s
  | .critical => s

/-- One level down, if the temperature has fallen 3 °C below its threshold; the critical level stays. -/
def levelDown (k : Nat) (s : State) : State :=
  let d := s.dev k
  match d.level with
  | .hot =>
    if d.temp ≤ 92 then levelEvent .stackHot k 1 ((settleRemote k s).updDev k (fun d => { d with level := .warm, holdoff := 0 }))
    else s
  | .warm => if d.temp ≤ 82 then levelEvent .stackWarm k 1 (s.setDev k { d with level := .normal }) else s
  | _ => s

/-- STACK_TEMP_READING: a reading on the 100 µs grid; the stack enters or leaves levels. -/
def stackTempReadingOp (k celsius : Nat) (s : State) : State :=
  if s.alive && isStack k && s.aon % 2500 = 0 then
    let s := s.updDev k (fun d => { d with temp := celsius })
    levelDown k (levelDown k (levelUp k (levelUp k (levelUp k s))))
  else s

/-- STACK_TEMP_READING (R199). -/
def execStackTempReading (k celsius : Nat) (s : State) : Host.Outcome State Fault Refusal := .next (stackTempReadingOp k celsius s)

/-- HOT_DELAY_RESTATE: at every tenth reading after a stack became hot, a delay that has grown by more than 10 % or 100 µs is
stated again. -/
def hotDelayRestateOp (k : Nat) (s : State) : State :=
  let d := s.dev k
  let n := s.hotDelay k
  if s.alive && isStack k && d.level = .hot && s.aon % 2500 = 0 && s.aon ≠ d.hotAt && (s.aon / 2500 - d.hotAt / 2500) % 10 = 0 &&
    (n * 10 > d.holdoff * 11 || n > d.holdoff + 100) then stateDelay k n s
  else s

/-- HOT_DELAY_RESTATE (R200). -/
def execHotDelayRestate (k : Nat) (s : State) : Host.Outcome State Fault Refusal := .next (hotDelayRestateOp k s)

end Sys2Proof.Machine
end

