-- ==== Sys2Proof/Machine/Receive.lean ====
section
/-! DEFINITION. What a received packet does, as shared operations: which packet stands at the head of a lane, late packets,
open transfers, data written to memory, fenced signals and acknowledgements (R261, R266, R269 to R275). -/

namespace Sys2Proof.Machine

set_option Elab.async false

/-! ## The packet at the head of a lane -/

/-- The whole packet of a type at the head of its lane on a port, with its flits. -/
def State.headPacket (s : State) (port type : Nat) : Option (Nat × Packet) :=
  if !s.alive || port ≥ Config.numPorts then none
  else
    match laneOf type with
    | some vl =>
      if type = 0x02 then none
      else
      (match headOf ((s.port port).lane vl) with
       | .whole n p => if p.type = type then some (n, p) else none
       | _ => none)
    | none => none

/-- Takes a packet off its lane; the next one is then checked. Read requests do not stand in a lane (R256). -/
def takePacket (port n : Nat) (p : Packet) (s : State) : State :=
  let vl := (laneOf p.type).getD 0
  scrub port vl (popFlits port vl n s)

/-- Serves the packet of a type at the head of its lane: one of an older incarnation is late, one that a condition holds
stays, and otherwise its incarnation is observed and it acts (R271, R275). -/
def serve (port type : Nat) (hold : Packet → State → Bool) (act : Packet → State → State) (s : State) : State :=
  match s.headPacket port type with
  | none => s
  | some (n, p) =>
    if isNode p.src && newer (s.incOf p.src) p.inc then latePacket port 1 p (takePacket port n p s)
    else if hold p s then s
    else
      let s := observe p.src p.inc (takePacket port n p s)
      if s.alive then act p s else s

/-- Nothing holds the packet. -/
def noHold : Packet → State → Bool := fun _ _ => false

/-! ## Open inbound transfers (R269 to R272) -/

/-- Open inbound transfers that the hub can track (R269). -/
def trackLimit : Nat := 32768

/-- What a data packet is to its transfer. -/
inductive Track where
  | late
  | bad
  | ok (s : State)

/-- The open inbound transfer of a packet. -/
def State.openOf (s : State) (p : Packet) : Option InXfer :=
  s.fab.inn.find? (fun i => !i.isRead && i.src == p.src && i.xid == p.xid)

/-- Replaces an entry of the open transfers, or removes it when its last packet has come. -/
def progress (i : InXfer) (last : Bool) (s : State) : State :=
  let one (j : InXfer) : InXfer := if i.same j then { j with next := j.next + 1, got := j.got + 1, last := s.cyc } else j
  let inn := if last then s.fab.inn.filter (fun j => !i.same j) else s.fab.inn.map one
  { s with fab := { s.fab with inn := inn } }

/-- Opens an inbound transfer at its first packet; one that finds every entry taken is untracked and counted. -/
def openIn (port : Nat) (p : Packet) (s : State) : State :=
  let room := (s.fab.inn.filter (fun i => i.tracked && !i.isRead)).length < trackLimit
  let i : InXfer := { src := p.src, xid := p.xid, vl := (laneOf p.type).getD 0, port := port, next := p.idx + 1, got := 1,
                      last := s.cyc, extend := 0, stalled := false, tracked := room, reads := [] }
  let s := { s with fab := { s.fab with inn := s.fab.inn ++ [i] } }
  if room then s else s.incSat .fabUntracked 1

/-- Follows a data packet: a first packet opens its transfer unless it is also the last, a later one must be the next of an
open transfer (R269, R271, R272).
DEDUCED, log entry 80. -/
def trackIn (port : Nat) (p : Packet) (s : State) : Track :=
  match s.openOf p with
  | some i => if p.first || p.idx ≠ i.next then .bad else .ok (progress i p.last s)
  | none =>
    if !p.first then .late
    else if p.last then .ok s
    else if p.idx ≠ 0 then .bad
    else .ok (openIn port p s)

/-! ## Data, signals and acknowledgements -/

/-- A line written with a check code that fails: it reads as detected; class N memory takes zeros (R261). -/
def markLine (l : Nat) (s : State) : State :=
  if s.mpaClass l = 0 then putRaw l (List.replicate 64 0) s else markDetected l s

/-- Writes a packet's payload at an address, its marked lines as detected (R261). -/
def landBytes (id a : Nat) (data : List Byte) (mask : Nat) (s : State) : State :=
  let s := ctrlWrite 0 (some id) a data s
  each (linesOf a data.length).zipIdx (fun l s => if mask.testBit l.2 then markLine l.1 s else s) s

/-- The fenced signal of a packet, which ends a recovery stream when it is that of an end packet: applied once the earlier packets of
its source on its lane are visible (R232, R266, R323). -/
def packetSignalOf (stream : Option (List Byte)) (p : Packet) (s : State) : State :=
  if p.hasSig then
    let vl := (laneOf p.type).getD 0
    addSignal { source := .remote p.src, pass := none, dest := none, node := 0, tally := p.tally, inc := p.sigInc,
                fence := (s.fab.inn.filter (fun i => !i.isRead && i.src == p.src && i.vl == vl)).map (·.xid),
                lines := (s.fab.acks.filter (fun a => a.node == p.src)).map (·.id), desc := none, bare := false, stream := stream } s
  else s

/-- The fenced signal of a packet that ends no stream. -/
def packetSignal (p : Packet) (s : State) : State := packetSignalOf none p s

/-- Takes a number for a write whose acknowledgement may be held. -/
def newAck (s : State) : Nat × State :=
  (s.gath.nextId, { s with gath := { s.gath with nextId := s.gath.nextId + 1 } })

/-- Keeps an acknowledgement until nothing holds it. -/
def keepAck (id port : Nat) (copy : Bool) (p : Packet) (s : State) : State :=
  { s with fab := { s.fab with acks := s.fab.acks ++ [{ id := id, copy := copy, port := port, node := p.src, xid := p.xid,
                                                        idx := p.idx }] } }

/-- Receives a data packet: it is followed, refused with status 2 when it has no target, and otherwise written; extra is what
else it does, and says whether the acknowledgement waits for a copy. -/
def receiveData (port : Nat) (target : Packet → State → Option Nat) (extra : Nat → Packet → State → State × Bool)
    (p : Packet) (s : State) : State :=
  match trackIn port p s with
  | .late => latePacket port 0 p s
  | .bad => dropViolation port 7 p s
  | .ok s =>
    match (target p s).filter (fun a => s.mpaOk a p.payload.length) with
    | none => sendAck port p.src p.xid p.idx 2 s
    | some a =>
      let (id, s) := newAck s
      let s := landBytes id a p.payload p.mask s
      let (s, copy) := extra id p s
      releaseAcks (packetSignal p (keepAck id port copy p s))

end Sys2Proof.Machine
end

