-- ==== Sys2Proof/Machine/Gauge.lean ====
section
/-! DEFINITION. The numeric watch at the events of a step: the clearing and snapshot at STEP_OPEN (R64, R70, R71, R74, R77, R297),
the gauge update and format choice at CHECK (R67, R68, R75), the tithe test (R81 to R83) and the silent layers (R84, R85). -/

namespace Sys2Proof.Machine

set_option Elab.async false

/-- The largest finite FP32 value. -/
def fp32Max : Word := 0x7F7FFFFF#32

/-- Roles of a gauge (R61). -/
def roles : List Nat := List.range 5

/-- The layers of an attempt. -/
def Watch.layerList (w : Watch) : List Nat := List.range w.layers

/-- The address of a gauge record. -/
def Watch.gauge (w : Watch) (l role : Nat) : Nat := w.entry l + role * 16

/-- The n-th step count of a role: elements, sources, non-zero outputs, overflow, underflow, non-finite (R77, R87). -/
def State.stepCount (s : State) (w : Watch) (l role n : Nat) : Nat := s.memNum (w.entry l + 0x50 + role * 48 + n * 8) 8

/-- The est of a gauge. -/
def State.estAt (s : State) (a : Nat) : Word := BitVec.ofNat 32 (s.memNum a 4)

/-! ## STEP_OPEN (R64, R70, R71, R74, R77) -/

/-- The eight words that STEP_OPEN latches, a decay out of range as 0.95 (R64, R88, R298). -/
def State.latchWatch (s : State) : List Word :=
  let d := BitVec.ofNat 32 (s.rg .numGaugeDecay)
  let ok := !(val32 d).lt (.fin false 1 (-1)) && (val32 d).lt (.fin false 1 0)
  let q (n : RegName) : Word := BitVec.ofNat 32 (s.rg n)
  [q .numWatchCtl, if ok then d else 0x3F733333#32, q .numGaugeCfg, q .numSeedCfg, q .numSelectCfg, q .numTitheCfg, q .numTitheAbs,
   q .numSilentCfg]

/-- The format that a policy forces (R89); none for the selector. -/
def forcedFmt (policy : Nat) : Option Nat := match policy % 4 with
  | 1 => some 0
  | 2 => some 1
  | 3 => some 5
  | _ => none

/-- The current format of a layer at a STEP_OPEN (R71). -/
def openFmt (s : State) (w : Watch) (policy : Nat) (l : Nat) : Nat :=
  if w.seeding.contains l then 5
  else if s.memNum (w.shared l + 0x2C2) 1 = 0 then (forcedFmt policy).getD 5
  else s.memNum (w.entry l + 0x2C1) 1

/-- Clears the step's items of a layer and sets its current format, unless the formats were restored by a rollback (R71,
R74, R77, R287). A gradient gauge in a format without exponent reads exponent 0 (R67). -/
def openLayer (w : Watch) (policy : Nat) (keep : Bool) (l : Nat) (s : State) : State :=
  let e := w.entry l
  let cur := if keep then s.memNum (e + 0x2C0) 1 else openFmt s w policy l
  let unusable := [2, 3].any (fun r => (s.estAt (w.gauge l r)).toNat % 2 ^ 31 = 0)
  let s := each roles (fun r s => (s.memPutNum (w.gauge l r + 4) 8 0).memPutNum (w.gauge l r + 14) 1 0) s
  let s := s.memPut (e + 0x50) (List.replicate 240 0)
  let s := s.memPut (e + 0x1C0) (List.replicate 256 0)
  let s := (s.memPutNum (e + 0x2C0) 1 cur).memPutNum (e + 0x2C3) 1 (if unusable then 1 else 0)
  let s := s.memPutNum (e + 0x2CC) 4 0
  let s := each [2, 3] (fun r s =>
    let s := s.memPutNum (w.gauge l r + 13) 1 cur
    if gaugedFmt cur then s else s.memPutNum (w.gauge l r + 12) 1 0) s
  s.memPutNum (w.gauge l 4 + 13) 1 7

/-- The gauge snapshot of a layer (R297). -/
def snapshotLayer (s : State) (w : Watch) (l : Nat) : List Byte :=
  roles.flatMap (fun r => s.memBytes (w.gauge l r) 4 ++ s.memBytes (w.gauge l r + 12) 2 ++ leBytes 2 0)
    ++ s.memBytes (w.entry l + 0x2C0) 1 ++ s.memBytes (w.shared l + 0x2C2) 1 ++ leBytes 22 0

/-- Restores the gauge record and current format of a layer from a snapshot (R296). -/
def restoreLayer (w : Watch) (rec_ : Nat) (l : Nat) (s : State) : State :=
  let a := rec_ + 0x9000 + l * 64
  let s := each roles (fun r s =>
    (s.memPut (w.gauge l r) (s.memBytes (a + 8 * r) 4)).memPut (w.gauge l r + 12)
      (s.memBytes (a + 8 * r + 4) 2)) s
  s.memPut (w.entry l + 0x2C0) (s.memBytes (a + 0x28) 1)

/-! ## CHECK (R67, R68, R75, R78, R86) -/

/-- The span of a format in binades (R75). -/
def fmtSpan (f h : Nat) : Nat := if f = 0 then 13 - h else 28 - h

/-- The smallest bin whose cumulative count reaches a share of the total; the numbers are the share's parts. -/
def quantileBin (num den n : Nat) : Nat → Nat → List Nat → Nat
  | d, _, [] => d
  | d, acc, b :: bs => if den * (acc + b) ≥ num * n then d else quantileBin num den n (d + 1) (acc + b) bs

/-- The next format of a layer (R75). -/
def nextFmt (s : State) (w : Watch) (policy : Nat) (l : Nat) : Nat :=
  let e := w.entry l
  let bins := (List.range 32).map (fun i => s.memNum (e + 0x1C0 + 4 * i) 4 + s.memNum (e + 0x240 + 4 * i) 4)
  let n := bins.sum
  match forcedFmt policy with
  | some f => f
  | none =>
    if bit (s.memNum (e + 0x2C3) 1) 0 then 5
    else if n = 0 then s.memNum (e + 0x2C0) 1
    else
      let d := quantileBin 999 1000 n 0 0 bins
      if d ≤ fmtSpan 0 w.h then 0 else if d ≤ fmtSpan 1 w.h then 1 else 5

/-- Doubles an estimate, up to the largest FP32 value (R67, R68).
DEDUCED, log entry 75. -/
def doubled (est : Word) : Word :=
  let d := (mul32 0x40000000#32 est).1
  if (val32 fp32Max).lt (val32 d) then fp32Max else d

/-- The estimate of R67. -/
def newEst (est amax decay : Word) (ovf : Bool) : Word :=
  let e := (minmax32 true amax (mul32 decay est).1).1
  if !ovf then e else if (val32 e).eq (.fin false 0 0) then 0x3F800000#32 else doubled e

/-- The bank from which an attempt takes est at CHECK (R287). -/
def estBank (a : Attempt) : Nat := a.wbase + (if a.overlap then (a.step + 1) % 2 * 0x4000000 else 0)

/-- The format that a gauge will use in the next attempt (R67). -/
def State.futureFmt (s : State) (w : Watch) (l role : Nat) : Nat :=
  if role = 4 then 7 else if role ≥ 2 then s.memNum (w.entry l + 0x2C1) 1 else s.memNum (w.gauge l role + 13) 1

/-- Updates one gauge: loss says that the LOSS role counted a non-finite outcome (R67, R68). -/
def updateGauge (a : Attempt) (w : Watch) (loss : Bool) (l role : Nat) (s : State) : State :=
  let est := newEst (s.estAt (estBank a + l * 0x400 + role * 16)) (s.estAt (w.gauge l role + 4)) (BitVec.ofNat 32 (a.latch 1))
    (s.stepCount w l role 3 ≠ 0)
  let est := if loss && (role = 2 || role = 3) then doubled est else est
  let g := expFrom est (s.futureFmt w l role) w.h
  (s.memPutNum (w.gauge l role) 4 est.toNat).memPutNum (w.gauge l role + 12) 1 (unsigned g 8)

/-- The overflow and non-finite outcomes of a layer's role. -/
def State.gradTrouble (s : State) (w : Watch) (l role : Nat) : Nat := s.stepCount w l role 3 + s.stepCount w l role 5

/-- Raises GRAD_OVERFLOW for the lowest layer that counted any (R86). -/
def gradOverflow (a : Attempt) (w : Watch) (s : State) : State :=
  let tr := s.gradTrouble w
  match w.layerList.find? (fun l => tr l 2 ≠ 0 || tr l 3 ≠ 0) with
  | some l =>
    if s.rgBit .numEvtEn 1 then
      raiseEvent .gradOverflow l
        (detail [(0, 2, l), (2, 1, if tr l 2 ≠ 0 then 2 else 3), (4, 5, a.step), (9, 4, min (tr l 2 + tr l 3) 0xFFFFFFFF)]) s
    else s
  | none => s

/-- The gauge update and the format choice of an attempt that enters CHECK (R67, R68, R75). -/
def gaugeUpdate (a : Attempt) (s : State) : State :=
  let w := watchOf a
  let s := gradOverflow a w s
  let loss := w.layerList.any (fun l => s.stepCount w l 4 5 ≠ 0)
  each w.layerList (fun l s =>
    let s := s.memPutNum (w.entry l + 0x2C1) 1 (nextFmt s w (a.latch 4) l)
    each roles (updateGauge a w loss l) s) s

/-- A module's own non-finite sum (R78). -/
def State.ownSum (s : State) (a : Attempt) : Nat :=
  let w := watchOf a
  min ((w.layerList.flatMap (fun l => [2, 3, 4].map (fun r => s.stepCount w l r 5))).sum) (2 ^ 64 - 1)

/-! ## The tithe test (R81 to R83) -/

/-- The quotient of two values, rounded once to FP32. -/
def div32 (a b : Word) : Word :=
  match val32 a, val32 b with
  | .fin p m e, .fin q n f =>
    if n = 0 then (if m = 0 then 0x7FC00000#32 else round32 (.inf (p != q)))
    else
      let k := m * 2 ^ 64
      round32 (.fin (p != q) (2 * (k / n) + (if k % n = 0 then 0 else 1)) (e - f - 65))
  | .inf p, .fin q _ _ => round32 (.inf (p != q))
  | .fin p _ _, .inf q => round32 (.fin (p != q) 0 0)
  | _, _ => 0x7FC00000#32

/-- The square root of a value, rounded once to FP32. -/
def sqrt32 (a : Word) : Word :=
  match val32 a with
  | .fin neg m e =>
    if m = 0 then a
    else if neg then 0x7FC00000#32
    else
      let k := m * 2 ^ 80 * (if e % 2 = 0 then 1 else 2)
      let r := Nat.sqrt k
      let h : Int := if e % 2 = 0 then (e - 80) / 2 else (e - 81) / 2
      round32 (.fin false (2 * r + (if r * r = k then 0 else 1)) (h - 1))
  | .inf false => a
  | _ => 0x7FC00000#32

/-- The difference of two words. -/
def sub32 (a b : Word) : Word := (add32 a (b ^^^ 0x80000000#32)).1

/-- A word rounded to BF16. -/
def toBf16 (a : Word) : FVal := bf16.decode (bf16.convert none 0 (val32 a)).1

/-- One recomputed element: the sum over k, in ascending order (R81). -/
def tithePoint (s : State) (w : Watch) (x : TitheSample) (slot rate r n : Nat) : Word :=
  let e := w.shared x.layer
  let master := s.memNum (e + (if x.ver % 2 = 0 then 0x320 else 0x328)) 8
  let stride := s.memNum (e + 0x33C) 4
  (List.range (s.memNum (e + 0x338) 4)).foldl (fun (acc : Word) k =>
    let xv := toBf16 (s.estAt (titheAddr s w x.layer x.mb slot rate r k))
    let wv := toBf16 (s.estAt (master + k * stride + n * 4))
    round32 ((val32 acc).add (xv.mul wv))) 0

/-- The elements of a sample as drained, y, and as recomputed, y' (R81). -/
def tithePairs (s : State) (w : Watch) (x : TitheSample) : List (Word × Word) :=
  let rate := titheRate w.tithe
  let slot := (titheSlot (w.step.getD 0) x.layer x.mb rate x.row).getD 0
  (List.range 128).map (fun i =>
    (round32 ((val32 ((x.elems[i]?).getD 0)).scale (-x.scale)),
     tithePoint s w x slot rate (i / 8) (64 * x.nblk + 8 * x.col + i % 8)))

/-- The relative Frobenius error (R81). -/
def titheError (ps : List (Word × Word)) : Word :=
  let sum (f : Word × Word → Word) : Word := ps.foldl (fun (acc : Word) p => (add32 acc (f p)).1) 0
  let den := sum (fun p => (mul32 p.2 p.2).1)
  if (val32 den).eq (.fin false 0 0) then sqrt32 (sum (fun p => (mul32 p.1 p.1).1))
  else sqrt32 (div32 (sum (fun p => let d := sub32 p.1 p.2; (mul32 d d).1)) den)

/-- The bin of an error (R82); that of an error that is not a number is free (DESIGN CHOICE, log entry 33). -/
def titheBin (e : Word) : Nat :=
  match val32 e with
  | .fin _ m k => if m = 0 then 0 else (max 0 (min 15 (magLog2 m k + 16))).toNat
  | .inf _ => 15
  | .nan => Config.titheNanBin % 16

/-- The exponent of the threshold of a layer: the sample under test is the 16th when 15 have been counted (R82). -/
def titheExp (s : State) (w : Watch) (a : Attempt) (x : TitheSample) : Int :=
  let e := w.shared x.layer
  if s.memNum (e + 0x2D0) 4 + 1 < 16 then
    let byte := if x.opBits = 8 then 0 else if x.opBits = 6 then 1 else if x.opBits = 4 then 2 else 3
    signed (bits (a.latch 6) (8 * byte) 8) 8
  else
    let bins := (List.range 16).map (fun i => s.memNum (e + 0x2E0 + 4 * i) 4)
    (quantileBin 99 100 bins.sum 0 0 bins : Int) - 15 + (bits w.tithe 4 3 : Nat)

/-- Adds an error to a layer's running histogram, halving every bin at 65,536 (R82). -/
def addTithe (e : Nat) (b : Nat) (s : State) : State :=
  let s := s.memAdd (e + 0x2E0 + 4 * b) 4 1
  let bins := (List.range 16).map (fun i => s.memNum (e + 0x2E0 + 4 * i) 4)
  if bins.sum ≥ 65536 then each bins.zipIdx (fun x s => s.memPutNum (e + 0x2E0 + 4 * x.2) 4 (x.1 / 2)) s else s

/-- A divergence: both counts grow, and the first of a layer in a step raises TITHE_DIVERGE (R83, R86). -/
def titheDiverged (a : Attempt) (w : Watch) (x : TitheSample) (e : Word) (s : State) : State :=
  let s := (s.memAdd (w.entry x.layer + 0x2CC) 4 1).memAdd (w.shared x.layer + 0x2D4) 4 1
  let first := !a.divLayers.contains x.layer
  let s := s.updAttempt a.step (fun a => { a with diverged := a.diverged + 1,
                                                  divLayers := if first then a.divLayers ++ [x.layer] else a.divLayers })
  if first && s.rgBit .numEvtEn 3 then
    raiseEvent .titheDiverge x.layer
      (detail [(0, 2, x.layer), (4, 5, a.step), (9, 4, e.toNat), (13, 2, x.row), (15, 1, x.col)]) s
  else s

/-- The ranges that a sample's recomputation reads: the tithe area's rows and the master weights' rows (R81). -/
def titheReads (s : State) (w : Watch) (x : TitheSample) : List (Nat × Nat) :=
  let e := w.shared x.layer
  let k := s.memNum (e + 0x338) 4
  let rate := titheRate w.tithe
  let slot := (titheSlot (w.step.getD 0) x.layer x.mb rate x.row).getD 0
  let master := s.memNum (e + (if x.ver % 2 = 0 then 0x320 else 0x328)) 8
  (List.range 16).map (fun r => (titheAddr s w x.layer x.mb slot rate r 0, 4 * k)) ++
    (List.range k).map (fun i => (master + i * s.memNum (e + 0x33C) 4 + (64 * x.nblk + 8 * x.col) * 4, 32))

/-- Tests one sample of an attempt (R81 to R83). The 32-bit sample count saturates, and the divergence counts wrap (DESIGN
CHOICE, log entry 93). -/
def testSample (a : Attempt) (x : TitheSample) (s : State) : State :=
  let w := watchOf a
  let s := each (titheReads s w x) (fun r s => noteRead r.1 r.2 7 s.oldestStep s) s
  let s := s.updAttempt a.step (fun a => { a with samples := a.samples.drop 1 })
  let ps := tithePairs s w x
  if ps.any (fun p => !(val32 p.1).isFin || !(val32 p.2).isFin) then s
  else
    let e := titheError ps
    let t : FVal := .fin false 1 (titheExp s w a x)
    let sh := w.shared x.layer
    let s := if t.lt (val32 e) then titheDiverged a w x e s else s
    let s := (s.memPutNum (sh + 0x2D8) 4 (round32 t).toNat).memPutNum (sh + 0x2DC) 4 e.toNat
    addTithe sh (titheBin e) (s.memAddSat (sh + 0x2D0) 4 1)

/-! ## Silent layers (R70, R84, R85) -/

/-- Why a layer is silent in an attempt: 1 no non-zero output, 2 underflow (R84). -/
def silentReason (s : State) (w : Watch) (l : Nat) : Option Nat :=
  if s.stepCount w l 3 2 = 0 then some 1
  else if 100 * s.stepCount w l 3 4 > 99 * s.stepCount w l 3 1 then some 2
  else none

/-- Counts and tests one layer at a seal (R70, R84, R85). -/
def sealLayer (a : Attempt) (w : Watch) (l : Nat) (s : State) : State :=
  let e := w.shared l
  let s := s.memPutNum (e + 0x2C2) 1 (min 255 (s.memNum (e + 0x2C2) 1 + 1))
  match silentReason s w l with
  | none => s.memPutNum (e + 0x2C4) 4 0
  | some r =>
    let fresh := s.memNum (e + 0x2C4) 4 = 0
    let s := (s.memAddSat (e + 0x2C4) 4 1).memAddSat (e + 0x2C8) 4 1
    let run := s.memNum (e + 0x2C4) 4
    let s := if fresh then { s with steps := { s.steps with silent := s.steps.silent.filter (· ≠ l) } } else s
    if max 1 (bits (a.latch 7) 0 16) ≤ run && s.rgBit .numEvtEn 0 && !s.steps.silent.contains l then
      raiseEvent .layerSilent l (detail [(0, 2, l), (2, 1, 3), (4, 5, a.step), (9, 4, run), (13, 1, r)])
        { s with steps := { s.steps with silent := s.steps.silent ++ [l] } }
    else s

/-- The watch table at a seal. -/
def sealWatch (a : Attempt) (s : State) : State := each (watchOf a).layerList (sealLayer a (watchOf a)) s

end Sys2Proof.Machine
end

