-- ==== Sys2Proof/Machine/Rings.lean ====
section
/-! DEFINITION. How the ring engine consumes a descriptor: its fields, its layout, and the one operation through which every
descriptor is held, refused, failed or accepted (R282, R344, R345, R349 to R355, R360, R362, R363). -/

namespace Sys2Proof.Machine

set_option Elab.async false

/-! ## Fields (R350, R351) -/

/-- A field of a header in n bytes. -/
def descNum (d : HostDesc) (off n : Nat) : Nat := bits d.hdr.toNat (8 * off) (8 * n)

/-- The opcode of a descriptor. -/
def descOp (d : HostDesc) : Nat := descNum d 0 1
/-- The payload slots of a descriptor. -/
def descSlots (d : HostDesc) : Nat := descNum d 1 1
/-- The payload bytes of a descriptor. -/
def descData (d : HostDesc) : List Byte :=
  d.payload.take (64 * descSlots d) ++ List.replicate (64 * descSlots d - d.payload.length) 0

/-- The step tag of a descriptor, if it carries one (R282, R351). -/
def descStep (d : HostDesc) : Option Nat := if bit (descNum d 3 1) 0 then some (descNum d 8 2) else none

/-- The job tag of a descriptor. -/
def descJob (d : HostDesc) : Nat := descNum d 10 2

/-! ## Layout (R353, DEDUCED, log entry 34) -/

/-- Bits of a header that every layout names: opcode, n, the tag bit, host tag, step tag, job tag. -/
def commonBits : List (Nat × Nat) := [(0, 16), (24, 1), (32, 32), (64, 16), (80, 16)]

/-- The bits of a header that are named by (bit offset, width) fields. -/
def namedMask (fs : List (Nat × Nat)) : Nat := fs.foldl (fun m f => m ||| ((2 ^ f.2 - 1) <<< f.1)) 0

/-- Bit fields from (byte offset, first bit, width). -/
def fieldsAt (fs : List (Nat × Nat × Nat)) : List (Nat × Nat) := fs.map (fun f => (8 * f.1 + f.2.1, f.2.2))

/-- The fields of each opcode (R353); none for an opcode that is not listed. -/
def opFields : Nat → Option (List (Nat × Nat))
  | 0x01 => some (fieldsAt [(0x10, 0, 64), (0x18, 0, 32), (0x1C, 0, 32), (0x20, 0, 64)])
  | 0x02 => some (fieldsAt [(0x10, 0, 32), (0x14, 0, 32), (0x18, 0, 64), (0x20, 0, 32), (0x24, 0, 32), (0x28, 0, 24), (0x2B, 0, 3),
      (0x2C, 0, 32), (0x30, 0, 8)])
  | 0x03 => some (fieldsAt [(0x10, 0, 64), (0x18, 0, 32), (0x1C, 0, 32), (0x20, 0, 1)])
  | 0x04 => some (fieldsAt [(0x10, 0, 64), (0x18, 0, 32), (0x1C, 0, 1), (0x20, 0, 64)])
  | 0x05 => some (fieldsAt [(0x10, 0, 40)])
  | 0x06 => some (fieldsAt [(0x10, 0, 40)])
  | 0x07 => some (fieldsAt [(0x10, 0, 3), (0x12, 0, 16), (0x14, 0, 8), (0x15, 0, 8), (0x18, 0, 64), (0x20, 0, 64)])
  | 0x08 => some (fieldsAt [(0x10, 0, 64), (0x18, 0, 8), (0x19, 0, 1), (0x1A, 0, 16)])
  | 0x09 => some (fieldsAt [(0x10, 0, 16), (0x12, 0, 8)])
  | 0x0A => some (fieldsAt [(0x10, 0, 1), (0x14, 0, 32)])
  | 0x0B => some (fieldsAt [(0x10, 0, 32), (0x14, 0, 16), (0x16, 0, 16)])
  | 0x0C => some (fieldsAt [(0x10, 0, 16), (0x12, 0, 16)])
  | 0x0D => some (fieldsAt [(0x10, 0, 1)])
  | 0x0E => some (fieldsAt [(0x10, 0, 8), (0x11, 0, 1), (0x12, 0, 16)])
  | _ => none

/-- Whether a header keeps the layout of its opcode. -/
def layoutOk (d : HostDesc) : Bool :=
  match opFields (descOp d) with
  | some fs => d.hdr.toNat &&& namedMask (commonBits ++ fs) = d.hdr.toNat
  | none => false

/-! ## Margin (R357, R358, R368) -/

/-- The margin in µs and the hub reservation in per cent that admission uses (R357). -/
def State.admitNow (s : State) : Nat × Nat := (max 4 (s.rgBits .hstAdmitCfg 0 16), min 20 (s.rgBits .hstAdmitCfg 16 8))

/-- The values of a running job, or the register's live ones (R357). -/
def State.admitCfg (s : State) : Nat × Nat := if s.steps.job then s.host.admitCfg.getD s.admitNow else s.admitNow

/-- The margin M in cycles (R358). -/
def State.margin (s : State) : Nat := usCycles s.admitCfg.1

/-! ## Consumption (R344, R350, R352, R362, R363, R366) -/

/-- Whether the ring engine works. -/
def State.engineOn (s : State) : Bool := s.alive && s.host.running && s.hostUp

/-- Whether a ring can give the ring engine a descriptor of n payload slots. -/
def State.mayServe (s : State) (r n : Nat) : Bool :=
  let c := s.ring r
  s.engineOn && r < Config.numRings && c.enable && !c.completion && !c.stopped &&
  (s.ring c.companion).waiting.isEmpty && !s.fenced r && (s.disabling 0 r).isNone && n + 1 ≤ c.dist c.tail c.head

/-- Whether the ring engine has a turn to give a ring: something stands at its head that no hold and no missing slot keeps
there. -/
def State.ringReady (s : State) (r : Nat) : Bool := s.mayServe r 0 && (s.ring r).held.isNone && !(s.ring r).short

/-- How many rings the round-robin order of a class serves before a ring, after the one that it served last (R352). -/
def State.ringRank (s : State) (r : Nat) : Nat :=
  (r + Config.numRings - 1 - (if (s.ring r).deadline then s.host.lastUrgent else s.host.lastPlain)) % Config.numRings

/-- Whether a ring has the turn: DEADLINE-class rings go before ordinary ones, and those of a class in round-robin order (R352).
DESIGN CHOICE, log entry 84. -/
def State.ringTurn (s : State) (r : Nat) : Bool :=
  s.host.rings.all (fun e => e.1 == r || !s.ringReady e.1 || ((s.ring r).deadline && !e.2.deadline) ||
    ((s.ring r).deadline == e.2.deadline && s.ringRank r < s.ringRank e.1))

/-- Whether a ring may consume a descriptor of n payload slots now. -/
def State.mayTake (s : State) (r n : Nat) : Bool := s.mayServe r n && s.ringTurn r

/-- The turn passes on from a ring. -/
def noteTurn (r : Nat) (s : State) : State :=
  if (s.ring r).deadline then { s with host := { s.host with lastUrgent := r } } else { s with host := { s.host with lastPlain := r } }

/-- The turn comes to a ring whose next descriptor is not wholly there, and passes on (R350, R352). -/
def noteShort (r n : Nat) (s : State) : State :=
  if s.mayTake r 0 && !s.mayServe r n then noteTurn r (s.setRing r { s.ring r with short := true }) else s

/-- The list entry of the descriptor at a ring's head. -/
def State.entryOf (s : State) (d : HostDesc) : Inflight :=
  let c := s.ring d.ring
  { id := s.host.nextId, ring := d.ring, slot := c.head % 2 ^ c.k, opcode := descOp d, tag := BitVec.ofNat 32 (descNum d 4 4),
    step := none, promise := 0, start := s.cyc, excluded := 0, extension := 0, work := .fence [] }

/-- Moves a ring's head past n slots.
DEDUCED, log entry 76. -/
def takeSlots (r n : Nat) (s : State) : State :=
  let c := s.ring r
  let h := (c.head + n) % c.span
  let s := s.setRing r { c with head := h, held := none, short := false, splitSince := if h = c.tail then none else some s.cyc }
  { s with host := { s.host with nextId := s.host.nextId + 1 } }

/-- What the module answers to a descriptor at the head of its ring. -/
inductive Answer where
  | hold
  | refuse (reason : Nat)
  | fail (st : Status)
  | accept
  deriving DecidableEq, Repr

/-- Adds an accepted descriptor to those that have not completed. -/
def addInflight (i : Inflight) (s : State) : State := { s with host := { s.host with inflight := s.host.inflight ++ [i] } }

/-- Whether an earlier DATA_IN of a descriptor's ring has bytes that are not yet visible to every tile: an assembly buffer holds
some (R150, R352). A DATA_IN goes on behind it, since its bytes can be those that the buffer waits for.
DESIGN CHOICE, log entry 104. -/
def State.dataUnseen (s : State) (d : HostDesc) : Bool :=
  descOp d ≠ 0x03 && s.host.inflight.any (fun i => i.ring == d.ring && (match i.work with
    | .dataIn _ k => s.ackHeld k
    | _ => false))

/-- Consumes the descriptor at the head of a ring: one that breaks its layout is MALFORMED, and otherwise it is held, refused,
failed or accepted as judge says; act is what an accepted one does. -/
def consumeAs (d : HostDesc) (judge : State → Answer) (act : Inflight → State → State) (s : State) : State :=
  let i := s.entryOf d
  let took := takeSlots d.ring (descSlots d + 1) (noteTurn d.ring s)
  let kept := s.setRing d.ring { s.ring d.ring with held := some d }
  if !layoutOk d then finish i .malformed 0 [] [] took
  else
    match judge s with
    | .hold => kept
    | .refuse k => refuse i k took
    | .fail st => finish i st 0 [] [] took
    | .accept => if s.dataUnseen d then kept else settle (act i took)

/-- A descriptor command: it acts on the descriptor that its ring's head can give. A descriptor of an opcode that is not listed
completes with MALFORMED; one of another opcode is another command's. One whose slots the tail does not cover makes its ring
wait (R350). -/
def consume (op : Nat) (d : HostDesc) (judge : State → Answer) (act : Inflight → State → State) (s : State) : State :=
  if (s.ring d.ring).held.any (· ≠ d) then s
  else if !s.mayTake d.ring (descSlots d) then noteShort d.ring (descSlots d) s
  else if descOp d = op then consumeAs d judge act s
  else if (opFields (descOp d)).isNone then consumeAs d (fun _ => .fail .malformed) (fun _ s => s) s
  else s

/-- Whether a number of payload slots is what a descriptor must have. -/
def slotsAre (d : HostDesc) (n : Nat) : Bool := descSlots d == n

/-! ## Step tags (R282) -/

/-- The open attempt that a step tag names. -/
def State.tagAttempt (s : State) (tag : Nat) : Option Attempt :=
  s.steps.attempts.find? (fun a => a.step % 65536 == tag && !a.closed && (a.st == .openSt || a.st == .run))

/-- Whether a descriptor's step tag names an open attempt, or it carries none. -/
def State.tagOk (s : State) (d : HostDesc) : Bool := match descStep d with
  | some t => (s.tagAttempt t).isSome
  | none => true

/-- The step of a descriptor's tag. -/
def State.tagStep (s : State) (d : HostDesc) : Option Nat := (descStep d).bind (fun t => (s.tagAttempt t).map (·.step))

/-! ## Held descriptors (R159, R283, R295, R301) -/

/-- The held descriptors of an opcode.
DEDUCED, log entry 72. -/
def State.heldOf (s : State) (op : Nat) : List HostDesc :=
  s.host.rings.filterMap (fun e => e.2.held.filter (fun d => descOp d == op))

/-- A held DATA_IN or RUN_PASS of a rolled-back step completes with ABORTED, with no effect (R295). -/
def abortHeld (step : Nat) (s : State) : State :=
  each ((s.heldOf 0x02 ++ s.heldOf 0x03).filter (fun d => descStep d == some (step % 65536))) (fun d s =>
    finish (s.entryOf d) .aborted 0 [] [] (takeSlots d.ring (descSlots d + 1) s)) s

end Sys2Proof.Machine
end

