-- ==== Sys2Proof/Machine/Seal.lean ====
section
/-! DEFINITION. The step unit's shared operations: job start and end, the step record, entry to CHECK, the seal agreement,
sealing, refusing and rolling back (R281, R285 to R298). -/

namespace Sys2Proof.Machine

set_option Elab.async false

/-- Sets STP_STATUS.cfg_err (R316). -/
def stpErr (s : State) : State := s.flag .stpStatus 11

/-! ## The seal tree (R265, R290) -/

/-- The parent in the seal tree; 0 at the root. -/
def State.sealParent (s : State) : Nat := s.rgBits .stpSealTree 0 16

/-- The children in the seal tree.
DESIGN CHOICE, log entry 56. -/
def State.sealKids (s : State) : List Nat :=
  (List.range (min 16 (s.rgBits .stpSealKids 0 5))).map (fun c => s.rgBits .stpSealChild (c % 2 * 16) 16 (c / 2))

/-- Whether a route is valid (R265, R279). -/
def State.routed (s : State) (node : Nat) : Bool := isNode node && !(s.routeOf node).isEmpty

/-- The nodes whose routes a job needs (R265). -/
def State.jobNodes (s : State) : List Nat :=
  (if s.sealParent = 0 then [] else [s.sealParent]) ++ s.sealKids ++ (if s.mirrorOn then [s.partner] else [])

/-! ## Jobs (R281, R324, R357) -/

/-- Shard and mirror blocks that a job may have (R431). -/
def blockLimit : Nat := 2 ^ 22

/-- Whether a job may start (R265, R281, R338, R431). -/
def State.mayStart (s : State) : Bool :=
  !s.steps.job && s.hrv.restore.isNone && s.jobNodes.all s.routed && mapBlocks (s.mapSegs false) ≤ blockLimit && mapBlocks (s.mapSegs true) ≤ blockLimit

/-- The attempts that a received recovery stream counts (R323, R324). -/
def State.standinTries (s : State) : List (Nat × Nat × Nat) :=
  if s.hrv.recovery = .received then s.steps.facts.map (fun f => (f.1, f.2, 1)) else []

/-- Starts a job with a key (R281, R324, R357); the tiles that await the job boundary which it ends are retired before it
(R443). restored names the step that its first STEP_OPEN must name (R338). -/
def startJob (key : Quad) (restored : Option Nat) (s : State) : State :=
  let s := tileRetirementApplyOp (latchBoundary s)
  let s := { s with steps := { s.steps with
    job := true, key := key, firstStep := none, restored := restored, attempts := [], tried := s.standinTries, seqNo := 0,
    recorded := [], reports := [], digests := [], repairOut := [], repairIn := [], repairGot := [], copies := [], standin := decide (s.hrv.recovery = RecSt.received),
    log := if s.hrv.recovery = RecSt.received then s.steps.log else .init, mlog := .init } }
  let s := { s with host := { s.host with admitCfg := some s.admitNow } }
  (s.setRgBits .stpLastSealed 40 1 0).setRgBits .stpLastVerdict 49 1 0

/-- Ends a job. -/
def endJob (s : State) : State := { s with steps := { s.steps with job := false } }

/-! ## The step record (R297, R298) -/

/-- Writes a field of an attempt's record header. -/
def putRec (a : Attempt) (off n v : Nat) (s : State) : State := unitWrite (s.recAddr a + off) (leBytes n (v % 256 ^ n)) s

/-- The flags of a record header (R298). -/
def Attempt.flags (a : Attempt) (cause : Nat) (mirrored unprotected : Bool) : Nat :=
  (if a.first then 1 else 0) + (if a.replay && cause = 0 then 2 else 0) + (if a.replay && cause = 1 then 4 else 0) +
  (if a.overlap then 8 else 0) + (if mirrored then 16 else 0) + (if unprotected then 32 else 0) + (if a.poisoned then 64 else 0)

/-- The record header at STEP_OPEN (R298). cause is why the earlier attempt ended. -/
def recordHeader (s : State) (a : Attempt) (cause : Nat) : List Byte :=
  leBytes 5 a.step ++ leBytes 1 a.num ++ leBytes 1 0 ++ leBytes 1 (a.flags cause s.mirrorOn s.unprotected)
    ++ leBytes 8 s.steps.key.toNat ++ a.latched.flatMap (fun w => leBytes 4 w.toNat) ++ leBytes 4 a.policy ++ leBytes 4 a.seq
    ++ leBytes 8 s.steps.log.tail ++ leBytes 56 0 ++ leBytes 8 a.openAon ++ leBytes 128 0

/-- Writes the step record of an admitted attempt: header, no bindings, gauge snapshots (R297). -/
def writeStepRecord (a : Attempt) (cause : Nat) (s : State) : State :=
  let s := unitWrite (s.recAddr a) (recordHeader s a cause) s
  let w := watchOf a
  each w.layerList (fun l s => unitWrite (s.recAddr a + 0x9000 + l * 64) (snapshotLayer s w l) s) s

/-! ## CHECK (R285, R286, R289) -/

/-- Whether an attempt may enter CHECK. -/
def State.mayCheck (s : State) (a : Attempt) : Bool :=
  s.alive && (a.st = .openSt || a.st = .run) && a.closed && !s.passes.any (fun p => p.step == some a.step) &&
  !s.host.inflight.any (fun i => i.opcode == 0x03 && i.step == some a.step) &&
  !s.steps.attempts.any (fun b => b.step < a.step)

/-- Entry to CHECK: the gauge update and format choice, and the record's fields (R67, R68, R75, R285, R298). -/
def enterCheck (a : Attempt) (s : State) : State :=
  let s := s.updAttempt a.step (fun a => { a with st := .check })
  let s := gaugeUpdate a s
  let s := putRec a 0x06 1 2 s
  let s := putRec a 0x40 4 (s.steps.log.ents.countP (fun e => e.step = a.step && e.kind ≠ 0xFF)) s
  let s := putRec a 0x44 4 a.bindings.length s
  let s := putRec a 0x58 8 a.mac16 (putRec a 0x50 8 a.mac8 (putRec a 0x48 8 a.mac4 s))
  let s := putRec a 0x60 8 (s.ownSum a) s
  putRec a 0x80 8 s.aon s

/-! ## Sealing (R294) -/

/-- The version flip of an own seal (R160). -/
def flipAreas (s : State) : State :=
  let c := s.steps.curArea
  let n := 1 - c
  let s := (s.setArea n .current).setArea c (if s.fenceCount c = 0 then .next else .held)
  { s with steps := { s.steps with curArea := n } }

/-- The STEP_CLOSE of a step completes (R284, R294, R295). -/
def finishClose (step : Nat) (st : Status) (s : State) : State :=
  each (s.host.inflight.filter (fun i => i.work == .stepClose step)) (fun i s => completeWaited i.id st [] s) s

/-- Applies a seal verdict to an attempt, in the order of R294. -/
def applySeal (a : Attempt) (s : State) : State :=
  let n := a.step
  let twin := s.twin a && a.digestDone && a.mirrorOk
  let s := flipAreas s
  let s := { s with steps := { s.steps with version := (n + 1) % 2 ^ 40 } }
  let s := s.setRg .stpLastSealed (n + 2 ^ 40)
  let s := { s with steps := { s.steps with log := s.steps.log.release n, mlog := s.steps.mlog.release n } }
  let s := s.relaxLog
  let s := ((s.inc .stpSealedMac4 a.mac4).inc .stpSealedMac8 a.mac8).inc .stpSealedMac16 a.mac16
  let s := sealWatch a s
  let s := putRec a 0x06 1 3 s
  let back := a.remirror && s.mirrorOn
  let was := s.steps.lost
  let s := { s with steps := { s.steps with
    attempts := s.steps.attempts.filter (fun b => b.step != n), tried := s.steps.tried.filter (fun t => n < t.1),
    recorded := s.steps.recorded.filter (fun t => n < t.1),
    reports := s.steps.reports.filter (fun r => n < r.step), facts := s.steps.facts.filter (fun f => n < f.1),
    digests := s.steps.digests.filter (fun d => d.step != n % 256), lost := s.steps.lost && !back,
    remirror := s.steps.remirror && !back, remirrorCopied := s.steps.remirrorCopied && !back } }
  let s := { s with hrv := { s.hrv with mirrorVer := if twin then some (n + 1) else none } }
  let s := if back && was then unprotectedEvent s.steps.lostCause 1 s else s
  settle (finishClose n .ok s)

/-! ## Refusing and rolling back (R160, R295, R296) -/

/-- The module tallies of STP_TALLY_RANGE go to zero (R283, R295). -/
def zeroTallies (s : State) : State :=
  each (upFrom (s.rgBits .stpTallyRange 0 16) (s.rgBits .stpTallyRange 16 16)) (fun k s =>
    if k < 65536 then s.setMtally k { s.mtally k with count := 0, ref := 0, double := 0 } else s) s

/-- Records that an attempt of a step has ended: 0 by refusal, 1 by rollback. -/
def setTried (step num cause : Nat) (s : State) : State :=
  { s with steps := { s.steps with tried := s.steps.tried.filter (fun t => t.1 != step) ++ [(step, num, cause)] } }

/-- Rolls back one attempt with its cause bits, its STEP_CLOSE completing with a status (R295, R296). -/
def rollBack (causes : Nat) (st : Status) (restore : Bool) (a : Attempt) (s : State) : State :=
  let s := finishClose a.step st s
  let s := each (s.passes.filter (fun p => p.step == some a.step))
    (fun p s => abandonPass p.seq .aborted ((p.tiles.head?).getD 0) s) s
  let s := abortHeld a.step s
  let s := each (a.bindings.filter s.steps.binds.contains) (fun b s => unbind b.1 s) s
  let s := putRec a 0x70 1 causes (putRec a 0x06 1 4 s)
  let s := if restore then each (watchOf a).layerList (restoreLayer (watchOf a) (s.recAddr a)) s else s
  let s := setTried a.step a.num (if restore then 1 else 0) s
  { s with steps := { s.steps with
    attempts := s.steps.attempts.filter (fun b => b.step != a.step),
    digests := s.steps.digests.filter (fun d => d.step != a.step % 256),
    recorded := s.steps.recorded.filter (fun t => t.1 != a.step) ++ a.bindings.map (fun b => (a.step, b)) } }

/-- Raises SEAL_REFUSED of a rolled-back attempt (R295, R315). -/
def refusedEvent (causes sum : Nat) (a : Attempt) (s : State) : State :=
  raiseEvent .sealRefused 0 (detail [(0, 5, a.step), (5, 1, a.num), (6, 1, causes), (8, 8, sum)]) s

/-- Applies a refuse verdict to an attempt and to any later one (R295, R310). -/
def applyRefuse (a : Attempt) (causes sum : Nat) (s : State) : State :=
  let later := s.openAttempts.filter (fun b => a.step < b.step)
  let s := rollBack causes .sealRefused false a s
  let s := each later (rollBack (causes ||| 0x40) .sealRefused false) s
  let s := zeroTallies s
  let s := s.setRgBits .stpAttempts 32 32 (s.rgBits .stpAttempts 32 32 + 1)
  let s := refusedEvent causes sum a s
  let s := each later (refusedEvent (causes ||| 0x40) sum) s
  let own := (a.mismatch.filter (fun b => b % 2 = 0)).map (· / 2)
  let mir := (a.mismatch.filter (fun b => b % 2 = 1)).map (· / 2)
  settle (if a.mismatch = [] || s.unprotected then s else startRepair a.step own mir s)

/-- Rolls back every open attempt at the host's request (R296). -/
def hostRollback (s : State) : State :=
  let as := s.openAttempts
  if as = [] then s
  else
    let s := each as (rollBack 0x80 .aborted true) s
    settle (each as (refusedEvent 0x80 0) (zeroTallies s))

/-! ## The seal agreement (R291 to R293) -/

/-- A SEAL packet to a node: kind 0 report, 1 verdict (R291). -/
def sendSeal (node kind num step flags sum count causes : Nat) (s : State) : State :=
  sendMessage 0x11 node
    { addr := 0, spec := specBytes [(22, 1, kind), (23, 1, num), (24, 5, step), (29, 1, flags)],
      data := leBytes 8 sum ++ leBytes 4 count ++ leBytes 1 causes ++ leBytes 3 0 } s

/-- Applies a verdict to an attempt, and keeps it in STP_LAST_VERDICT (R292, R294, R295). -/
def settleVerdict (a : Attempt) (v : Verdict) (s : State) : State :=
  let s := s.setRg .stpLastVerdict (a.step + a.num * 2 ^ 40 + (if v.pass then 2 ^ 48 else 0) + 2 ^ 49)
  let s := putRec a 0x88 8 s.aon (putRec a 0x68 8 v.sum s)
  if v.pass then applySeal a s else applyRefuse a (v.causes ||| (if v.host then 0x20 else 0)) v.sum s

/-- Sends a verdict to each child and applies it, as soon as every tithe sample of the step has been tested (R83, R292 to R296). -/
def applyVerdict (a : Attempt) (v : Verdict) (s : State) : State :=
  let fl := (if v.pass then 1 else 0) + (if v.host then 2 else 0)
  let s := each s.sealKids (fun k s => sendSeal k 1 a.num a.step fl v.sum v.count v.causes s) s
  if a.samples = [] then settleVerdict a v s else s.updAttempt a.step (fun a => { a with verdict := some v })

/-- Applies the verdict that waited for an attempt's last sample (R83). -/
def releaseVerdict (step : Nat) (s : State) : State :=
  match s.attempt? step with
  | some a => (match a.verdict with
    | some v => if a.samples = [] then settleVerdict a v s else s
    | none => s)
  | none => s

/-- Whether condition 3 holds: the tithe divergences are within the limit (R83, R89, R288). -/
def Attempt.titheOk (a : Attempt) : Bool := let l := bits (a.latch 5) 16 16; l = 0xFFFF || a.diverged ≤ l

/-- Whether condition 5 holds (R288, R309, R311, R326). -/
def State.twinOk (s : State) (a : Attempt) : Bool := !s.twin a || (a.digestDone && a.mismatch = [] && !a.initial)

/-- A module's own part of the agreement (R289). -/
def State.ownReport (s : State) (a : Attempt) : Report :=
  let ready := a.titheOk && s.twinOk a && !a.poisoned && !a.groupFailed
  let causes := (if a.titheOk then 0 else 2) + (if a.poisoned then 4 else 0) + (if s.twinOk a then 0 else 8) +
    (if a.groupFailed then 16 else 0)
  { child := s.nodeId, step := a.step, num := a.num, ready := ready, sum := s.ownSum a, count := 1, causes := BitVec.ofNat 8 causes }

/-- The reports of the children for an attempt, if every one has come. -/
def State.kidReports (s : State) (a : Attempt) : Option (List Report) :=
  let got := s.sealKids.map (fun k => s.steps.reports.find? (fun r => r.child = k && r.step = a.step && r.num = a.num))
  if got.all Option.isSome then some (got.filterMap id) else none

/-- Combines reports (R292). -/
def Report.join (x y : Report) : Report :=
  { x with ready := x.ready && y.ready, sum := min (x.sum + y.sum) (2 ^ 64 - 1), count := x.count + y.count,
           causes := x.causes ||| y.causes }

/-- The root decides; any other module reports to its parent, once (R292). -/
def tryReport (a : Attempt) (s : State) : State :=
  match a.report, s.kidReports a with
  | some r, some ks =>
    if a.sent then s
    else
      let t := ks.foldl Report.join r
      let s := s.updAttempt a.step (fun a => { a with sent := true })
      let a := { a with sent := true }
      if s.sealParent ≠ 0 then
        sendSeal s.sealParent 0 a.num a.step (if t.ready then 1 else 0) t.sum t.count t.causes.toNat s
      else
        let over_ := t.sum > a.policy
        applyVerdict a { pass := t.ready && !over_, host := false, sum := t.sum, count := t.count,
                         causes := t.causes.toNat ||| (if over_ then 1 else 0) } s
  | _, _ => s

/-- Entries of the mirror send list (R305, R316). -/
def State.sendEntries (s : State) : Nat := min 64 (s.rgBits .stpMsendCnt 0 7)

/-- Whether a module may evaluate its own part of the seal conditions (R289). -/
def State.mayEvaluate (s : State) (a : Attempt) : Bool :=
  s.alive && a.st = .check && a.report.isNone && a.samples = [] && s.sendEntries ≤ a.mirrorPos && !a.initial &&
  (!s.twin a || a.digestDone)

/-- Evaluates an attempt, and goes on with the agreement (R289, R292). -/
def evaluate (a : Attempt) (s : State) : State :=
  let r := s.ownReport a
  let s := s.updAttempt a.step (fun a => { a with report := some r })
  tryReport { a with report := some r } s

/-- Keeps a child's report, and goes on with the agreement (R292). -/
def takeReport (r : Report) (s : State) : State :=
  let s := { s with steps := { s.steps with
    reports := s.steps.reports.filter (fun (x : Report) => !(x.child = r.child && x.step = r.step)) ++ [r] } }
  match s.attempt? r.step with
  | some a => if a.num = r.num then tryReport a s else s
  | none => s

/-- The attempt number that a step has now, or will have when it is next opened (R283). -/
def State.numberOf (s : State) (step : Nat) : Nat := match s.attempt? step with
  | some a => a.num
  | none => match s.tried step with
    | some t => (t.1 + 1) % 256
    | none => 0

end Sys2Proof.Machine
end

