-- ==== Sys2Proof/Machine/HostSteps.lean ====
section
/-! DEFINITION. The descriptors that belong to steps: STEP_OPEN, STEP_CLOSE and DATA_IN with its log replay (R157, R282 to
R287, R299 to R303). -/

namespace Sys2Proof.Machine

set_option Elab.async false

/-- Completes a consumed descriptor at once, under the fixed promise (R360). -/
def finishNow (i : Inflight) (st : Status) (s : State) : State := finish { i with promise := s.margin } st 0 [] [] s

/-! ## STEP_OPEN (R283) -/

/-- Whether the job runs in overlap mode (R159). -/
def State.overlapMode (s : State) : Bool := s.rgBit .stpFenceCtl 0

/-- Layer entries of the watch table as they stand (R89). -/
def State.watchLayers (s : State) : Nat := min (s.rgBits .numWatchCtl 0 17) 65536

/-- Whether every area that a STEP_OPEN needs lies in served memory, and the step records in class W. -/
def State.areasOk (s : State) : Bool :=
  let w := s.rg .numWatchBase
  let n := s.watchLayers * 0x400
  let r := s.rg .stpRecBase
  s.mpaOk w n && (!s.overlapMode || s.mpaOk (w + 0x4000000) n) && s.mpaOk r 0x1400000 && s.allW r 0x1400000 &&
  s.mpaOk (s.rg .stpLogBase) (s.rg .stpLogSize) && (!s.mirrorOn || s.mpaOk (s.rg .stpMlogBase) (s.rg .stpMlogSize))

/-- Whether a step number is expected. -/
def State.stepExpected (s : State) (n : Nat) : Bool :=
  match s.lastSealed with
  | some k =>
    n == k + 1 || (s.overlapMode && n == k + 2 && (match s.openAttempts with
      | [a] => a.closed
      | _ => false))
  | none => ((s.steps.firstStep.orElse (fun _ => s.steps.restored)).map (· == n)).getD true

/-- Free bytes of the glean log. -/
def State.logFree (s : State) : Nat := s.logSize - s.steps.log.used

/-- Whether a STEP_OPEN of a step is held at the head of its ring. -/
def State.openHeld (s : State) (n : Nat) : Bool :=
  (if s.overlapMode then 2 ≤ s.openAttempts.length || (s.attempt? n).isSome else s.openAttempts ≠ []) ||
  s.logFree < s.rgBits .stpLogCfg 0 16 * 0x100000 || s.steps.repairOut ≠ [] || s.steps.repairIn ≠ []

/-- The fabric entries that the STEP_OPEN of a replay writes to their targets (R303). -/
def State.openReplays (s : State) (n : Nat) : List LogEnt :=
  if (s.tried n).isSome then s.steps.log.ents.filter (fun e => e.step = n && e.kind = 1) else []

/-- Whether an entry that is to be replayed cannot yet be read, or not written (R184, R190, R330). -/
def State.replayHeld (s : State) (n : Nat) : Bool :=
  (s.openReplays n).any (fun e => s.engineHeld (s.rg .stpLogBase + e.off) (64 + e.len) || s.writeHeld e.target e.len)

/-- What the module answers to a STEP_OPEN: the first row of R283's table that holds. -/
def judgeOpen (d : HostDesc) (s : State) : Answer :=
  let n := descNum d 0x10 5
  if !slotsAre d 0 then .fail .malformed
  else if !s.steps.job || !s.rgBit .numWatchCtl 31 then .fail .notEnabled
  else if n = 2 ^ 40 - 1 then .fail .stepExhausted
  else if !s.stepExpected n then .fail .malformed
  else if !s.areasOk then .fail .malformed
  else if s.openHeld n || s.replayHeld n then .hold
  else .accept

/-- Writes the payloads of fabric entries to their targets, in order: false as soon as one fails its CRC-32 or reads as
detected (R303).
DEDUCED, log entry 71. -/
def replayFabric : List LogEnt → State → State × Bool
  | [], s => (s, true)
  | e :: es, s =>
    let s := noteRead (s.rg .stpLogBase + e.off) (64 + e.len) 5 e.step s
    match s.entryPayload e with
    | some b => replayFabric es (unitWrite e.target b s)
    | none => (s, false)

/-- The entries of the glean log that wait for a job's first step take its number, in the ring and in memory (R299, log
entry 29). -/
def nameEntries (n num : Nat) (s : State) : State :=
  let k := s.steps.log.nextIdx n
  let one (e : LogEnt) : LogEnt := if e.step = futureStep then { e with step := n, num := num, idx := e.idx + k } else e
  let old := s.steps.log.ents.filter (fun e => e.step = futureStep)
  let s := each old (fun e s =>
    let a := s.rg .stpLogBase + e.off
    unitWrite (a + 12) (leBytes 4 (e.idx + k)) (unitWrite (a + 3) (leBytes 1 num ++ leBytes 5 n) s)) s
  { s with steps := { s.steps with log := { s.steps.log with ents := s.steps.log.ents.map one } } }

/-- A job's first STEP_OPEN names its step, and sets the areas and the current version (R157, R163). -/
def bindFirst (n : Nat) (s : State) : State :=
  if s.steps.firstStep.isSome then s
  else
    let s := { s with steps := { s.steps with firstStep := some n, version := n, curArea := n % 2, binds := [] } }
    (s.setArea (n % 2) .current).setArea (1 - n % 2) .next

/-- The attempt that a STEP_OPEN of a step admits (R64, R283, R298). -/
def State.newAttempt (s : State) (n : Nat) : Attempt :=
  let l := s.latchWatch
  let layers := s.watchLayers
  let base := s.rg .numWatchBase
  let first := s.steps.firstStep.all (· == n)
  let fresh := s.steps.firstStep.isNone && !s.steps.standin
  let remirror := s.steps.remirror && s.mirrorOn
  let twin := s.mirrorOn && (!s.steps.lost || remirror)
  let copy := (fresh && twin) || (remirror && !s.steps.remirrorCopied) || (twin && s.copying)
  { step := n, num := s.numberOf n, seq := s.steps.seqNo, st := .openSt, closed := false, replay := (s.tried n).isSome,
    first := first, overlap := s.overlapMode, poisoned := false, latched := l, layers := layers, wbase := base,
    policy := s.rg .stpPolicy, mac4 := 0, mac8 := 0, mac16 := 0, bindings := [], samples := [], diverged := 0, divLayers := [],
    lossSeen := false, report := none, sent := false, groupFailed := false, mirrorPos := 0, mirrorBusy := false,
    initial := copy, remirror := remirror, digestSent := false, blocksSent := false, digestDone := false, mirrorOk := false,
    mismatch := [], used := [], gauges := [], seeding := seedingLayers s base layers (s.rgBits .numSeedCfg 0 8), openAon := s.aon }

/-- Clears the digest tables of an attempt's parity (R287, R308). -/
def clearDigests (a : Attempt) (s : State) : State :=
  if !s.mirrorOn then s
  else
    each [false, true] (fun m s =>
      unitWrite (s.digestBase a m) (List.replicate (8 * mapBlocks (s.mapSegs m)) 0) s) s

/-- Whether a group of a parity field returns to command 0 at a step (R240). -/
def parityMeets (p n : Nat) : Bool := p = 0 || (p = 1 && n % 2 = 0) || (p = 2 && n % 2 = 1)

/-- The enabled groups whose parity field meets the step return to command 0 (R240); a FAILED group stays FAILED (R244). -/
def resetGroups (n : Nat) (s : State) : State :=
  each (s.coll.groups.map (·.1)) (fun g s =>
    let y := s.group g
    if (y.st = .idle || y.st = .running) && parityMeets (s.collEntry g).parity n then
      s.setGroup g { Group.init with st := .idle, since := s.aon }
    else s) s

/-- Opens an attempt, which reads and holds its gauges (R65, R283, R303, R309, R326). cause is why the earlier attempt of the step ended. -/
def openAttempt (a : Attempt) (cause : Nat) (s : State) : State :=
  let copies := a.initial && !s.copying
  let s := nameEntries a.step a.num (bindFirst a.step s)
  let s := { s with steps := { s.steps with attempts := s.steps.attempts ++ [a], seqNo := s.steps.seqNo + 1 } }
  let s := s.setRgBits .stpAttempts 0 32 (s.rgBits .stpAttempts 0 32 + 1)
  let w := watchOf a
  let s := each w.layerList (openLayer w (a.latch 4) (a.replay && cause = 1)) s
  let s := s.updAttempt a.step (fun x => { x with gauges := readGauges s w })
  let s := resetGroups a.step (clearDigests a s)
  let s := if a.replay then zeroTallies s else s
  let s := writeStepRecord a cause s
  let s := if a.replay then
      raiseEvent .replayStart 0 (detail [(0, 5, a.step), (5, 1, a.num), (6, 1, cause),
        (8, 4, s.steps.log.ents.countP (fun e => e.step = a.step && e.kind ≠ 0xFF))]) s
    else s
  if copies then
    if mapBlocks (s.mapSegs false) = 0 then s.updAttempt a.step (fun a => { a with initial := false }) else sendInitial a.step s
  else s

/-- An accepted STEP_OPEN: a replay's fabric entries go to their targets first, and when one of them fails no attempt is
opened. -/
def actOpen (d : HostDesc) (i : Inflight) (s : State) : State :=
  let n := descNum d 0x10 5
  let a := s.newAttempt n
  let (s, ok) := replayFabric (s.openReplays n) s
  if ok then finishNow i .ok (openAttempt a (((s.tried n).map (·.2)).getD 0) s) else finishNow i .memDetected s

/-- STEP_OPEN: opens an attempt of a step. -/
def stepOpenOp (d : HostDesc) (s : State) : State := consume 0x05 d (judgeOpen d) (actOpen d) s

/-- STEP_OPEN (R283). -/
def execStepOpen (d : HostDesc) (s : State) : Host.Outcome State Fault Refusal := .next (stepOpenOp d s)

/-! ## STEP_CLOSE (R284) -/

/-- What the module answers to a STEP_CLOSE. -/
def judgeClose (d : HostDesc) (s : State) : Answer :=
  if slotsAre d 0 && (s.attempt? (descNum d 0x10 5)).any (fun a => !a.closed) then .accept else .fail .malformed

/-- An accepted STEP_CLOSE: it completes with the attempt's verdict, its promise counted from there. -/
def actClose (d : HostDesc) (i : Inflight) (s : State) : State :=
  let n := descNum d 0x10 5
  addInflight { i with promise := s.margin, work := .stepClose n } (s.updAttempt n (fun a => { a with closed := true }))

/-- STEP_CLOSE: closes the open attempt of a step. -/
def stepCloseOp (d : HostDesc) (s : State) : State := consume 0x06 d (judgeClose d) (actClose d) s

/-- STEP_CLOSE (R284). -/
def execStepClose (d : HostDesc) (s : State) : Host.Outcome State Fault Refusal := .next (stepCloseOp d s)

/-! ## DATA_IN (R282, R299 to R303) -/

/-- The log replay flag of a DATA_IN. -/
def isLogReplay (d : HostDesc) : Bool := bit (descNum d 0x20 1) 0

/-- Whether a DATA_IN is logged: it carries a step tag, or a job runs (R299, R353). -/
def State.logsData (s : State) (d : HostDesc) : Bool := (descStep d).isSome || s.steps.job

/-- The step and attempt number of a DATA_IN's entry: those of its tag, or those that R299 gives a fabric entry. -/
def State.dataStep (s : State) (d : HostDesc) : Nat × Nat :=
  match (descStep d).bind s.tagAttempt with
  | some a => (a.step, a.num)
  | none => s.logStep

/-- What the module answers to a DATA_IN that carries data. -/
def judgeData (d : HostDesc) (s : State) : Answer :=
  let len := descNum d 0x18 4
  let a := descNum d 0x10 8
  let k := (s.dataStep d).1
  if len = 0 || len > 4032 || !slotsAre d ((len + 63) / 64) || !s.mpaOk a len then .fail .malformed
  else if !s.tagOk d then .refuse 0
  else if s.logsData d && !s.steps.log.fits s.logSize (entrySize len) then
    if s.steps.log.ents.any (fun e => e.step < k) then .hold else .fail .limit
  else if s.logsData d && s.steps.log.nextIdx k ≥ 2 ^ 32 then .fail .limit
  else if s.writeHeld a len then .hold
  else .accept

/-- Completes a descriptor that has written memory with OK, once its bytes are visible: an assembly buffer may hold some (R150,
R302, R303). -/
def finishVisible (i : Inflight) (ack : Nat) (s : State) : State :=
  if s.ackHeld ack then addInflight { i with promise := s.margin, work := .dataIn [] ack } s else finishNow i .ok s

/-- An accepted DATA_IN: its bytes are written and logged, and while the module is protected it waits for the partner's
acknowledgement of the entry's copy. -/
def actData (d : HostDesc) (i : Inflight) (s : State) : State :=
  let len := descNum d 0x18 4
  let a := descNum d 0x10 8
  let b := (descData d).take len
  let (k, num) := s.dataStep d
  let (ack, s) := newAck s
  let s := unitWriteFor (some ack) a b s
  if !s.logsData d then finishVisible i ack s
  else
    let e := s.newEntry 0 k num a len
    let off := (s.steps.log.place s.logSize e.size).2
    let s := appendEntry e (e.bytes d.ring b) s
    if s.unprotected then finishVisible i ack s
    else
      let (s, x) := sendCopy off k ((e.bytes d.ring b).take (64 + len)) (.logCopy (some i.id) none) s
      addInflight { i with promise := s.margin, step := s.tagStep d, work := .dataIn [x] ack } s

/-- DATA_IN: writes its payload, and logs it. -/
def dataInOp (d : HostDesc) (s : State) : State := if isLogReplay d then s else consume 0x03 d (judgeData d) (actData d) s

/-- DATA_IN (R302). -/
def execDataIn (d : HostDesc) (s : State) : Host.Outcome State Fault Refusal := .next (dataInOp d s)

/-- The entry of a replayed step that a log replay names. -/
def State.replayEntry (s : State) (d : HostDesc) : Option LogEnt :=
  ((descStep d).bind s.tagAttempt).bind (fun a =>
    if a.replay then s.steps.log.ents.find? (fun e => e.step = a.step && e.idx = descNum d 0x1C 4 && e.kind ≠ 0xFF) else none)

/-- What the module answers to a log replay. -/
def judgeReplay (d : HostDesc) (s : State) : Answer :=
  if descNum d 0x18 4 ≠ 0 || !slotsAre d 0 then .fail .malformed
  else if !s.tagOk d then .refuse 0
  else
    match s.replayEntry d with
    | none => .fail .malformed
    | some e => if !s.mpaOk e.target e.len then .fail .malformed
      else if s.writeHeld e.target e.len || s.engineHeld (s.rg .stpLogBase + e.off) (64 + e.len) then .hold else .accept

/-- An accepted log replay: the entry's payload goes to the entry's target, unless it fails its CRC-32 or reads as
detected. -/
def actReplay (d : HostDesc) (i : Inflight) (s : State) : State :=
  match s.replayEntry d with
  | none => finishNow i .malformed s
  | some e =>
    let s := noteRead (s.rg .stpLogBase + e.off) (64 + e.len) 5 e.step s
    match s.entryPayload e with
    | some b => let (ack, s) := newAck s; finishVisible i ack (unitWriteFor (some ack) e.target b s)
    | none => finishNow i .memDetected s

/-- DATA_IN with the log flag: writes a logged payload to its target again. -/
def dataInLogReplayOp (d : HostDesc) (s : State) : State :=
  if isLogReplay d then consume 0x03 d (judgeReplay d) (actReplay d) s else s

/-- DATA_IN with the log flag (R303). -/
def execDataInLogReplay (d : HostDesc) (s : State) : Host.Outcome State Fault Refusal := .next (dataInLogReplayOp d s)

end Sys2Proof.Machine
end

