-- ==== Sys2Proof/Machine/Admit.lean ====
section
/-! DEFINITION. LOAD_FURROW and RUN_PASS: tile sets, the checks of an image, the version fence, the rate ledger, the refusal
reasons, the promise and the admission of a pass (R63, R113, R121, R134, R135, R140, R157 to R162, R208, R210, R354 to R359, R451). -/

namespace Sys2Proof.Machine

set_option Elab.async false

/-! ## Tile sets (R354) -/

/-- The tiles of a set from its 8 bytes and its bitmap; none for a set that is not valid. -/
def tileSet (v : Nat) (bitmap : List Byte) : Option (List Nat) :=
  let x0 := bits v 2 6
  let y0 := bits v 8 5
  let w := bits v 13 6 + 1
  let h := bits v 19 5 + 1
  let ts : Option (List Nat) :=
    if bits v 24 40 ≠ 0 then none
    else if v % 4 = 0 then
      if x0 + w ≤ 48 && y0 + h ≤ 32 then some ((upFrom y0 h).flatMap (fun y => (upFrom x0 w).map (fun x => y * 48 + x))) else none
    else if v % 4 = 1 then
      if bits v 2 22 = 0 then
        some (bitmap.zipIdx.flatMap (fun b => ((List.range 8).filter (fun i => b.1.getLsbD i)).map (fun i => 8 * b.2 + i)))
      else none
    else if v % 4 = 2 then some (List.range Config.numTiles)
    else none
  ts.filter (fun l => l != [])

/-- Payload slots of a tile bitmap. -/
def bitmapSlots (v : Nat) : Nat := if v % 4 = 1 then 3 else 0

/-- Whether two ranges of numbers share one. -/
def rangesShare (a n b m : Nat) : Bool := n ≠ 0 && m ≠ 0 && a < b + m && b < a + n

/-- The passes that are resident or suspended on a tile. -/
def State.passesOn (s : State) (t : Nat) : List Pass := (s.tile t).seqs.filterMap (fun x => s.pass? x.pass)

/-- Whether a tile can take no work: absent, disabled, or being disabled (R14, R366). -/
def State.tileOut (s : State) (t : Nat) : Bool := s.absent t || !s.tileOn t || (s.disabling 1 t).isSome

/-! ## LOAD_FURROW (R126, R353, R355) -/

/-- The tiles of a LOAD_FURROW. -/
def loadTiles (d : HostDesc) : Option (List Nat) := tileSet (descNum d 0x20 8) ((descData d).take 192)

/-- The image bytes that a LOAD_FURROW reads, and the module after the read (R187). -/
def State.loadBytes (s : State) (d : HostDesc) : ReadOut × State :=
  readBy 1 s.oldestStep (descNum d 0x10 8) (descNum d 0x18 4) s

/-- What the module answers to a LOAD_FURROW.
DEDUCED, log entry 73. -/
def judgeLoad (d : HostDesc) (s : State) : Answer :=
  let src := descNum d 0x10 8
  let len := descNum d 0x18 4
  let addr := descNum d 0x1C 4
  if !slotsAre d (bitmapSlots (descNum d 0x20 8)) || src % 64 ≠ 0 || addr % 64 ≠ 0 || len = 0 || len > 0x40000 ||
     addr + len > Config.binBytes || !s.mpaOk src len then .fail .malformed
  else
    match loadTiles d with
    | none => .fail .malformed
    | some ts =>
      let r := (s.loadBytes d).1
      if s.engineHeld src len then .hold
      else if r.bad = [] && (checkImage r.data addr).isNone then .fail .malformed
      else if ts.any s.tileOut then .refuse 2
      else if ts.any (fun t => (s.passesOn t).any (fun p => rangesShare addr len p.img.fpBase p.img.fpSize)) then .refuse 3
      else .accept

/-- An accepted LOAD_FURROW: the whole image goes to the bin of each tile, unless a line of it reads as detected (R172,
R187). -/
def actLoad (d : HostDesc) (i : Inflight) (s : State) : State :=
  let len := descNum d 0x18 4
  let i := { i with promise := s.margin + 2 * ((len + 63) / 64) }
  let (r, s) := s.loadBytes d
  if r.bad ≠ [] then finish i .memDetected 0 [] [] s
  else
    let ts := (loadTiles d).getD []
    let s := each (ts.map quadrantOf).dedup startPll s
    finish i .ok 0 [] []
      (each ts (fun t s => (endSlice t s).updTile t (fun tl => { tl with bin := putBytes tl.bin (descNum d 0x1C 4) r.data })) s)

/-- LOAD_FURROW: checks an image and writes it to bins. -/
def loadFurrowOp (d : HostDesc) (s : State) : State := consume 0x01 d (judgeLoad d) (actLoad d) s

/-- LOAD_FURROW (R126). -/
def execLoadFurrow (d : HostDesc) (s : State) : Host.Outcome State Fault Refusal := .next (loadFurrowOp d s)

/-! ## The version fence (R157 to R162) -/

/-- The version role of a RUN_PASS: 0 none, 1 open, 2 close, 3 update. -/
def passRole (d : HostDesc) : Nat := descNum d 0x2B 1 % 4

/-- Whether the fence holds a RUN_PASS (R159). -/
def State.fenceHolds (s : State) (d : HostDesc) : Bool :=
  let other := 1 - s.steps.curArea
  if passRole d = 3 then
    s.area other ≠ .next || (!s.overlapMode && s.fenceCount s.steps.curArea ≠ 0)
  else if passRole d = 1 then
    !s.overlapMode && (s.steps.attempts.any (·.updated) ||
      (s.heldOf 0x02).any (fun e => passRole e = 3 && (descStep e).isSome))
  else false

/-- The version to which an open pass binds a micro-batch: in a replay the one recorded for it, while its area still holds it
(R158, R162). -/
def State.bindVersion (s : State) (a : Option Attempt) (mb : Nat) : Nat :=
  let v := s.steps.version
  match a.bind (fun a => if a.replay then s.steps.recorded.find? (fun r => r.1 == a.step && r.2.1 == mb) else none) with
  | some r => if r.2.2 + 1 = v && s.area (r.2.2 % 2) = .held then r.2.2 else v
  | none => v

/-- Binds a micro-batch, in the step record too when the pass belongs to a step (R158). -/
def bindBatch (a : Option Attempt) (mb : Nat) (s : State) : State :=
  let v := s.bindVersion a mb
  let s := unbind mb s
  let s := { s with steps := { s.steps with binds := s.steps.binds ++ [(mb, v)] } }
  match a with
  | some a =>
    let s := putRec a (0x1000 + 8 * a.bindings.length) 8 (mb + v * 2 ^ 24) s
    s.updAttempt a.step (fun a => { a with bindings := a.bindings ++ [(mb, v)] })
  | none => s

/-! ## The pass that a RUN_PASS describes (R353, R355, R356) -/

/-- The demand entries of a payload: none when an entry is not valid, or two name one memory. -/
def demandOf (n : Nat) (b : List Byte) : Option (List Demand) :=
  let es := (List.range n).map (fun k => (b.drop (16 * k)).take 16)
  let ds : List Demand := es.map (fun e => { p := numIn e 0 1, rd := numIn e 8 4, wr := numIn e 12 4 })
  if es.all (fun e => numIn e 0 1 < 28 && numIn e 1 7 = 0) && (ds.map (·.p)).Nodup then some ds else none

/-- Payload slots that n entries of 16 bytes take. -/
def entrySlots (n : Nat) : Nat := (16 * n + 63) / 64

/-- The bytes of the image at a bin address of a tile: header, tables and instructions. -/
def State.furrowBytes (s : State) (t addr : Nat) : List Byte :=
  let bin := (s.tile t).bin
  let h := bytesAt bin addr 64
  bytesAt bin addr (codeOffset h + 8 * numIn h 4 2)

/-- The header checks of R355 on one tile. -/
def imageHeaderOk (b : List Byte) (addr : Nat) : Bool :=
  let m := parseImage b
  numIn b 0 1 = 1 && inside (addr, b.length) m.footprint && m.fpBase + m.fpSize ≤ Config.binBytes

/-- The instructions of an image that has been loaded. -/
def imageInstrs (b : List Byte) : List Instr :=
  (List.range (numIn b 4 2)).filterMap (fun k => decodeFurrow 0 (numIn b (codeOffset b + 8 * k) 8))

/-- The layers that an image names: its own, those of its gauges, and the consumers whose tithe its drains feed (R63, R125). -/
def namedLayers (m : Image) (is : List Instr) : List Nat :=
  m.layers ++ is.flatMap (fun i => match i with
    | .drn _ f => if f.tithe || f.wide then (m.gauges[f.gref]?).toList.map (·.titheL) else []
    | _ => [])

/-- The checks of an image at consumption: its layers, the rules that depend on formats, and the tiles that its XFERs reach
(R63, R121, R451). -/
def State.imageRunOk (s : State) (w : Watch) (m : Image) (is : List Instr) (ts : List Nat) : Bool :=
  (namedLayers m is).all (· < w.layers) && is.all (sweepOk m (fun b => some (bufFmt s w m b))) && xferTargetsOk is ts

/-- Whether a RUN_PASS names tiles of which none is present: no tile holds its image. -/
def State.noneHere (s : State) (d : HostDesc) : Bool :=
  let nd := descNum d 0x30 1
  match tileSet (descNum d 0x18 8) (((descData d).drop (64 * entrySlots nd)).take 192) with
  | some ts => ts ≠ [] && ts.all s.absent
  | none => false

/-- The pass that a RUN_PASS describes, its image read on the tiles that are present (R14); none when the descriptor or its image is malformed. -/
def State.passOf (s : State) (d : HostDesc) : Option Pass :=
  let nd := descNum d 0x30 1
  let v := descNum d 0x18 8
  let addr := descNum d 0x10 4
  let b := descData d
  let a := (descStep d).bind s.tagAttempt
  let w := (a.map watchOf).getD s.liveWatch
  if nd > 28 || !slotsAre d (entrySlots nd + bitmapSlots v) || addr % 64 ≠ 0 || addr + 64 > Config.binBytes then none
  else
    match tileSet v ((b.drop (64 * entrySlots nd)).take 192), demandOf nd b with
    | some ts, some dm =>
      let here := ts.filter (fun t => !s.absent t)
      let im := s.furrowBytes (here.headD 0) addr
      let m := parseImage im
      if here.all (fun t => imageHeaderOk (s.furrowBytes t addr) addr) && s.imageRunOk w m (imageInstrs im) ts then
        some { seq := s.nextPass, desc := s.host.nextId, passId := BitVec.ofNat 32 (descNum d 0x14 4), jobTag := descJob d,
               ring := d.ring, deadline := (s.ring d.ring).deadline, tiles := ts, addr := addr, img := m,
               budget := descNum d 0x20 4 * (if bit (descNum d 0x2B 1) 2 then 1024 else 1), mb := descNum d 0x28 3,
               role := passRole d, origin := BitVec.ofNat 32 (descNum d 0x2C 4), demand := dm, step := a.map (·.step),
               stepNum := (a.map (·.step)).getD s.steps.version, done := [], losses := 0, lossLayer := 0, ending := none,
               dropped := [], moved := [] }
      else none
    | _, _ => none

/-! ## The ledger (R357) -/

/-- Bandwidth of a memory in B/s. -/
def State.bandwidth (s : State) (p : Nat) : ℚ :=
  if p ≥ 12 then 68300000000 else if (s.dev p).retired.isSome then 1228800000000 * 31 / 32 else 1228800000000

/-- The share of a memory that promises may use. -/
def State.share (s : State) (p : Nat) : ℚ := if p < 12 && (s.dev p).resow = .running then 84 / 100 else 92 / 100

/-- Whether a stack is hot (R199). -/
def State.hot (s : State) (p : Nat) : Bool := (s.dev p).level = .hot

/-- Halves a limit while a memory is hot. -/
def State.hotHalf (s : State) (p : Nat) (x : ℚ) : ℚ := if s.hot p then x / 2 else x

/-- The rate of a number of bytes in a number of cycles. -/
def byteRate (n cycles : Nat) : ℚ := (n * 1750000000 : Nat) / cycles

/-- The rate that a pass holds on a memory, of the bytes that f selects. -/
def Pass.rate (p : Pass) (f : Demand → Nat) (m : Nat) : ℚ :=
  byteRate (((p.demand.filter (fun e => e.p == m)).map (fun e => f e * 256)).sum) p.budget

/-- The rate, in B/s, that rate entries in MB/s declare on a memory. -/
def declaredRate (es : List Demand) (f : Demand → Nat) (m : Nat) : ℚ :=
  ((((es.filter (fun e => e.p == m)).map f).sum * 1000000 : Nat) : ℚ)

/-- The rate that the running harvest and a recovery stream hold on a memory. -/
def State.harvestRate (s : State) (f : Demand → Nat) (m : Nat) : ℚ :=
  declaredRate (((s.hrv.op.map (·.rates)).getD []) ++ s.hrv.recRates) f m

/-- Bytes read and written. -/
def Demand.total (e : Demand) : Nat := e.rd + e.wr

/-- The admitted rate on a memory. -/
def State.ledger (s : State) (f : Demand → Nat) (m : Nat) : ℚ :=
  ((s.passes.filter (fun p => p.ending.isNone)).map (fun p => p.rate f m)).sum + s.harvestRate f m

/-- A fraction from a percentage. -/
def percent (n : Nat) : ℚ := (n : ℚ) / 100

/-- The admission limit on a memory that is not in fixed-split mode. -/
def State.rateLimit (s : State) (m : Nat) : ℚ :=
  s.hotHalf m ((s.share m - percent (s.allowance m) - percent s.admitCfg.2) * s.bandwidth m)

/-- The limits of a memory in fixed-split mode, of its reads and of its writes (R357). -/
def State.splitLimits (s : State) (m : Nat) : ℚ × ℚ :=
  (s.hotHalf m ((552 / 1000 - percent s.admitCfg.2) * s.bandwidth m), s.hotHalf m (230 / 1000 * s.bandwidth m))

/-- Whether new rates fit on a memory. -/
def State.ratesFit (s : State) (m : Nat) (rd wr : ℚ) : Bool :=
  if s.fixedSplit m then
    decide (s.ledger Demand.rd m + rd ≤ (s.splitLimits m).1) && decide (s.ledger Demand.wr m + wr ≤ (s.splitLimits m).2)
  else decide (s.ledger Demand.total m + (rd + wr) ≤ s.rateLimit m)

/-- The current admission limit of a memory, reads and writes together (R357, R368).
DESIGN CHOICE, log entry 105. -/
def State.currentLimit (s : State) (m : Nat) : ℚ :=
  if s.fixedSplit m then (s.splitLimits m).1 + (s.splitLimits m).2 else s.rateLimit m

/-- Whether the demand of a pass keeps within the caps; demand without a budget has no finite rate. -/
def State.demandFits (s : State) (p : Pass) : Bool :=
  p.demand.all (fun e => (p.budget ≠ 0 || e.total = 0) && s.ratesFit e.p (p.rate Demand.rd e.p) (p.rate Demand.wr e.p))

/-! ## The promise (R358, R359) -/

/-- Whether a pass goes before another under R137 and R140. -/
def Pass.ahead (x y : Pass) : Bool := x.deadline && !y.deadline

/-- Slots of a tile that deadline passes hold or wait for; the others an ordinary pass may give up (R140, R359). -/
def State.takenSlots (s : State) (t : Nat) (deadline : Bool) : Nat :=
  ((s.tile t).seqs.filter (fun x => !x.suspended && (!deadline || (s.pass? x.pass).any (·.deadline)))).length

/-- Whether a pass needs the slot of an ordinary pass on a tile. -/
def State.preempts (s : State) (p : Pass) (t : Nat) : Bool := p.deadline && 4 ≤ s.takenSlots t false

/-- The bound of R141 in cycles. -/
def yieldBound : Nat := 16448

/-- The term C. -/
def State.termC (s : State) (p : Pass) : Nat :=
  (p.tiles.map (fun t =>
    p.budget + (((s.passesOn t).filter (fun x => !p.ahead x)).map (fun x => x.budget + 16)).sum +
      (if s.preempts p t then yieldBound else 0))).foldl max 0

/-- The wake term of one tile. -/
def State.wakeTerm (s : State) (t : Nat) : Nat :=
  if s.cyc < (s.tile t).testUntil then 105
  else if (s.tile t).clocked then 0
  else if s.pllOf (quadrantOf t) = .running then 102
  else 45388

/-- The term W. -/
def State.termW (s : State) (p : Pass) : Nat :=
  (p.tiles.map s.wakeTerm).foldl max 0 + (if p.demand.any (fun e => (s.dev e.p).st = .selfRefresh) then 7000 else 0)

/-- The gatherers that a pass names. -/
def Pass.gatherers (p : Pass) : List Nat := (p.img.streams.map (·.gatherer)).dedup

/-- The queueing term on one memory. -/
def State.queueTerm (s : State) (p : Pass) (m : Nat) : Nat :=
  let others := s.passes.filter (fun x => x.demand.any (fun e => e.p == m))
  let g := (p.gatherers ++ others.flatMap Pass.gatherers).dedup.length
  let a := 2048 * 256 * g + 0x100000 + (if s.allowance m = 0 then 0 else 0x40000)
  (((a * 1750000000 : Nat) : ℚ) / (s.hotHalf m (s.share m) * s.bandwidth m)).ceil.toNat

/-- The term Q. -/
def State.termQ (s : State) (p : Pass) : Nat := (p.demand.map (fun e => s.queueTerm p e.p)).foldl max 0

/-- The promise of a RUN_PASS. -/
def State.promiseOf (s : State) (p : Pass) : Nat := s.termC p + s.termW p + s.termQ p + s.margin

/-- What a pass still has to run on a tile: the rest of its budget, and that of each pass that goes before it (DEDUCED, log entry 36). -/
def State.remaining (s : State) (p : Pass) (t : Nat) : Nat :=
  let left (x : Pass) : Nat := x.budget - ((s.seq? t x.seq).map (·.budget)).getD 0
  left p + (((s.passesOn t).filter (fun x => x.seq ≠ p.seq && Pass.precedes x p)).map (fun x => left x + 16)).sum

/-- Whether an ordinary pass keeps its promise with a new deadline pass before it (R359, DEDUCED, log entry 36). -/
def State.keepsPromise (s : State) (p x : Pass) : Bool :=
  match s.inflight? x.desc with
  | some i =>
    (x.tiles.filter p.tiles.contains).all (fun t =>
      s.cyc - i.start - i.excluded + s.remaining x t + p.budget + yieldBound ≤ i.promise + i.extension)
  | none => true

/-! ## Refusal (R355) -/

/-- Whether every port that a remote stream's route names is disabled or being disabled (R355, R366). -/
def State.routeOut (s : State) (node : Nat) : Bool :=
  let ps := s.routeOf node
  ps ≠ [] && ps.all (fun k => (s.port k).st = .disabled || (s.disabling 2 k).isSome)

/-- Whether a memory is disabled, or being disabled. -/
def State.memOut (s : State) (p : Nat) : Bool := !(s.dev p).enabled || (s.disabling 3 p).isSome

/-- Whether a gatherer takes no new stream. -/
def State.gathOut (s : State) (g : Nat) : Bool := !s.gath.enable.getLsbD g || (s.disabling 4 g).isSome

/-- The reason for which a RUN_PASS is refused, the lowest that holds. -/
def State.refusal (s : State) (p : Pass) : Option Nat :=
  let others := p.tiles.flatMap s.passesOn
  if p.tiles.any (fun t => 4 ≤ s.takenSlots t p.deadline) then some 1
  else if p.tiles.any s.tileOut then some 2
  else if others.any (fun x => rangesShare p.img.fpBase p.img.fpSize x.img.fpBase x.img.fpSize) then some 3
  else if others.any (fun x => rangesShare p.img.tBase p.img.tCount x.img.tBase x.img.tCount) then some 4
  else if s.passes.any (fun x => x.ending.isNone && x.img.wires &&& p.img.wires ≠ 0) then some 5
  else if !s.demandFits p then some 6
  else if p.deadline && (others.filter (fun x => !x.deadline)).any (fun x => !s.keepsPromise p x) then some 7
  else if p.gatherers.any (fun g => s.gathOut g || p.reserve g + s.reserved g > Config.numTags) then some 8
  else if p.deadline && p.img.streams.any (fun x => x.floor = 0) then some 9
  else if p.role = 1 && 4096 ≤ s.steps.binds.length && !s.steps.binds.any (fun b => b.1 == p.mb) then some 10
  else if p.demand.any (fun e => s.memOut e.p) || p.img.streams.any (fun x => x.node ≠ 0 && s.routeOut x.node) then some 11
  else none

/-- What the module answers to a RUN_PASS. -/
def judgePass (d : HostDesc) (s : State) : Answer :=
  if s.fenceHolds d then .hold
  else
    match s.passOf d with
    | none => if s.noneHere d then .refuse 2 else .fail .malformed
    | some p =>
      if descNum d 0x24 4 > 2 ^ 20 then .fail .limit
      else if !s.tagOk d then .refuse 0
      else
        match s.refusal p with
        | some k => .refuse k
        | none => .accept

/-! ## Admission (R134, R135, R140, R158, R285, R376) -/

/-- A pass on a tile before its first instruction. -/
def SeqState.fresh (q slot : Nat) : SeqState :=
  { pass := q, slot := slot, pc := 0, loops := [], swapped := [], budget := 0, sinceYield := 0, moves := 0, preempt := false,
    suspended := false, pended := false, parts := [], hold := none, queue := [] }

/-- The ordinary pass of a tile whose slot a deadline pass takes: the one admitted last (DEDUCED, log entry 36). -/
def State.victimOn (s : State) (t : Nat) : Option Nat :=
  ((s.tile t).seqs.filter (fun x => !x.suspended && !x.preempt && !x.pended && (s.pass? x.pass).any (fun p => !p.deadline))).foldl
    (fun m x => some (max (m.getD 0) x.pass)) none

/-- A pass takes a slot of a tile, or waits for the slot of a pass whose pre-emption it requests; the local tallies in its
range go to zero. -/
def takeSlot (p : Pass) (t : Nat) (s : State) : State :=
  let v := s.victimOn t
  let slot := (s.tile t).freeSlot
  let mark (x : SeqState) : SeqState := if slot = 4 && some x.pass = v then { x with preempt := true } else x
  let cleared (m : SMap Tally) : SMap Tally := m.filter (fun e => e.1 < p.img.tBase || p.img.tBase + p.img.tCount ≤ e.1)
  let mine (k : Nat) : Bool := p.img.tBase ≤ k && k < p.img.tBase + p.img.tCount
  let s := { s with sync := { s.sync with takes := s.sync.takes.filter (fun x => !(x.1 = some t && mine x.2.1)) } }
  s.updTile t (fun tl => { tl with seqs := tl.seqs.map mark ++ [SeqState.fresh p.seq slot], tallies := cleared tl.tallies })

/-- The stacks that are hot now, each with its episode (R200). -/
def State.hotNow (s : State) : List (Nat × Nat) :=
  ((List.range Config.numStacks).filter (fun k => (s.dev k).level = .hot)).map (fun k => (k, (s.dev k).episode))

/-- Admits a pass. -/
def admitPass (p : Pass) (i : Inflight) (s : State) : State :=
  let s := latchBoundary s
  let p := { p with hotAdm := s.hotNow }
  let i := { i with promise := s.promiseOf p, step := p.step, work := .pass p.seq }
  let s := { s with nextPass := s.nextPass + 1 }
  let s := each p.tiles (takeSlot p) s
  let s := bindWires p.seq p.img.wires p.tiles { s with passes := s.passes ++ [p] }
  let s := addInflight i (s.inc .hstAdmitted 1)
  let a := p.step.bind s.attempt?
  let s := if p.role = 1 then bindBatch a p.mb s else s
  let s := match a with
    | some a => if p.role = 3 then s.updAttempt a.step (fun x => { x with updated := true }) else s
    | none => s
  let s := match a with
    | some a => if a.st = .openSt then
        putRec a 0x06 1 1 (s.updAttempt a.step (fun a => { a with st := .run })) else s
    | none => s
  let s := each (workQuads p.tiles p.gatherers) startPll s
  each p.tiles (fun t s => dispatchNext t (wakeTile t s)) s

/-- An accepted RUN_PASS. -/
def actPass (d : HostDesc) (i : Inflight) (s : State) : State :=
  match s.passOf d with
  | some p => admitPass { p with desc := i.id } i s
  | none => finish i .malformed 0 [] [] s

/-- RUN_PASS: holds, refuses or admits a pass. -/
def runPassOp (d : HostDesc) (s : State) : State := consume 0x02 d (judgePass d) (actPass d) s

/-- RUN_PASS (R357). -/
def execRunPass (d : HostDesc) (s : State) : Host.Outcome State Fault Refusal := .next (runPassOp d s)

end Sys2Proof.Machine
end

