-- ==== Sys2Proof/Machine/HostRows.lean ====
section
/-! DEFINITION. The descriptors DATA_OUT, CANCEL, SYNC_DUMP, TALLY_SIGNAL and FENCE, and what happens to rings: their enabling,
doorbells, timeouts and read errors (R235, R245, R344, R346 to R350, R353, R360, R362 to R364, R368, R447). -/

namespace Sys2Proof.Machine

set_option Elab.async false

/-! ## DATA_OUT (R353, R362) -/

/-- Whether a DATA_OUT writes to host memory. -/
def outToHost (d : HostDesc) : Bool := bit (descNum d 0x1C 1) 0

/-- Whether the lengths and addresses of a DATA_OUT are those of its mode. -/
def outShapeOk (d : HostDesc) : Bool :=
  let len := descNum d 0x18 4
  len ≠ 0 && (if outToHost d then len % 64 = 0 && descNum d 0x20 8 % 64 = 0 else len ≤ 4032)

/-- What the module answers to a DATA_OUT. -/
def judgeOut (d : HostDesc) (s : State) : Answer :=
  let src := descNum d 0x10 8
  let len := descNum d 0x18 4
  if !slotsAre d 0 || !outShapeOk d || !s.mpaOk src len then .fail .malformed
  else if !s.tagOk d then .refuse 0
  else if s.engineHeld src len then .hold
  else .accept

/-- The promise of a DATA_OUT: M, and for host memory its bytes at 50 GB/s (R360). -/
def State.outPromise (s : State) (d : HostDesc) : Nat :=
  s.margin + (if outToHost d then (descNum d 0x18 4 * 7 + 199) / 200 else 0)

/-- An accepted DATA_OUT: every byte is returned as read, with the offset of the first detected line. -/
def actOut (d : HostDesc) (i : Inflight) (s : State) : State :=
  let src := descNum d 0x10 8
  let len := descNum d 0x18 4
  let i := { i with promise := s.outPromise d }
  let (r, s) := readBy 1 ((s.tagStep d).getD s.oldestStep) src len s
  let s := if outToHost d then s.emit (.hostWrite true (descNum d 0x20 8) r.data) else s
  finish i (if r.bad = [] then .ok else .memDetected) 0 (leBytes 24 (r.bad.headD src - src)) (if outToHost d then [] else r.data) s

/-- DATA_OUT: reads a range of memory into the completion or to host memory. -/
def dataOutOp (d : HostDesc) (s : State) : State := consume 0x04 d (judgeOut d) (actOut d) s

/-- DATA_OUT (R353). -/
def execDataOut (d : HostDesc) (s : State) : Host.Outcome State Fault Refusal := .next (dataOutOp d s)

/-! ## CANCEL (R364) -/

/-- Whether a CANCEL names a pass: by pass id, or by job tag. -/
def cancelNames (d : HostDesc) (p : Pass) : Bool :=
  if bit (descNum d 0x10 1) 0 then p.jobTag == descNum d 0x14 2 else p.passId.toNat == descNum d 0x14 4

/-- The passes that a CANCEL ends. -/
def State.cancels (s : State) (d : HostDesc) : List Pass :=
  s.passes.filter (fun p => cancelNames d p && p.ending.isNone && !s.allPended p)

/-- An accepted CANCEL: every pass that it names is abandoned, and it waits for their completions. -/
def actCancel (d : HostDesc) (i : Inflight) (s : State) : State :=
  let ps := s.cancels d
  let s := addInflight { i with promise := s.margin, work := .cancel (ps.map (·.desc)) ps.length } s
  each ps (fun p s => abandonPass p.seq .cancelled (p.tiles.headD 0) s) s

/-- What the module answers to a descriptor without payload and without conditions. -/
def judgeBare (d : HostDesc) (_ : State) : Answer := if slotsAre d 0 then .accept else .fail .malformed

/-- CANCEL: abandons every pass that it names. -/
def cancelOp (d : HostDesc) (s : State) : State := consume 0x0A d (judgeBare d) (actCancel d) s

/-- CANCEL (R364). -/
def execCancel (d : HostDesc) (s : State) : Host.Outcome State Fault Refusal := .next (cancelOp d s)

/-! ## SYNC_DUMP (R245) -/

/-- An accepted SYNC_DUMP: its payload is a snapshot from its cursor; a tally count of 0 names no module tally. -/
def actDump (d : HostDesc) (i : Inflight) (s : State) : State :=
  let lo := descNum d 0x14 2
  let n := descNum d 0x16 2
  let r : Nat × Nat := if n = 0 then (1, 0) else (lo, lo + n - 1)
  finish { i with promise := s.margin } .ok 0 [] (dumpPayload s (descNum d 0x10 4) r.1 r.2) s

/-- SYNC_DUMP: returns a snapshot of wires, waits, collectives and tallies. -/
def syncDumpOp (d : HostDesc) (s : State) : State := consume 0x0B d (judgeBare d) (actDump d) s

/-- SYNC_DUMP (R245). -/
def execSyncDump (d : HostDesc) (s : State) : Host.Outcome State Fault Refusal := .next (syncDumpOp d s)

/-! ## TALLY_SIGNAL (R235) -/

/-- What the module answers to a TALLY_SIGNAL. -/
def judgeSignal (d : HostDesc) (_ : State) : Answer :=
  if slotsAre d 0 && descNum d 0x12 2 ≠ 0 then .accept else .fail .malformed

/-- An accepted TALLY_SIGNAL: its signal waits for the earlier descriptors of its ring that write memory.
DEDUCED, log entry 60. -/
def actSignal (d : HostDesc) (i : Inflight) (s : State) : State :=
  addSignal { source := .host, pass := none, dest := none, node := 0, tally := descNum d 0x10 2, inc := descNum d 0x12 2,
              fence := [d.ring], lines := [], desc := some i.id, bare := false }
    (addInflight { i with promise := s.margin, work := .signal } s)

/-- TALLY_SIGNAL: signals a module tally. -/
def tallySignalOp (d : HostDesc) (s : State) : State := consume 0x0C d (judgeSignal d) (actSignal d) s

/-- TALLY_SIGNAL (R235). -/
def execTallySignal (d : HostDesc) (s : State) : Host.Outcome State Fault Refusal := .next (tallySignalOp d s)

/-! ## FENCE (R363) -/

/-- The descriptors that a FENCE waits for. -/
def State.fenceWaits (s : State) (d : HostDesc) : List Nat :=
  (s.host.inflight.filter (fun i => bit (descNum d 0x10 1) 0 || i.ring == d.ring)).map (·.id)

/-- An accepted FENCE holds its ring until every descriptor that it waits for has completed. -/
def actFence (d : HostDesc) (i : Inflight) (s : State) : State :=
  addInflight { i with promise := s.margin, work := .fence (s.fenceWaits d) } s

/-- FENCE: holds its ring until earlier descriptors have completed. -/
def fenceOp (d : HostDesc) (s : State) : State := consume 0x0D d (judgeBare d) (actFence d) s

/-- FENCE (R363). -/
def execFence (d : HostDesc) (s : State) : Host.Outcome State Fault Refusal := .next (fenceOp d s)

/-! ## Doorbells (R348, R349) -/

/-- A doorbell that is ignored is counted. -/
def doorbellIgnored (s : State) : State := s.incSat .hstDoorbellStale 1

/-- A stale doorbell: ignored, flagged and counted. -/
def doorbellStale (r : Nat) (s : State) : State :=
  doorbellIgnored ((s.setRing r { s.ring r with staleDb := true }).flag .hstStatus 2)

/-- The position that a doorbell value gives on a ring. -/
def RingCtx.position (c : RingCtx) (v : Nat) : Nat := (bits v 20 1 * 2 ^ c.k + bits v 0 20) % c.span

/-- Whether a doorbell value is stale on a ring. -/
def RingCtx.stale (c : RingCtx) (v : Nat) : Bool :=
  let p := c.position v
  2 ^ c.k ≤ bits v 0 20 ||
  (if c.completion then c.dist c.tail c.head < c.dist p c.head else 2 ^ c.k < c.dist p c.tail + c.dist c.tail c.head)

/-- Whether a doorbell write is well formed: 8 bytes, with the reserved bits zero. -/
def doorbellOk (value : Quad) (size : Nat) : Bool := size = 8 && value.toNat < 2 ^ 21

/-- A doorbell write to a ring of a type: act is what a position that is not stale does.
DEDUCED, log entry 61. -/
def doorbell (completion : Bool) (r : Nat) (value : Quad) (size : Nat) (act : Nat → State → State) (s : State) : State :=
  let c := s.ring r
  if !s.stw.good || Config.numRings ≤ r then s
  else if !doorbellOk value size then doorbellIgnored s
  else if !c.enable || c.completion ≠ completion then s
  else if c.stale value.toNat then doorbellStale r s
  else act (c.position value.toNat) s

/-- SUBMISSION_DOORBELL: gives a submission ring its new tail. -/
def submissionDoorbellOp (r : Nat) (value : Quad) (size : Nat) (s : State) : State :=
  doorbell false r value size (fun p s =>
    let c := s.ring r
    s.setRing r { c with tail := p, short := false, splitSince := if p = c.head then none else some (c.splitSince.getD s.cyc) }) s

/-- SUBMISSION_DOORBELL (R349). -/
def execSubmissionDoorbell (r : Nat) (value : Quad) (size : Nat) (s : State) : Host.Outcome State Fault Refusal :=
  .next (submissionDoorbellOp r value size s)

/-- COMPLETION_DOORBELL: gives a completion ring its new head; completions that waited for space are written. -/
def completionDoorbellOp (r : Nat) (value : Quad) (size : Nat) (s : State) : State :=
  doorbell true r value size (fun p s =>
    let c := s.ring r
    drainCq (c.waiting.length + 1) r (s.setRing r { c with head := p })) s

/-- COMPLETION_DOORBELL (R349). -/
def execCompletionDoorbell (r : Nat) (value : Quad) (size : Nat) (s : State) : Host.Outcome State Fault Refusal :=
  .next (completionDoorbellOp r value size s)

/-! ## Timeouts and read errors (R344, R346, R350) -/

/-- Whether the descriptor at a ring's head has waited for the rest of its slots as long as split_to allows. -/
def State.splitDue (s : State) (d : HostDesc) : Bool :=
  let c := s.ring d.ring
  s.mayServe d.ring 0 && c.held.isNone && c.splitTo ≠ 0 && c.dist c.tail c.head < descSlots d + 1 &&
  c.splitSince.any (fun t => t + msCycles c.splitTo ≤ s.cyc)

/-- SPLIT_DESCRIPTOR_TIMEOUT: a descriptor that is only partly there completes with MALFORMED, and the ring skips to its
tail. -/
def splitDescriptorTimeoutOp (d : HostDesc) (s : State) : State :=
  if s.splitDue d then
    let c := s.ring d.ring
    let i := s.entryOf d
    let s := takeSlots d.ring (c.dist c.tail c.head) s
    settle (finish i .malformed 0 [] [] (s.setRing d.ring { s.ring d.ring with splitErr := true }))
  else s

/-- SPLIT_DESCRIPTOR_TIMEOUT (R350). -/
def execSplitDescriptorTimeout (d : HostDesc) (s : State) : Host.Outcome State Fault Refusal :=
  .next (splitDescriptorTimeoutOp d s)

/-- COMPLETION_MODERATION_TIMEOUT: the oldest unsignalled completion of a ring has reached mod_time. -/
def completionModerationTimeoutOp (r : Nat) (s : State) : State :=
  let c := s.ring r
  if s.stw.mainOn && c.completion && c.enable && c.modTime ≠ 0 && c.unsignalled ≠ 0 &&
     c.oldest.any (fun t => t + usCycles c.modTime ≤ s.cyc) then cqSignal r s
  else s

/-- COMPLETION_MODERATION_TIMEOUT (R346). -/
def execCompletionModerationTimeout (r : Nat) (s : State) : Host.Outcome State Fault Refusal :=
  .next (completionModerationTimeoutOp r s)

/-- DESCRIPTOR_READ_ERROR: the read of the next descriptor of a ring fails; none is consumed, and the ring stops. -/
def descriptorReadErrorOp (r : Nat) (s : State) : State :=
  let c := s.ring r
  if s.mayServe r 0 && c.held.isNone then s.setRing r { c with hostErr := true, stopped := true } else s

/-- DESCRIPTOR_READ_ERROR (R344). -/
def execDescriptorReadError (r : Nat) (s : State) : Host.Outcome State Fault Refusal := .next (descriptorReadErrorOp r s)

/-! ## Ring contexts (R346, R347, R447) -/

/-- Enabled rings of DEADLINE class. -/
def State.deadlineRings (s : State) : Nat := s.host.rings.countP (fun e => e.2.enable && !e.2.completion && e.2.deadline)

/-- Whether a context may be enabled. -/
def State.ringOk (s : State) (c : RingCtx) : Bool :=
  6 ≤ c.k && c.k ≤ 20 &&
  (if c.completion then c.vector < 2048
   else (s.ring c.companion).enable && (s.ring c.companion).completion && (!c.deadline || s.deadlineRings < 256))

/-- A context as a write of its second qword leaves its fields. -/
def RingCtx.fields (c : RingCtx) (v : Nat) : RingCtx :=
  { c with k := bits v 0 5, completion := bit v 5, deadline := bit v 6, companion := bits v 8 15, vector := bits v 24 11 }

/-- A context that has just been enabled: its positions start again, and completions that wait for it are kept. -/
def RingCtx.started (c : RingCtx) : RingCtx :=
  { c with enable := true, head := 0, tail := 0, held := none, stopped := false, unsignalled := 0, oldest := none,
           splitSince := none, short := false }

/-- Enables a ring whose fields stand in its context, or records the failure. -/
def enableRing (r : Nat) (c : RingCtx) (s : State) : State :=
  if s.ringOk c then drainCq (c.waiting.length + 1) r (s.setRing r c.started)
  else (s.setRing r { c with enableErr := true }).flag .hstStatus 3

/-- A write of one qword of a ring context. While the ring is enabled only its W1C bits change. -/
def writeRing (r q : Nat) (v : Nat) (s : State) : State :=
  let c := s.ring r
  if q = 3 then
    s.setRing r { c with staleDb := c.staleDb && !bit v 0, splitErr := c.splitErr && !bit v 1, hostErr := c.hostErr && !bit v 2,
                         enableErr := c.enableErr && !bit v 3 }
  else if c.enable then s
  else if q = 0 then s.setRing r { c with base := BitVec.ofNat 64 (v / 4096 * 4096) }
  else if q = 1 then
    let c := c.fields v
    if bit v 7 then enableRing r c s else s.setRing r c
  else s.setRing r { c with modCount := bits v 24 8, modTime := bits v 32 16, splitTo := bits v 48 16 }

/-- The offset of a qword of a ring context. -/
def ringOffset (r q : Nat) : Nat := 0x1000000 + r * 0x20 + q * 8

/-- A write to a ring context as the bus gives it: an enable during the ring's DISABLE is ignored and recorded (R444). -/
def writeRingBus (r q : Nat) (v : Nat) (s : State) : State :=
  if q = 1 && bit v 7 && (s.disabling 0 r).isSome then barErr 36 (ringOffset r q) s else writeRing r q v s

/-- RING_ENABLE: a write of the qword of a ring context that holds enable. -/
def ringEnableOp (r : Nat) (value : Quad) (s : State) : State :=
  if r < Config.numRings && bit value.toNat 7 then writeRingBus r 1 value.toNat s else s

/-- RING_ENABLE (R347). -/
def execRingEnable (r : Nat) (value : Quad) (s : State) : Host.Outcome State Fault Refusal := 
  .next (barWrite (ringOffset r 1) (ringEnableOp r value) s)

/-- RING_ENGINE_ENABLE: HST_CTL.enable starts the ring engine. -/
def ringEngineEnableOp (s : State) : State :=
  let s := s.flag .hstCtl 0
  { s with host := { s.host with running := true } }

/-- RING_ENGINE_ENABLE (R368). -/
def execRingEngineEnable (s : State) : Host.Outcome State Fault Refusal := 
  .next (barWrite 0x100000 ringEngineEnableOp s)

end Sys2Proof.Machine
end

