-- ==== Sys2Proof/Machine/Compress.lean ====
section
/-! DEFINITION. Exponent-plane packing (R165 to R170): the blocks of compressing streams. -/

namespace Sys2Proof.Machine

set_option Elab.async false

/-! ## Bits -/

/-- Bits of a number, least significant first. -/
def bitsOf : Nat → Nat → List Bool
  | 0, _ => []
  | n + 1, v => (v % 2 == 1) :: bitsOf n (v / 2)

/-- The number that bits hold, least significant first. -/
def ofBits : List Bool → Nat
  | [] => 0
  | b :: bs => (if b then 1 else 0) + 2 * ofBits bs

/-- Bytes of bits, padded with zero bits (R168). -/
def bitBytes (l : List Bool) : List Byte := leBytes ((l.length + 7) / 8) (ofBits l)

/-- The bits of bytes. -/
def byteBits (b : List Byte) : List Bool := bitsOf (8 * b.length) (leNat b)

/-! ## Formats -/

/-- The header's format code of a buffer format (R167). -/
def packFormat : Nat → Nat
  | 5 => 1 | 6 => 2 | 0 => 3 | 1 => 4 | _ => 0

/-- Exponent and mantissa bits of a header's format code. -/
def packLayout : Nat → Nat × Nat
  | 1 => (8, 7) | 2 => (5, 10) | 3 => (4, 3) | 4 => (5, 2) | _ => (0, 0)

/-- Bytes of an element of a header's format code. -/
def packBytes (c : Nat) : Nat := if c = 1 || c = 2 then 2 else 1

/-! ## Packing -/

/-- Packs a group of 64 elements (R168). -/
def packGroup (c : Nat) (xs : List Nat) : List Byte :=
  let (eb, mb) := packLayout c
  let zero (x : Nat) : Bool := x % 2 ^ (eb + mb) == 0
  let ex (x : Nat) : Nat := bits x mb eb
  let nz := xs.filter (fun x => !zero x)
  let b := match nz with
    | [] => 0
    | x :: ys => ys.foldl (fun m y => min m (ex y)) (ex x)
  let top := nz.foldl (fun m y => max m (ex y)) b
  let w := if top = b then 0 else Nat.log2 (top - b) + 1
  let z := xs.any zero
  leBytes 2 (b + w * 256 + (if z then 4096 else 0)) ++ bitBytes (xs.map (fun x => bit x (eb + mb)))
    ++ (if z then bitBytes (xs.map zero) else [])
    ++ bitBytes (nz.flatMap (fun x => bitsOf w (ex x - b)) ++ nz.flatMap (fun x => bitsOf mb x))

/-- The elements of a block of 4,096 bytes. -/
def blockElems (c : Nat) (b : List Byte) : List Nat := unpack8 (packBytes c) b
where
  /-- Little-endian elements of n bytes. -/
  unpack8 (n : Nat) (b : List Byte) : List Nat := (pieces n b).map leNat

/-- A block as it is stored: its header and the bytes of its slot (R167 to R169). -/
def packBlock (fmt : Nat) (b : List Byte) : List Byte × List Byte :=
  let c := packFormat fmt
  let xs := if c = 0 then unpack (fmtBits fmt) (32768 / fmtBits fmt) b else blockElems c b
  let packed := (pieces 64 xs).flatMap (packGroup c)
  let raw := c = 0 || packed.length ≥ 4096
  let zeros := if fmt = 8 then 0 else xs.countP (fun x => x % 2 ^ (fmtBits fmt - 1) == 0)
  (leBytes 1 c ++ leBytes 1 (if raw then 1 else 0) ++ leBytes 2 (if raw then 4096 else packed.length)
    ++ leBytes 2 (xs.length - zeros) ++ leBytes 2 zeros ++ leBytes 4 (crc32 b).toNat ++ leBytes 4 0,
   if raw then b else packed)

/-! ## Unpacking -/

/-- Numbers of w bits each from bits. -/
def numsOf (w : Nat) : Nat → List Bool → List Nat
  | 0, _ => []
  | n + 1, l => ofBits (l.take w) :: numsOf w n (l.drop w)

/-- Puts the values of non-zero elements at the places that are not zero. -/
def spread : List Bool → List Nat → List Nat
  | [], _ => []
  | true :: zs, vs => 0 :: spread zs vs
  | false :: zs, v :: vs => v :: spread zs vs
  | false :: zs, [] => 0 :: spread zs []

/-- Unpacks one group: its 64 elements and the bytes after it (R168). -/
def unpackGroup (c : Nat) (b : List Byte) : List Nat × List Byte :=
  let (eb, mb) := packLayout c
  let d := numIn b 0 2
  let base := d % 256
  let w := bits d 8 4
  let z := bit d 12
  let sign := (byteBits ((b.drop 2).take 8))
  let zs := if z then byteBits ((b.drop 10).take 8) else List.replicate 64 false
  let at_ := if z then 18 else 10
  let k := zs.countP (· == false)
  let n := (k * (w + mb) + 7) / 8
  let body := byteBits ((b.drop at_).take n)
  let es := numsOf w k body
  let ms := numsOf mb k (body.drop (k * w))
  let vals := (es.zip ms).map (fun x => ((x.1 + base) % 2 ^ eb) * 2 ^ mb + x.2)
  (((spread zs vals).zip sign).map (fun x => x.1 + (if x.2 then 2 ^ (eb + mb) else 0)), b.drop (at_ + n))

/-- Unpacks n groups. -/
def unpackGroups (c : Nat) : Nat → List Byte → List Nat
  | 0, _ => []
  | n + 1, b => let r := unpackGroup c b; r.1 ++ unpackGroups c n r.2

/-- A block's header as its 16 bytes say (R167). -/
structure BlockHeader where
  fmt  : Nat
  raw  : Bool
  len  : Nat
  crc  : Nat
  deriving DecidableEq, Repr

/-- Reads a block header. -/
def blockHeader (b : List Byte) : BlockHeader :=
  { fmt := numIn b 0 1, raw := bit (numIn b 1 1) 0, len := numIn b 2 2, crc := numIn b 8 4 }

/-- Whether a header is one that R170 accepts. -/
def BlockHeader.ok (h : BlockHeader) : Bool := h.fmt ≤ 4 && 1 ≤ h.len && h.len ≤ 4096 && h.raw == (h.len == 4096)

/-- The 4,096 bytes of a block from its header and slot (R168 to R170); none when they fail the header's check code. -/
def unpackBlock (h : BlockHeader) (slot : List Byte) : Option (List Byte) :=
  let b := if h.raw then slot.take 4096
    else (unpackGroups h.fmt (64 / packBytes h.fmt) slot).flatMap (leBytes (packBytes h.fmt))
  if b.length = 4096 && (crc32 b).toNat = h.crc then some b else none

/-! ## Places (R166) -/

/-- The address of the slot of block i of a stream. -/
def slotAddr (base i : Nat) : Nat := base + i / 255 * 0x100000 + i % 255 * 4096
/-- The address of the header of block i of a stream. -/
def headerAddr (base i : Nat) : Nat := base + i / 255 * 0x100000 + 0xFF000 + i % 255 * 16

end Sys2Proof.Machine
end

