-- ==== Sys2Proof/Machine/Move.lean ====
section
/-! DEFINITION. The move queue: GET, PUT, XFER, SWAP, and the arrival of a mesh line (R115, R121, R122, R128 to R131, R165,
R176, R204, R206, R220). -/

namespace Sys2Proof.Machine

set_option Elab.async false

/-- Whether a line may be moved: within the address space, and, in this module's memory, no hole (R122, R176). -/
def lineOk (s : State) (node : Nat) (a : Int) : Bool := 0 ≤ a && a < 0x1000000000000 && (node ≠ 0 || !s.isHole a.toNat)

/-- Whether the slot and the header of a block may be touched (R166, R176). -/
def blockOk (s : State) (base : Nat) (a : Int) : Bool :=
  let i := ((a - base) / 4096).toNat
  base ≤ a && s.mpaOk (slotAddr base i) 4096 && s.mpaOk (headerAddr base i) 16

/-- The good lines of a move, up to the first that may not be touched, and whether there is such a line (R176). -/
def goodLines (c : Ctx) (s : State) (f : MoveF) (m : MoveAt) : List (Nat × Nat) × Bool :=
  let ls := moveLines c.v m.p m.x f
  let good : List MoveLine :=
    if m.x.compress then ((pieces 64 ls).takeWhile (fun b => (b.head?).all (fun l => blockOk s m.x.base l.mpa))).flatten
    else ls.takeWhile (fun l => lineOk s m.x.node l.mpa)
  (good.map (fun l => (l.mpa.toNat, l.bin)), good.length < ls.length)

/-- What the transfers of a move share. -/
def moveCtx (c : Ctx) (f : MoveF) (m : MoveAt) (write issued refetch : Bool) : MoveCtx :=
  { gath := m.x.gatherer, tile := c.t, pass := c.p.seq, stream := f.stream, prio := m.x.prio, deadline := c.p.deadline,
    move := c.v.moves, write := write, node := m.x.node, fmt := m.p.fmt, issued := issued, refetch := refetch,
    order := c.order }

/-- The transfer of a whole block of a compressing stream: a read waits for its header first; a write's lines are packed at
issue (R165 to R169, R204). -/
def formBlock (k : MoveCtx) (base : Nat) (bin : SMap Byte) (b : List (Nat × Nat)) (s : State) : State :=
  let i := (((b.head?).map (·.1)).getD base - base) / 4096
  let bins := b.map (·.2)
  if k.write then
    let (h, slot) := packBlock k.fmt (bins.flatMap (fun l => bytesAt bin l 64))
    let lines := pieces 64 slot |>.map (fun l => l ++ List.replicate (64 - l.length) 0)
    let s := addXfer k (headerAddr base i) [] 1 h (some (i, 0)) s
    each ((pieces 4 lines).zipIdx) (fun g s =>
      addXfer k (slotAddr base i + g.2 * 256) [] g.1.length g.1.flatten (some (i, g.2 + 1)) s) s
  else addXfer k (headerAddr base i / 64 * 64) bins 1 [] (some (i, 0)) s

/-- A fresh id for a remote transfer (R258). -/
def newXid (s : State) : Nat × State :=
  let xid := freeXid s (s.fab.out.length + 1) s.fab.nextXid
  (xid, { s with fab := { s.fab with nextXid := xid + 1 } })

/-- The record of a remote write (R262, R264): an overlap with an earlier unacknowledged transfer makes it ordered. -/
def openOut (node xid : Nat) (gs : List (Nat × List Nat)) (ids : List Nat) (s : State) : State :=
  let lo := gs.foldl (fun m g => min m g.1) ((gs.head?.map (·.1)).getD 0)
  let hi := gs.foldl (fun m g => max m (g.1 + 64 * g.2.length)) lo
  let overlaps := s.fab.out.any (fun o => o.node == node && o.vl == 0 && o.lo < hi && lo < o.hi)
  let port := (choosePort s node 0 overlaps).1
  let o : OutXfer := { xid := xid, node := node, vl := 0, port := port, packets := 0, acked := 0, lo := lo, hi := hi,
                       ordered := overlaps, purpose := .moves ids, since := s.cyc, extend := 0 }
  { s with fab := { s.fab with turn := s.fab.turn + 1, out := s.fab.out ++ [o] } }

/-- Forms the transfers of a move (R204, R261). -/
def formMove (k : MoveCtx) (x : Stream) (bin : SMap Byte) (ls : List (Nat × Nat)) (s : State) : State :=
  if x.compress then each (pieces 64 ls) (formBlock k x.base bin) s
  else
    let gs := groupLines ls
    if k.node = 0 then each gs (fun g s => addXfer k g.1 g.2 g.2.length [] none s) s
    else if ls.isEmpty then s
    else
      let (xid, s) := newXid s
      let first := s.gath.nextId
      let s := each (packetIndex 0 0 0 gs) (fun g s => addXfer k g.2.1 g.2.2 g.2.2.length [] (some (xid, g.1)) s) s
      if k.write then openOut k.node xid gs (upFrom first gs.length) s else s

/-- The transfers of a GET that was dispatched and has not issued. -/
def State.dispatched (s : State) (c : Ctx) : List Nat :=
  (s.gath.xfers.filter (fun x => x.tile == c.t && x.pass == c.p.seq && x.move == c.v.moves && !x.write && !x.issued)).map (·.id)

/-- The memory ranges of a move's lines: for a compressing stream those of its blocks' slots and headers (R122, R166, R206). -/
def moveRanges (m : MoveAt) (ls : List (Nat × Nat)) : List (Nat × Nat) :=
  if m.x.compress then
    (pieces 64 ls).flatMap (fun b =>
      let i := (((b.head?).map (·.1)).getD m.x.base - m.x.base) / 4096
      [(slotAddr m.x.base i, 4096), (headerAddr m.x.base i, 16)])
  else (groupLines ls).map (fun g => (g.1, 64 * g.2.length))

/-- Whether a PUT of the tile that is not yet acknowledged overlaps memory ranges of a node: one that has issued, or an earlier
one of the queue (R206). -/
def State.putOverlaps (s : State) (c : Ctx) (node : Nat) (rs : List (Nat × Nat)) : Bool :=
  s.gath.xfers.any (fun x => x.tile == c.t && x.write && x.node == node && rs.any (meets (x.mpa, 64 * x.lines))) ||
  c.earlier.any (fun e => match e.instr with
    | .put _ f => (match moveAt (c.at e) f false with
      | some m => m.x.node == node && (moveRanges m (goodLines (c.at e) s f m).1).any (fun r => rs.any (meets r))
      | none => false)
    | _ => false)

/-- Whether the route of a stream's node is invalid (R264, R265). -/
def State.noRoute (s : State) (node : Nat) : Bool := node ≠ 0 && (s.routeOf node).isEmpty

/-! ## GET (R206) -/

/-- Forms the transfers of a GET, ahead of its issue or at it; a line in a hole, or a node without a route, abandons the pass
at its issue and is not fetched ahead (R176, R264). -/
def formGet (c : Ctx) (f : MoveF) (m : MoveAt) (issued : Bool) (s : State) : State :=
  let (ls, bad) := goodLines c s f m
  let wrong := bad || s.noRoute m.x.node
  if !issued && wrong then s
  else
    let ahead := !issued && s.putOverlaps c m.x.node (moveRanges m ls)
    let s := formMove (moveCtx c f m false issued ahead) m.x [] ls s
    if wrong then abandonPass c.p.seq .malformed c.t s else s

/-- What the dispatch of a GET lets its gatherer do: its transfers are formed, and may be fetched ahead (R206). -/
def getAhead (f : MoveF) (c : Ctx) (s : State) : State :=
  match moveAt c f true with
  | some m => if m.bins.isSome then formGet c f m false s else s
  | none => s

/-- The effect of a GET: its transfers are formed, or, when they were formed at its dispatch, may be written to the bin. -/
def getEff (f : MoveF) (c : Ctx) (s : State) : State :=
  match moveAt c f true with
  | some m =>
    let mine := s.dispatched c
    if mine.isEmpty then formGet c f m true s
    else each mine (fun i s => s.updXfer i (fun x =>
      { x with issued := true, since := if x.refetch then s.cyc else x.since })) s
  | none => s

/-- GET: reads memory lines into a bin buffer through a gatherer. A GET that its tile holds is dispatched, and its transfers
may be fetched ahead; they are written to the bin once it issues (R129, R206). -/
def getOp (t : Nat) (f : MoveF) (s : State) : State := runWith (getAhead f) t (.get t f) (getEff f) s

/-- GET (R206). -/
def execGet (t : Nat) (f : MoveF) (s : State) : Host.Outcome State Fault Refusal := .next (getOp t f s)

/-! ## PUT (R204) -/

/-- The effect of a PUT: its transfers are formed when it issues; those that lie before a hole run on (R144, R176, R206). A node
without a route abandons the pass (R264). -/
def putEff (f : MoveF) (c : Ctx) (s : State) : State :=
  match moveAt c f false with
  | some m =>
    if s.noRoute m.x.node then abandonPass c.p.seq .malformed c.t s
    else
      let (ls, bad) := goodLines c s f m
      let s := formMove (moveCtx c f m true true false) m.x (s.tile c.t).bin ls s
      if bad then abandonPass c.p.seq .malformed c.t s else s
  | none => s

/-- PUT: writes bin lines to memory through a gatherer. -/
def putOp (t : Nat) (f : MoveF) (s : State) : State := runOp t (.put t f) (putEff f) s

/-- PUT (R204). -/
def execPut (t : Nat) (f : MoveF) (s : State) : Host.Outcome State Fault Refusal := .next (putOp t f s)

/-! ## XFER (R121, R220) -/

/-- The tile that an XFER reaches. -/
def xferTarget (t : Nat) (f : XferF) : Nat := (((t / 48 : Nat) + f.dy) * 48 + (t % 48 : Nat) + f.dx).toNat

/-- The first destination line of an XFER, with the sender's counters and the receiving table's stride, scaled under R115. -/
def xferLine (c : Ctx) (f : XferF) : Option Int := (operand c f.dst true).map (·.line)

/-- The effect of an XFER: its lines leave on the mesh, in order. -/
def xferEff (f : XferF) (c : Ctx) (s : State) : State :=
  match xferSource c f, xferLine c f with
  | some (p, n), some l0 =>
    let bin := (s.tile c.t).bin
    each (List.range n) (fun j s =>
      let m : MeshLine := { id := s.gath.nextLine, src := c.t, dst := xferTarget c.t f, pass := c.p.seq, buf := f.dst.buf,
                            line := l0 + j, data := p.read bin (j * 64) 64 }
      { s with gath := { s.gath with mesh := s.gath.mesh ++ [m], nextLine := s.gath.nextLine + 1 } }) s
  | _, _ => s

/-- XFER: sends bin lines to another tile over the mesh. -/
def xferOp (t : Nat) (f : XferF) (s : State) : State := runOp t (.xfer t f) (xferEff f) s

/-- XFER (R220). -/
def execXfer (t : Nat) (f : XferF) (s : State) : Host.Outcome State Fault Refusal := .next (xferOp t f s)

/-- The half of a buffer that is the producer on a tile: H0 once the pass no longer keeps roles there (R121, R130). -/
def arriveHalf (b : BufEntry) (q : Option SeqState) (buf : Nat) : Nat := match q with
  | some q => halfOf b q buf true
  | none => 0

/-- XFER_LINE_ARRIVE: the oldest line from one tile to another is written into the producer half of the receiving tile's
buffer; a line outside that half abandons the pass with MALFORMED (R116, R121). -/
def xferLineArriveOp (src dst : Nat) (s : State) : State :=
  match s.gath.mesh.find? (fun m => m.src == src && m.dst == dst) with
  | none => s
  | some m =>
    let s := { s with gath := { s.gath with mesh := s.gath.mesh.filter (fun x => x.id != m.id) } }
    match s.pass? m.pass with
    | none => s
    | some p =>
      match p.img.bufs[m.buf]? with
      | none => s
      | some b =>
        let pl : Place := { buf := b, half := arriveHalf b (s.seq? dst m.pass) m.buf, fmt := 0, line := m.line }
        if pl.has 0 64 then s.setBin dst (pl.write (s.tile dst).bin 0 m.data) else abandonPass p.seq .malformed dst s

/-- XFER_LINE_ARRIVE (R220). -/
def execXferLineArrive (src dst : Nat) (s : State) : Host.Outcome State Fault Refusal := .next (xferLineArriveOp src dst s)

/-! ## SWAP (R130) -/

/-- SWAP: exchanges the producer and consumer halves. -/
def swapOp (t buf : Nat) (s : State) : State :=
  runOp t (.swap t buf)
    (fun c s => s.updSeq c.t c.q.pass (fun q =>
      { q with swapped := if q.swapped.contains buf then q.swapped.filter (· ≠ buf) else q.swapped ++ [buf] })) s

/-- SWAP (R130). -/
def execSwap (t buf : Nat) (s : State) : Host.Outcome State Fault Refusal := .next (swapOp t buf s)

end Sys2Proof.Machine
end

