-- ==== Sys2Proof/Machine/Serve.lean ====
section
/-! DEFINITION. The events of gatherers and memory controllers: TAG_GRANT, MEMORY_REQUEST_SERVE, READ_LAND, MEMORY_WRITE_ACK
and BUFFER_CYCLE (R170, R171, R204 to R217). -/

namespace Sys2Proof.Machine

set_option Elab.async false

/-! ## TAG_GRANT (R204, R207, R261) -/

/-- The bin bytes of a write transfer, read when it takes its tag (R204). -/
def captureData (x : Xfer) (s : State) : List Byte :=
  if x.data = [] then x.bins.flatMap (fun l => bytesAt (s.tile x.tile).bin l 64) else x.data

/-- Gives a transfer its tag (R204, R222). -/
def grantTag (x : Xfer) (r : Bool) (s : State) : State :=
  (s.updXfer x.id (fun y => { y with reserve := some r })).raise .gthMaxWait (min (s.cyc - x.since) 0xFFFFFFFF) x.gath

/-- A transfer that holds its tag is requested; a write reads its lines from the bin (R204). -/
def requestXfer (x : Xfer) (s : State) : State :=
  let d := if x.write then captureData x s else []
  let s := s.updXfer x.id (fun y => { y with st := .requested, data := d })
  if x.write then s.inc .gthWritten x.bytes x.gath else s

/-- A local transfer is requested from its controller. -/
def requestLocal (x : Xfer) (r : Bool) (s : State) : State :=
  let s := requestXfer x (grantTag x r s)
  match mpaWindow x.mpa with
  | some (p, _) => s.updDev p (fun d => { d with queue := d.queue ++ [x.id] })
  | none => s

/-- Whether a transfer of a remote move still waits. -/
def State.waitsFor (s : State) (node xid : Nat) : Bool :=
  s.gath.xfers.any (fun x => x.st = .waiting && x.node == node && x.block.any (·.1 == xid))

/-- Sends the WRITE packet that transfers of one group fill (R261, R262, R264). -/
def sendWrite (node xid : Nat) (xs : List Xfer) (s : State) : State :=
  match s.fab.out.find? (fun o => o.xid == xid && o.node == node) with
  | none => s
  | some o =>
    let k := o.packets
    let last := !s.waitsFor node xid
    let s := each xs (fun x s => s.updXfer x.id (fun y => { y with block := some (xid, k) })) s
    let data := xs.flatMap (fun x => (s.xfer? x.id).elim [] (·.data))
    let a := ((xs.head?).map (·.mpa)).getD 0
    let after := if last && o.ordered then ((s.earlier node 0).filter (fun y => y.xid != xid && y.port != o.port)).map (·.xid)
                 else []
    let flags := (if k = 0 then 4 else 0) + (if last then 8 else 0)
    let p := s.ownPacket 0x01 node xid k flags { addr := a, spec := [], data := data } 0 0
    let s := { s with fab := { s.fab with out := s.fab.out.map (fun y =>
      if y.xid = xid && y.node = node then { y with packets := k + 1 } else y) } }
    enqueue o.port [p.out 0 false after] s

/-- The port of a read request and the writes that it waits for: the current port, or the port of an earlier write that it overlaps,
behind which it leaves; those of other ports are to be acknowledged first (R264, R266). -/
def readPort (s : State) (node lo hi : Nat) : Nat × List Nat × List Nat :=
  let ws := (s.earlier node 0).filter (fun o => o.lo < hi && lo < o.hi)
  match ws.getLast? with
  | some o => (o.port, (ws.filter (fun y => y.port != o.port)).map (·.xid), (ws.filter (fun y => y.port == o.port)).map (·.xid))
  | none => let c := choosePort s node 2 false; (c.1, c.2, [])

/-- Sends the READ_REQ that transfers of one group make; the response transfer opens when the first request leaves (R261, R269). -/
def sendRead (node xid : Nat) (xs : List Xfer) (s : State) : State :=
  let a := ((xs.head?).map (·.mpa)).getD 0
  let n := (xs.map Xfer.bytes).sum
  let (port, after, behind) := readPort s node a (a + n)
  let open? := s.fab.inn.find? (fun i => i.src == node && i.xid == xid && i.reads ≠ [])
  let k := ((open?).map (·.next)).getD 0
  let last := !s.waitsFor node xid
  let s := each xs (fun x s => s.updXfer x.id (fun y => { y with block := some (xid, k) })) s
  let flags := 2 + (if k = 0 then 4 else 0) + (if last then 8 else 0)
  let p := s.ownPacket 0x02 node xid k flags { addr := a, spec := specBytes [(22, 2, n)], data := [] } 0 0
  let fresh : InXfer := { src := node, xid := xid, vl := 0, port := port, next := 1, got := 0, last := s.cyc, extend := 0,
                          stalled := false, tracked := true, reads := xs.map (·.id), opened := false }
  let inn := match open? with
    | some _ => s.fab.inn.map (fun i => if i.src = node && i.xid = xid && i.reads ≠ [] then
        { i with next := k + 1, reads := i.reads ++ xs.map (·.id), last := if i.got = 0 then s.cyc else i.last } else i)
    | none => s.fab.inn ++ [fresh]
  enqueue port [{ p.out 2 true after with behind := behind }] { s with fab := { s.fab with inn := inn } }

/-- Sends the packet of one group of a remote move once each of its transfers holds its tag, or the next one can draw none
(DEDUCED, log entry 26). -/
def sendGroup (node : Nat) (b : Nat × Nat) (s : State) : State :=
  let xs := s.gath.xfers.filter (fun x => x.st = .waiting && x.node == node && x.block == some b)
  let ready := xs.takeWhile (fun x => x.reserve.isSome)
  let stuck : Bool := match xs.drop ready.length with
    | [] => true
    | x :: _ => (s.tagFor x).isNone
  match ready with
  | [] => s
  | x :: _ =>
    if !stuck then s
    else
      let s := each ready requestXfer s
      if x.write then sendWrite node b.1 ready s else sendRead node b.1 ready s

/-- Sends what the grants of a gatherer have made complete. -/
def sendGroups (g : Nat) (s : State) : State :=
  let gs : List (Nat × (Nat × Nat)) := s.gath.xfers.filterMap (fun x =>
    if x.gath = g && x.st = .waiting && x.node ≠ 0 && x.reserve.isSome then x.block.map (fun b => (x.node, b)) else none)
  each gs.dedup (fun y s => sendGroup y.1 y.2 s) s

/-- Up to n grants of a gatherer, in the order of precedence. -/
def grants : Nat → Nat → State → State
  | 0, _, s => s
  | n + 1, g, s =>
    match s.nextGrant g with
    | none => s
    | some x =>
      match s.tagFor x with
      | some r => grants n g (if x.node ≠ 0 then grantTag x r s else requestLocal x r s)
      | none => s

/-- TAG_GRANT: a gatherer grants up to four tags; a local transfer is requested at once, and a remote one with those of its packet.
Signals that waited for these writes may then leave (R232). -/
def tagGrantOp (g : Nat) (s : State) : State :=
  if s.alive && s.gath.enable.getLsbD g && s.pllOf (g / 12) = .running then sendRemoteSignals (sendGroups g (grants 4 g s))
  else s

/-- TAG_GRANT (R207). -/
def execTagGrant (g : Nat) (s : State) : Host.Outcome State Fault Refusal := .next (tagGrantOp g s)

/-! ## MEMORY_REQUEST_SERVE (R187, R212) -/

/-- The step tag that a pass's reads carry (R189). -/
def State.readStep (s : State) (q : Nat) : Nat :=
  match (s.pass? q).bind (·.step) with
  | some n => n % 2 ^ 32
  | none => s.oldestStep

/-- Counts the bytes that a pass has moved at a memory (R200). -/
def countMoved (x : Xfer) (s : State) : State :=
  match mpaWindow x.mpa with
  | some (p, _) => s.updPass x.pass (fun y => { y with moved := supd 0 y.moved p (· + x.bytes) })
  | none => s

/-- A header line that a PUT of a whole block has rewritten has a valid check code again: its controller reads, merges and writes it
(R166, R172). -/
def renewHeader (x : Xfer) (s : State) : State :=
  match x.block with
  | some (_, 0) =>
    let l := x.mpa / 64 * 64
    let s := meetErrors l s
    { s with memory := { s.memory with marks := s.memory.marks.filter (· ≠ l) } }
  | _ => s

/-- Whether a pass has a local write that its controller has not served. -/
def State.writesLeft (s : State) (q : Nat) : Bool :=
  s.gath.xfers.any (fun x => x.pass == q && x.write && x.node == 0 && x.st ≠ .written)

/-- Flushes the blocks that the last writes of a pass leave incomplete, once the pass has ended or every tile of it has reached PEND
(R151). -/
def flushRest (q : Nat) (s : State) : State :=
  if (s.pass? q).any (fun p => p.ending.isNone && !s.allPended p) || s.writesLeft q then s else flushWriter (q + 1) s

/-- Serves one transfer at its controller. -/
def serveXfer (x : Xfer) (s : State) : State :=
  let s := countMoved x s
  if x.write then
    let s := if x.node = 0 then renewHeader x s else s
    let s := ctrlWrite (x.pass + 1) (some x.id) x.mpa x.data s
    flushRest x.pass (s.updXfer x.id (fun y => { y with st := .written }))
  else
    let (r, s) := readBy 0 (s.readStep x.pass) x.mpa x.bytes s
    s.updXfer x.id (fun y => { y with st := .arrived, data := r.data, detected := (linesOf x.mpa x.bytes).map r.bad.contains })

/-- MEMORY_REQUEST_SERVE: a controller serves its next request on one channel; found is what its devices report meanwhile (DESIGN
CHOICE, log entry 12). -/
def memoryRequestServeOp (p pc : Nat) (found : List Finding) (s : State) : State :=
  match s.nextServe p pc with
  | none => s
  | some x =>
    if !s.alive || !((s.dev p).st = .ready || (s.dev p).st = .selfRefresh) then s
    else
      let s := payTurn p 1 s
      let s := s.updDev p (fun d => { d with queue := d.queue.erase x.id })
      checkFault (serveXfer x (each found reportFinding s))

/-- MEMORY_REQUEST_SERVE (R212). -/
def execMemoryRequestServe (p pc : Nat) (found : List Finding) (s : State) : Host.Outcome State Fault Refusal :=
  .next (memoryRequestServeOp p pc found s)

/-! ## READ_LAND (R171, R204, R206, R216) -/

/-- A line of canonical NaNs of a format (R44, R171). -/
def nanLine (f : Nat) : List Byte :=
  if f = 8 then List.replicate 64 0xFF
  else if blockScaled f then List.replicate 64 0
  else pack (fmtBits f) (List.replicate (512 / fmtBits f) (fmtOfCode f).nanCode)

/-- Poisons the attempt of a pass that reads detected data: one non-finite WGRAD count of its default layer for each line
(R171). -/
def poison (q n : Nat) (s : State) : State :=
  match s.pass? q with
  | some p =>
    if n = 0 then s
    else
      let w := s.watch p
      let s := s.memAdd (w.entry p.img.layer + 0x50 + 3 * 48 + 40) 8 n
      let s := s.memAdd (w.shared p.img.layer + 0x140 + 3 * 24 + 16) 8 n
      (match p.step.bind s.attempt? with
       | some a =>
         let f := s.recAddr a + 7
         (s.memPutNum f 1 (s.memNum f 1 ||| 0x40)).updAttempt a.step (fun a => { a with poisoned := true })
       | none => s)
  | none => s

/-- Writes lines to a tile's bin: detected ones as NaN of the format (R171). -/
def putLines (t f : Nat) (bins : List Nat) (data : List (List Byte)) (bad : List Bool) (s : State) : State :=
  s.updTile t (fun tl => { tl with bin := ((bins.zip data).zip bad).foldl (fun m x =>
    putBytes m x.1.1 (if x.2 then nanLine f else x.1.2)) tl.bin })

/-- Writes a read transfer that has landed to the bin, and returns its tag (R204, R206). -/
def landXfer (x : Xfer) (s : State) : State :=
  let s := putLines x.tile x.fmt x.bins (pieces 64 x.data) x.detected s
  let s := poison x.pass (x.detected.count true) s
  (s.dropXfer x.id).inc .gthFetched x.bytes x.gath

/-- The header transfer of a block of a compressing GET, and its granule transfers (R204). -/
def State.blockParts (s : State) (x : Xfer) (i : Nat) : List Xfer :=
  s.gath.xfers.filter (fun y => !y.write && y.node == 0 && y.tile == x.tile && y.pass == x.pass && y.move == x.move &&
    y.block.any (·.1 == i))

/-- The base of a transfer's stream. -/
def State.streamBase (s : State) (x : Xfer) : Nat :=
  (((s.pass? x.pass).bind (fun p => p.img.streams[x.stream]?)).map (·.base)).getD 0

/-- The header that a header transfer holds (R166, R167). -/
def State.headerOf (s : State) (x : Xfer) (i : Nat) : BlockHeader :=
  blockHeader ((x.data.drop (headerAddr (s.streamBase x) i - x.mpa)).take 16)

/-- Whether a header transfer's header can be used (R170). -/
def State.headerGood (s : State) (x : Xfer) (i : Nat) : Bool := !x.detected.contains true && (s.headerOf x i).ok

/-- Granule transfers that a header asks for (R204). -/
def BlockHeader.granules (h : BlockHeader) : Nat := (h.len + 255) / 256

/-- The granule transfers of a block whose header has landed (R204). -/
def spawnGranules (x : Xfer) (i : Nat) (s : State) : State :=
  let h := s.headerOf x i
  let c : MoveCtx := { gath := x.gath, tile := x.tile, pass := x.pass, stream := x.stream, prio := x.prio,
                       deadline := x.deadline, move := x.move, write := false, node := 0, fmt := x.fmt, issued := x.issued,
                       refetch := x.refetch, order := x.order }
  let a := slotAddr (s.streamBase x) i
  each (List.range h.granules) (fun k s => addXfer c (a + k * 256) [] (min 4 ((h.len + 63) / 64 - 4 * k)) [] (some (i, k + 1)) s) s

/-- What a GET delivers of a block whose parts have landed: its 64 lines and which of them are detected; none when the block is
detected as a whole (R170). A detected line of a block whose bytes pass the check is delivered as one where it is stored raw (DESIGN
CHOICE, log entry 96). -/
def blockLines (good : Bool) (hd : BlockHeader) (gs : List Xfer) : Option (List (List Byte) × List Bool) :=
  if good then
    (unpackBlock hd (gs.flatMap (·.data))).map (fun b =>
      (pieces 64 b, if hd.raw then gs.flatMap (·.detected) else List.replicate 64 false))
  else none

/-- Delivers a block whose parts have all landed and whose GET has issued, and returns its tags; a block that fails is detected as
a whole (R170, R171). -/
def landBlock (x : Xfer) (i : Nat) (s : State) : State :=
  let ps := s.blockParts x i
  match ps.find? (fun y => y.block == some (i, 0)) with
  | none => s
  | some h =>
    let hd := s.headerOf h i
    let gs := ps.filter (fun y => y.id != h.id)
    let good := s.headerGood h i
    if !(h.issued && h.st = .landed && gs.all (fun y => y.st = .landed) && (!good || gs.length = hd.granules)) then s
    else
      let bad := (ps.map (fun y => y.detected.count true)).sum
      let s := match blockLines good hd gs with
        | some (ls, marks) => poison h.pass bad (putLines h.tile h.fmt h.bins ls marks s)
        | none =>
          poison h.pass (max 1 bad)
            (reportDetected (slotAddr (s.streamBase h) i) 0 (s.readStep h.pass)
              (putLines h.tile h.fmt h.bins (List.replicate 64 []) (List.replicate 64 true) s))
      (each ps (fun y s => s.dropXfer y.id) s).inc .gthFetched (ps.map Xfer.bytes).sum h.gath

/-- A part of a compressed block lands. -/
def landPart (x : Xfer) (i k : Nat) (s : State) : State :=
  let s := s.updXfer x.id (fun y => { y with st := .landed })
  let s := if k = 0 && x.st = .arrived && s.headerGood x i then spawnGranules x i s else s
  landBlock x i s

/-- READ_LAND: the lines of a read transfer arrive in its landing slot, and are written to the bin if their GET has issued; a
transfer of an abandoned pass is discarded. -/
def readLandOp (x : Nat) (s : State) : State :=
  match s.xfer? x with
  | none => s
  | some y =>
    if !s.alive || y.write || !(y.st = .arrived || y.st = .landed) then s
    else if y.discard then settlePass y.pass (discardXfer y s)
    else
      match y.block, y.node with
      | some (i, k), 0 => landPart y i k s
      | _, _ => if y.issued then landXfer y s else s.updXfer x (fun y => { y with st := .landed })

/-- READ_LAND (R206). -/
def execReadLand (x : Nat) (s : State) : Host.Outcome State Fault Refusal := .next (readLandOp x s)

/-! ## MEMORY_WRITE_ACK (R204) -/

/-- MEMORY_WRITE_ACK: a controller acknowledges a local write; its tag returns. An assembly buffer that holds one of its lines
keeps the acknowledgement back (R150). -/
def memoryWriteAckOp (x : Nat) (s : State) : State :=
  match s.xfer? x with
  | none => s
  | some y =>
    if s.alive && y.write && y.node = 0 && y.st = .written && !s.ackHeld x then settlePass y.pass (returnTag y s) else s

/-- MEMORY_WRITE_ACK (R204). -/
def execMemoryWriteAck (x : Nat) (s : State) : Host.Outcome State Fault Refusal := .next (memoryWriteAckOp x s)

/-! ## BUFFER_CYCLE (R209) -/

/-- The transfers that hold shared tags of a gatherer. -/
def State.sharedTagged (s : State) (g : Nat) : List Xfer :=
  (s.tagged g).filter (fun x => x.reserve == some false || !s.reserves x)

/-- Whether the conditions of a buffer cycle hold at a gatherer now (R209). -/
def State.cycleNow (s : State) (g : Nat) : Bool :=
  s.sharedHeld g ≥ s.sharedSize g &&
  s.gath.xfers.any (fun x => x.gath == g && s.mayRequest x && s.floorTags x = 0) &&
  (s.sharedTagged g).all (fun x => !x.write && !x.issued && x.st = .landed)

/-- Whether one transfer's stream is a victim before another's: lower priority, later pass, higher tile, higher stream. -/
def Xfer.victim (x y : Xfer) : Bool :=
  if x.prio ≠ y.prio then x.prio < y.prio
  else if x.pass ≠ y.pass then x.pass > y.pass
  else if x.tile ≠ y.tile then x.tile > y.tile
  else if x.stream ≠ y.stream then x.stream > y.stream
  else x.move > y.move

/-- Cycles for which the conditions must hold (R209). -/
def cycleWindow : Nat := 4096

/-- Makes a cancelled transfer wait again, to be fetched when its GET issues; a granule of a compressed block goes, and its
header asks for it again. -/
def refetchXfer (x : Xfer) (s : State) : State :=
  let s := match mpaWindow x.mpa with
    | some (p, _) => if x.node = 0 then s.updDev p (fun d => { d with queue := d.queue.filter (· ≠ x.id) }) else s
    | none => s
  if x.node = 0 && x.block.any (·.2 ≠ 0) then s.dropXfer x.id
  else s.updXfer x.id (fun y => { y with reserve := none, st := .waiting, data := [], detected := [], refetch := true, since := s.cyc })

/-- The transfers of a cancelled GET of a remote stream take a fresh transfer id and the packets of a fresh read (R258, R261); what
still comes of the old one is late (R213, R271). -/
def renewRead (xs : List Xfer) (s : State) : State :=
  match xs.filter (fun x => x.node ≠ 0) with
  | [] => s
  | y :: ys =>
    let (xid, s) := newXid s
    let old := (y.block.map (·.1)).getD 0
    let awaited := s.fab.inn.any (fun i => i.reads ≠ [] && i.src == y.node && i.xid == old)
    let idx := packetIndex 0 0 0 ((y :: ys).map (fun x => (x.mpa, x.bins)))
    let s := each ((y :: ys).zip idx) (fun z s => s.updXfer z.1.id (fun x => { x with block := some (xid, z.2.1) })) s
    { s with fab := { s.fab with
        inn := s.fab.inn.filter (fun i => !(i.reads ≠ [] && i.src == y.node && i.xid == old)),
        cancelled := if awaited then s.fab.cancelled ++ [(y.node, old)] else s.fab.cancelled } }

/-- BUFFER_CYCLE: a gatherer whose conditions have held for 4,096 cycles cancels the victim's newest GET, and raises the
event. -/
def bufferCycleOp (g : Nat) (s : State) : State :=
  match sfind s.gath.window g with
  | none => s
  | some since =>
    if !s.alive || s.cyc < since + cycleWindow || !s.cycleNow g then s
    else
      match (s.sharedTagged g).foldl (fun (b : Option Xfer) x => match b with
        | none => some x
        | some y => if x.victim y then some x else some y) none with
      | none => s
      | some v =>
        let mine := s.gath.xfers.filter (fun x => x.pass == v.pass && x.tile == v.tile && x.move == v.move && !x.write)
        let held := mine.filter (fun x => x.reserve.isSome)
        let bytes := (held.map Xfer.bytes).sum
        let waiting := (s.gath.xfers.filter (fun x => x.gath == g && s.mayRequest x)).length
        let s := renewRead mine (each mine refetchXfer s)
        let s := { s with gath := { s.gath with window := serase s.gath.window g } }
        raiseEvent .bufferCycle g
          (detail [(0, 1, g), (1, 1, v.stream), (2, 2, v.tile), (4, 2, held.length), (6, 2, waiting), (8, 4, bytes),
            (12, 4, min (s.cyc - since) 0xFFFFFFFF)])
          ((s.inc .gthCycleBytes bytes g).inc .gthCycles 1 g)

/-- BUFFER_CYCLE (R209). -/
def execBufferCycle (g : Nat) (s : State) : Host.Outcome State Fault Refusal := .next (bufferCycleOp g s)

end Sys2Proof.Machine
end

