-- ==== Sys2Proof/Machine/Harvest.lean ====
section
/-! DEFINITION. The harvest channel: HARVEST_BEGIN, the copying of an image and its export, RESTORE and its commit
(R328 to R339). -/

namespace Sys2Proof.Machine

set_option Elab.async false

/-! ## What an image holds (R329) -/

/-- The segments of the watch table: one bank, and in overlap mode the second. -/
def State.watchSegs (s : State) : List HSeg :=
  let one (o : Nat) : HSeg :=
    { kind := 1, mode := 0, base := s.rg .numWatchBase + o, blocks := (s.watchLayers * 0x400 + 0xFFFF) / 0x10000, imgOff := 0 }
  if s.watchLayers = 0 then [] else if s.overlapMode then [one 0, one 0x4000000] else [one 0]

/-- The enabled segments of the shard map, or of the mirror map, in an area; winnowing is for the own shard only (R331). -/
def State.shardSegs (s : State) (mirror : Bool) (area : Nat) : List HSeg :=
  (List.range 16).filterMap (fun i =>
    let g := s.mapSeg mirror i
    if g.blocks = 0 then none
    else some { kind := 0, mode := if mirror then 0 else s.rgBits .hrvSegCfg 0 2 i, base := g.base area, blocks := g.blocks,
                imgOff := 0 })

/-- The extra segments of HRV_XSEG. -/
def State.extraMap (s : State) : List MapSeg :=
  (List.range 8).map (fun i => { a0 := s.rg .hrvXsegA0 i, a1 := s.rg .hrvXsegA1 i, blocks := s.rg .hrvXsegBlocks i })

/-- The enabled extra segments in an area. -/
def State.extraSegs (s : State) (area : Nat) : List HSeg :=
  (s.extraMap.filter (fun g => g.blocks ≠ 0)).map (fun g =>
    { kind := 2, mode := 0, base := g.base area, blocks := g.blocks, imgOff := 0 })

/-- The segments of an image of the current version, with their places in it. -/
def State.imageSegs (s : State) (mirror : Bool) : List HSeg :=
  let v := s.steps.version
  let gs := s.shardSegs mirror v ++ s.extraSegs v ++ (if mirror then [] else s.watchSegs)
  layOut (dataOffset (segsBlocks gs)) gs

/-- Bytes of an image of segments. -/
def imageLen (gs : List HSeg) : Nat := dataOffset (segsBlocks gs) + segsBytes gs

/-! ## HARVEST_BEGIN (R328, R353) -/

/-- The source of a HARVEST_BEGIN is the mirror. -/
def harvestMirror (d : HostDesc) : Bool := bit (descNum d 0x10 1) 0
/-- The destination of a HARVEST_BEGIN: 0 barn, 1 host memory, 2 node, 3 recovery mode. -/
def harvestDest (d : HostDesc) : Nat := bits (descNum d 0x10 1) 1 2
/-- The number of rate entries. -/
def harvestRates (d : HostDesc) : Nat := descNum d 0x14 1
/-- The number of side regions. -/
def harvestSides (d : HostDesc) : Nat := descNum d 0x15 1

/-- Whether the layout of a HARVEST_BEGIN is the one its fields require. -/
def harvestShapeOk (d : HostDesc) : Bool :=
  harvestRates d ≤ 28 && harvestSides d ≤ (if harvestDest d = 3 then 4 else 0) &&
  slotsAre d (entrySlots (harvestRates d + harvestSides d)) && (demandOf (harvestRates d) (descData d)).isSome

/-- The rate entries of a HARVEST_BEGIN, in MB/s. -/
def harvestDemand (d : HostDesc) : List Demand := (demandOf (harvestRates d) (descData d)).getD []

/-- Whether declared rates fit in the ledger (R328, R357). -/
def State.ratesOk (s : State) (es : List Demand) : Bool :=
  es.all (fun e => s.ratesFit e.p (declaredRate [e] Demand.rd e.p) (declaredRate [e] Demand.wr e.p))

/-- Whether the harvest engine takes no new work. -/
def State.harvestOut (s : State) : Bool := !s.rgBit .hrvEnable 0 || (s.disabling 5 0).isSome

/-- Whether the mirror holds the current version (R306, R321, R328). -/
def State.mirrorCurrent (s : State) : Bool := s.hrv.mirrorVer == some s.steps.version

/-- What the module answers to a HARVEST_BEGIN that is not in recovery mode.
DEDUCED, log entry 64. -/
def judgeHarvest (d : HostDesc) (s : State) : Answer :=
  let gs := s.imageSegs (harvestMirror d)
  if !harvestShapeOk d || (harvestDest d = 2 && !s.routed (descNum d 0x12 2)) then .fail .malformed
  else if !s.steps.job then .fail .notEnabled
  else if !s.ratesOk (harvestDemand d) then .refuse 6
  else if s.harvestOut || (harvestDemand d).any (fun e => s.memOut e.p) || (harvestDest d = 2 && s.routeOut (descNum d 0x12 2)) then
    .refuse 11
  else if (harvestMirror d && !s.mirrorCurrent) || s.rg .hrvAreaSize < imageLen gs ||
          (harvestDest d ≠ 0 && descNum d 0x20 8 < imageLen gs) then .refuse 12
  else if s.checking.isSome || s.hrv.op.isSome || s.hrv.restore.isSome then .hold
  else .accept

/-- The first address of a memory, and the bytes of its window (R175). -/
def memWindow (p : Nat) : Nat × Nat :=
  if p < 12 then (p * 0x800000000, 0x800000000) else (0x8000000000 + (p - 12) * 0x1000000000, 0x1000000000)

/-- Bytes of a range that lie in a memory. -/
def bytesIn (p a n : Nat) : Nat := let w := memWindow p; min (w.1 + w.2) (a + n) - max w.1 a

/-- Bytes that a harvest moves on a memory: its sources read, its image written and read back, and once more read for an
export (R332).
DEDUCED, log entry 65. -/
def State.harvestMoves (s : State) (gs : List HSeg) (dest p : Nat) : Nat :=
  (gs.map (fun g => bytesIn p g.base (g.blocks * 0x10000))).sum +
    (if dest = 0 then 2 else 3) * bytesIn p (s.rg .hrvAreaBase) (imageLen gs)

/-- The promise of a harvest: M and, for the slowest memory, its bytes at the declared rate (R360). -/
def State.harvestPromise (s : State) (gs : List HSeg) (dest : Nat) (es : List Demand) : Nat :=
  s.margin + (es.map (fun e => (s.harvestMoves gs dest e.p * 1750 + (e.total - 1)) / e.total)).foldl max 0

/-- The bitmap of n source blocks, every bit set (R330). -/
def fullBitmap (n : Nat) : List Byte :=
  List.replicate (n / 8) 0xFF ++ (if n % 8 = 0 then [] else [BitVec.ofNat 8 (2 ^ (n % 8) - 1)])

/-- The bytes of block j of a watch segment: past the last layer they are zero. -/
def State.watchBlock (s : State) (g : HSeg) (j : Nat) : List Byte :=
  let n := min 0x10000 (s.watchLayers * 0x400 - j * 0x10000)
  padTo 0x10000 (readRange s (g.base + j * 0x10000) n).data

/-- Writes the watch-table snapshot of a harvest, whose blocks follow those of its sources (R329). -/
def copyWatch (k : Nat) (g : HSeg) (s : State) : State :=
  each (List.range g.blocks) (fun j s =>
    let s := noteRead (g.base + j * 0x10000) 0x10000 4 s.oldestStep s
    let b := s.watchBlock g j
    let s := writeVerified 0 0 (k + j) (s.rg .hrvAreaBase + g.blockOff j) b s
    let s := s.setRgBits .hrvProgress 0 32 (s.rgBits .hrvProgress 0 32 + 1)
    updHarvest (fun h => { h with crcs := sput 0 h.crcs (k + j) (crc64 b) }) s) s

/-- The watch segments of an image, each with the index of its first block. -/
def watchFrom : Nat → List HSeg → List (Nat × HSeg)
  | _, [] => []
  | k, g :: gs => if g.kind = 1 then (k, g) :: watchFrom (k + g.blocks) gs else watchFrom (k + g.blocks) gs

/-- An admitted harvest: every bit of its bitmap is set, and the watch table is written. -/
def actHarvest (d : HostDesc) (i : Inflight) (s : State) : State :=
  let gs := s.imageSegs (harvestMirror d)
  let es := harvestDemand d
  let h : HarvestOp :=
    { desc := i.id, version := s.steps.version, mirror := harvestMirror d, dest := harvestDest d, node := descNum d 0x12 2,
      addr := descNum d 0x18 8, rates := es, segs := gs, stage2 := false, next := 0, crcs := [], failed := false, ovf := 0,
      udf := 0, nonf := 0, start := s.aon, key := s.steps.key,
      nodeId := if harvestMirror d then s.partner else s.nodeId,
      inc := if harvestMirror d then s.incOf s.partner else s.ownInc }
  let s := addInflight { i with promise := s.harvestPromise gs (harvestDest d) es, work := .harvest } s
  let s := s.memPut (s.rg .hrvBitmapBase) (fullBitmap (sourceBlocks gs))
  let s := s.setRg .hrvProgress (segsBlocks gs * 2 ^ 32)
  each (watchFrom 0 gs) (fun x s => copyWatch x.1 x.2 s) { s with hrv := { s.hrv with op := some h } }

/-- HARVEST_BEGIN: starts an image of the current version. -/
def harvestBeginOp (d : HostDesc) (s : State) : State :=
  if harvestDest d = 3 then s else consume 0x07 d (judgeHarvest d) (actHarvest d) s

/-- HARVEST_BEGIN (R328). -/
def execHarvestBegin (d : HostDesc) (s : State) : Host.Outcome State Fault Refusal := .next (harvestBeginOp d s)

/-! ## The manifest (R333) -/

/-- Bytes in the order of SEC 1, the most significant first. -/
def beBytes (n v : Nat) : List Byte := (leBytes n v).reverse

/-- The CRC table of an image. -/
def HarvestOp.table (h : HarvestOp) : List Byte :=
  (List.range (segsBlocks h.segs)).flatMap (fun k => leBytes 8 (sget 0 h.crcs k).toNat)

/-- The segment table of an image. -/
def segTable (gs : List HSeg) : List Byte :=
  padTo 512 (gs.flatMap (fun g => leBytes 4 g.blocks ++ leBytes 1 g.mode ++ leBytes 1 g.kind ++ leBytes 2 0 ++ leBytes 8 g.imgOff))

/-- The part of the header that its digest covers. -/
def State.manifestBody (s : State) (h : HarvestOp) : List Byte :=
  let flags := (if s.rgBit .hrvSignCfg 0 then 1 else 0) + (if h.segs.any (fun g => g.kind = 1) then 2 else 0) +
    (if h.mirror then 4 else 0) + (if h.failed then 8 else 0)
  padTo 0x100 (leBytes 4 0x4D565248 ++ leBytes 1 1 ++ leBytes 1 flags ++ leBytes 2 h.segs.length ++ leBytes 8 h.key.toNat
    ++ leBytes 5 h.version ++ leBytes 1 h.inc ++ leBytes 2 h.nodeId ++ leBytes 4 (segsBlocks h.segs) ++ leBytes 4 0
    ++ leBytes 8 (dataOffset (segsBlocks h.segs)) ++ leBytes 8 (imageLen h.segs) ++ leBytes 8 h.start ++ leBytes 8 s.aon
    ++ leBytes 8 h.ovf ++ leBytes 8 h.udf ++ leBytes 8 h.nonf)
  ++ segTable h.segs

/-- The header of an image: its body, the digest of the body and the CRC table, and the signature and key when the module
signs. -/
def State.manifest (s : State) (h : HarvestOp) : List Byte :=
  let body := s.manifestBody h
  let dig := Config.sha384 (body ++ h.table)
  let sign := s.rgBit .hrvSignCfg 0
  padTo 1024 (body ++ beBytes 48 dig.toNat
    ++ (if sign then beBytes 96 (Config.ecdsaSign dig s.stw.sigs).toNat ++ beBytes 97 Config.identityKey.toNat else []))

/-- Counts a signature that the module has made. -/
def countSig (s : State) : State := { s with stw := { s.stw with sigs := s.stw.sigs + 1 } }

/-- Ends stage 1: the CRC table, and the header last; a harvest to the barn, or one that failed, completes, any other goes on
to its export (R328, R332, R333). -/
def endStage1 (h : HarvestOp) (s : State) : State :=
  let a := s.rg .hrvAreaBase
  let hdr := s.manifest h
  let s := enginePut a hdr (enginePut (a + 1024) h.table s)
  let s := if s.rgBit .hrvSignCfg 0 then countSig s else s
  if h.failed then endHarvest .verifyFail s
  else if h.dest = 0 then endHarvest .ok s
  else let (op, s) := newOp s; updHarvest (fun h => { h with stage2 := true, next := 0, op := op }) s

/-! ## Export (R328, R332, R333) -/

/-- Pieces of a RECOVERY transfer: kind, detected-line mask, and byte 31 (R322). -/
def recoveryPieces (kind area a : Nat) (data : List Byte) (bad : List Bool) : List Piece := mirrorPieces kind area a data bad

/-- The part of an image that an export is at: its offset and its length. -/
def HarvestOp.part (h : HarvestOp) : Nat × Nat :=
  match segAt h.segs h.next with
  | some (g, j) => (g.blockOff j, imageBytes g.mode)
  | none => if h.next = segsBlocks h.segs then (1024, 8 * segsBlocks h.segs) else (0, 1024)

/-- Whether the part is the header, which is written last. -/
def HarvestOp.atHeader (h : HarvestOp) : Bool := segsBlocks h.segs < h.next

/-- The bytes of the part that an export is at: those of the barn image, or the header of an image that has failed since (R332,
R333). -/
def State.partBytes (s : State) (h : HarvestOp) : List Byte :=
  if h.atHeader && h.failed then s.manifest h else (readRange s (s.rg .hrvAreaBase + h.part.1) h.part.2).data

/-- The CRC-64 that the part must have when it is read back: that of its block as it was formed. -/
def State.partCrc (s : State) (h : HarvestOp) : Quad :=
  if (segAt h.segs h.next).isSome then sget 0 h.crcs h.next else crc64 (s.partBytes h)

/-- Writes the part at the export's destination (R328, R332, DESIGN CHOICE, log entry 66). -/
def exportPart (h : HarvestOp) (s : State) : State :=
  let s := noteRead (s.rg .hrvAreaBase + h.part.1) h.part.2 4 s.oldestStep s
  let b := s.partBytes h
  let s := if h.atHeader && h.failed && s.rgBit .hrvSignCfg 0 then countSig s else s
  let s := if h.dest = 1 then s.emit (.hostWrite true (h.addr + h.part.1) b)
    else underOp h.op (sendParts 0x21 h.node 3 .export_ (recoveryPieces 4 0 (h.addr + h.part.1) b []) none) s
  updHarvest (fun h => { h with phase := 1, back := [] }) s

/-- Goes on to the next part; after the header the harvest ends (R332, R333). -/
def nextPart (h : HarvestOp) (s : State) : State :=
  if h.atHeader then endHarvest (if s.hrv.op.any (·.failed) then .verifyFail else .ok) s
  else updHarvest (fun h => { h with next := h.next + 1, phase := 0, again := false }) s

/-- Judges a part that has been read back: one that differs is written once more from the barn image, and one that differs again has
failed (R332). -/
def judgePart (h : HarvestOp) (b : List Byte) (s : State) : State :=
  if crc64 b = s.partCrc h then nextPart h s
  else if h.again then nextPart h (verifyFailed h.dest 0 h.next (crc64 b) s)
  else updHarvest (fun h => { h with phase := 0, again := true }) s

/-- Bytes of host memory that a command brings; none where a read of it fails (R344). -/
def hostBytes (host : List (Nat × Byte)) (a n : Nat) : Option (List Byte) :=
  let bs := (upFrom a n).map (sfind host)
  if bs.all Option.isSome then some (bs.filterMap id) else none

/-- Bytes of the read requests that read a part back. -/
def HarvestOp.backLen (h : HarvestOp) : Nat := (h.part.2 + 63) / 64 * 64

/-- Sends the read requests that read a part back from a node (R261, R332). -/
def sendBack (h : HarvestOp) (s : State) : State :=
  let (xid, s) := newXid s
  let a := h.addr + h.part.1
  let (port, after, behind) := readPort s h.node a (a + h.backLen)
  let ks := (upFrom 0 ((h.backLen + 4095) / 4096))
  let i : InXfer := { src := h.node, xid := xid, vl := 0, port := port, next := ks.length, got := 0, last := s.cyc, extend := 0,
                      stalled := false, tracked := true, reads := [], opened := false, back := true }
  let req (k : Nat) : OutPacket :=
    let flags := 2 + (if k = 0 then 4 else 0) + (if k + 1 = ks.length then 8 else 0)
    let x : Piece := { addr := a + 4096 * k, data := [], spec := specBytes [(22, 2, min 4096 (h.backLen - 4096 * k))] }
    { (s.ownPacket 0x02 h.node xid k flags x 0 0).out 2 true after with behind := behind }
  updHarvest (fun h => { h with phase := 2, back := [] })
    (enqueue port (ks.map req) { s with fab := { s.fab with inn := s.fab.inn ++ [i] } })

/-- An export goes on: a part is written, read back once its writing is acknowledged, and judged. A failed image's header is not read
back (R328, R332, R333, R344). -/
def exportNext (h : HarvestOp) (host : List (Nat × Byte)) (s : State) : State :=
  if h.phase = 0 then
    if s.engineHeld (s.rg .hrvAreaBase + h.part.1) h.part.2 then s else exportPart h s
  else if h.phase = 1 then
    if h.dest = 1 then
      if h.atHeader && h.failed then nextPart h s
      else
        match hostBytes host (h.addr + h.part.1) h.part.2 with
        | some b => judgePart h b s
        | none => endHarvest .abandoned s
    else if s.unackedFor .export_ then s
    else if h.atHeader && h.failed then nextPart h s
    else sendBack h s
  else if h.back.length < h.backLen then s
  else judgePart h (h.back.take h.part.2) s

/-- The lowest source block that has not been copied. -/
def State.nextBlock (s : State) (h : HarvestOp) : Option Nat := (List.range (sourceBlocks h.segs)).find? s.uncopied

/-- Whether the copy of a source block waits for its memories. No request to the block goes ahead of the copy: its writes wait for it
(R184, R190, R330). -/
def State.blockHeld (s : State) (h : HarvestOp) (i : Nat) : Bool :=
  match segAt h.segs i with
  | some (g, j) =>
    let a := g.base + j * 0x10000
    s.rangeHeld a 0x10000 || s.hotShort a 0x10000 || s.engineHeld (s.rg .hrvAreaBase + g.blockOff j) (imageBytes g.mode)
  | none => false

/-- HARVEST_BLOCK_COPY: the engine copies the next source block; when none is left it writes the CRC table and the manifest,
and exports. host gives what host memory returns when an export is read back. -/
def harvestBlockCopyOp (host : List (Nat × Byte)) (s : State) : State :=
  if !s.alive then s
  else
    match s.hrv.op with
    | none => s
    | some h =>
      if h.stage2 then (if h.dest = 1 && !s.hostUp then s else exportNext h host s)
      else
        match s.nextBlock h with
        | some i => if s.blockHeld h i then s else copyBlock i s
        | none => if s.engineHeld (s.rg .hrvAreaBase) (dataOffset (segsBlocks h.segs)) then s else endStage1 h s

/-- HARVEST_BLOCK_COPY (R330); host is what host memory answers to a read-back (R332), nothing unless the command gives it. -/
def execHarvestBlockCopy (s : State) (host : List (Nat × Byte) := []) : Host.Outcome State Fault Refusal :=
  .next (harvestBlockCopyOp host s)

/-! ## HRV_ENABLE (R444) -/

/-- HARVEST_ENGINE_ENABLE: HRV_ENABLE.enable; during a DISABLE of the engine it is ignored and recorded. -/
def harvestEngineEnableOp (s : State) : State :=
  if (s.disabling 5 0).isSome then barErr 36 0x700060 s else s.setRgBits .hrvEnable 0 1 1

/-- HARVEST_ENGINE_ENABLE (R444). -/
def execHarvestEngineEnable (s : State) : Host.Outcome State Fault Refusal :=
  .next (barWrite 0x700060 harvestEngineEnableOp s)

/-! ## RESTORE (R335 to R337) -/

/-- A candidate from its 32 bytes; none when bytes that must be zero are not. -/
def candOf (b : List Byte) : Option Cand :=
  if numIn b 5 1 ≤ 1 && numIn b 6 2 = 0 && numIn b 24 8 = 0 then
    some { step := numIn b 0 5, host := numIn b 5 1 = 0, addr := numIn b 8 8, len := numIn b 16 8, ok := false }
  else none

/-- The candidates of a RESTORE. -/
def restoreCands (d : HostDesc) : List (Option Cand) :=
  (List.range (descNum d 0x18 1)).map (fun k => candOf (((descData d).drop (32 * k)).take 32))

/-- The group of a RESTORE. -/
def restoreGroup (d : HostDesc) : Option Nat := if bit (descNum d 0x19 1) 0 then some (descNum d 0x1A 2) else none

/-- Whether command 0 of a group is the one that a RESTORE needs, and the group stands at it (R337). -/
def State.restoreGroupOk (s : State) (g : Nat) : Bool :=
  let e := s.collEntry g
  let c := s.collCmd e 0
  g < 4096 && (s.group g).st = .idle && (s.group g).cmd = 0 && c.op = 2 && c.elems = 8 && c.red = 2 && c.trans = 1 && c.fin = 7 &&
  c.fout = 7

/-- Whether a candidate in this module's memory cannot be read yet (R184, R190). -/
def State.candsHeld (s : State) (cs : List Cand) : Bool := cs.any (fun c => !c.host && s.engineHeld c.addr c.len)

/-- What the module answers to a RESTORE. -/
def judgeRestore (d : HostDesc) (s : State) : Answer :=
  let n := descNum d 0x18 1
  let cs := (restoreCands d).filterMap id
  if n = 0 || 8 < n || !slotsAre d ((n + 1) / 2) || cs.length ≠ n || !(cs.map (·.step)).Nodup ||
     cs.any (fun c => !c.host && !s.mpaOk c.addr c.len) then .fail .malformed
  else if s.harvestOut then .refuse 11
  else if s.steps.job || s.hrv.op.isSome || s.hrv.restore.isSome then .refuse 12
  else if (restoreGroup d).any (fun g => !s.restoreGroupOk g) then .fail .malformed
  else if s.candsHeld cs then .hold
  else .accept

/-- Bytes of a candidate's image: from the host memory that a command brings, where a read may fail, or from this module's. -/
def State.candBytes (s : State) (host : List (Nat × Byte)) (c : Cand) (off n : Nat) : Option (List Byte) :=
  if c.host then hostBytes host (c.addr + off) n else some (readRange s (c.addr + off) n).data

/-- The segments of a manifest. -/
def manifestSegs (h : List Byte) : List HSeg :=
  (List.range (min 32 (numIn h 6 2))).map (fun k =>
    let o := 0x100 + 16 * k
    { kind := numIn h (o + 5) 1, mode := numIn h (o + 4) 1, base := 0, blocks := numIn h o 4, imgOff := numIn h (o + 8) 8 })

/-- Whether a candidate's manifest is the one it must be: magic, failed flag, digest, signature, key, step and node (R336). -/
def State.manifestOk (s : State) (key : Quad) (c : Cand) (h table : List Byte) : Bool :=
  let dig := Config.sha384 (h.take 0x300 ++ table)
  numIn h 0 4 = 0x4D565248 && !bit (numIn h 5 1) 3 && beBytes 48 dig.toNat = (h.drop 0x300).take 48 &&
  (!s.rgBit .hrvSignCfg 1 || Config.ecdsaVerify ((h.drop 0x390).take 97) dig ((h.drop 0x330).take 96)) &&
  numIn h 8 8 = key.toNat && numIn h 0x10 5 = c.step && numIn h 0x16 2 = s.nodeId

/-- Whether a block's CRC-64 is the one that the table gives it. -/
def crcMatches (table : List Byte) (k : Nat) (b : List Byte) : Bool := (crc64 b).toNat = numIn table (8 * k) 8

/-- What a candidate's manifest says: its header, its segments and its CRC table; none where a read of host memory fails. -/
def State.candManifest (s : State) (host : List (Nat × Byte)) (c : Cand) : Option (List Byte × List HSeg × List Byte) :=
  match s.candBytes host c 0 1024 with
  | some h => (s.candBytes host c 1024 (8 * segsBlocks (manifestSegs h))).map (fun t => (h, manifestSegs h, t))
  | none => none

/-- The image blocks of a candidate that agree with its CRC table; none where a read of host memory fails. -/
def State.candBlocks (s : State) (host : List (Nat × Byte)) (c : Cand) (gs : List HSeg) (table : List Byte) : Option (List Nat) :=
  let one (k : Nat) : Option (Option Nat) := match segAt gs k with
    | some (g, j) =>
      if g.blockOff j + imageBytes g.mode ≤ c.len then
        (s.candBytes host c (g.blockOff j) (imageBytes g.mode)).map (fun b => if crcMatches table k b then some k else none)
      else some none
    | none => some none
  let ks := (List.range (segsBlocks gs)).map one
  if ks.all Option.isSome then some (ks.filterMap (fun x => x.bind id)) else none

/-- What reading a candidate finds: whether it is verified, the blocks that agree, and the blocks of its image; none where a read of
host memory fails (R336, R344).
DEDUCED, log entry 67. -/
def State.verifies (s : State) (key : Quad) (host : List (Nat × Byte)) (c : Cand) : Option (Bool × Nat × Nat) :=
  match s.candManifest host c with
  | some (h, gs, table) =>
    let n := segsBlocks gs
    if s.manifestOk key c h table && n = numIn h 0x18 4 then
      (s.candBlocks host c gs table).map (fun ks => (ks.length = n, ks.length, n))
    else some (false, 0, 0)
  | none => none

/-- Writes the agreement's input, and signals its trigger (R337). -/
def joinAgreement (g : Nat) (cs : List Cand) (s : State) : State :=
  let c := s.collCmd (s.collEntry g) 0
  let v := (List.range 8).flatMap (fun j => leBytes 4 (if (cs[j]?).any (·.ok) then 0x3F800000 else 0))
  addSignal { source := .host, pass := none, dest := none, node := 0, tally := c.trigger, inc := c.need, fence := [], lines := [],
              desc := none, bare := false } (unitWrite c.input v s)

/-- The promise of a RESTORE, which declares no rate: M, and the bytes of every candidate, and once more those of the longest, at the
rate of the host link (R339, R360, DESIGN CHOICE, log entry 67). -/
def State.restorePromise (s : State) (cs : List Cand) : Nat :=
  s.margin + (((cs.map (·.len)).sum + (cs.map (·.len)).foldl max 0) * 7 + 199) / 200

/-- An accepted RESTORE: its candidates are verified, and it takes part in the agreement of its group; a failed read of host memory
ends it as an abandoned transfer does (R336, R337, R344). -/
def actRestore (d : HostDesc) (host : List (Nat × Byte)) (i : Inflight) (s : State) : State :=
  let key := BitVec.ofNat 64 (descNum d 0x10 8)
  let cs := (restoreCands d).filterMap id
  let s := each (cs.filter (fun c => !c.host)) (fun c s => noteRead c.addr c.len 4 s.oldestStep s) s
  let vs := cs.map (s.verifies key host)
  let i := { i with promise := s.restorePromise cs, work := .restore }
  if vs.any Option.isNone then finish i .abandoned 0 [] [] s
  else
    let found := vs.filterMap id
    let cs := (cs.zip found).map (fun x => { x.1 with ok := x.2.1 })
    let s := s.setRg .hrvProgress ((found.map (·.2.1)).sum + (found.map (·.2.2)).sum * 2 ^ 32)
    let goal : Word := match restoreGroup d with
      | some g => let c := s.collCmd (s.collEntry g) 0; (s.mtally c.done).count + BitVec.ofNat 32 c.inc
      | none => 0
    let s := addInflight i s
    let s := { s with hrv := { s.hrv with restore := some { desc := i.id, key := key, cands := cs, group := restoreGroup d,
                                                            target := goal } } }
    match restoreGroup d with
    | some g => joinAgreement g cs s
    | none => s

/-- RESTORE: verifies candidate images. -/
def restoreOp (d : HostDesc) (host : List (Nat × Byte)) (s : State) : State :=
  consume 0x08 d (judgeRestore d) (actRestore d host) s

/-- RESTORE (R335). -/
def execRestore (d : HostDesc) (host : List (Nat × Byte)) (s : State) : Host.Outcome State Fault Refusal :=
  .next (restoreOp d host s)

/-! ## The commit (R338, R339) -/

/-- Ends a restore with a status. -/
def endRestore (st : Status) (s : State) : State :=
  match s.hrv.restore with
  | some r => settle (complete r.desc st 0 [] [] { s with hrv := { s.hrv with restore := none } })
  | none => s

/-- The slots of the agreement: the output of the group, or the module's own vector. -/
def State.agreed (s : State) (r : RestoreOp) : List Bool :=
  match r.group with
  | some g =>
    let c := s.collCmd (s.collEntry g) 0
    (List.range 8).map (fun j => s.memNum (c.output + 4 * j) 4 = 0x3F800000)
  | none => r.cands.map (·.ok)

/-- The newest candidate whose slot is 1.0. -/
def State.commonStep (s : State) (r : RestoreOp) : Option Cand :=
  ((r.cands.zip (s.agreed r)).filter (·.2)).foldl (fun best x => match best with
    | none => some x.1
    | some c => if c.step < x.1.step then some x.1 else some c) none

/-- Copies one block of an image into the staging area, and reads it back: a block that fails is copied once more. none says that a
read of host memory failed (R338, R339, R344). -/
def stageBlock (host : List (Nat × Byte)) (c : Cand) (table : List Byte) (g : HSeg) (k j : Nat) (s : State) : State × Option Bool :=
  let n := imageBytes g.mode
  let a := s.rg .hrvStageBase + g.blockOff j
  let fits : Bool := g.blockOff j + n ≤ s.rg .hrvStageSize
  match s.candBytes host c (g.blockOff j) n with
  | none => (s, none)
  | some b =>
    let put (s : State) : ReadOut × State := readBy 4 s.oldestStep a n (if fits then enginePut a b s else s)
    let good (r : ReadOut) : Bool := fits && crcMatches table k r.data
    let (r1, s1) := put s
    if good r1 then (s1, some true)
    else
      let (r2, s2) := put s1
      if good r2 then (s2, some true) else (verifyFailed 3 1 k (crc64 r2.data) s2, some false)

/-- Stages an image block by block, up to the first that fails. -/
def stageBlocks (host : List (Nat × Byte)) (c : Cand) (table : List Byte) (gs : List HSeg) : List Nat → State → State × Option Bool
  | [], s => (s, some true)
  | k :: ks, s =>
    match segAt gs k with
    | some (g, j) =>
      let r := stageBlock host c table g k j s
      if r.2 = some true then stageBlocks host c table gs ks (r.1.setRgBits .hrvProgress 0 32 (k + 1)) else r
    | none => (s, some true)

/-- Writes the staged blocks of segments to their places, shard blocks counted from sh, extra ones from ex, watch banks from w
(R338). -/
def commitSegs (area : Nat) : Nat → Nat → Nat → List HSeg → State → State
  | _, _, _, [], s => s
  | sh, ex, w, g :: gs, s =>
    let block (s : State) (j : Nat) : List Byte :=
      widen g.mode (readRange s (s.rg .hrvStageBase + g.blockOff j) (imageBytes g.mode)).data
    if g.kind = 1 then
      let bank := s.rg .numWatchBase + w * 0x4000000
      commitSegs area sh ex (w + 1) gs (each (List.range g.blocks) (fun j s =>
        unitWrite (bank + j * 0x10000) ((block s j).take (s.watchLayers * 0x400 - j * 0x10000)) s) s)
    else
      let m := if g.kind = 0 then s.mapSegs false else s.extraMap
      let o := if g.kind = 0 then sh else ex
      let s := each (List.range g.blocks) (fun j s =>
        if o + j < mapBlocks m then unitWrite (blockAddr area m (o + j)) (block s j) s else s) s
      if g.kind = 0 then commitSegs area (sh + g.blocks) ex w gs s else commitSegs area sh (ex + g.blocks) w gs s

/-- Stages and commits the image of a candidate, and starts the job; a job that R265 or R431 keeps from starting leaves the
module as it was. -/
def commitRestore (host : List (Nat × Byte)) (c : Cand) (s : State) : State :=
  let s := if c.host then s else noteRead c.addr c.len 4 s.oldestStep s
  match s.candManifest host c with
  | none => endRestore .abandoned s
  | some (h, gs, table) =>
    let n := segsBlocks gs
    let s := s.setRg .hrvProgress (n * 2 ^ 32)
    let (s, ok) := stageBlocks host c table gs (List.range n) (enginePut (s.rg .hrvStageBase) (h ++ table) s)
    if ok = none then endRestore .abandoned s
    else if ok = some false then endRestore .verifyFail s
    else if !({ s with hrv := { s.hrv with restore := none } } : State).mayStart then endRestore .aborted (stpErr s)
    else
      let s := noteRead (s.rg .hrvStageBase) (imageLen gs) 4 s.oldestStep s
      let s := endRestore .ok (commitSegs (c.step % 2) 0 0 0 gs s)
      startJob (BitVec.ofNat 64 (numIn h 8 8)) (some c.step) s

/-- Whether the staging area or a candidate in this module's memory cannot be read or written yet (R184, R190). -/
def State.stageHeld (s : State) (c : Cand) : Bool :=
  s.engineHeld (s.rg .hrvStageBase) (s.rg .hrvStageSize) || s.candsHeld [c]

/-- Whether the agreement of a restore has ended. -/
def State.agreementDone (s : State) (r : RestoreOp) : Bool :=
  match r.group with
  | some g => (s.mtally (s.collCmd (s.collEntry g) 0).done).meets r.target
  | none => true

/-- Whether the group of a restore has failed. -/
def State.agreementFailed (s : State) (r : RestoreOp) : Bool :=
  r.group.any (fun g => (s.group g).st = .failed || (s.group g).st = .disabled)

/-- RESTORE_COMMIT: once the agreement has ended, the image of the common step is staged and committed, and a job started. -/
def restoreCommitOp (host : List (Nat × Byte)) (s : State) : State :=
  if !s.alive then s
  else
    match s.hrv.restore with
    | none => s
    | some r =>
      if s.agreementFailed r then endRestore .aborted s
      else if !s.agreementDone r then s
      else if r.cands.all (fun c => !c.ok) then endRestore .verifyFail s
      else
        match s.commonStep r with
        | none => endRestore .restoreMixed s
        | some c => if (c.host && !s.hostUp) || s.stageHeld c then s else commitRestore host c s

/-- RESTORE_COMMIT (R338). -/
def execRestoreCommit (host : List (Nat × Byte)) (s : State) : Host.Outcome State Fault Refusal :=
  .next (restoreCommitOp host s)

end Sys2Proof.Machine
end

