-- ==== Sys2Proof/Machine/Firmware.lean ====
section
/-! DEFINITION. Firmware images and their verification, the Steward mailbox, SPDM and the I3C address (R384 to R392, R413). -/

namespace Sys2Proof.Machine

set_option Elab.async false

/-! ## Images (R385, R386) -/

/-- Bytes of one firmware slot (R385). -/
def slotSize : Nat := 0x800000

/-- A byte of the on-module flash. -/
def State.flashByte (s : State) (k : Nat) : Byte := (sfind s.stw.flash k).getD (Config.factoryByte k)

/-- Bytes of a firmware slot (0 A, 1 B), from an offset. -/
def State.slotBytes (s : State) (slot off n : Nat) : List Byte := (upFrom (slot * slotSize + off) n).map s.flashByte

/-- A little-endian number in a slot. -/
def State.slotNum (s : State) (slot off n : Nat) : Nat := leNat (s.slotBytes slot off n)

/-- A number written as a byte string, most significant byte first (R385). -/
def State.slotString (s : State) (slot off n : Nat) : Nat := leNat (s.slotBytes slot off n).reverse

/-- Whether a slot holds the image it was delivered with: nothing has been written to it. -/
def State.delivered (s : State) (slot : Nat) : Bool :=
  s.stw.flash.all (fun e => e.1 < slot * slotSize || slot * slotSize + slotSize ≤ e.1)

/-- The security version of a slot's image; that of a delivered image is 0 (DESIGN CHOICE, log entry 9). -/
def State.secVersion (s : State) (slot : Nat) : Nat := if s.delivered slot then 0 else s.slotNum slot 6 1

/-- Body bytes of a slot's image. -/
def State.bodyLength (s : State) (slot : Nat) : Nat := s.slotNum slot 8 4

/-- The body of a slot's image. -/
def State.imageBody (s : State) (slot : Nat) : List Byte := s.slotBytes slot 512 (s.bodyLength slot)

/-- Check 1: magic, header version, body length, entry offset within the body. -/
def State.headerOk (s : State) (slot : Nat) : Bool :=
  s.slotNum slot 0 4 = 0x46574454 && s.slotNum slot 4 2 = 1 && s.bodyLength slot % 64 = 0 &&
  s.bodyLength slot ≤ slotSize - 512 && s.slotNum slot 0xC 4 < s.bodyLength slot

/-- Check 2: the digest of the header's key is the fuse hash of its key slot, which is not revoked. -/
def State.keyOk (s : State) (slot : Nat) : Bool :=
  let k := s.slotNum slot 7 1
  k < 4 && Config.sha384 (s.slotBytes slot 0xB0 97) = Config.keyHash k && !Config.revoked.getLsbD k

/-- Check 4: the digest of the body. -/
def State.bodyOk (s : State) (slot : Nat) : Bool := (Config.sha384 (s.imageBody slot)).toNat = s.slotString slot 0x80 48

/-- Check 5: the signature of the header. -/
def State.signatureOk (s : State) (slot : Nat) : Bool :=
  Config.ecdsaVerify (s.slotBytes slot 0xB0 97) (Config.sha384 (s.slotBytes slot 0 0x180)) (s.slotBytes slot 0x180 96)

/-- The failure code of a slot: the number of the first check that fails, 0 when every check passes (R386). A delivered image
passes every check but that of the anti-rollback counter (DESIGN CHOICE, log entry 9). -/
def State.verifyCode (s : State) (slot : Nat) : Nat :=
  if s.delivered slot then (if s.secVersion slot < s.stw.fuse then 3 else 0)
  else if !s.headerOk slot then 1
  else if !s.keyOk slot then 2
  else if s.secVersion slot < s.stw.fuse then 3
  else if !s.bodyOk slot then 4
  else if !s.signatureOk slot then 5
  else 0

/-! ## Mailbox (R388, R389) -/

/-- The slot that does not run. -/
def State.inactive (s : State) : Nat := 1 - s.stw.bootSlot

/-- A Steward register write that is ignored (R399). -/
def stwErr (s : State) : State := s.flag .stwStatus 7

/-- A mailbox command that is ignored. -/
def mboxErr (s : State) : State := (stwErr s).flag .stwMboxStatus 1

/-- The mailbox takes a command: act gives its effect and its result code. A command while one is under way is ignored.
DEDUCED, log entry 18. -/
def mboxTake (op : Nat) (act : State → State × Nat) (s : State) : State :=
  if !s.stw.good then s
  else if s.stw.mboxBusy.isSome then mboxErr s
  else
    let r := act (s.setRgBits .stwMboxStatus 1 1 0)
    { r.1 with stw := { r.1.stw with mboxBusy := some (op, r.2) } }

/-- A write to STW_MBOX_CMD. -/
def mboxWrite (op : Nat) (act : State → State × Nat) (s : State) : State := stwWrite (mboxTake op act) s

/-- A byte of STW_MBOX_DATA. -/
def State.mboxByte (s : State) (k : Nat) : Byte := sget 0 s.stw.mboxData k

/-- Writes bytes to the flash. -/
def writeFlash (a : Nat) (b : List Byte) (s : State) : State :=
  { s with stw := { s.stw with flash := b.zipIdx.foldl (fun m x => sinsert (a + x.2) x.1 m) s.stw.flash } }

/-- Op 1: 4 KiB to the inactive slot. -/
def mboxSlotAct (arg : Nat) (s : State) : State × Nat :=
  if slotSize < (arg + 1) * 4096 then (s, 1)
  else
    let s := writeFlash (s.inactive * slotSize + arg * 4096) ((List.range 4096).map s.mboxByte) s
    ({ s with stw := { s.stw with verified := false } }, 0)

/-- MBOX_WRITE_SLOT: writes STW_MBOX_DATA to the inactive slot. -/
def mboxWriteSlotOp (arg : Nat) (s : State) : State := mboxWrite 1 (mboxSlotAct arg) s

/-- MBOX_WRITE_SLOT (R389). -/
def execMboxWriteSlot (arg : Nat) (s : State) : Host.Outcome State Fault Refusal := .next (mboxWriteSlotOp arg s)

/-- Op 2: verifies the inactive slot. -/
def mboxVerifyAct (s : State) : State × Nat :=
  let c := s.verifyCode s.inactive
  ({ s with stw := { s.stw with verified := c = 0 } }, if c = 0 then 0 else 10 + c)

/-- MBOX_VERIFY_SLOT: verifies the inactive slot. -/
def mboxVerifySlotOp (s : State) : State := mboxWrite 2 mboxVerifyAct s

/-- MBOX_VERIFY_SLOT (R389). -/
def execMboxVerifySlot (s : State) : Host.Outcome State Fault Refusal := .next (mboxVerifySlotOp s)

/-- Op 3: the inactive slot becomes the preferred one. -/
def mboxPreferAct (s : State) : State × Nat :=
  if s.stw.verified then ({ s with stw := { s.stw with nv := { s.stw.nv with preferred := some s.inactive } } }, 0) else (s, 2)

/-- MBOX_SET_PREFERRED: makes the inactive slot preferred. -/
def mboxSetPreferredOp (s : State) : State := mboxWrite 3 mboxPreferAct s

/-- MBOX_SET_PREFERRED (R389). -/
def execMboxSetPreferred (s : State) : Host.Outcome State Fault Refusal := .next (mboxSetPreferredOp s)

/-- The security version of the running image. -/
def State.runningVersion (s : State) : Nat := s.rgBits .stwBoot 2 6

/-- Op 4: F rises to the running image's security version. -/
def mboxCommitAct (s : State) : State × Nat :=
  if s.stw.fuse < s.runningVersion then ({ s with stw := { s.stw with fuse := s.runningVersion } }, 0) else (s, 3)

/-- MBOX_COMMIT: raises the anti-rollback counter. -/
def mboxCommitOp (s : State) : State := mboxWrite 4 mboxCommitAct s

/-- MBOX_COMMIT (R388). -/
def execMboxCommit (s : State) : Host.Outcome State Fault Refusal := .next (mboxCommitOp s)

/-- The contents of the non-volatile store, as numbers. -/
def Nv.numbers (v : Nv) : List Nat :=
  v.retired.flatMap (fun e => [e.1, e.2]) ++ v.absent ++ v.failed ++ v.pcRetired.flatMap (fun e => [e.1, e.2]) ++
  [v.preferred.getD 2, if v.authFail then 1 else 0]

/-- Op 5: reads a record of the non-volatile store. -/
def mboxRecordAct (arg : Nat) (s : State) : State × Nat :=
  match Config.nvRecord s.stw.nv.numbers arg with
  | none => (s, 1)
  | some b => ({ s with stw := { s.stw with
      mboxData := (b.take 4096).zipIdx.foldl (fun m x => sput 0 m x.2 x.1) s.stw.mboxData } }, 0)

/-- MBOX_READ_RECORD: reads a record of the non-volatile store into STW_MBOX_DATA. -/
def mboxReadRecordOp (arg : Nat) (s : State) : State := mboxWrite 5 (mboxRecordAct arg) s

/-- MBOX_READ_RECORD (R389). -/
def execMboxReadRecord (arg : Nat) (s : State) : Host.Outcome State Fault Refusal := .next (mboxReadRecordOp arg s)

/-- MBOX_COMMAND_COMPLETE: the command under way finishes with its result, and vector 0 is sent. -/
def mboxCommandCompleteOp (s : State) : State :=
  match s.stw.mboxBusy with
  | some (_, r) => sendMsix 0 (({ s with stw := { s.stw with mboxBusy := none } } : State).setRgBits .stwMboxStatus 8 8 r)
  | none => s

/-- MBOX_COMMAND_COMPLETE (R389). -/
def execMboxCommandComplete (s : State) : Host.Outcome State Fault Refusal := .next (mboxCommandCompleteOp s)

/-- A write of STW_MBOX_CMD by its value; an op that the table does not list is ignored. -/
def mboxCommand (v : Nat) (s : State) : State :=
  let arg := bits v 8 24
  match bits v 0 8 with
  | 1 => mboxTake 1 (mboxSlotAct arg) s
  | 2 => mboxTake 2 mboxVerifyAct s
  | 3 => mboxTake 3 mboxPreferAct s
  | 4 => mboxTake 4 mboxCommitAct s
  | 5 => mboxTake 5 (mboxRecordAct arg) s
  | _ => mboxErr s

/-! ## SPDM (R391, R392) -/

/-- Answers over the DOE mailbox: a response code and its contents.
PRESUMED, log entry 38. -/
def spdmAnswer (code : Nat) (b : List Byte) (s : State) : State := s.emit (.doe (leBytes 1 code ++ b))

/-- Answers with an SPDM error. -/
def spdmError (code : Nat) (s : State) : State := spdmAnswer 0x7F (leBytes 1 code) s

/-- An SPDM request at a stage of the exchange: version, capabilities and algorithms come first, in order. -/
def spdmRequest (stage : Nat) (act : State → State) (s : State) : State :=
  if !s.hostWrites then s
  else if s.stw.spdm.stage < stage then spdmError 4 s
  else act s

/-- The state with the exchange moved to a stage. -/
def State.spdmStage (s : State) (n : Nat) : State := { s with stw := { s.stw with spdm := { s.stw.spdm with stage := n } } }

/-- GET_VERSION: version 1.3; the exchange starts. -/
def getVersionOp (s : State) : State := spdmRequest 0 (fun s => spdmAnswer 0x04 [0x13] (s.spdmStage 1)) s

/-- GET_VERSION (R391). -/
def execGetVersion (s : State) : Host.Outcome State Fault Refusal := .next (getVersionOp s)

/-- The capabilities that the manual lists: certificates, challenge, and measurements with signatures. -/
def spdmCapabilities : Nat := 0x16

/-- GET_CAPABILITIES: certificates, challenge and measurements. -/
def getCapabilitiesOp (s : State) : State :=
  spdmRequest 1 (fun s => spdmAnswer 0x61 (leBytes 4 spdmCapabilities) (s.spdmStage (max 2 s.stw.spdm.stage))) s

/-- GET_CAPABILITIES (R391). -/
def execGetCapabilities (s : State) : Host.Outcome State Fault Refusal := .next (getCapabilitiesOp s)

/-- NEGOTIATE_ALGORITHMS: ECDSA P-384 for signatures, SHA-384 for the base hash and the measurement hash. -/
def negotiateAlgorithmsOp (s : State) : State :=
  spdmRequest 2 (fun s => spdmAnswer 0x63 (leBytes 4 0x80 ++ leBytes 4 0x02 ++ leBytes 4 0x04) (s.spdmStage 3)) s

/-- NEGOTIATE_ALGORITHMS (R391). -/
def execNegotiateAlgorithms (s : State) : Host.Outcome State Fault Refusal := .next (negotiateAlgorithmsOp s)

/-- A digest as a byte string. -/
def digestBytes (d : BitVec 384) : List Byte := beBytes 48 d.toNat

/-- The digest of the certificate chain. -/
def chainDigest : List Byte := digestBytes (Config.sha384 Config.certChain)

/-- GET_DIGESTS: the digest of slot 0's chain. -/
def getDigestsOp (s : State) : State := spdmRequest 3 (spdmAnswer 0x01 chainDigest) s

/-- GET_DIGESTS (R391). -/
def execGetDigests (s : State) : Host.Outcome State Fault Refusal := .next (getDigestsOp s)

/-- GET_CERTIFICATE: a part of slot 0's chain. -/
def getCertificateOp (slot offset length : Nat) (s : State) : State :=
  spdmRequest 3 (fun s =>
    if slot ≠ 0 || Config.certChain.length < offset then spdmError 1 s
    else spdmAnswer 0x02 ((Config.certChain.drop offset).take length) s) s

/-- GET_CERTIFICATE (R391). -/
def execGetCertificate (slot offset length : Nat) (s : State) : Host.Outcome State Fault Refusal :=
  .next (getCertificateOp slot offset length s)

/-- A signature of the identity key over bytes (R390, R391). -/
def State.identitySign (s : State) (b : List Byte) : List Byte := beBytes 96 (Config.ecdsaSign (Config.sha384 b) s.stw.sigs).toNat

/-- The next nonce of the module. -/
def State.nonce (s : State) : List Byte := leBytes 32 (Config.spdmNonce s.stw.spdm.count).toNat

/-- Counts a nonce. -/
def countNonce (s : State) : State :=
  { s with stw := { s.stw with spdm := { s.stw.spdm with count := s.stw.spdm.count + 1 } } }

/-- CHALLENGE: the chain's digest, a nonce, and a signature over both nonces and the digest.
DEDUCED, log entry 39. -/
def challengeOp (slot : Nat) (nonce : BitVec 256) (s : State) : State :=
  spdmRequest 3 (fun s =>
    if slot ≠ 0 then spdmError 1 s
    else
      let body := chainDigest ++ s.nonce
      countSig (countNonce (spdmAnswer 0x03 (body ++ s.identitySign (leBytes 32 nonce.toNat ++ body)) s))) s

/-- CHALLENGE (R391). -/
def execChallenge (slot : Nat) (nonce : BitVec 256) (s : State) : Host.Outcome State Fault Refusal :=
  .next (challengeOp slot nonce s)

/-- What block 4 covers: the straps, and the retired tiles and pseudo-channels. -/
def State.hwConfig (s : State) : List Nat :=
  [if s.stw.present then 1 else 0, s.stw.slotId.toNat, if s.stw.fallow then 1 else 0] ++
  s.stw.nv.retired.flatMap (fun e => [e.1, e.2]) ++ s.stw.nv.absent ++ s.stw.nv.pcRetired.flatMap (fun e => [e.1, e.2])

/-- What block 5 covers: the fuse key hashes and the revocation fuses. -/
def fwConfig : List Nat := (List.range 4).map (fun k => (Config.keyHash k).toNat) ++ [Config.revoked.toNat]

/-- A measurement block's value; none for an index that has no block. -/
def State.measurement (s : State) (k : Nat) : Option (List Byte) :=
  match k with
  | 1 => some (digestBytes (Config.sha384 Config.stewardRom))
  | 2 => some (digestBytes (Config.sha384 (s.slotBytes s.stw.bootSlot 0 512 ++ s.imageBody s.stw.bootSlot)))
  | 3 => some (leBytes 1 s.stw.bootSlot ++ leBytes 1 s.runningVersion ++ leBytes 1 s.stw.fuse ++ leBytes 8 (s.rg .stwIdFwBuild))
  | 4 => some (digestBytes (Config.configDigest 4 s.hwConfig))
  | 5 => some (digestBytes (Config.configDigest 5 fwConfig))
  | _ => none

/-- The answer to GET_MEASUREMENTS: index 0 gives the number of blocks, 0xFF every block, another index its block. -/
def measurementsAct (k : Nat) (s : State) : State :=
  if k = 0 then spdmAnswer 0x60 (leBytes 1 5) s
  else if k = 0xFF then
    spdmAnswer 0x60 ((upFrom 1 5).flatMap (fun i => leBytes 1 i ++ (s.measurement i).getD [])) s
  else match s.measurement k with
    | some b => spdmAnswer 0x60 (leBytes 1 k ++ b) s
    | none => spdmError 1 s

/-- GET_MEASUREMENTS: the measurement blocks. -/
def getMeasurementsOp (k : Nat) (s : State) : State := spdmRequest 3 (measurementsAct k) s

/-- GET_MEASUREMENTS (R392). -/
def execGetMeasurements (index : Nat) (s : State) : Host.Outcome State Fault Refusal := .next (getMeasurementsOp index s)

/-! ## I3C (R413) -/

/-- The static address (R413). -/
def staticAddress : BitVec 7 := 0x2A#7

/-- Takes a dynamic address, if the target has none. -/
def takeAddress (a : BitVec 7) (s : State) : State :=
  if s.stw.powered && s.stw.i3c.isNone then { s with stw := { s.stw with i3c := some a } } else s

/-- ENTDAA: assigns a dynamic address.
PRESUMED, log entry 40. -/
def entdaaOp (a : BitVec 7) (s : State) : State := takeAddress a s

/-- ENTDAA (R413). -/
def execEntdaa (addr : BitVec 7) (s : State) : Host.Outcome State Fault Refusal := .next (entdaaOp addr s)

/-- SETDASA: assigns a dynamic address to the target at the static address 0x2A. -/
def setdasaOp (static a : BitVec 7) (s : State) : State := if static = staticAddress then takeAddress a s else s

/-- SETDASA (R413). -/
def execSetdasa (static addr : BitVec 7) (s : State) : Host.Outcome State Fault Refusal := .next (setdasaOp static addr s)

end Sys2Proof.Machine
end

