-- ==== Sys2Proof/Machine/Steward.lean ====
section
/-! DEFINITION. The Steward: power-up and power-down, module resets, the sideband pins, the power states of the function,
throttle requests, faults and energy (R345, R365, R369 to R373, R379 to R383, R387, R397 to R403). -/

namespace Sys2Proof.Machine

set_option Elab.async false

/-! ## Power-up and power-down (R369 to R373, R387, R402, R412) -/

/-- The module without power, its non-volatile contents and its surroundings kept: the stored records, the flash, the fuses,
the PERST# pin, what has left the module, and the queue.
DESIGN CHOICE, log entry 41. -/
def State.unpowered (s : State) : State :=
  { State.reset with
    stw := { Steward.init with nv := s.stw.nv, fuse := s.stw.fuse, flash := s.stw.flash, perst := s.stw.perst, sigs := s.stw.sigs,
                               spdm := { stage := 0, count := s.stw.spdm.count } },
    emitted := s.emitted, pending := s.pending }

/-- The Steward domain powered, its straps sampled (R9, R371). -/
def State.strapped (s : State) (f : PowerOnF) : State :=
  let u := s.unpowered
  { u with stw := { u.stw with powered := true, present := f.present, slotId := f.sheafSlot, fallow := f.fallow } }

/-- The slot that the ROM tries first (R386). -/
def State.firstSlot (s : State) : Nat := s.stw.nv.preferred.getD 0

/-- What verification finds: the first slot tried, its code, and the code of the other slot when it is tried. -/
structure BootResult where
  first : Nat
  code1 : Nat
  code2 : Nat
  deriving DecidableEq, Repr

/-- The verification of R386. -/
def State.bootResult (s : State) : BootResult :=
  let a := s.firstSlot
  let c := s.verifyCode a
  { first := a, code1 := c, code2 := if c = 0 then 0 else s.verifyCode (1 - a) }

/-- The slot that boots, if one passes. -/
def BootResult.slot (b : BootResult) : Option Nat :=
  if b.code1 = 0 then some b.first else if b.code2 = 0 then some (1 - b.first) else none

/-- The code of a slot. -/
def BootResult.codeOf (b : BootResult) (slot : Nat) : Nat := if slot = b.first then b.code1 else b.code2

/-- STW_BOOT as the ROM writes it (R399).
DEDUCED, log entry 19. -/
def State.bootWord (s : State) (b : BootResult) : Nat :=
  b.slot.getD 0 + (if b.code1 = 0 then 0 else 2) + (b.slot.map s.secVersion).getD 0 % 64 * 4 + s.stw.fuse % 128 * 2 ^ 8 +
  Config.revoked.toNat * 2 ^ 16 + b.codeOf 0 * 2 ^ 20 + b.codeOf 1 * 2 ^ 23

/-- Sets an alert cause (R384, R399). -/
def alert (b : Nat) (s : State) : State := s.flag .stwAlertStatus b

/-- FW_AUTH_FAIL for the first slot tried (R387, R397). -/
def authFail (b : BootResult) (s : State) : State :=
  raiseEvent .fwAuthFail b.first
    (detail [(0, 1, b.first), (1, 1, b.code1), (2, 1, s.secVersion b.first), (3, 1, s.stw.fuse), (4, 1, b.slot.getD 0xFF)]) s

/-- GOOD is asserted: the hub runs, and the PCI Express link trains when PERST# is deasserted (R371, R372). -/
def goGood (slot : Nat) (s : State) : State :=
  let s := s.setRg .stwIdFwBuild (s.slotNum slot 0x10 8)
  { s with stw := { s.stw with mainOn := true, good := true, bootSlot := slot }, host := { s.host with linkUp := !s.stw.perst } }

/-- Verification and its outcome (R386, R387). -/
def boot (s : State) : State :=
  let b := s.bootResult
  let s := s.setRg .stwBoot (s.bootWord b)
  match b.slot with
  | none => alert 0 { s with stw := { s.stw with nv := { s.stw.nv with authFail := true } } }
  | some slot => goGood slot (if b.code1 = 0 then s else authFail b (alert 0 s))

/-- POWER_ON: the input rises above 44 V. A module that is not present in its slot stops after the straps are sampled. -/
def powerOnOp (f : PowerOnF) (s : State) : State :=
  if s.stw.powered then s else if f.present then boot (s.strapped f) else s.strapped f

/-- POWER_ON (R371). -/
def execPowerOn (f : PowerOnF) (s : State) : Host.Outcome State Fault Refusal := .next (powerOnOp f s)

/-- POWER_OFF: the input falls below 30 V, and the Steward domain stops. -/
def powerOffOp (s : State) : State := if s.stw.powered then s.unpowered else s

/-- POWER_OFF (R402). -/
def execPowerOff (s : State) : Host.Outcome State Fault Refusal := .next (powerOffOp s)

/-- MAIN_RAILS_OFF: the input falls below 36 V; a module fault is declared as the main rails turn off. -/
def mainRailsOffOp (s : State) : State :=
  if s.stw.powered && s.stw.mainOn then
    let s := idlePorts (declareFault .inputVoltage (alert 1 s))
    { s with stw := { s.stw with mainOn := false }, host := { s.host with linkUp := false } }
  else s

/-- MAIN_RAILS_OFF (R402). -/
def execMainRailsOff (s : State) : Host.Outcome State Fault Refusal := .next (mainRailsOffOp s)

/-! ## Module resets (R8, R185, R369, R373, R426) -/

/-- Whether a device keeps its contents through a module reset (R185). -/
def Device.keeps (d : Device) : Bool := d.st = .ready || d.st = .selfRefresh || d.st = .initialising

/-- A device after a module reset: untrained. One that was trained keeps its bytes and its retirement; the bytes of any other
are as those that nothing has written. -/
def Device.afterReset (d : Device) : Device :=
  if d.keeps then
    { Device.init with kept := true, retired := d.retired, retiredFailed := d.retiredFailed, resow := d.resow,
                       wmark := d.wmark, scrubPos := d.scrubPos }
  else Device.init

/-- The memory tiers after a module reset. -/
def Memory.afterReset (m : Memory) : Memory :=
  let kept (a : Nat) : Bool := match mpaWindow a with
    | some (p, _) => (sget Device.init m.dev p).keeps
    | none => false
  { mem := m.mem.filter (fun e => kept e.1), marks := m.marks.filter kept, errs := m.errs.filter (fun e => kept e.1),
    dev := m.dev.foldl (fun x e => sput Device.init x e.1 e.2.afterReset) [], asm := [] }

/-- The check lines of every enabled range of the stacks that keep their bytes stand in memory: a module reset disables the ranges
(R185). -/
def keepAllChecks (s : State) : State :=
  each ((List.range Config.numStacks).filter (fun k => (s.dev k).keeps)) (fun k s => each (List.range 64) (keepChecks k) s) s

/-- The Steward after a module reset: the fault is released and the quadrant PLLs are off; all else stays. That the cause which
STW_STATUS shows goes back to 0 with the fault is a DESIGN CHOICE, log entry 101. -/
def Steward.afterReset (w : Steward) : Steward :=
  { w with fault := none, faultPin := false, pll := w.pll.map (fun _ => PllSt.off), walks := [] }

/-- The tiles after a module reset: every bin keeps its bytes, since no rule resets a bin, and all else is as after power-on
(R27, R369, R373, DESIGN CHOICE, log entry 6). -/
def resetTiles (ts : SMap Tile) : SMap Tile :=
  ts.foldl (fun m e => sput Tile.init m e.1 { Tile.init with bin := e.2.bin }) []

/-- The module after a module reset whose link state is given.
DEDUCED, log entry 42. -/
def State.afterReset (s : State) (link : Bool) : State :=
  { State.reset with
    cyc := s.cyc, edge := s.edge, regs := keptRegs s.regs, host := { HostIf.init with linkUp := link },
    tiles := resetTiles s.tiles, memory := (keepAllChecks s).memory.afterReset, evt := { Events.init with fresh := s.evt.fresh, hold := s.evt.hold, gap := s.evt.gap },
    stw := s.stw.afterReset, emitted := s.emitted, pending := s.pending }

/-- MODULE_RESET: assertion of PERST#, a hot reset, or a Function Level Reset. -/
def moduleResetOp (c : ResetCause) (s : State) : State :=
  match c with
  | .perst =>
    let s := { s with stw := { s.stw with perst := true } }
    if s.stw.good && s.stw.mainOn then s.afterReset false else s
  | _ => if s.hostWrites then s.afterReset true else s

/-- MODULE_RESET (R369). -/
def execModuleReset (cause : ResetCause) (s : State) : Host.Outcome State Fault Refusal := .next (moduleResetOp cause s)

/-- PERST_DEASSERT: the link trains, once GOOD is asserted. -/
def perstDeassertOp (s : State) : State :=
  { s with stw := { s.stw with perst := false },
           host := { s.host with linkUp := s.host.linkUp || (s.stw.good && s.stw.mainOn) } }

/-- PERST_DEASSERT (R372). -/
def execPerstDeassert (s : State) : Host.Outcome State Fault Refusal := .next (perstDeassertOp s)

/-! ## D3hot (R345) -/

/-- PM_D3HOT_ENTRY: the module makes no request on the link. -/
def pmD3hotEntryOp (s : State) : State := if s.hostWrites then { s with host := { s.host with d3hot := true } } else s

/-- PM_D3HOT_ENTRY (R345). -/
def execPmD3hotEntry (s : State) : Host.Outcome State Fault Refusal := .next (pmD3hotEntryOp s)

/-- Completions that wait on any ring are written, in the order of each ring. -/
def drainRings (s : State) : State := each (s.host.rings.map (·.1)) (fun r s => drainCq ((s.ring r).waiting.length + 1) r s) s

/-- Messages that wait for the link are sent in order. -/
def drainMsix (s : State) : State :=
  each s.host.msixHeld sendMsix { s with host := { s.host with msixHeld := [] } }

/-- PM_D0_RETURN: held completions, records and messages are written.
DESIGN CHOICE, log entry 43. -/
def pmD0ReturnOp (s : State) : State :=
  if s.hostWrites && s.host.d3hot then
    drainMsix (drainHold (holdSize + 1) (drainRings { s with host := { s.host with d3hot := false } }))
  else s

/-- PM_D0_RETURN (R345). -/
def execPmD0Return (s : State) : Host.Outcome State Fault Refusal := .next (pmD0ReturnOp s)

/-! ## Throttle (R381, R382, R397) -/

/-- The divisor that the causes require, coded 0 for 1, 1 for 2 and 2 for 4. -/
def Throttle.request (t : Throttle) : Nat := max (if t.pin || t.under then 1 else 0) (max t.cap t.thermal)

/-- The divisor of the target level (R382). -/
def Throttle.divisor (t : Throttle) : Nat := 2 ^ (t.target / 4)

/-- The causes that request a divisor, as bits (R397). -/
def Throttle.causes (t : Throttle) : Nat :=
  (if t.pin then 1 else 0) + (if t.under then 2 else 0) + (if t.cap = 0 then 0 else 4) + (if t.thermal = 0 then 0 else 8)

/-- Whether THROTTLE_OUT# is asserted (R382). -/
def Throttle.out (t : Throttle) : Bool := t.under || t.cap ≠ 0 || t.thermal ≠ 0

/-- The state with another throttle. -/
def State.setThr (s : State) (t : Throttle) : State := { s with stw := { s.stw with thr := t } }

/-- The mean input power in W (R398). -/
def State.inputWatts (s : State) : Nat := s.rgBits .stwInput 16 16

/-- Raises THROTTLE for the changes since the last one, at most once per 1 ms (R382). -/
def throttleEvent (s : State) : State :=
  let t := s.stw.thr
  let due : Bool := match t.evAt with
    | some c => c + msCycles 1 ≤ s.cyc
    | none => true
  if t.changes ≠ 0 && due then
    raiseEvent .throttle 0
      (detail [(0, 1, t.divisor), (1, 1, t.causes), (2, 2, min t.changes 0xFFFF), (4, 2, s.inputWatts), (6, 2, s.input10)])
      (s.setThr { t with changes := 0, evAt := some s.cyc })
  else s

/-- A change of the causes moves the target when it changes the effective divisor. -/
def applyThrottle (t : Throttle) (s : State) : State :=
  let g := 4 * t.request
  if g = t.target then s.setThr t else throttleEvent (s.setThr { t with target := g, changes := t.changes + 1 })

/-- Changes the throttle's causes, while the Steward domain is powered. -/
def throttleBy (f : Throttle → Throttle) (s : State) : State := if s.stw.powered then applyThrottle (f s.stw.thr) s else s

/-- THROTTLE_PIN_ASSERT: THROTTLE# requests a divisor of 2. -/
def throttlePinAssertOp (s : State) : State := throttleBy (fun t => { t with pin := true }) s

/-- THROTTLE_PIN_ASSERT (R381). -/
def execThrottlePinAssert (s : State) : Host.Outcome State Fault Refusal := .next (throttlePinAssertOp s)

/-- THROTTLE_PIN_RELEASE: THROTTLE# has been deasserted for 10 µs. -/
def throttlePinReleaseOp (s : State) : State := throttleBy (fun t => { t with pin := false }) s

/-- THROTTLE_PIN_RELEASE (R381). -/
def execThrottlePinRelease (s : State) : Host.Outcome State Fault Refusal := .next (throttlePinReleaseOp s)

/-- UNDERVOLTAGE_THROTTLE: the input has been below 44 V for 50 µs. -/
def undervoltageThrottleOp (s : State) : State :=
  if s.stw.powered then throttleBy (fun t => { t with under := true }) (alert 1 s) else s

/-- UNDERVOLTAGE_THROTTLE (R381). -/
def execUndervoltageThrottle (s : State) : Host.Outcome State Fault Refusal := .next (undervoltageThrottleOp s)

/-- UNDERVOLTAGE_RELEASE: the input has been above 45 V for 1 ms. -/
def undervoltageReleaseOp (s : State) : State := throttleBy (fun t => { t with under := false }) s

/-- UNDERVOLTAGE_RELEASE (R381). -/
def execUndervoltageRelease (s : State) : Host.Outcome State Fault Refusal := .next (undervoltageReleaseOp s)

/-- The power cap in W: values outside 300 to 1,600 act as the nearer limit (R381). -/
def State.powerCap (s : State) : Nat := max 300 (min 1600 (s.rgBits .stwPcap 0 12))

/-- Whether the Steward's power cap may move: one level at most every 1 ms (R381).
DEDUCED, log entry 44. -/
def State.capMay (s : State) (ms : Nat) : Bool := match s.stw.capAt with
  | some c => c + msCycles ms ≤ s.cyc
  | none => true

/-- A move of the Steward's power cap. -/
def capMove (t : Throttle) (s : State) : State := applyThrottle t { s with stw := { s.stw with capAt := some s.cyc } }

/-- POWER_CAP_STEP: the mean power has been above the cap for 1 ms, or below 0.45 of it for 10 ms; the request moves one
level. Above the cap for 10 ms at a divisor of 4, the alert is set. -/
def powerCapStepOp (w : Nat) (s : State) : State :=
  let t := s.stw.thr
  if !s.stw.powered then s
  else if s.powerCap < w then
    if t.cap < 2 then (if s.capMay 1 then capMove { t with cap := t.cap + 1 } s else s)
    else if s.capMay 10 then alert 3 s else s
  else if 100 * w < 45 * s.powerCap && t.cap ≠ 0 && s.capMay 1 then capMove { t with cap := t.cap - 1 } s
  else s

/-- POWER_CAP_STEP (R381). -/
def execPowerCapStep (meanW : Nat) (s : State) : Host.Outcome State Fault Refusal := .next (powerCapStepOp meanW s)

/-- The divisor code that a junction temperature requires at least (R381). -/
def thermalUp (c : Nat) : Nat := if 103 ≤ c then 2 else if 98 ≤ c then 1 else 0

/-- The divisor code above which a junction temperature lets the request step down (R381). -/
def thermalDown (c : Nat) : Nat := if c ≤ 95 then 0 else if c ≤ 100 then 1 else 2

/-- Notes since when the hottest junction allows a divisor below a request. -/
def noteCool (low : Bool) (s : State) : State :=
  { s with stw := { s.stw with coolSince := if low then some (s.stw.coolSince.getD s.cyc) else none } }

/-- The temperature request moves one level for the hottest junction: up at once, down after 1 ms at 3 °C below the threshold. -/
def thermalStep (s : State) : State :=
  let t := s.stw.thr
  let h := s.hottest
  let s := noteCool (thermalDown h < t.thermal) s
  if !s.capMay 1 then s
  else if t.thermal < thermalUp h then capMove { t with thermal := t.thermal + 1 } (alert 2 s)
  else if s.stw.coolSince.any (fun c => c + msCycles 1 ≤ s.cyc) then
    noteCool (thermalDown h < t.thermal - 1) (noteCool false (capMove { t with thermal := t.thermal - 1 } s))
  else s

/-- DIE_TEMP_THROTTLE: a junction temperature of a compute die; at 110 °C the module declares a fault. -/
def dieTempThrottleOp (q c : Nat) (s : State) : State :=
  if s.stw.powered then
    let s := { s with stw := { s.stw with temps := lput s.stw.temps q c } }
    if 110 ≤ c then declareFault .dieTemperature (thermalStep s) else thermalStep s
  else s

/-- DIE_TEMP_THROTTLE (R381, R383). -/
def execDieTempThrottle (q celsius : Nat) (s : State) : Host.Outcome State Fault Refusal := .next (dieTempThrottleOp q celsius s)

/-- Cycles of the n-th edge of a level (R382). -/
def edgeCycles (level n : Nat) : Nat :=
  match level with
  | 0 => 1
  | 1 => if n % 8 = 0 then 2 else 1
  | 2 => if n % 4 = 0 then 2 else 1
  | 3 => if n % 2 = 0 then 2 else 1
  | 4 => 2
  | 5 => if n % 8 = 0 then 4 else 2
  | 6 => if n % 4 = 0 then 4 else 2
  | 7 => if n % 2 = 0 then 4 else 2
  | _ => 4

/-- The throttle at another level, before its first edge. -/
def Throttle.atLevel (t : Throttle) (l : Nat) : Throttle := { t with level := l, edges := 0, left := edgeCycles l 0 }

/-- THROTTLE_LEVEL_STEP: after 16 edges at one level, the clock moves one level towards the target. -/
def throttleLevelStepOp (s : State) : State :=
  let t := s.stw.thr
  if !s.stw.powered || t.edges < 16 || t.level = t.target then s
  else s.setThr (t.atLevel (if t.level < t.target then t.level + 1 else t.level - 1))

/-- THROTTLE_LEVEL_STEP (R382). -/
def execThrottleLevelStep (s : State) : Host.Outcome State Fault Refusal := .next (throttleLevelStepOp s)

/-! ## Faults and energy (R380, R383, R398, R402) -/

/-- MODULE_FAULT_DECLARE: a cause of R383 declares a module fault. -/
def moduleFaultDeclareOp (c : FaultCause) (s : State) : State :=
  if s.stw.powered then declareFault c (if c = .inputVoltage then alert 1 s else s) else s

/-- MODULE_FAULT_DECLARE (R383). -/
def execModuleFaultDeclare (cause : FaultCause) (s : State) : Host.Outcome State Fault Refusal :=
  .next (moduleFaultDeclareOp cause s)

/-- Whether 10 µs have passed since the last energy sample (R380). -/
def State.sampleDue (s : State) : Bool := match s.stw.sampleAt with
  | some c => c + usCycles 10 ≤ s.cyc
  | none => true

/-- The mean of the samples of 100 µs, in W. -/
def meanWatts (ps : List Nat) : Nat := ps.sum / (max 1 ps.length * 1000000)

/-- ENERGY_SAMPLE: the input voltage and current of one sample, 10 µs of whose product is added to the energy.
DEDUCED, log entry 45. -/
def energySampleOp (mV mA : Nat) (s : State) : State :=
  if s.stw.powered && s.sampleDue then
    let e := s.stw.energy + mV * mA
    let ps := (mV * mA :: s.stw.powers).take 10
    let s := { s with stw := { s.stw with energy := e, powers := ps, sampleAt := some s.cyc } }
    let s := (s.setRg .stwEnergy (e / 100000000)).setRg .stwInput (mV % 65536 + min (meanWatts ps) 65535 * 65536)
    if mV < 44000 || 56000 < mV then alert 1 s else s
  else s

/-- ENERGY_SAMPLE (R380). -/
def execEnergySample (mV mA : Nat) (s : State) : Host.Outcome State Fault Refusal := .next (energySampleOp mV mA s)

end Sys2Proof.Machine
end

