-- ==== Sys2Proof/Machine/Clocks.lean ====
section
/-! DEFINITION. Quadrant PLLs, wake walks, clock gating, the idle-time self test and tile retirement (R12 to R14, R40, R376 to
R378, R393 to R397, R443). -/

namespace Sys2Proof.Machine

set_option Elab.async false

/-! ## PLLs and walks (R40, R376, R378) -/

/-- Groups of a wake walk (R40). -/
def walkGroups : Nat := 96
/-- Edges from one group of a walk to the next (R378). -/
def walkStep : Nat := 16

/-- The state with other walks. -/
def State.setWalks (s : State) (m : SMap (Nat × Nat)) : State := { s with stw := { s.stw with walks := m } }

/-- PLL_LOCK: a quadrant PLL locks, and its wake walk starts. -/
def pllLockOp (q : Nat) (s : State) : State :=
  if s.alive && s.pllOf q = .locking then 
    let s := { s with stw := { s.stw with locked := sinsert q s.cyc s.stw.locked } }
    (s.setPll q .running).setWalks (sinsert q (0, s.edge) s.stw.walks)
  else s

/-- PLL_LOCK (R378). -/
def execPllLock (q : Nat) (s : State) : Host.Outcome State Fault Refusal := .next (pllLockOp q s)

/-- The tiles of a group that lie in a quadrant (R40). -/
def walkTiles (q g : Nat) : List Nat :=
  ((List.range 16).map (fun k => g + walkGroups * k)).filter (fun t => quadrantOf t = q)

/-- Releases a tile that awaits its wake. -/
def releaseTile (t : Nat) (s : State) : State :=
  if (s.tile t).waking then s.updTile t (fun tl => { tl with clocked := true, waking := false }) else s

/-- WAKE_WALK_STEP: the walk of a quadrant releases the waking tiles of its next group, 16 edges after the last. -/
def wakeWalkStepOp (q : Nat) (s : State) : State :=
  match sfind s.stw.walks q with
  | some (g, e) =>
    if s.alive && e ≤ s.edge then
      (each (walkTiles q g) releaseTile s).setWalks
        (if g + 1 < walkGroups then sinsert q (g + 1, s.edge + walkStep) s.stw.walks else serase s.stw.walks q)
    else s
  | none => s

/-- WAKE_WALK_STEP (R378). -/
def execWakeWalkStep (q : Nat) (s : State) : Host.Outcome State Fault Refusal := .next (wakeWalkStepOp q s)

/-- The PLL stop delay in µs (R398). -/
def State.stopDelay (s : State) : Nat := s.rgBits .stwClkCfg 16 16

/-- Whether a quadrant is unused: every tile gated, no admitted pass that meets it, and no tag held by its gatherers (R376). -/
def State.unused (s : State) (q : Nat) : Bool :=
  s.tiles.all (fun e => quadrantOf e.1 ≠ q || (!e.2.clocked && !e.2.waking)) &&
  s.passes.all (fun p => !(workQuads p.tiles p.gatherers).contains q) &&
  s.gath.xfers.all (fun x => x.gath / 12 ≠ q || x.reserve.isNone)

/-- A quadrant notes since when it is unused. -/
def noteUnused (q : Nat) (s : State) : State :=
  let m := s.stw.unused
  if s.pllOf q = .running && s.unused q then
    (if (sfind m q).isSome then s else { s with stw := { s.stw with unused := sinsert q s.cyc m } })
  else if (sfind m q).isSome then { s with stw := { s.stw with unused := serase m q } }
  else s

/-- PLL_STOP: the PLL of a quadrant that has been unused for the stop delay stops. -/
def pllStopOp (q : Nat) (s : State) : State :=
  if s.alive && s.pllOf q = .running && s.stopDelay ≠ 0 && s.unused q &&
    (sfind s.stw.unused q).any (fun t => t + usCycles s.stopDelay ≤ s.cyc) then
    (s.setPll q .off).setWalks (serase s.stw.walks q)
  else s

/-- PLL_STOP (R376). -/
def execPllStop (q : Nat) (s : State) : Host.Outcome State Fault Refusal := .next (pllStopOp q s)

/-- Whether a tile has an instruction to issue: its running pass is not held on a switching condition (R136, R377). -/
def State.hasWork (s : State) (t : Nat) : Bool :=
  match (s.tile t).running.bind (s.seq? t) with
  | some x => !s.heldSwitching t x && !x.suspended && !x.pended
  | none => false

/-- Whether an instruction of a tile is in flight: a PUT that has yet to read its lines, or an XFER whose lines are on the mesh
(R377, DESIGN CHOICE, log entry 108). -/
def State.inFlight (s : State) (t : Nat) : Bool :=
  s.gath.xfers.any (fun x => x.tile == t && x.write && x.issued && x.st = .waiting && x.data.isEmpty) ||
  s.gath.mesh.any (fun m => m.src == t)

/-- The gate delay in cycles; 0 acts as 1 (R398). -/
def State.gateDelay (s : State) : Nat := max 1 (s.rgBits .stwClkCfg 0 16)

/-- A tile notes the last cycle in which it had something to issue or an instruction in flight, and the last in which a pass was
resident or suspended on it (R377, R393). -/
def noteTile (t : Nat) (s : State) : State :=
  s.updTile t (fun tl =>
    { tl with issuedAt := if s.hasWork t || s.inFlight t then s.cyc else tl.issuedAt,
              busyAt := if tl.seqs.isEmpty then tl.busyAt else s.cyc })

/-- TILE_GATE: a tile with nothing to issue and nothing in flight for the gate delay gates its clock. -/
def tileGateOp (t : Nat) (s : State) : State :=
  if s.alive && (s.tile t).clocked && !s.hasWork t && !s.inFlight t && (s.tile t).issuedAt + s.gateDelay ≤ s.cyc then s.updTile t (fun tl => { tl with clocked := false }) else s

/-- TILE_GATE (R377). -/
def execTileGate (t : Nat) (s : State) : Host.Outcome State Fault Refusal := .next (tileGateOp t s)

/-! ## The idle-time self test and retirement (R393 to R397, R443) -/

/-- Whether a tile of the spare column is tested and in no logical use: its row has no retired tile. -/
def State.spareIdle (s : State) (t : Nat) : Bool :=
  Config.numTiles ≤ t && t < Config.numTiles + 64 && (sfind s.stw.nv.retired (failedRow t)).isNone

/-- Whether a logical tile is present and idle (R393). -/
def State.tileIdle (s : State) (t : Nat) : Bool :=
  t < Config.numTiles && !s.absent t && (s.tile t).seqs.isEmpty && (s.tile t).testUntil ≤ s.cyc

/-- The quadrant of a tile or spare tile. -/
def quadOf (t : Nat) : Nat := if t < Config.numTiles then quadrantOf t else failedRow t / 16

/-- Whether a tile that is idle has been so for 2 µs: no pass on it, and its PLL running (R393). -/
def State.idleLong (s : State) (t : Nat) : Bool :=
  (s.tile t).busyAt + usCycles 2 ≤ s.cyc && (sfind s.stw.locked (quadOf t)).all (fun c => c + usCycles 2 ≤ s.cyc)

/-- Whether a slice of the self test may start on a tile (R393, R398). -/
def State.mayTest (s : State) (t : Nat) : Bool :=
  s.alive && s.idleLong t && s.rgBit .stwTestCfg 0 && s.pllOf (quadOf t) = .running && (s.tileIdle t || s.spareIdle t)

/-- Cycles that a slice lasts at most: 1.5 µs (R393). -/
def sliceCycles : Nat := 2625

/-- A slice runs on a tile: its banks are left at +0.0 (R394). -/
def runSlice (t : Nat) (s : State) : State :=
  let s := { s with stw := { s.stw with slices := s.stw.slices + 1 } }
  if t < Config.numTiles then
    s.updTile t (fun tl => { tl with testUntil := s.cyc + sliceCycles, acc := [], opBits := [] })
  else s

/-- The bytes of a bin line that a failed write-back has lost (R396). -/
def loseLine (t a : Nat) (s : State) : State :=
  let l := a / 64 * 64
  s.updTile t (fun tl => { tl with bin := putBytes tl.bin l ((upFrom l 64).map (fun k => Config.lostByte t k s.stw.slices)) })

/-- A unit of the test has failed twice in three runs (R396, R397). -/
def testFailed (t part : Nat) (addr : BitVec 24) (sig : Quad) (s : State) : State :=
  let s := if part = 2 && t < Config.numTiles then loseLine t addr.toNat s else s
  let s := raiseEvent .idleTestFail (failedId t)
    (detail [(0, 2, failedId t), (2, 1, part), (3, 3, if part = 2 then addr.toNat else 0), (8, 8, sig.toNat)]) s
  let f := s.stw.nv.failed
  alert 5 { s with stw := { s.stw with nv := { s.stw.nv with failed := if f.contains t then f else f ++ [t] } } }

/-- IDLE_TEST_SLICE: a slice of the self test on an idle tile, and the failure that it finds.
DESIGN CHOICE, log entry 46. -/
def idleTestSliceOp (t : Nat) (failed : Option (Nat × BitVec 24 × Quad)) (s : State) : State :=
  if s.mayTest t then
    match failed with
    | some (part, addr, sig) => testFailed t part addr sig (runSlice t s)
    | none => runSlice t s
  else s

/-- IDLE_TEST_SLICE (R393). -/
def execIdleTestSlice (t : Nat) (failed : Option (Nat × BitVec 24 × Quad)) (s : State) : Host.Outcome State Fault Refusal :=
  .next (idleTestSliceOp t failed s)

/-- TILE_RETIREMENT_APPLY (R443). -/
def execTileRetirementApply (s : State) : Host.Outcome State Fault Refusal := .next (tileRetirementApplyOp s)

end Sys2Proof.Machine
end

