-- ==== Sys2Proof/Machine/Packets.lean ====
section
/-! DEFINITION. The packets of the fabric other than MIRROR, RECOVERY, SEAL and COLL (R213, R218, R232, R234, R258 to R277). -/

namespace Sys2Proof.Machine

set_option Elab.async false

/-! ## WRITE (R261, R299, R302) -/

/-- Whether a WRITE waits: for its controller, for the turn of remote requests there, or for space in the glean log (R184, R190, R212,
R214, R215, R301, R330). -/
def writeHold (p : Packet) (s : State) : Bool :=
  s.writeWaits p || (s.mpaOk p.addr p.payload.length && s.remoteHeld p.addr p.payload.length)

/-- The fabric log entry of a WRITE, and its mirror copy when the module is protected (R299, R302). -/
def logWrite (id : Nat) (p : Packet) (s : State) : State × Bool :=
  if !s.logsWrite p || p.payload = [] then (s, false)
  else
    let (step, num) := s.logStep
    let e := s.newEntry 1 step num p.addr p.payload.length
    let off := (s.steps.log.place s.logSize e.size).2
    let s := appendEntry e (e.bytes p.src p.payload) s
    if s.unprotected then (s, false)
    else ((sendCopy off step ((e.bytes p.src p.payload).take (64 + e.len)) (.logCopy none (some id)) s).1, true)

/-- WRITE: a WRITE packet is written to its target, logged and acknowledged. -/
def writeOp (port : Nat) (s : State) : State := serve port 0x01 writeHold (fun p s => receiveData port (fun p _ => some p.addr) logWrite p
    (if s.mpaOk p.addr p.payload.length then payRemote p.addr p.payload.length s else s)) s

/-- WRITE (R261). -/
def execWrite (port : Nat) (s : State) : Host.Outcome State Fault Refusal := .next (writeOp port s)

/-! ## READ_REQ and READ_RESP (R213, R261) -/

/-- Whether a read request's length is one that R260 gives. -/
def readLenOk (n : Nat) : Bool := 64 ≤ n && n ≤ 4096 && n % 64 = 0

/-- Whether a read request waits: at its controller, for the turn of remote requests there, or for an earlier write of its source to
its bytes (R184, R190, R212, R214, R215, R266). -/
def readHold (port : Nat) (p : Packet) (s : State) : Bool :=
  s.readWaits port p || (s.mpaOk p.addr p.readLen && s.remoteHeld p.addr p.readLen)

/-- The answer to a read request: its bytes and detected-line mask, or status 2. -/
def readAnswer (p : Packet) (n : Nat) (s : State) : Piece :=
  if s.mpaOk p.addr n then
    let r := s.readMarked p.addr n
    { addr := p.addr, spec := specBytes [(22, 1, 0), (23, 8, maskOf r.2)], data := r.1 }
  else { addr := p.addr, spec := specBytes [(22, 1, 2)], data := [] }

/-- The port that the responses to a read go by, all of them the same: the route's turn where it has one, and else the port of the
request (R264, R265). -/
def servePort (port : Nat) (p : Packet) (s : State) : Nat × State :=
  let known := (s.fab.serving.find? (fun x => x.1 == p.src && x.2.1 == p.xid)).map (·.2.2)
  let up := s.upPorts p.src
  let q := known.getD (if (s.routeOf p.src).isEmpty then port else (up[s.fab.turn % max 1 up.length]?).getD parkPort)
  let rest := s.fab.serving.filter (fun x => !(x.1 == p.src && x.2.1 == p.xid))
  (q, { s with fab := { s.fab with turn := if known.isSome then s.fab.turn else s.fab.turn + 1,
                                   serving := if p.last then rest else rest ++ [(p.src, p.xid, q)] } })

/-- Serves a read request: one response of the request's transfer id and index; the request's credit returns when it has been
sent (R256). -/
def serveRead (port : Nat) (p : Packet) (s : State) : State :=
  let n := p.readLen
  if !readLenOk n then violation port 9 p (s.updPort port (fun q => { q with reqOwed := q.reqOwed + 1 }))
  else
    let ok := s.mpaOk p.addr n
    let s := if ok then payRemote p.addr n (noteRead p.addr n 3 s.oldestStep s) else s
    let x := readAnswer p n s
    let r := s.ownPacket 0x03 p.src p.xid p.idx (p.flags / 4 % 4 * 4) x 0 0
    let (q, s) := servePort port p s
    checkFault (enqueue q [{ r.out 0 false [] with credit := some port }] s)

/-- The read request that a port's remote service unit takes next: the first that does not wait, and behind no earlier one of its
source that does (R266). -/
def State.nextRequest (s : State) (port : Nat) : List (List Byte) → List Nat → Option (List Byte)
  | [], _ => none
  | b :: bs, blocked =>
    let p := parsePacket b
    if blocked.contains p.src then s.nextRequest port bs blocked
    else if !(isNode p.src && newer (s.incOf p.src) p.inc) && readHold port p s then s.nextRequest port bs (p.src :: blocked)
    else some b

/-- READ_REQ: the remote service unit answers a read request with one response; a request of an older incarnation is late, and
returns its request credit. -/
def readReqOp (port : Nat) (s : State) : State :=
  if !s.alive || port ≥ Config.numPorts then s
  else
    match s.nextRequest port (s.port port).reqs [] with
    | none => s
    | some b =>
      let p := parsePacket b
      let s := s.updPort port (fun q => { q with reqs := q.reqs.erase b })
      if isNode p.src && newer (s.incOf p.src) p.inc then
        latePacket port 1 p (s.updPort port (fun q => { q with reqOwed := q.reqOwed + 1 }))
      else
        let s := observe p.src p.inc s
        if s.alive then serveRead port p s else s

/-- READ_REQ (R261). -/
def execReadReq (port : Nat) (s : State) : Host.Outcome State Fault Refusal := .next (readReqOp port s)

/-- The awaited read that a response answers. -/
def State.readOf (s : State) (src xid : Nat) : Option InXfer := s.fab.inn.find? (fun i => i.isRead && i.src == src && i.xid == xid)

/-- The read transfers that packet idx of a remote read serves, in order. -/
def State.readParts (s : State) (src xid idx : Nat) : List Xfer :=
  s.gath.xfers.filter (fun x => !x.write && x.node == src && x.st == .requested && x.block == some (xid, idx))

/-- Gives the transfers of a response their bytes and flags in order. -/
def giveData : List Xfer → List Byte → List Bool → State → State
  | [], _, _, s => s
  | x :: xs, b, m, s =>
    giveData xs (b.drop x.bytes) (m.drop x.lines)
      (s.updXfer x.id (fun y => { y with st := .arrived, data := b.take x.bytes, detected := m.take x.lines }))

/-- The entry of a read that no transfer awaits any longer is closed. -/
def closeRead (src xid : Nat) (s : State) : State :=
  if s.gath.xfers.any (fun x => !x.write && x.node == src && x.block.any (·.1 == xid)) then s
  else { s with fab := { s.fab with inn := s.fab.inn.filter (fun i => !(i.isRead && i.src == src && i.xid == xid)),
                                    cancelled := s.fab.cancelled.filter (· ≠ (src, xid)) } }

/-- The tags of one packet of a cancelled read return (R213, R218). -/
def returnCancelled (src xid idx : Nat) (s : State) : State :=
  let xs := s.readParts src xid idx
  closeRead src xid (each xs (fun x s => settlePass x.pass (discardXfer x s)) s)

/-- The response to a harvest's reading back: its bytes follow those before them, and status 2 ends the export (R176, R332). -/
def takeBack (p : Packet) (s : State) : State :=
  if p.specNum 22 1 = 2 then endHarvest .malformed s else updHarvest (fun h => { h with back := h.back ++ p.payload }) s

/-- The response to an awaited read: its lines land, or status 2 abandons the requesting pass (R176, R213, R261). -/
def takeResponse (port : Nat) (i : InXfer) (p : Packet) (s : State) : State :=
  let xs := s.readParts p.src p.xid p.idx
  if p.idx ≠ i.got then abandonIn 2 false i (violation port 7 p s)
  else
    let s := { s with fab := { s.fab with inn := s.fab.inn.map (fun j =>
      if i.same j then { j with got := j.got + 1, last := s.cyc } else j) } }
    let s := if i.back then takeBack p s
      else if p.specNum 22 1 = 2 then abandonFor .malformed xs s
      else giveData xs p.payload ((List.range 64).map p.mask.testBit) s
    if p.last then { s with fab := { s.fab with inn := s.fab.inn.filter (fun j => !i.same j) } } else s

/-- READ_RESP: the lines of a response land for the requesting GET; the response to a cancelled read is late, and its tag
returns. -/
def readRespOp (port : Nat) (s : State) : State :=
  serve port 0x03 noHold (fun p s =>
    if s.fab.cancelled.contains (p.src, p.xid) then returnCancelled p.src p.xid p.idx (latePacket port 2 p s)
    else
      match s.readOf p.src p.xid with
      | some i => takeResponse port i p s
      | none => latePacket port 0 p s) s

/-- READ_RESP (R261). -/
def execReadResp (port : Nat) (s : State) : Host.Outcome State Fault Refusal := .next (readRespOp port s)

/-! ## WRITE_ACK (R204, R261, R262) -/

/-- What the owner of a transfer does once its last packet is acknowledged. -/
def ownerDone (o : OutXfer) (s : State) : State :=
  match o.purpose with
  | .logCopy d a => releaseCopy d a s
  | .mirrorSend => mirrorDone s
  | .initial => initialDone s
  | .repair => repairDone s
  | .recovery => recoveryDone s
  | _ => s

/-- What the owner of a transfer does when a packet of it is refused with status 2 (R261, R319). -/
def ownerRefused (o : OutXfer) (s : State) : State :=
  match o.purpose with
  | .moves xs =>
    each ((s.gath.xfers.filter (fun x => xs.contains x.id)).map (fun x => (x.pass, x.tile)))
      (fun x s => abandonPass x.1 .malformed x.2 s) s
  | .recovery => endRecovery .malformed s
  | .export_ => endHarvest .malformed s
  | .sig => s
  | _ => ownerAbandoned o 1 s

/-- The tags that an acknowledged packet carried return (R204, R261). -/
def returnTags (o : OutXfer) (idx : Nat) (s : State) : State :=
  let xs := s.gath.xfers.filter (fun x => x.write && x.st ≠ .waiting && x.node == o.node && x.block == some (o.xid, idx))
  each xs (fun x s => settlePass x.pass (returnTag x s)) s

/-- Whether every packet of a transfer has been formed and acknowledged. -/
def State.allAcked (s : State) (o : OutXfer) : Bool := o.packets ≤ o.acked && !s.waitsFor o.node o.xid

/-- Takes an acknowledgement of a transfer.
DEDUCED, log entry 81. -/
def takeAck (o : OutXfer) (p : Packet) (s : State) : State :=
  let o := { o with acked := o.acked + 1, waits := o.waits.filter (fun w => w.1 != p.idx) }
  let s := { s with fab := { s.fab with out := s.fab.out.map (fun y => if y.xid = o.xid && y.node = o.node then o else y) } }
  let s := if p.specNum 22 1 = 2 then ownerRefused o s else s
  let s := returnTags o p.idx s
  if s.allAcked o then ownerDone o (removeOut o s) else s

/-- WRITE_ACK: an acknowledged packet returns its tags, and its transfer ends with its last one. -/
def writeAckOp (port : Nat) (s : State) : State :=
  serve port 0x04 noHold (fun p s =>
    match s.fab.out.find? (fun o => o.node == p.src && o.xid == p.xid) with
    | some o => takeAck o p s
    | none => latePacket port 0 p s) s

/-- WRITE_ACK (R261). -/
def execWriteAck (port : Nat) (s : State) : Host.Outcome State Fault Refusal := .next (writeAckOp port s)

/-! ## SIGNAL and BARE_SIGNAL (R232, R234) -/

/-- SIGNAL: its fenced signal waits for the earlier data of its source. -/
def signalOp (port : Nat) (s : State) : State := serve port 0x05 noHold packetSignal s

/-- SIGNAL (R232). -/
def execSignal (port : Nat) (s : State) : Host.Outcome State Fault Refusal := .next (signalOp port s)

/-- BARE_SIGNAL: its signal is applied on arrival. -/
def bareSignalOp (port : Nat) (s : State) : State :=
  serve port 0x06 noHold (fun p s => if p.hasSig then (applySignal (.remote p.src) none p.tally p.sigInc s).1 else s) s

/-- BARE_SIGNAL (R234). -/
def execBareSignal (port : Nat) (s : State) : Host.Outcome State Fault Refusal := .next (bareSignalOp port s)

/-! ## CANCEL_NOTICE and CANCEL_ACK (R218) -/

/-- CANCEL_NOTICE: the unsent responses to a read are dropped, and each is answered with a CANCEL_ACK. -/
def cancelNoticeOp (port : Nat) (s : State) : State :=
  serve port 0x30 noHold (fun p s =>
    let (s, is) := dropResponses p.src p.xid s
    each is (fun i s => sendPacket 0x31 p.src p.xid i (s.answerPort p.src port) { addr := 0, spec := [], data := [] } none s) s) s

/-- CANCEL_NOTICE (R218). -/
def execCancelNotice (port : Nat) (s : State) : Host.Outcome State Fault Refusal := .next (cancelNoticeOp port s)

/-- CANCEL_ACK: the tags of a dropped response return. -/
def cancelAckOp (port : Nat) (s : State) : State :=
  serve port 0x31 noHold (fun p s => returnCancelled p.src p.xid p.idx s) s

/-- CANCEL_ACK (R218). -/
def execCancelAck (port : Nat) (s : State) : Host.Outcome State Fault Refusal := .next (cancelAckOp port s)

/-! ## HOLDOFF (R17, R238, R244, R270, R277) -/

/-- The delay last applied of a node, stack and episode. -/
def State.lastDelay (s : State) (node stack episode : Nat) : Nat :=
  ((s.fab.holdoffs.find? (fun h => h.node == node && h.stack == stack && h.episode == episode)).map (·.delay)).getD 0

/-- A hold whose deadline is moved on by always-on counts (R238). -/
def Hold.extend (k : Nat) : Hold → Hold
  | .wait kind tally target since d => .wait kind tally target since (d.map (· + k))
  | .bind w since d => .bind w since (d.map (· + k))
  | h => h

/-- Moves every pending WAIT and BIND deadline on (R238). -/
def extendHolds (k : Nat) (s : State) : State :=
  { s with tiles := s.tiles.map (fun e => (e.1, { e.2 with seqs := e.2.seqs.map (fun q => { q with hold := q.hold.map (Hold.extend k) }) })) }

/-- Whether a node is a member of a group. -/
def State.memberOf (s : State) (g node : Nat) : Bool :=
  let e := s.collEntry g
  (List.range e.n).any (fun m => s.collMember e m = node)

/-- Whether a pass is held on a WAIT on a module tally, the tallies that other modules and the collective engine signal. -/
def State.waitsOnModule (s : State) (p : Pass) : Bool :=
  p.tiles.any (fun t => (s.seq? t p.seq).any (fun x => match x.hold with
    | some (.wait 2 _ _ _ _) => true
    | _ => false))

/-- Whether the waits of a pass involve a node: the pass has a stream that names it, or it is held on a WAIT on a module tally.
DESIGN CHOICE, log entry 98. -/
def State.involves (s : State) (node : Nat) (p : Pass) : Bool :=
  p.img.streams.any (fun x => x.node == node) || s.waitsOnModule p

/-- Applies an increase of delay from a node: promises, deadlines and transfer timeouts (R17, R238, R244, R270). -/
def applyHoldoff (node d : Nat) (s : State) : State :=
  let s := extendPasses (s.involves node) d s
  let s := extendGroups (fun g => s.memberOf g node) d s
  let s := extendHolds (25 * d) s
  { s with fab := { s.fab with
      inn := s.fab.inn.map (fun i => if i.src = node then { i with extend := i.extend + d } else i),
      out := s.fab.out.map (fun o => if o.node = node then { o with extend := o.extend + d } else o) } }

/-- HOLDOFF: the increase over the delay last applied for the node, stack and episode is applied; one that is not positive is
ignored. -/
def holdoffOp (port : Nat) (s : State) : State :=
  serve port 0x32 noHold (fun p s =>
    let d := p.specNum 22 4
    let k := p.specNum 26 1
    let ep := p.specNum 27 1
    let old := s.lastDelay p.src k ep
    if d ≤ old then s
    else
      let r : HoldoffRec := { node := p.src, stack := k, episode := ep, delay := d }
      let s := { s with fab := { s.fab with
        holdoffs := s.fab.holdoffs.filter (fun h => !(h.node == p.src && h.stack == k && h.episode == ep)) ++ [r] } }
      raiseEvent .holdoffReceived port
        (detail [(0, 2, p.src), (2, 4, d), (6, 4, d - old), (10, 1, k), (11, 1, ep)]) (applyHoldoff p.src (d - old) s)) s

/-- HOLDOFF (R277). -/
def execHoldoff (port : Nat) (s : State) : Host.Outcome State Fault Refusal := .next (holdoffOp port s)

/-! ## ABANDON and NAK_PKT (R270, R272) -/

/-- Abandons the transfer that a packet names: one of this module, or else an awaited read, an open inbound transfer, or a read that
this module serves. inbound says whether the packet may name a transfer of which this module is the receiver. -/
def abandonNamed (port reason : Nat) (inbound : Bool) (p : Packet) (s : State) : State :=
  match s.fab.out.find? (fun o => o.node == p.src && o.xid == p.xid), s.readOf p.src p.xid, s.openOf p with
  | some o, _, _ => abandonOut reason false o s
  | none, some i, _ => abandonIn reason false i s
  | none, none, some i => if inbound then abandonIn reason false i s else abandonServed port reason p.src p.xid s
  | none, none, none => abandonServed port reason p.src p.xid s

/-- ABANDON: the named transfer is closed; a server drops the responses that it has not yet sent (R270). -/
def abandonOp (port : Nat) (s : State) : State := serve port 0x34 noHold (abandonNamed port 1 true) s

/-- ABANDON (R270). -/
def execAbandon (port : Nat) (s : State) : Host.Outcome State Fault Refusal := .next (abandonOp port s)

/-- NAK_PKT: the named transfer, of which this module is the source or whose request it sent, is abandoned with reason 2. -/
def nakPktOp (port : Nat) (s : State) : State := serve port 0x35 noHold (abandonNamed port 2 false) s

/-- NAK_PKT (R272). -/
def execNakPkt (port : Nat) (s : State) : Host.Outcome State Fault Refusal := .next (nakPktOp port s)

/-! ## CLAIM and CLAIM_REFUSE (R275, R276) -/

/-- Answers a claim with a refusal. -/
def refuseClaim (port node inc : Nat) (s : State) : State :=
  let (xid, s) := newXid s
  sendPacket 0x39 node xid 0 (s.answerPort node port) { addr := 0, spec := specBytes [(22, 2, node), (24, 1, inc)], data := [] } none s

/-- CLAIM: a newer incarnation of the claimed node is recorded and ends every transfer with it; a record that is equal or
newer is answered with a refusal. -/
def claimOp (port : Nat) (s : State) : State :=
  serve port 0x38 noHold (fun p s =>
    let n := p.specNum 22 2
    let i := p.specNum 24 1
    if newer i (s.incOf n) then observe n i s
    else if s.incOf n = i || newer (s.incOf n) i then refuseClaim port n i s
    else s) s

/-- CLAIM (R275). -/
def execClaim (port : Nat) (s : State) : Host.Outcome State Fault Refusal := .next (claimOp port s)

/-- Restores the id, the incarnation and the record that a claim replaced. -/
def undoClaim (c : ClaimOp) (s : State) : State :=
  let s := setInc c.node c.record (s.setRg .fabNodeId c.prev.toNat)
  { s with fab := { s.fab with claim := none } }

/-- CLAIM_REFUSE: the claiming module restores its previous id and incarnation, and its descriptor is not admitted. -/
def claimRefuseOp (port : Nat) (s : State) : State :=
  serve port 0x39 noHold (fun p s =>
    match s.fab.claim with
    | some c =>
      if c.node = p.specNum 22 2 && c.inc = p.specNum 24 1 then
        let s := undoClaim c s
        (match s.inflight? c.desc with
         | some i => settle (refuse i 12 (s.dropInflight c.desc))
         | none => s)
      else s
    | none => s) s

/-- CLAIM_REFUSE (R276). -/
def execClaimRefuse (port : Nat) (s : State) : Host.Outcome State Fault Refusal := .next (claimRefuseOp port s)

end Sys2Proof.Machine
end

