-- ==== Sys2Proof/Machine/StepRows.lean ====
section
/-! DEFINITION. The step unit's commands: job start and end, rollback, verdicts, entry to CHECK, evaluation, SEAL and MIRROR
packets, mirror sends, the digest exchange, tithe tests and the arming of a new mirror (R79 to R83, R281, R285, R289 to R296,
R305 to R310, R326). -/

namespace Sys2Proof.Machine

set_option Elab.async false

/-! ## Host requests (R281, R293, R296, R326) -/

/-- STP_JOB_START: a job starts unless one runs, or R265 or R431 keeps it from starting. -/
def stpJobStartOp (s : State) : State :=
  if !s.alive then s
  else if !s.mayStart then stpErr s
  else startJob (BitVec.ofNat 64 (s.rg .stpJobKey)) none s

/-- STP_JOB_START (R281). -/
def execStpJobStart (s : State) : Host.Outcome State Fault Refusal :=
  .next (barWrite (Reg.offset ⟨.stpJobCtl, 0, 0⟩) stpJobStartOp s)

/-- STP_JOB_END: the job ends if one runs and no attempt is open. -/
def stpJobEndOp (s : State) : State :=
  if !s.alive then s
  else if s.steps.job && s.steps.attempts = [] then endJob s
  else stpErr s

/-- STP_JOB_END (R281). -/
def execStpJobEnd (s : State) : Host.Outcome State Fault Refusal :=
  .next (barWrite (Reg.offset ⟨.stpJobCtl, 0, 0⟩) stpJobEndOp s)

/-- STP_ROLLBACK: every open attempt is rolled back, unless one is in CHECK without a verdict. -/
def stpRollbackOp (s : State) : State :=
  if !s.alive then s
  else if s.checking.isSome then stpErr s
  else hostRollback s

/-- STP_ROLLBACK (R296). -/
def execStpRollback (s : State) : Host.Outcome State Fault Refusal :=
  .next (barWrite (Reg.offset ⟨.stpCtl, 0, 0⟩) stpRollbackOp s)

/-- The attempt in CHECK that a step and attempt number name, when no verdict has come for it. -/
def State.checkingAs (s : State) (step num : Nat) : Option Attempt :=
  s.checking.filter (fun a => a.step == step && a.num == num && a.verdict.isNone)

/-- STP_VERDICT_WRITE: a verdict of the host for the attempt in CHECK that it names. -/
def stpVerdictWriteOp (value : Quad) (s : State) : State :=
  let v := value.toNat
  if !s.alive then s
  else
    match s.checkingAs (bits v 0 40) (bits v 40 8) with
    | none => stpErr s
    | some a => applyVerdict a { pass := bit v 48, host := true, sum := (Config.hostVerdictSum a.step a.num).toNat,
                                 count := (Config.hostVerdictCount a.step a.num).toNat, causes := 0 } s

/-- STP_VERDICT_WRITE (R293). -/
def execStpVerdictWrite (value : Quad) (s : State) : Host.Outcome State Fault Refusal :=
  .next (barWrite (Reg.offset ⟨.stpVerdict, 0, 0⟩) (stpVerdictWriteOp value) s)

/-- HRV_REMIRROR: arms the module. -/
def hrvRemirrorOp (s : State) : State :=
  if !s.alive || s.steps.remirror then s
  else { s with steps := { s.steps with remirror := true, remirrorCopied := false } }

/-- HRV_REMIRROR (R326). -/
def execHrvRemirror (s : State) : Host.Outcome State Fault Refusal :=
  .next (barWrite (Reg.offset ⟨.hrvCtl, 0, 0⟩) hrvRemirrorOp s)

/-! ## The attempt (R81, R285, R289, R305, R309) -/

/-- STEP_ENTER_CHECK: the attempt of a step enters CHECK when it may. -/
def stepEnterCheckOp (step : Nat) (s : State) : State :=
  match s.attempt? step with
  | some a => if s.mayCheck a then enterCheck a s else s
  | none => s

/-- STEP_ENTER_CHECK (R285). -/
def execStepEnterCheck (step : Nat) (s : State) : Host.Outcome State Fault Refusal := .next (stepEnterCheckOp step s)

/-- SEAL_EVALUATE: the module evaluates its part of the conditions of an attempt, once they can be. -/
def sealEvaluateOp (step : Nat) (s : State) : State :=
  match s.attempt? step with
  | some a => if s.mayEvaluate a then evaluate a s else s
  | none => s

/-- SEAL_EVALUATE (R289). -/
def execSealEvaluate (step : Nat) (s : State) : Host.Outcome State Fault Refusal := .next (sealEvaluateOp step s)

/-- An entry of a mirror send list (R305). -/
structure SendEntry where
  src   : Nat
  dst   : Nat
  len   : Nat
  tally : Nat
  need  : Nat
  ptal  : Nat
  inc   : Nat
  deriving DecidableEq, Repr

/-- The entry that an attempt's list is at; the list of a parity stands 2 KiB from the other (R287, R305). -/
def State.sendEntry (s : State) (a : Attempt) : SendEntry :=
  let e := s.rg .stpMsendBase + a.parity * 2048 + a.mirrorPos * 32
  { src := s.memNum e 6 / 64 * 64, dst := s.memNum (e + 8) 6, len := s.memNum (e + 16) 4 / 64 * 64, tally := s.memNum (e + 20) 2,
    need := s.memNum (e + 22) 2, ptal := s.memNum (e + 24) 2, inc := s.memNum (e + 26) 2 }

/-- Whether an attempt's next entry may start: none of its list runs, its trigger tally holds need, and its bytes can be read (R184,
R190, R227, R305). -/
def State.sendReady (s : State) (a : Attempt) : Bool :=
  let e := s.sendEntry a
  !a.mirrorBusy && a.mirrorPos < s.sendEntries && s.triggerMet e.tally e.need && !(s.twin a && s.engineHeld e.src e.len)

/-- Starts an attempt's next entry: its need is taken, and its bytes go to the partner unless the module is unprotected. -/
def startSend (a : Attempt) (s : State) : State :=
  let e := s.sendEntry a
  let s := takeNeed e.tally e.need s
  if !s.twin a || e.len = 0 then s.updAttempt a.step (fun a => { a with mirrorPos := a.mirrorPos + 1 })
  else
    let s := s.updAttempt a.step (fun a => { a with mirrorBusy := true })
    let s := noteRead e.src e.len 3 a.step s
    let r := s.readMarked e.src e.len
    sendOperation 0x20 s.partner 3 .mirrorSend (mirrorPieces 0 a.step e.dst r.1 r.2) (some (e.ptal, e.inc)) s

/-- MIRROR_SEND_ENTRY: the next entry of a mirror send list starts, that of the earlier attempt first. -/
def mirrorSendEntryOp (s : State) : State :=
  if !s.alive then s
  else
    match s.openAttempts.find? s.sendReady with
    | some a => if s.openAttempts.any (·.mirrorBusy) then s else startSend a s
    | none => s

/-- MIRROR_SEND_ENTRY (R305). -/
def execMirrorSendEntry (s : State) : Host.Outcome State Fault Refusal := .next (mirrorSendEntryOp s)

/-- Bytes of a digest table. -/
def State.digestBytes (s : State) (mirror : Bool) : Nat := 8 * mapBlocks (s.mapSegs mirror)

/-- DIGEST_EXCHANGE: the attempt in CHECK sends its group digests, its own table's as kind 2 and its mirror's as kind 3, and
compares them as far as the partner's have come. -/
def digestExchangeOp (s : State) : State :=
  match s.checking with
  | none => s
  | some a =>
    if !s.alive || !s.twin a || a.digestSent || s.engineHeld (s.digestBase a false) (s.digestBytes false) ||
       s.engineHeld (s.digestBase a true) (s.digestBytes true) then s
    else
      let s := noteRead (s.digestBase a true) (s.digestBytes true) 5 a.step
        (noteRead (s.digestBase a false) (s.digestBytes false) 5 a.step s)
      let s := sendDigests a 3 0 (s.groupDigests a true) (sendDigests a 2 0 (s.groupDigests a false) s)
      compareDigests (s.updAttempt a.step (fun a => { a with digestSent := true }))

/-- DIGEST_EXCHANGE (R309). -/
def execDigestExchange (s : State) : Host.Outcome State Fault Refusal := .next (digestExchangeOp s)

/-- TITHE_SAMPLE_TEST: the tithe engine tests the oldest sample of the earliest attempt that holds one, once its reads are served;
after the last one a verdict that waited is applied. -/
def titheSampleTestOp (s : State) : State :=
  if !s.alive then s
  else
    match s.openAttempts.find? (fun a => a.samples != []) with
    | some a => (match a.samples with
      | x :: _ =>
        if (titheReads s (watchOf a) x).any (fun r => s.engineHeld r.1 r.2) then s
        else releaseVerdict a.step (testSample a x s)
      | [] => s)
    | none => s

/-- TITHE_SAMPLE_TEST (R81). -/
def execTitheSampleTest (s : State) : Host.Outcome State Fault Refusal := .next (titheSampleTestOp s)

/-! ## SEAL packets (R291, R292) -/

/-- A report or verdict arrives. A report is kept for an attempt that has not been decided; a verdict is applied to the
attempt in CHECK that it names; any other is late.
DEDUCED, log entry 70. -/
def receiveSeal (port : Nat) (p : Packet) (s : State) : State :=
  let step := p.specNum 24 5
  let num := p.specNum 23 1
  let ok := bit (p.specNum 29 1) 0
  let host := bit (p.specNum 29 1) 1
  let sum := numIn p.payload 0 8
  let count := numIn p.payload 8 4
  let causes := numIn p.payload 12 1
  if p.payload.length ≠ 16 || p.specNum 22 1 > 1 then dropViolation port 9 p s
  else if p.specNum 22 1 = 0 then
    if s.steps.job && s.lastSealed.all (· < step) && num = s.numberOf step then
      takeReport { child := p.src, step := step, num := num, ready := ok, sum := sum, count := count,
                   causes := BitVec.ofNat 8 causes } s
    else latePacket port 0 p s
  else
    match s.checkingAs step num with
    | some a => applyVerdict a { pass := ok, host := host, sum := sum, count := count, causes := causes } s
    | none => latePacket port 0 p s

/-- SEAL: a child's report is kept, or a verdict is forwarded and applied. -/
def sealReportOp (port : Nat) (s : State) : State := serve port 0x11 noHold (receiveSeal port) s

/-- SEAL (R292). -/
def execSealReport (port : Nat) (s : State) : Host.Outcome State Fault Refusal := .next (sealReportOp port s)

/-! ## MIRROR packets (R302, R306, R309, R310) -/

/-- The kind of a MIRROR or RECOVERY packet. -/
def Packet.kind (p : Packet) : Nat := p.specNum 22 1

/-- The entry whose header the first packet of a log copy carries (R300), at an offset of the ring. -/
def copyEntry (off : Nat) (b : List Byte) : LogEnt :=
  { off := off, size := entrySize (numIn b 24 4), kind := numIn b 2 1, num := numIn b 3 1, step := numIn b 4 5, idx := numIn b 12 4,
    target := numIn b 16 8, len := numIn b 24 4 }

/-- The area of the current mirror; before a job's first STEP_OPEN it follows from the step of the packet (R294, R304, R306). -/
def State.mirrorArea (s : State) (p : Packet) : Nat := if s.steps.firstStep.isSome then s.steps.curArea else p.specNum 31 1 % 2

/-- The target of a MIRROR packet that carries data; the blocks of kinds 6 and 7 go to the current mirror area (R304, R306, DESIGN
CHOICE, log entry 30). -/
def mirrorTarget (p : Packet) (s : State) : Option Nat :=
  if p.kind = 0 then some p.addr
  else if p.kind = 1 then
    if p.addr + p.payload.length ≤ s.rg .stpMlogSize then some (s.rg .stpMlogBase + p.addr) else none
  else
    let segs := s.mapSegs true
    if p.addr + p.payload.length ≤ mapBlocks segs * blockSize then some (mapAddr (s.mirrorArea p) segs p.addr) else none

/-- Whether a MIRROR packet waits: for its controller, or for space in the mirror log (R301, R302). -/
def mirrorHold (p : Packet) (s : State) : Bool :=
  if 2 ≤ p.kind && p.kind ≤ 5 then false
  else
    let full := p.kind = 1 && p.first && s.steps.mlog.ents.any (fun e =>
      e.off < p.addr + (copyEntry p.addr p.payload).size && p.addr < e.off + e.size)
    full || (mirrorTarget p s).any (fun a => s.writeHeld a p.payload.length)

/-- What the data of a MIRROR packet does beside its bytes: a log copy joins the mirror log, and a block that has been
repaired leaves the set that is awaited, or that will be once this module's own verdict comes (R310). -/
def mirrorExtra (p : Packet) (s : State) : State :=
  if p.kind = 1 && p.first then
    let e := copyEntry p.addr p.payload
    { s with steps := { s.steps with mlog := { s.steps.mlog with
        ents := s.steps.mlog.ents ++ [e], tail := if e.off + e.size = s.rg .stpMlogSize then 0 else e.off + e.size } } }
  else if p.kind = 6 && (p.addr + p.payload.length) % blockSize = 0 then
    let b := p.addr / blockSize
    { s with steps := { s.steps with repairIn := s.steps.repairIn.filter (· != b),
                                     repairGot := if s.steps.repairIn.contains b then s.steps.repairGot
                                                  else s.steps.repairGot ++ [b] } }
  else s

/-- Digests arrive: those of the attempt in CHECK are kept, acknowledged and compared, any other are late (R306). -/
def receiveDigests (port : Nat) (p : Packet) (s : State) : State :=
  if !s.checking.any (fun a => a.step % 256 == p.specNum 31 1) then latePacket port 0 p s
  else
    match trackIn port p s with
    | .late => latePacket port 0 p s
    | .bad => dropViolation port 7 p s
    | .ok s =>
      let d : DigestIn := { step := p.specNum 31 1, kind := p.kind, index := p.addr, data := p.payload }
      let s := { s with steps := { s.steps with digests := s.steps.digests ++ [d] } }
      compareDigests (sendAck port p.src p.xid p.idx 0 s)

/-- A MIRROR packet is written or compared by its kind. -/
def receiveMirror (port : Nat) (p : Packet) (s : State) : State :=
  if p.kind > 7 then dropViolation port 9 p s
  else if 2 ≤ p.kind && p.kind ≤ 5 then receiveDigests port p s
  else receiveData port mirrorTarget (fun _ p s => (mirrorExtra p s, false)) p s

/-- MIRROR: a gradient slice, log copy, repair or initial copy is written, or digests are compared. -/
def mirrorOp (port : Nat) (s : State) : State := serve port 0x20 mirrorHold (receiveMirror port) s

/-- MIRROR (R306). -/
def execMirror (port : Nat) (s : State) : Host.Outcome State Fault Refusal := .next (mirrorOp port s)

end Sys2Proof.Machine
end

