-- ==== Sys2Proof/Machine/Recover.lean ====
section
/-! DEFINITION. Stand-ins: the claim of a node id, and the recovery stream at its sender and at its receiver (R276, R319 to
R324). -/

namespace Sys2Proof.Machine

set_option Elab.async false

/-! ## STANDIN_CLAIM (R276) -/

/-- The claim settle time in cycles. -/
def State.settleTime (s : State) : Nat := usCycles (s.rgBits .fabCfg 16 16)

/-- What the module answers to a STANDIN_CLAIM.
DEDUCED, log entry 69. -/
def judgeClaim (d : HostDesc) (s : State) : Answer :=
  let n := descNum d 0x10 2
  if !slotsAre d 0 || !isNode n then .fail .malformed
  else if !newer (descNum d 0x12 1) (s.incOf n) || s.passes.any Pass.remote || s.fab.claim.isSome then .refuse 12
  else .accept

/-- An accepted STANDIN_CLAIM: a CLAIM goes out on every port that is up, the id and incarnation change, and fresh hellos
follow. -/
def actClaim (d : HostDesc) (i : Inflight) (s : State) : State :=
  let n := descNum d 0x10 2
  let j := descNum d 0x12 1
  let up := (List.range Config.numPorts).filter (fun p => (s.port p).st = .up)
  let c : ClaimOp := { prev := BitVec.ofNat 32 (s.rg .fabNodeId), record := s.incOf n, node := n, inc := j, since := s.cyc,
                       desc := i.id }
  let s := addInflight { i with promise := s.margin + s.settleTime, work := .claim } s
  let s := each up (fun p s =>
    let (xid, s) := newXid s
    sendPacket 0x38 0xFFFF xid 0 (some p) { addr := 0, spec := specBytes [(22, 2, n), (24, 1, j)], data := [] } none s) s
  let s := setInc n j (s.setRg .fabNodeId (n + j * 2 ^ 16))
  let s := { s with fab := { s.fab with claim := some c } }
  each up (fun p s => sendControl p (s.updPort p (fun q => { q with hello := true }))) s

/-- STANDIN_CLAIM: adopts another module's node id. -/
def standinClaimOp (d : HostDesc) (s : State) : State := consume 0x09 d (judgeClaim d) (actClaim d) s

/-- STANDIN_CLAIM (R276). -/
def execStandinClaim (d : HostDesc) (s : State) : Host.Outcome State Fault Refusal := .next (standinClaimOp d s)

/-- CLAIM_SETTLE: the settle time of a claim has passed without a refusal. -/
def claimSettleOp (s : State) : State :=
  match s.fab.claim with
  | some c =>
    if s.alive && c.since + s.settleTime ≤ s.cyc then
      let s := { s with fab := { s.fab with claim := none }, hrv := { s.hrv with claimAt := s.cyc } }
      settle (complete c.desc .ok 0 [] [] s)
    else s
  | none => s

/-- CLAIM_SETTLE (R276). -/
def execClaimSettle (s : State) : Host.Outcome State Fault Refusal := .next (claimSettleOp s)

/-! ## Sending a mirror (R321, R322) -/

/-- The side regions of a HARVEST_BEGIN: address and length. -/
def sideRegions (d : HostDesc) : List (Nat × Nat) :=
  let b := (descData d).drop (16 * harvestRates d)
  (List.range (harvestSides d)).map (fun k => (numIn b (16 * k) 8, numIn b (16 * k + 8) 8))

/-- What the module answers to a HARVEST_BEGIN in recovery mode. -/
def judgeRecovery (d : HostDesc) (s : State) : Answer :=
  if !harvestShapeOk d || !s.routed (descNum d 0x12 2) || (sideRegions d).any (fun r => !s.mpaOk r.1 r.2) then .fail .malformed
  else if !s.ratesOk (harvestDemand d) then .refuse 6
  else if s.harvestOut || (harvestDemand d).any (fun e => s.memOut e.p) || s.routeOut (descNum d 0x12 2) then .refuse 11
  else if s.steps.attempts ≠ [] || !s.mirrorCurrent || s.sendsStream || s.hrv.recovery = .receiving then .refuse 12
  else .accept

/-- The glean-log copies of the mirror log, padding apart. -/
def State.mirrorCopies (s : State) : List LogEnt := s.steps.mlog.ents.filter (fun e => e.kind ≠ 0xFF)

/-- Bytes that a recovery stream reads on a memory. -/
def State.recoveryMoves (s : State) (d : HostDesc) (p : Nat) : Nat :=
  ((s.shardSegs true s.steps.curArea).map (fun g => bytesIn p g.base (g.blocks * 0x10000))).sum +
    bytesIn p (s.rg .stpMlogBase) s.steps.mlog.used + ((sideRegions d).map (fun r => bytesIn p r.1 r.2)).sum

/-- Sends one block of the CURRENT mirror area as kind 0, its address the byte offset in the map. -/
def blockPieces (s : State) (b : Nat) : List Piece :=
  let r := s.readMarked (blockAddr s.steps.curArea (s.mapSegs true) b) blockSize
  recoveryPieces 0 (s.steps.curArea % 2) (b * blockSize) r.1 r.2

/-- Log copies with their places in the stand-in's glean log, which holds nothing before them and has the size of the mirror log (DESIGN
CHOICE, log entry 103). -/
def copyPlaces (size : Nat) : LogRing → List LogEnt → List (LogEnt × Nat)
  | _, [] => []
  | r, e :: es =>
    let off := (r.place size e.size).2
    (e, off) :: copyPlaces size { r with tail := if off + e.size = size then 0 else off + e.size } es

/-- Sends a log copy as kind 1, in log order, split at the 4 KiB boundaries of its place; its address field is zero (R261, R302,
R322). -/
def sendLogCopy (node : Nat) (x : LogEnt × Nat) (s : State) : State :=
  let a := s.rg .stpMlogBase + x.1.off
  let s := noteRead a (64 + x.1.len) 4 x.1.step s
  let r := s.readMarked a (64 + x.1.len)
  let ps := (recoveryPieces 1 0 x.2 r.1 r.2).map (fun y => { y with addr := 0 })
  (sendXfer 0x21 node 3 true false .recovery ps none s).1

/-- The end packet's payload. -/
def State.endPayload (s : State) (d : HostDesc) : List Byte :=
  let l := s.lastSealed
  let k := l.getD 0
  let n1 := if l.isSome then (s.tried (k + 1)).map (·.1) else none
  let n2 := if l.isSome then (s.tried (k + 2)).map (·.1) else none
  leBytes 5 k ++ leBytes 1 (if l.isSome then 1 else 0) ++ leBytes 5 s.steps.version ++ leBytes 5 0
    ++ leBytes 1 (n1.getD 0) ++ leBytes 1 (n2.getD 0)
    ++ leBytes 1 ((if n1.isSome then 1 else 0) + (if n2.isSome then 2 else 0)) ++ leBytes 1 0
    ++ leBytes 4 (mapBlocks (s.mapSegs true)) ++ leBytes 4 s.mirrorCopies.length
    ++ leBytes 8 ((sideRegions d).map (·.2)).sum ++ leBytes 2 s.nodeId ++ leBytes 26 0

/-- Blocks of the mirror. -/
def State.mirrorBlocks (s : State) : Nat := mapBlocks (s.mapSegs true)

/-- The place of a block of the CURRENT mirror area. -/
def State.mirrorBlock (s : State) (b : Nat) : Nat := blockAddr s.steps.curArea (s.mapSegs true) b

/-- Sends the mirror's blocks, the log copies, the side regions, and the end packet with its signal (R321, R322). -/
def sendStream (d : HostDesc) (s : State) : State :=
  let node := descNum d 0x12 2
  let last := s.endPayload d
  let n := s.mirrorBlocks
  let s := each (List.range n) (fun b s => noteRead (s.mirrorBlock b) blockSize 4 s.oldestStep s) s
  let s := sendParts 0x21 node 3 .recovery ((List.range n).flatMap (blockPieces s)) none s
  let s := each (copyPlaces (s.rg .stpMlogSize) .init s.mirrorCopies) (sendLogCopy node) s
  let s := each (sideRegions d) (fun r s =>
    let s := noteRead r.1 r.2 4 s.oldestStep s
    let m := s.readMarked r.1 r.2
    sendParts 0x21 node 3 .recovery (recoveryPieces 2 0 r.1 m.1 m.2) none s) s
  (sendXfer 0x21 node 3 true false .recovery (recoveryPieces 3 0 0 last [])
    (some (s.rgBits .hrvRecvCfg 0 16, 1)) s).1

/-- Whether bytes of a recovery stream cannot be read yet (R184, R190). -/
def State.streamHeld (s : State) (d : HostDesc) : Bool :=
  (List.range s.mirrorBlocks).any (fun b => s.engineHeld (s.mirrorBlock b) blockSize) ||
  s.mirrorCopies.any (fun e => s.engineHeld (s.rg .stpMlogBase + e.off) (64 + e.len)) ||
  (sideRegions d).any (fun r => s.engineHeld r.1 r.2)

/-- Sends the recovery stream that waits, once its bytes can be read; its transfers are one operation (R262). -/
def startStream (s : State) : State :=
  match s.hrv.recWait with
  | some d =>
    if s.streamHeld d then s
    else
      let (op, s) := newOp { s with hrv := { s.hrv with recWait := none } }
      underOp op (sendStream d) s
  | none => s

/-- An admitted recovery stream. -/
def actRecovery (d : HostDesc) (i : Inflight) (s : State) : State :=
  let es := harvestDemand d
  let p := s.margin + (es.map (fun e => (s.recoveryMoves d e.p * 1750 + (e.total - 1)) / e.total)).foldl max 0
  let s := addInflight { i with promise := p, work := .recovery } s
  startStream { s with hrv := { s.hrv with recovery := .sending, recDesc := i.id, recRates := es, recWait := some d } }

/-- HARVEST_BEGIN in recovery mode: streams the CURRENT mirror to a stand-in. -/
def harvestRecoveryOp (d : HostDesc) (s : State) : State :=
  if harvestDest d = 3 then consume 0x07 d (judgeRecovery d) (actRecovery d) s else s

/-- HARVEST_BEGIN in recovery mode (R321). -/
def execHarvestRecovery (d : HostDesc) (s : State) : Host.Outcome State Fault Refusal := .next (harvestRecoveryOp d s)

/-! ## RECOVERY packets (R319, R322, R323) -/

/-- Whether the module accepts RECOVERY packets.
DEDUCED, log entry 68. -/
def State.recvOk (s : State) : Bool := s.rgBit .hrvRecvCfg 16 && !s.steps.job

/-- A stream begins: its counts are zero, and the glean log holds nothing. -/
def beginStream (s : State) : State :=
  if s.hrv.recovery = .receiving && !s.hrv.streamEnded then s
  else
    { s with hrv := { s.hrv with recovery := RecSt.receiving, streamEnded := false, gotBlocks := 0, gotLogs := 0, gotSide := 0 },
             steps := { s.steps with log := LogRing.init, facts := [] } }

/-- The target of a RECOVERY packet that carries data. -/
def recoveryTarget (p : Packet) (s : State) : Option Nat :=
  let n := p.payload.length
  if !s.recvOk then none
  else if p.kind = 0 then
    let segs := s.mapSegs false
    if p.addr + n ≤ mapBlocks segs * blockSize then some (mapAddr (p.specNum 31 1 % 2) segs p.addr) else none
  else if p.kind = 1 then
    let e := copyEntry 0 p.payload
    if p.first then
      if s.steps.log.fits s.logSize e.size then some (s.rg .stpLogBase + (s.steps.log.place s.logSize e.size).2) else none
    else
      (s.steps.log.ents.getLast?).bind (fun e =>
        if s.hrv.gotEntry + n ≤ e.size then some (s.rg .stpLogBase + e.off + s.hrv.gotEntry) else none)
  else some p.addr

/-- A received log copy joins the glean log, after the padding that it needs. -/
def noteCopy (e : LogEnt) (s : State) : State :=
  let r := s.steps.log
  let (pad, off) := r.place s.logSize e.size
  let p : LogEnt := { off := r.tail, size := pad, kind := 0xFF, num := e.num, step := e.step, idx := 0, target := 0, len := 0 }
  let s := if pad = 0 then s else unitWrite (s.rg .stpLogBase + r.tail) (p.header 0 0) s
  let tail := if off + e.size = s.logSize then 0 else off + e.size
  logHigh { s with steps := { s.steps with log := { r with
    ents := r.ents ++ (if pad = 0 then [] else [p]) ++ [{ e with off := off }], tail := tail } } }

/-- What the data of a RECOVERY packet does beside its bytes: it is counted, and a log copy joins the log. -/
def recoveryExtra (p : Packet) (s : State) : State :=
  let n := p.payload.length
  let s := s.inc .hrvRecvBytes n
  if p.kind = 0 then { s with hrv := { s.hrv with gotBlocks := s.hrv.gotBlocks + n } }
  else if p.kind = 2 then { s with hrv := { s.hrv with gotSide := s.hrv.gotSide + n } }
  else if p.kind = 1 && p.first then
    noteCopy (copyEntry 0 p.payload) { s with hrv := { s.hrv with gotLogs := s.hrv.gotLogs + 1, gotEntry := n } }
  else if p.kind = 1 then { s with hrv := { s.hrv with gotEntry := s.hrv.gotEntry + n } }
  else s

/-- Whether a RECOVERY packet waits at its controller. -/
def recoveryHold (p : Packet) (s : State) : Bool :=
  p.kind ≠ 3 && (recoveryTarget p s).any (fun a => s.writeHeld a p.payload.length)

/-- The end packet arrives: its signal goes to the tally of HRV_RECV_CFG, and ends the stream when it is applied (R322, R323). -/
def receiveEnd (port : Nat) (p : Packet) (s : State) : State :=
  match trackIn port p s with
  | .late => latePacket port 0 p s
  | .bad => dropViolation port 7 p s
  | .ok s =>
    if !s.recvOk then sendAck port p.src p.xid p.idx 2 s
    else
      sendAck port p.src p.xid p.idx 0
        (packetSignalOf (some p.payload) { p with tally := s.rgBits .hrvRecvCfg 0 16, sigInc := 1 }
          ((beginStream s).inc .hrvRecvBytes p.payload.length))

/-- A RECOVERY packet is written, or the end packet checked. -/
def receiveRecovery (port : Nat) (p : Packet) (s : State) : State :=
  if 4 < p.kind || (p.kind = 3 && p.payload.length ≠ 64) then dropViolation port 9 p s
  else if p.kind = 3 then receiveEnd port p s
  else
    receiveData port recoveryTarget (fun _ p s => (recoveryExtra p s, false)) p
      (if s.recvOk && p.kind ≠ 4 then beginStream s else s)

/-- RECOVERY: shard, log, side-region or image data is written, or the end packet is checked. -/
def recoveryOp (port : Nat) (s : State) : State := serve port 0x21 recoveryHold (receiveRecovery port) s

/-- RECOVERY (R322). -/
def execRecovery (port : Nat) (s : State) : Host.Outcome State Fault Refusal := .next (recoveryOp port s)

end Sys2Proof.Machine
end

