-- ==== Sys2Proof/Machine/CopyAhead.lean ====
section
/-! DEFINITION. The writes that wait for the copy of a harvested block, and COPY_AHEAD (R330, R341). -/

namespace Sys2Proof.Machine

set_option Elab.async false

/-- Where a data packet writes, and how many bytes, if it has a target. -/
def State.packetTarget (s : State) (p : Packet) : Option (Nat × Nat) :=
  let a := if p.type = 0x01 then some p.addr
    else if p.type = 0x20 then (if 2 ≤ p.kind && p.kind ≤ 5 then none else mirrorTarget p s)
    else if p.type = 0x21 then (if p.kind = 3 then none else recoveryTarget p s)
    else none
  a.map (fun a => (a, p.payload.length))

/-- The target of the descriptor that a ring holds, when it is one that writes memory. -/
def State.ringTarget (s : State) (c : RingCtx) : Option (Nat × Nat) :=
  c.held.bind (fun d =>
    if descOp d ≠ 0x03 then none
    else if isLogReplay d then (s.replayEntry d).map (fun e => (e.target, e.len))
    else some (descNum d 0x10 8, descNum d 0x18 4))

/-- The writes that stand at a controller, or at the head of a lane or of a ring, each with where it writes. -/
def State.waitingWrites (s : State) : List (HeldWrite × Nat × Nat) :=
  (s.gath.xfers.filter (fun x => x.write && x.node = 0 && x.st = .requested)).map (fun x => (.xfer x.id, x.mpa, x.bytes))
  ++ (List.range Config.numPorts).flatMap (fun port => [0, 3].filterMap (fun vl =>
      match headOf ((s.port port).lane vl) with
      | .whole _ p => (s.packetTarget p).map (fun w => (.packet port vl, w))
      | _ => none))
  ++ s.host.rings.filterMap (fun e => (s.ringTarget e.2).map (fun w => (.ring e.1, w)))

/-- The writes that wait for a copy-ahead. -/
def State.heldWrites (s : State) : List HeldWrite :=
  if s.hrv.op.isNone then [] else (s.waitingWrites.filter (fun x => s.copyHeld x.2.1 x.2.2)).map (·.1)

/-- Notes the writes that begin to wait for a copy-ahead, and those that no longer do: each hold adds one to HRV_HOLDS, and the longest
stands in HRV_MAX_HOLD (R330, R341). -/
def noteHolds (s : State) : State :=
  let now := s.heldWrites
  let old := s.hrv.holds
  let ended := old.filter (fun x => !now.contains x.1)
  let fresh := now.filter (fun x => !(old.map (·.1)).contains x)
  let s := (s.inc .hrvHolds fresh.length).raise .hrvMaxHold ((ended.map (fun x => s.cyc - x.2)).foldl max 0)
  { s with hrv := { s.hrv with holds := old.filter (fun x => now.contains x.1) ++ fresh.map (fun x => (x, s.cyc)) } }

/-- COPY_AHEAD: a block for which a write waits is copied ahead of it, and the next 15 uncopied blocks of its segment with it. -/
def copyAheadOp (i : Nat) (s : State) : State :=
  match s.hrv.op with
  | none => s
  | some h =>
    if s.alive && s.uncopied i && i < sourceBlocks h.segs && !s.blockHeld h i &&
       s.waitingWrites.any (fun w => (h.touched w.2.1 w.2.2).contains i) then
      noteHolds (copyAheadOf i (noteHolds s))
    else s

/-- COPY_AHEAD (R330). -/
def execCopyAhead (block : Nat) (s : State) : Host.Outcome State Fault Refusal := .next (copyAheadOp block s)

end Sys2Proof.Machine
end

