-- ==== Sys2Proof/Machine/Clock.lean ====
section
/-! DEFINITION. What one undivided cycle does on its own, whatever is commanded: the counts of the passes, the promise clocks,
the window of a buffer cycle, and the edges of the throttled tile clock (R6, R141, R142, R209, R358, R360, R375, R382; log
entry 2). -/

namespace Sys2Proof.Machine

set_option Elab.async false

/-! ## The counts of the passes (R141, R142) -/

/-- A pass's counts after a cycle in which it is the running pass: the count of R141 grows; the budget count grows at a
tile-clock edge on which the pass is not held on a switching condition. -/
def SeqState.cycle (edge held : Bool) (x : SeqState) : SeqState :=
  { x with sinceYield := x.sinceYield + 1, budget := if edge && !held then x.budget + 1 else x.budget }

/-- The counts of a tile's running pass after a cycle. -/
def tileCycle (edge : Bool) (t : Nat) (s : State) : State :=
  match (s.tile t).running.bind (s.seq? t) with
  | some x => s.updSeq t x.pass (SeqState.cycle edge (s.heldSwitching t x))
  | none => s

/-- The counts of every pass grow on the tiles that work, and every tile notes its work. -/
def tilesCycle (edge : Bool) (s : State) : State :=
  each (s.tiles.map (·.1)) (fun t s => noteTile t (if s.tileWorks t then tileCycle edge t s else s)) s

/-! ## Promise clocks (R358, R360) -/

/-- Whether an address lies in a range that initialises. -/
def State.initialises (s : State) (a : Nat) : Bool :=
  match mpaWindow a with
  | some (p, off) => p < 12 && (match s.rangeAt p off with
    | some e => (s.range p e).busy
    | none => false)
  | none => false

/-- Whether a transfer waits for a tag in a buffer cycle's window without a floor (R210). -/
def State.cycleWait (s : State) (x : Xfer) : Bool :=
  x.st = .waiting && (sfind s.gath.window x.gath).isSome && s.floorTags x = 0

/-- Whether a read that a tile waits for is an excluded condition: it goes to a remote node, it waits in a buffer cycle's
window without a floor, or it goes to a range that initialises. -/
def State.readExcluded (s : State) (x : Xfer) : Bool := x.node ≠ 0 || s.cycleWait x || s.initialises x.mpa

/-- Whether a write that a tile waits for is one: it waits in a buffer cycle's window without a floor, for the copy of a harvested
block, or for a range that initialises. -/
def State.writeExcluded (s : State) (x : Xfer) : Bool :=
  s.cycleWait x || (x.node = 0 && x.st = .requested && (s.copyHeld x.mpa x.bytes || s.initialises x.mpa))

/-- Whether a dispatched instruction of a pass is held on a tile by an excluded PUT that has yet to read a line which it writes
(R129, R210). -/
def State.behindPut (s : State) (t : Nat) (p : Pass) (x : SeqState) : Bool :=
  let puts := s.gath.xfers.filter (fun y => y.tile == t && y.write && y.st = .waiting && y.data.isEmpty && s.cycleWait y)
  puts ≠ [] && x.queue.any (fun e =>
    (touchOf e.instr ((fetchCtx s t p x).at e) s).any (fun l => puts.any (fun y => y.bins.any l.2.contains)))

/-- Whether a pass is held on a tile on an excluded condition: a WAIT or BIND, a read, a write that a later instruction needs, or at
PEND a write that is not acknowledged.
DEDUCED, log entry 59. -/
def State.excludedOn (s : State) (q t : Nat) : Bool :=
  match s.pass? q, s.seq? t q with
  | some p, some x =>
    let mine (y : Xfer) : Bool := y.pass == q && y.tile == t
    x.hold.any Hold.switching ||
    (s.anyBehindGet t [] x.queue && s.gath.xfers.any (fun y => mine y && !y.write && y.issued && s.readExcluded y)) ||
    s.behindPut t p x ||
    (x.pended && s.gath.xfers.any (fun y => mine y && (if y.write then s.writeExcluded y else s.readExcluded y)))
  | _, _ => false

/-- Whether a pass issues its instructions on a tile. -/
def State.issuesOn (s : State) (q t : Nat) : Bool :=
  s.tileWorks t && (s.tile t).running == some q && (s.seq? t q).any (fun x =>
    !x.pended && !s.heldSwitching t x && !s.excludedOn q t)

/-- Whether the promise clock of accepted work stops in this cycle. Work that is excluded whole while it waits is counted when
it completes (completeWaited). -/
def State.clockStops (s : State) (w : Work) : Bool :=
  match w with
  | .pass q => (match s.pass? q with
    | some p => !(p.tiles.any (s.issuesOn q)) && p.tiles.any (s.excludedOn q)
    | none => false)
  | .harvest => s.hrv.op.any (fun h => h.stage2 && ((h.dest = 1 && !s.hostUp) || (h.dest = 2 && h.phase ≠ 0)))
  | .recovery => s.unackedFor .recovery || s.hrv.recWait.isSome
  | .restore => s.hrv.restore.any (fun r => !s.agreementDone r || (!s.hostUp && (s.commonStep r).any (·.host)))
  | _ => false

/-- Whether accepted work is a pass with cycles still to run; one whose clock stands still runs none (R17). -/
def State.stillRuns (s : State) (w : Work) : Bool :=
  match w with
  | .pass q => (match s.pass? q with
    | some p => p.ending.isNone && p.done.length < p.tiles.length && !s.clockStops w
    | none => false)
  | _ => false

/-- Accepted descriptors after a cycle: the promise clock stops on an excluded condition, and a cycle without a tile-clock edge
extends the promise of a pass that still runs (R17, R360, R382). -/
def promisesCycle (edge : Bool) (s : State) : State :=
  { s with host := { s.host with inflight := s.host.inflight.map (fun i =>
      { i with excluded := if s.clockStops i.work then i.excluded + 1 else i.excluded,
               extension := if !edge && s.stillRuns i.work then i.extension + 1 else i.extension }) } }

/-! ## The window of a buffer cycle (R209) -/

/-- Every gatherer notes since when the conditions of a buffer cycle hold there. -/
def windowsCycle (s : State) : State :=
  if s.gath.xfers.isEmpty && s.gath.window.isEmpty then s
  else
    each (List.range Config.numGatherers) (fun g s =>
      let w := if !s.cycleNow g then serase s.gath.window g
               else if (sfind s.gath.window g).isSome then s.gath.window
               else sinsert g s.cyc s.gath.window
      { s with gath := { s.gath with window := w } }) s

/-! ## The tile clock (R41, R382) -/

/-- Whether a tile-clock edge falls in this cycle. -/
def Throttle.edgeNow (t : Throttle) : Bool := t.left ≤ 1

/-- The throttle after a cycle: an edge that ends makes room for the next of its level. -/
def Throttle.cycle (t : Throttle) : Throttle :=
  if t.edgeNow then { t with edges := t.edges + 1, left := edgeCycles t.level (t.edges + 1) } else { t with left := t.left - 1 }

/-- The tile clock after a cycle. -/
def clockCycle (s : State) : State :=
  { s with edge := if s.stw.thr.edgeNow then s.edge + 1 else s.edge, stw := { s.stw with thr := s.stw.thr.cycle } }

/-- What a cycle does while the module is alive: its TAKEs and waits, the counts and clocks of the passes, and what the memories, the
gatherers and the quadrants note. -/
def aliveCycle (edge : Bool) (s : State) : State :=
  let s := promisesCycle edge (tilesCycle edge (tallyCycle s))
  let s := each (List.range Config.numStacks) noteQuiet (windowsCycle s)
  let s := noteHolds (startStream (sendCopies (each (List.range 4) noteUnused s)))
  finishCritical (if s.host.inflight.isEmpty then s else settle s)

/-- One undivided cycle passes. Without the 50 V input nothing runs.
DESIGN CHOICE, log entry 84. -/
def idleTick (s : State) : State :=
  if !s.stw.powered then s
  else
    let s := { s with cyc := s.cyc + 1 }
    let edge := s.stw.thr.edgeNow
    flushEvents (throttleEvent (clockCycle (restPorts (checkFault (if s.alive then aliveCycle edge s else s)))))

end Sys2Proof.Machine
end

