-- ==== Sys2Proof/Machine/Array.lean ====
section
/-! DEFINITION. The array queue: OPX, ALT, SHX, ACLR and DRN (R19 to R39). -/

namespace Sys2Proof.Machine

set_option Elab.async false

/-! ## Banks (R19, R27) -/

/-- Element (r, c) of an accumulator bank. -/
def Tile.accAt (tl : Tile) (bank r c : Nat) : Word := sget 0 tl.acc (bank * 1024 + r * 64 + c)

/-- A tile with a whole bank set, its table kept canonical. -/
def Tile.setBank (tl : Tile) (bank : Nat) (f : Nat → Nat → Word) : Tile :=
  { tl with acc := tl.acc.filter (fun e => e.1 / 1024 < bank)
      ++ (List.range 1024).filterMap (fun i => let v := f (i / 64) (i % 64)
            if v = 0 then none else some (bank * 1024 + i, v))
      ++ tl.acc.filter (fun e => bank < e.1 / 1024) }

/-! ## Accumulation (R26, R48) -/

/-- One operand step: 16 A-side values and 64 B-side values. -/
abbrev OpStep := List FVal × List FVal

/-- The exact product of a cell in one step (R48). -/
def cellProduct (r c : Nat) (x : OpStep) : FVal := ((x.1[r]?).getD .nan).mul ((x.2[c]?).getD .nan)

/-- Adds the exact sum of one cycle's products into a bank element, rounding once (R26, R48). -/
def accumulate (a : Word) (ps : List FVal) : Word :=
  match ps with
  | [] => a
  | p :: ps => round32 ((val32 a).add (ps.foldl FVal.add p))

/-- The bank after the steps of a sweep, grouped by cycle (R26). -/
def sweepInto (tl : Tile) (bank : Nat) (cycles : List (List OpStep)) : Tile :=
  tl.setBank bank (fun r c => cycles.foldl (fun a xs => accumulate a (xs.map (cellProduct r c))) (tl.accAt bank r c))

/-- The rate class of a sweep: 0 both FP4, 1 both of 8 bits or fewer, 2 otherwise (R24, R314). -/
def rateClass (fs : List Nat) : Nat :=
  if fs.any (fun f => fmtBits f = 16) then 2 else if fs.all (fun f => f == 4) then 0 else 1

/-- Adds n multiply-accumulates of a rate class to the attempt of a tagged pass (R314). -/
def countMacs (p : Pass) (cls n : Nat) (s : State) : State :=
  match p.step with
  | none => s
  | some k => s.updAttempt k (fun a =>
      if cls = 0 then { a with mac4 := a.mac4 + n } else if cls = 1 then { a with mac8 := a.mac8 + n }
      else { a with mac16 := a.mac16 + n })

/-- Notes that a bank holds a partial block, and the narrowest operand swept into it (R82, R139). -/
def markBank (c : Ctx) (bank : Nat) (fs : List Nat) (s : State) : State :=
  let w := fs.foldl (fun m f => min m (fmtBits f)) 16
  (s.updSeq c.t c.q.pass (fun q => { q with parts := (bank :: q.parts).dedup })).updTile c.t
    (fun tl => { tl with opBits := sinsert bank (min w (sget 16 tl.opBits bank)) tl.opBits })

/-- Notes that a bank holds no partial block (R139). -/
def unmarkBank (c : Ctx) (bank : Nat) (s : State) : State :=
  s.updSeq c.t c.q.pass (fun q => { q with parts := q.parts.filter (· ≠ bank) })

/-- The B-row register after a row is latched (R38). A row of 64 elements leaves positions 64 to 79 as they were (DESIGN CHOICE,
log entry 86). -/
def latchRow (tl : Tile) (codes : List Nat) : Tile :=
  { tl with brow := codes.map (BitVec.ofNat 16) ++ tl.brow.drop codes.length }

/-! ## OPX (R19, R25, R119) -/

/-- The operand steps of a plain sweep (R19). -/
def plainSteps (a b : Side) (bin : SMap Byte) (n : Nat) : List OpStep :=
  (List.range n).map (fun k =>
    ((a.codes bin k).zipIdx.map (fun x => a.value bin (k / 32) x.2 x.1),
     (b.codes bin k).zipIdx.map (fun x => b.value bin (k / 32) x.2 x.1)))

/-- The effect of an OPX: C += A · B, in ascending order of step, two FP4 steps to a cycle (R19, R24, R26). -/
def opxEff (f : OpxF) (c : Ctx) (s : State) : State :=
  match opxSides f c with
  | none => s
  | some (a, b) =>
    let bin := (s.tile c.t).bin
    let fs := [a.pl.fmt, b.pl.fmt]
    let steps := plainSteps a b bin f.k
    let cycles := if rateClass fs = 0 then pieces 2 steps else steps.map (fun x => [x])
    let s := s.updTile c.t (fun tl => latchRow (sweepInto tl f.bank cycles) (b.codes bin (f.k - 1)))
    countMacs c.p (rateClass fs) (1024 * f.k) (markBank c f.bank fs s)

/-- OPX: a plain sweep of K operand steps. -/
def opxOp (t : Nat) (f : OpxF) (s : State) : State := runOp t (.opx t f) (opxEff f) s

/-- OPX (R19, R31). -/
def execOpx (t : Nat) (f : OpxF) (s : State) : Host.Outcome State Fault Refusal := .next (opxOp t f s)

/-! ## ALT (R35 to R37) -/

/-- The effect of an ALT: the chunk is loaded into the half that the ALT before did not use, then 64 steps add
dY · Wᵀ into the dX bank and 16 steps add Xᵀ · dY into the dW bank (R35, R37). -/
def altEff (f : AltF) (c : Ctx) (s : State) : State :=
  match altSides f c with
  | none => s
  | some (dy, w, x) =>
    let bin := (s.tile c.t).bin
    let fs := [dy.pl.fmt, w.pl.fmt, x.pl.fmt]
    let rows := (List.range 16).map (dy.codes bin)
    let chunk := rows.map (fun r => r.map (decodeElem dy.pl.fmt))
    let dx : List OpStep := (List.range 64).map (fun n =>
      (chunk.map (fun r => (r[n]?).getD .nan), (w.codes bin n).map (decodeElem w.pl.fmt)))
    let dw : List OpStep := (List.range 16).map (fun m => ((x.codes bin m).map (decodeElem x.pl.fmt), (chunk[m]?).getD []))
    let flat := rows.flatten.map (BitVec.ofNat 16)
    let s := s.updTile c.t (fun tl =>
      let tl := sweepInto tl f.dxBank (dx.map (fun y => [y]))
      let tl := sweepInto tl f.dwBank (dw.map (fun y => [y]))
      let tl := latchRow tl (((rows[15]?).getD []))
      if tl.chunkSel then { tl with chunk0 := flat, chunkSel := false } else { tl with chunk1 := flat, chunkSel := true })
    countMacs c.p (rateClass fs) (1024 * 80) (markBank c f.dxBank fs (markBank c f.dwBank fs s))

/-- ALT: an alternating gradient sweep. -/
def altOp (t : Nat) (f : AltF) (s : State) : State := runOp t (.alt t f) (altEff f) s

/-- ALT (R35). -/
def execAlt (t : Nat) (f : AltF) (s : State) : Host.Outcome State Fault Refusal := .next (altOp t f s)

/-! ## SHX (R38, R39) -/

/-- The operand steps of row i of an SHX: at tap t the B side of column c is register position c + t × s (R38). -/
def shxRow (f : ShxF) (a b : Side) (bin : SMap Byte) (i : Nat) : List OpStep :=
  let reg := b.codes bin i
  (List.range f.taps).map (fun t =>
    let k := i * f.taps + t
    ((a.codes bin k).zipIdx.map (fun x => a.value bin (k / 32) x.2 x.1),
     (List.range 64).map (fun c => b.value bin (k / 32) c ((reg[c + t * f.str]?).getD 0))))

/-- The effect of an SHX: R rows of T taps, two FP4 taps of a row to a cycle (R38, R39). -/
def shxEff (f : ShxF) (c : Ctx) (s : State) : State :=
  match shxSides f c with
  | none => s
  | some (a, b) =>
    let bin := (s.tile c.t).bin
    let fs := [a.pl.fmt, b.pl.fmt]
    let cycles := (List.range f.rows).flatMap (fun i =>
      let xs := shxRow f a b bin i
      if rateClass fs = 0 then pieces 2 xs else xs.map (fun x => [x]))
    let s := s.updTile c.t (fun tl => latchRow (sweepInto tl f.bank cycles) (b.codes bin (f.rows - 1)))
    countMacs c.p (rateClass fs) (1024 * (f.rows * f.taps)) (markBank c f.bank fs s)

/-- SHX: a shifted-row sweep. -/
def shxOp (t : Nat) (f : ShxF) (s : State) : State := runOp t (.shx t f) (shxEff f) s

/-- SHX (R38). -/
def execShx (t : Nat) (f : ShxF) (s : State) : Host.Outcome State Fault Refusal := .next (shxOp t f s)

/-! ## ACLR (R28) -/

/-- The effect of an ACLR: every element of the bank is +0.0. -/
def aclrEff (bank : Nat) (c : Ctx) (s : State) : State :=
  unmarkBank c bank (s.updTile c.t (fun tl => tl.clearBanks (1#4 <<< bank)))

/-- ACLR: clears a bank. -/
def aclrOp (t bank : Nat) (s : State) : State := runOp t (.aclr t bank) (aclrEff bank) s

/-- ACLR (R28). -/
def execAclr (t bank : Nat) (s : State) : Host.Outcome State Fault Refusal := .next (aclrOp t bank s)

/-! ## DRN (R33, R50, R62, R79, R80) -/

/-- The rows that a DRN writes, converted (R33). -/
def drnRows (f : DrnF) (c : Ctx) (fmt : Nat) (sc : Scaling) (s : State) : List Converted :=
  let k := laneKey s c.p sc.layer
  (List.range 16).map (fun r => convertRow fmt sc.g ((List.range 64).map (fun col =>
    (val32 ((s.tile c.t).accAt f.bank r col), roundingAt k f.sr f.srSeq c.t r col))))

/-- The position of an instruction in its layer: row block and column block (R125). -/
def drainBlock (g : GaugeRef) (q : SeqState) : Nat × Nat := (g.m0 + q.counter g.rowIdx, g.n0 + q.counter g.colIdx)

/-- Adds a sampled sub-block for the tithe engine (R79, R81). -/
def titheSample (c : Ctx) (g : GaugeRef) (f : DrnF) (fmt : Nat) (sc : Scaling) (rows : List Converted) (s : State) : State :=
  match c.p.step with
  | none => s
  | some n =>
    let (m, nb) := drainBlock g c.v
    let rate := titheRate c.w.tithe
    if titheOn s c.w g.titheL && g.titheL < c.w.layers && (titheSlot n g.titheL c.p.mb rate m).isSome then
      let j := titheGroup n g.titheL c.p.mb nb
      let val : Converted → Nat → Word := fun r col =>
        let code := (r.codes[col]?).getD 0
        round32 (if blockScaled fmt then scaledElem fmt code ((r.scales[col / 32]?).getD 255) else decodeElem fmt code)
      let x : TitheSample :=
        { layer := g.titheL, row := m, nblk := nb, col := j, mb := c.p.mb,
          ver := (((s.steps.binds.find? (fun b => b.1 == c.p.mb)).map (·.2)).getD s.steps.version),
          scale := sc.g, opBits := sget 16 (s.tile c.t).opBits f.bank,
          elems := rows.flatMap (fun r => (List.range 8).map (fun e => val r (8 * j + e))) }
      s.updAttempt n (fun a => { a with samples := a.samples ++ [x] })
    else s

/-- Writes the FP32 copy of a sampled block for its consumer, in the tensor's own units (R66, R80, DEDUCED, log entry 23). A row
whose address lies in a hole or in memory that does not serve is dropped without a report (DESIGN CHOICE, log entry 89). -/
def titheWide (c : Ctx) (g : GaugeRef) (f : DrnF) (sc : Scaling) (s : State) : State :=
  match c.p.step with
  | none => s
  | some n =>
    let (m, nb) := drainBlock g c.v
    let rate := titheRate c.w.tithe
    match titheSlot n g.titheL c.p.mb rate m with
    | some slot =>
      if titheOn s c.w g.titheL && g.titheL < c.w.layers then
        each (List.range 16) (fun r s =>
          let a := titheAddr s c.w g.titheL c.p.mb slot rate r (nb * 64)
          let row := (List.range 64).map (fun col =>
            (fp32.convert none (sc.g - sc.gout) (val32 ((s.tile c.t).accAt f.bank r col))).1)
          if s.mpaOk a 256 then ctrlWrite 0 none a (pack 32 row) s else s) s
      else s
    | none => s

/-- The effect of a DRN: the bank, scaled and converted, is written to its destination; the bank stays as it is; outcomes,
statistics and samples are taken (R33, R54, R62, R66, R72, R74, R79, R80). -/
def drnEff (f : DrnF) (c : Ctx) (s : State) : State :=
  match operand c f.dst true with
  | none => s
  | some p =>
    let sc := scaling s c.w c.p.img f.gref
    let rows := drnRows f c p.fmt sc s
    let srcs := (List.range 1024).map (fun i => (val32 ((s.tile c.t).accAt f.bank (i / 64) (i % 64))).scale (sc.g - sc.gout))
    let n : Counted :=
      { layer := sc.layer, role := sc.role, sources := srcs, outs := rows.flatMap (·.outs),
        nonzero := (rows.map (Converted.nonzero p.fmt)).sum, gauged := f.gref ≠ 31,
        measure := f.measure, uses := sc.uses }
    let s1 := report c n (s.setBin c.t (p.putConverted (s.tile c.t).bin .tile rows))
    let s2 := match c.p.img.gauges[f.gref]? with
      | some g =>
        let s2 := if f.tithe then titheSample c g f p.fmt sc rows s1 else s1
        if f.wide then titheWide c g f sc s2 else s2
      | none => s1
    unmarkBank c f.bank s2

/-- DRN: drains a bank to the bin. -/
def drnOp (t : Nat) (f : DrnF) (s : State) : State := runOp t (.drn t f) (drnEff f) s

/-- DRN (R33). -/
def execDrn (t : Nat) (f : DrnF) (s : State) : Host.Outcome State Fault Refusal := .next (drnOp t f s)

end Sys2Proof.Machine
end

