-- ==== Sys2Proof/Machine/CollRows.lean ====
section
/-! DEFINITION. The collective engine's commands and events, the COLL packet, and the writes of the selected module tally
(R239 to R244, R249, R250). -/

namespace Sys2Proof.Machine

set_option Elab.async false

/-! ## The selected module tally (R249, R250) -/

/-- Whether a pending WAIT or collective trigger names a module tally (R249). -/
def State.tallyInUse (s : State) (k : Nat) : Bool :=
  s.residents.any (fun x => (Hold.waitsOn x.2.hold x.1 none k).isSome) ||
  s.coll.groups.any (fun x => s.triggers x && (s.collCmd (s.collEntry x.1) x.2.cmd).trigger = k)

/-- TIL_MTAL_COUNT_WRITE: sets the selected tally's count and reference, and clears its double count; ignored while the tally
is in use. -/
def tilMtalCountWriteOp (v : Word) (s : State) : State :=
  let k := s.rgBits .tilMtalSel 0 16
  if !s.alive then s
  else if s.tallyInUse k then s.flag .tilSyncStatus 0
  else
    let y := s.mtally k
    s.setMtally k { y with count := v, ref := v, double := 0 }

/-- TIL_MTAL_COUNT_WRITE (R249). -/
def execTilMtalCountWrite (value : Word) (s : State) : Host.Outcome State Fault Refusal :=
  .next (barWrite (Reg.offset ⟨.tilMtalCount, 0, 0⟩) (tilMtalCountWriteOp value) s)

/-- TIL_MTAL_CFG_WRITE: sets the selected tally's mode; a change sets the count to 0. Ignored while the tally is in use. -/
def tilMtalCfgWriteOp (v : Word) (s : State) : State :=
  let k := s.rgBits .tilMtalSel 0 16
  if !s.alive then s
  else if s.tallyInUse k then s.flag .tilSyncStatus 0
  else
    let y := s.mtally k
    if y.gate = v.getLsbD 0 then s else s.setMtally k { y with gate := v.getLsbD 0, count := 0 }

/-- TIL_MTAL_CFG_WRITE (R250). -/
def execTilMtalCfgWrite (value : Word) (s : State) : Host.Outcome State Fault Refusal :=
  .next (barWrite (Reg.offset ⟨.tilMtalCfg, 0, 0⟩) (tilMtalCfgWriteOp value) s)

/-! ## Groups (R239, R250) -/

/-- COLL_GROUP_ENABLE: checks a group's entry and commands, and enables the group at command 0; a failure sets cfg_err. -/
def collGroupEnableOp (g : Nat) (s : State) : State :=
  if !s.alive || g ≥ 4096 || (s.group g).st ≠ .disabled then s
  else if s.collValid g then
    ({ s with coll := { s.coll with cfgErr := false } } : State).setGroup g { Group.init with st := .idle, since := s.aon }
  else { s with coll := { s.coll with cfgErr := true } }

/-- COLL_GROUP_ENABLE (R239). -/
def execCollGroupEnable (g : Nat) (s : State) : Host.Outcome State Fault Refusal :=
  .next (barWrite (Reg.offset ⟨.fabCollCtl, 0, 0⟩) (collGroupEnableOp g) s)

/-- COLL_GROUP_DISABLE: a group is disabled, and a running command stops at once. -/
def collGroupDisableOp (g : Nat) (s : State) : State := if s.alive && g < 4096 then s.setGroup g .init else s

/-- COLL_GROUP_DISABLE (R250). -/
def execCollGroupDisable (g : Nat) (s : State) : Host.Outcome State Fault Refusal :=
  .next (barWrite (Reg.offset ⟨.fabCollCtl, 0, 0⟩) (collGroupDisableOp g) s)

/-! ## Commands (R240 to R243) -/

/-- Bytes of a command's input. -/
def CollCmd.inputBytes (c : CollCmd) (e : CollEntry) : Nat :=
  if c.op = 1 then let r := c.shard e.n e.own; (r.2 - r.1) * fmtBlock c.fin
  else if c.op = 3 && e.own ≠ c.root then 0
  else (c.elems * fmtBits c.fin + 7) / 8

/-- Bytes of a command's output on this module. -/
def CollCmd.outputBytes (c : CollCmd) (e : CollEntry) : Nat :=
  if c.op = 0 then let r := c.shard e.n e.own; (r.2 - r.1) * fmtBlock c.fout else (c.elems * fmtBits c.fout + 7) / 8

/-- Whether the engine cannot write a command's output yet (R184, R190, R330). -/
def State.outputHeld (s : State) (e : CollEntry) (c : CollCmd) : Bool := c.elems ≠ 0 && s.writeHeld c.output (c.outputBytes e)

/-- Whether the engine cannot read a command's input yet (R184, R190). -/
def State.inputHeld (s : State) (e : CollEntry) (c : CollCmd) : Bool := c.elems ≠ 0 && s.engineHeld c.input (c.inputBytes e)

/-- Starts a command: need is taken, the deadline set, inputs sent and placed, and chunks that came early are processed. -/
def startCommand (g : Nat) (e : CollEntry) (k : Nat) (c : CollCmd) (s : State) : State :=
  let (ack, s) := newAck (takeNeed c.trigger c.need s)
  let y := s.group g
  let s := s.setGroup g { y with st := .running, ack := some ack, reduced := false, counts := .zero,
                                 deadline := if e.timeout = 0 then none else some (s.aon + e.timeout) }
  let s := if c.elems = 0 then s else noteRead c.input (c.inputBytes e) 3 s.oldestStep s
  let s := sendInputs g e k c s
  let s := if c.elems = 0 then s else placeOwn g e c s
  let s := if c.elems = 0 then s else each (s.group g).chunks (fun x s => placeChunk g e c x s) s
  tryFold g e k c s

/-- COLL_COMMAND_START: a group's next command starts when its trigger tally satisfies need. -/
def collCommandStartOp (g : Nat) (s : State) : State :=
  let y := s.group g
  let e := s.collEntry g
  if !s.alive || y.st ≠ .idle || y.cmd ≥ e.count then s
  else
    let c := s.collCmd e y.cmd
    if s.triggerMet c.trigger c.need && !s.inputHeld e c && !s.outputHeld e c then startCommand g e y.cmd c s else s

/-- COLL_COMMAND_START (R240). -/
def execCollCommandStart (g : Nat) (s : State) : Host.Outcome State Fault Refusal := .next (collCommandStartOp g s)

/-- COLL_COMMAND_DONE: a running command has all that it needs: its counts are added, its done tally is signalled, and the
group waits for its next command. -/
def collCommandDoneOp (g : Nat) (s : State) : State :=
  let y := s.group g
  let e := s.collEntry g
  let c := s.collCmd e y.cmd
  if !s.alive || y.st ≠ .running || !y.complete e c then s
  else
    let s := addCounts (s.collWatch e) c.layer c.role y.counts s
    let s := s.setGroup g { y with st := .idle, cmd := y.cmd + 1, chunks := [], deadline := none, reduced := false,
                                   since := s.aon, counts := .zero, ack := none }
    addSignal { source := .coll, pass := none, dest := none, node := 0, tally := c.done, inc := c.inc, fence := [], lines := y.ack.toList,
                desc := none, bare := false } s

/-- COLL_COMMAND_DONE (R240). -/
def execCollCommandDone (g : Nat) (s : State) : Host.Outcome State Fault Refusal := .next (collCommandDoneOp g s)

/-- COLL_GROUP_TIMEOUT: a running command has passed its deadline: the group fails, with WAIT_TIMEOUT and a dump, and the open
attempts will not be ready (R244, R289). -/
def collGroupTimeoutOp (g : Nat) (s : State) : State :=
  let y := s.group g
  match y.deadline with
  | some d =>
    if s.alive && y.st = .running && d < s.aon then
      let e := s.collEntry g
      let c := s.collCmd e y.cmd
      let s := waitTimedOut 3 g y.cmd (y.missing e c) 0 [] s
      (s.setGroup g { y with st := .failed, deadline := none }).mapAttempts (fun a => { a with groupFailed := true })
    else s
  | none => s

/-- COLL_GROUP_TIMEOUT (R244). -/
def execCollGroupTimeout (g : Nat) (s : State) : Host.Outcome State Fault Refusal := .next (collGroupTimeoutOp g s)

/-! ## COLL (R242, R244) -/

/-- Whether a COLL packet agrees with the receiver's group, command and geometry (R244). -/
def State.collAgrees (s : State) (p : Packet) : Bool :=
  let g := p.specNum 22 2
  let m := p.specNum 30 2
  let j := p.specNum 26 4
  let y := s.group g
  let e := s.collEntry g
  let c := s.collCmd e y.cmd
  (y.st = .idle || y.st = .running) && p.specNum 24 2 = y.cmd && y.cmd < e.count && m < e.n && m ≠ e.own &&
  s.collMember e m = p.src && j < c.expected e.n e.own m && p.payload.length = c.chunkBytes e.n e.own m j &&
  !y.chunks.any (fun x => x.member == m && x.chunk == j)

/-- Takes a chunk: it is kept, and placed or folded when its command runs (R242). -/
def takeChunk (p : Packet) (s : State) : State :=
  let g := p.specNum 22 2
  let x : CollChunk := { member := p.specNum 30 2, chunk := p.specNum 26 4, data := p.payload }
  let y := s.group g
  let s := s.setGroup g { y with chunks := y.chunks ++ [x] }
  if y.st = .running then
    let e := s.collEntry g
    let c := s.collCmd e y.cmd
    tryFold g e y.cmd c (if c.elems = 0 then s else placeChunk g e c x s)
  else s

/-- Whether a COLL packet waits: its group runs a command whose output cannot be written yet. -/
def collHold (p : Packet) (s : State) : Bool :=
  let g := p.specNum 22 2
  let y := s.group g
  let e := s.collEntry g
  y.st = .running && s.collAgrees p && s.outputHeld e (s.collCmd e y.cmd)

/-- COLL: a collective chunk is taken into its command; one that does not agree is a violation. -/
def collOp (port : Nat) (s : State) : State :=
  serve port 0x10 collHold (fun p s => if s.collAgrees p then takeChunk p s else dropViolation port 10 p s) s

/-- COLL (R242). -/
def execColl (port : Nat) (s : State) : Host.Outcome State Fault Refusal := .next (collOp port s)

end Sys2Proof.Machine
end

