-- ==== Sys2Proof/Machine/Control.lean ====
section
/-! DEFINITION. The control queue: SIG, WAIT, TAKE, BIND, LOOP, BRC, YIELD and PEND (R123, R124, R132, R133, R139 to R143), and
the events of passes, tallies and binder wires (R136 to R144, R226 to R238). -/

namespace Sys2Proof.Machine

set_option Elab.async false

/-! ## SIG (R123, R133, R231 to R234) -/

/-- The tile that a SIG of kind 1 names. -/
def sigTarget (t : Nat) (f : SigF) : Nat := (((t / 48 : Nat) + f.dy) * 48 + (t % 48 : Nat) + f.dx).toNat

/-- Whether a SIG names a tile: a SIG of kind 1 whose dx and dy leave the grid of 48 by 32 logical tiles is malformed (R10). A
place off the grid whose number would fall below 0x600 names no tile either (DESIGN CHOICE, log entry 94). -/
def sigOnGrid (t : Nat) (f : SigF) : Bool :=
  f.kind ≠ 1 || (0 ≤ (t % 48 : Nat) + f.dx && (t % 48 : Nat) + f.dx < 48 && 0 ≤ (t / 48 : Nat) + f.dy && (t / 48 : Nat) + f.dy < 32)

/-- The node that a SIG of kind 3 names; 0 for this module (R122, R123). -/
def sigNode (c : Ctx) (f : SigF) : Nat :=
  if f.kind = 3 then ((c.p.img.streams[f.stream]?).map (·.node)).getD 0 else 0

/-- The tally that a SIG names: local to a tile, or a module tally. -/
def sigDest (t : Nat) (f : SigF) : Option Nat :=
  if f.kind = 0 then some t else if f.kind = 1 then some (sigTarget t f) else none

/-- The transfers that keep a fenced SIG back (R131, R133, R232). -/
def sigFence (c : Ctx) (f : SigF) (node : Nat) (s : State) : List Nat :=
  if f.bare || f.kind = 1 then []
  else if node = 0 then s.tileXfers c.t (fun _ => true)
  else s.tileXfers c.t (fun x => x.write && x.node = node)

/-- The mesh lines that keep a fenced SIG back (R131, R133). -/
def sigLines (c : Ctx) (f : SigF) (node : Nat) (s : State) : List Nat :=
  if f.bare || node ≠ 0 then []
  else (s.gath.mesh.filter (fun m => m.src == c.t && (f.kind ≠ 1 || m.dst == sigTarget c.t f))).map (·.id)

/-- A bare signal to another module leaves at once in a packet of its own, which an abandoned pass takes back while it is queued
(R144, R234). -/
def sendBare (pass node tally inc : Nat) (s : State) : State :=
  let (xid, s) := newXid s
  sendPacketOf (some pass) 0x06 node xid 0 none { addr := 0, spec := [], data := [] } (some (tally, inc)) s

/-- The effect of a SIG: the signal is on its way.
DEDUCED, log entry 77. -/
def sigEff (f : SigF) (c : Ctx) (s : State) : State :=
  let node := sigNode c f
  if f.bare && node ≠ 0 then sendBare c.p.seq node f.tally f.inc s
  else
    let x : PendSig :=
      { source := .tile c.t, pass := some c.p.seq, dest := sigDest c.t f, node := node, tally := f.tally, inc := f.inc,
        fence := sigFence c f node s, lines := sigLines c f node s, desc := none, bare := f.bare }
    sendRemoteSignals (addSignal x s)

/-- Whether a SIG has a target: a tile of the grid, or a node with a route (R10, R264). -/
def sigOk (s : State) (c : Ctx) (f : SigF) : Bool := sigOnGrid c.t f && !s.noRoute (sigNode c f)

/-- SIG: signals a tally. A target off the grid, or a node without a route, abandons the pass (R10, R144, R264). -/
def sigOp (t : Nat) (f : SigF) (s : State) : State :=
  runOp t (.sig t f) (fun c s => if sigOk s c f then sigEff f c s else abandonPass c.p.seq .malformed t s) s

/-- SIG (R133). -/
def execSig (t : Nat) (f : SigF) (s : State) : Host.Outcome State Fault Refusal := .next (sigOp t f s)

/-! ## WAIT and TAKE (R123, R132, R227, R228) -/

/-- The target of a WAIT (R123). -/
def waitTarget (c : Ctx) (f : WaitF) : Word :=
  (if f.kind = 2 then c.p.origin else 0) + BitVec.ofNat 32 (f.base + f.step * c.v.counter f.index)

/-- The deadline of a WAIT or BIND that issues now (R238). -/
def holdDeadline (c : Ctx) (timeout : Bool) (s : State) : Option Nat :=
  if timeout && c.p.img.timeout ≠ 0 then some (s.aon + c.p.img.timeout) else none

/-- WAIT: once every earlier instruction has issued, it is pending, and holds the tile's pass until it is satisfied; pending waits
are evaluated when the cycle ends (R132, R229). -/
def waitOp (t : Nat) (f : WaitF) (s : State) : State :=
  match present s t (.wait t f) with
  | none => s
  | some c =>
    if c.q.hold.isSome || !c.earlier.isEmpty then s
    else setHold c (.wait f.kind f.tally (waitTarget c f) s.aon (holdDeadline c f.timeout s)) s

/-- WAIT (R227). -/
def execWait (t : Nat) (f : WaitF) (s : State) : Host.Outcome State Fault Refusal := .next (waitOp t f s)

/-- TAKE: subtracts an amount from a tally, after the signals of its cycle. -/
def takeOp (t : Nat) (f : TakeF) (s : State) : State :=
  runOp t (.take t f) (fun _ s => queueTake (waitDest t f.kind) f.tally f.amount s) s

/-- TAKE (R228). -/
def execTake (t : Nat) (f : TakeF) (s : State) : Host.Outcome State Fault Refusal := .next (takeOp t f s)

/-! ## BIND (R132, R237) -/

/-- Raises a tile's input on a wire. -/
def raiseWire (w t : Nat) (s : State) : State :=
  { s with sync := { s.sync with wires := s.sync.wires.map (fun e =>
      if e.1 = w && !e.2.high.contains t then (e.1, { e.2 with high := e.2.high ++ [t] }) else e) } }

/-- BIND: once every earlier instruction has issued, it raises the tile's input on a wire and holds the tile until the wire
releases (R132). -/
def bindOp (t : Nat) (f : BindF) (s : State) : State :=
  match present s t (.bind t f) with
  | none => s
  | some c =>
    if c.q.hold.isSome || !c.earlier.isEmpty then s
    else setHold c (.bind f.wire s.aon (holdDeadline c f.timeout s)) (raiseWire f.wire t s)

/-- BIND (R237). -/
def execBind (t : Nat) (f : BindF) (s : State) : Host.Outcome State Fault Refusal := .next (bindOp t f s)

/-! ## LOOP and BRC (R124) -/

/-- LOOP: opens a loop body. It is resolved at the fetch and waits for nothing (R111). -/
def loopOp (t : Nat) (f : LoopF) (s : State) : State :=
  match present s t (.loop t f) with
  | none => s
  | some c =>
    advance c (.loop t f) (s.updSeq t c.p.seq (fun q =>
      { q with loops := q.loops ++ [{ start := q.pc + 1, body := f.body, count := f.count, cur := 0 }] }))

/-- LOOP (R124). -/
def execLoop (t : Nat) (f : LoopF) (s : State) : Host.Outcome State Fault Refusal := .next (loopOp t f s)

/-- Whether a BRC is taken (R123). -/
def brcTaken (q : SeqState) (f : BrcF) : Bool :=
  let l := q.counter (f.n + 1)
  let n := ((q.loops[f.n]?).map (·.count)).getD 0
  match f.cond with
  | 0 => true
  | 1 => l = 0
  | 2 => l ≠ 0
  | 3 => l + 1 = n
  | 4 => l + 1 ≠ n
  | 5 => l % 2 = 0
  | _ => l % 2 = 1

/-- BRC: continues at a displacement when its condition on a loop counter holds. It is resolved at the fetch (R111). -/
def brcOp (t : Nat) (f : BrcF) (s : State) : State :=
  match present s t (.brc t f) with
  | none => s
  | some c =>
    (s.updSeq t c.p.seq (fun q => if brcTaken q f then q.goto ((q.pc : Int) + f.disp).toNat else q.next)).updTile t
      (fun tl => { tl with clocked := true })

/-- BRC (R124). -/
def execBrc (t : Nat) (f : BrcF) (s : State) : Host.Outcome State Fault Refusal := .next (brcOp t f s)

/-! ## YIELD (R139, R140) -/

/-- The state that a save line holds, as numbers (R140). -/
def savedState (q : SeqState) : List Nat :=
  [q.pc, q.budget, q.loops.length] ++ q.loops.flatMap (fun l => [l.start, l.body, l.count, l.cur]) ++ q.swapped

/-- Suspends a pass on a tile: its sequencer state goes to the save line, and its slot is free (R140, DESIGN CHOICE, log entry 5). -/
def suspendOn (c : Ctx) (q : SeqState) (s : State) : State :=
  let line := (List.range 64).map (Config.saveByte (savedState q))
  let s := s.updTile c.t (fun tl => { tl with bin := putBytes tl.bin c.p.img.save line })
  let s := s.updSeq c.t q.pass (fun _ => { q with suspended := true, preempt := false })
  dispatchNext c.t (s.updTile c.t (fun tl => ({ tl with running := none } : Tile).fillSlot))

/-- YIELD: it issues when every earlier instruction has. Without a partial block, the tile suspends the pass when pre-emption is pending, and otherwise switches to another
ready pass. -/
def yieldOp (t : Nat) (s : State) : State :=
  match present s t (.yield t) with
  | none => s
  | some c =>
    if !c.earlier.isEmpty then s
    else
    let q : SeqState := { c.q.next with sinceYield := 0 }
    let s := (s.updSeq t c.p.seq (fun _ => q)).updTile t (fun tl => { tl with clocked := true })
    if q.parts ≠ [] then s
    else if q.preempt then suspendOn c q s
    else
      match s.nextPassOn t (some c.p.seq) with
      | some n => s.updTile t (fun tl => { tl with running := some n })
      | none => s

/-- YIELD (R139). -/
def execYield (t : Nat) (s : State) : Host.Outcome State Fault Refusal := .next (yieldOp t s)

/-! ## PEND (R143) -/

/-- Whether everything that a PEND waits for is complete on a tile: its moves are visible or acknowledged, and its fenced
signals applied (R143). -/
def State.pendDone (s : State) (t q : Nat) : Bool :=
  !s.gath.xfers.any (fun x => x.tile == t && x.pass == q) && !s.gath.mesh.any (fun m => m.src == t && m.pass == q) &&
  !s.sync.signals.any (fun x => x.source = .tile t && x.pass == some q && !x.bare)

/-- Ends a pass on a tile whose PEND is complete: its banks are cleared and its slot is free (R27, R143). -/
def endOn (t q : Nat) (s : State) : State :=
  match s.pass? q with
  | some p =>
    let s := (s.dropSeq t q).updTile t (fun tl => tl.clearBanks p.img.banks)
    dispatchNext t (s.updPass q (fun p => { p with done := p.done ++ [t] }))
  | none => s

/-- Marks a pass that has reached PEND on a tile, which ends a pre-emption that pends there; once it has on every tile, its
assembly blocks are flushed (R141, R151, R237). -/
def markPend (c : Ctx) (s : State) : State :=
  let s := s.updSeq c.t c.p.seq (fun q => { q with pended := true, preempt := false, hold := some .pend })
  if s.allPended c.p then flushWriter (c.p.seq + 1) s else s

/-- PEND: waits until everything before it on the tile is complete, then ends the pass there. A pass that waits at PEND gives
the sequencer to another that is ready (R137). -/
def pendOp (t : Nat) (s : State) : State :=
  let s := match present s t (.pend t) with
    | some c => if c.q.pended || !c.earlier.isEmpty then s else markPend c s
    | none => s
  let waiting := ((s.tile t).seqs.filter (·.pended)).map (·.pass)
  let s := each (waiting.filter (s.pendDone t)) (endOn t) s
  match (s.tile t).running with
  | some q =>
    if (s.seq? t q).any (·.pended) then
      match s.nextPassOn t (some q) with
      | some n => s.updTile t (fun tl => { tl with running := some n })
      | none => s
    else s
  | none => s

/-- PEND (R143). -/
def execPend (t : Nat) (s : State) : Host.Outcome State Fault Refusal := .next (if s.tileWorks t then pendOp t s else s)

/-! ## Retirement and switching (R86, R136, R137, R140, R143) -/

/-- Raises NONFINITE_LOSS as a pass retires, once per attempt (R86). -/
def lossEvent (p : Pass) (s : State) : State :=
  match p.step.bind s.attempt? with
  | some a =>
    if p.losses = 0 || a.lossSeen || !s.rgBit .numEvtEn 2 then s
    else
      raiseEvent .nonfiniteLoss p.lossLayer
        (detail [(0, 2, p.lossLayer), (2, 1, 4), (4, 5, a.step), (9, 4, min p.losses 0xFFFFFFFF)])
        (s.updAttempt a.step (fun a => { a with lossSeen := true }))
  | none => s

/-- PASS_RETIRE: a pass that has ended on every tile of its set completes with OK. -/
def passRetireOp (q : Nat) (s : State) : State :=
  match s.pass? q with
  | some p =>
    if s.alive && p.ending.isNone && p.tiles.all p.done.contains then
      settle (completePass p .ok ((p.done.getLast?).getD 0) (freeWires q (lossEvent p s)))
    else s
  | none => s

/-- PASS_RETIRE (R143). -/
def execPassRetire (q : Nat) (s : State) : Host.Outcome State Fault Refusal := .next (passRetireOp q s)

/-- Whether a pass's pending WAIT on a tile is satisfied by its tally as it stands, so that the end of the cycle completes it. -/
def State.waitMet (s : State) (t : Nat) (x : SeqState) : Bool :=
  match x.hold with
  | some (.wait kind k target _ _) => (s.tally (waitDest t kind) k).meets target
  | _ => false

/-- Whether a tile's running pass leaves the sequencer: it has an instruction held on a switching condition, or waits at PEND
(R136, R137). -/
def State.runningHeld (s : State) (t : Nat) : Bool :=
  match (s.tile t).running with
  | some q => (match s.seq? t q with
    | some x => x.pended || (s.heldSwitching t x && !s.waitMet t x)
    | none => true)
  | none => true

/-- PASS_SWITCH: a tile whose running pass is held switches to the ready pass that R137 chooses. -/
def passSwitchOp (t : Nat) (s : State) : State :=
  if s.tileWorks t && s.runningHeld t then
    match s.nextPassOn t (s.tile t).running with
    | some n => s.updTile t (fun tl => { tl with running := some n })
    | none => s
  else s

/-- PASS_SWITCH (R136). -/
def execPassSwitch (t : Nat) (s : State) : Host.Outcome State Fault Refusal := .next (passSwitchOp t s)

/-- The suspended pass of a tile that resumes next (R137, R140). -/
def State.nextSuspended (s : State) (t : Nat) : Option Nat :=
  (choosePass (((s.tile t).seqs.filter (·.suspended)).filterMap (fun x => s.pass? x.pass))).map (·.seq)

/-- PASS_RESUME: a suspended pass takes a slot that is free. -/
def passResumeOp (t : Nat) (s : State) : State :=
  let k := (s.tile t).freeSlot
  if !s.tileWorks t || k = 4 then s
  else
    match s.nextSuspended t with
    | some q => dispatchNext t (s.updSeq t q (fun x => { x with suspended := false, slot := k }))
    | none => s

/-- PASS_RESUME (R140). -/
def execPassResume (t : Nat) (s : State) : Host.Outcome State Fault Refusal := .next (passResumeOp t s)

/-! ## Bounds (R141, R142) -/

/-- BUDGET_EXCEEDED: a pass whose budget count has passed its budget on a tile is abandoned with LIMIT. -/
def budgetExceededOp (t q : Nat) (s : State) : State :=
  match s.pass? q, s.seq? t q with
  | some p, some x => if s.alive && x.budget > p.budget then settle (abandonPass q .limit t s) else s
  | _, _ => s

/-- BUDGET_EXCEEDED (R142). -/
def execBudgetExceeded (t q : Nat) (s : State) : Host.Outcome State Fault Refusal := .next (budgetExceededOp t q s)

/-- Running cycles within which a pre-empted pass must yield (R141). -/
def preemptBound : Nat := 16384

/-- PREEMPTION_BOUND_EXCEEDED: a pass that passes the bound with its pre-emption pending is abandoned with LIMIT. -/
def preemptionBoundExceededOp (t q : Nat) (s : State) : State :=
  match s.seq? t q with
  | some x => if s.alive && x.preempt && !x.pended && x.sinceYield > preemptBound then settle (abandonPass q .limit t s) else s
  | none => s

/-- PREEMPTION_BOUND_EXCEEDED (R141). -/
def execPreemptionBoundExceeded (t q : Nat) (s : State) : Host.Outcome State Fault Refusal :=
  .next (preemptionBoundExceededOp t q s)

/-! ## Signals, wires and timeouts (R226, R231, R235 to R238) -/

/-- The signals on their way to tallies of this module. -/
def State.ownSignals (s : State) : List PendSig := s.sync.signals.filter (fun x => x.node == 0)

/-- The place of a signal's source in the order in which signals that reach a tally together are tested: local before module, lower
tile id first, host before fabric (R229). The collective engine's place, last, is a DESIGN CHOICE, log entry 102. -/
def SigSource.rank (dest : Option Nat) : SigSource → Nat
  | .tile t => if dest = some t then 0 else t + 1
  | .host => 2048
  | .remote _ => 2049
  | .coll => 2050

/-- Whether a signal that may be applied now goes before another to the same tally. -/
def State.signalsFirst (s : State) (x : PendSig) : Bool :=
  s.ownSignals.any (fun y => y.dest == x.dest && y.tally == x.tally && y.source.rank x.dest < x.source.rank x.dest && s.fenceMet y)

/-- TALLY_SIGNAL_APPLY: the k-th signal on its way to a tally of this module reaches it, if its fence conditions are met and none
goes before it; a TALLY_SIGNAL descriptor completes with OK, or with LIMIT when refused, and the signal of an end packet ends its
recovery stream (R226, R229, R235, R323). -/
def tallySignalApplyOp (k : Nat) (s : State) : State :=
  match s.ownSignals[k]? with
  | none => s
  | some x =>
    if !s.alive || !s.fenceMet x || s.signalsFirst x then s
    else
      let s := { s with sync := { s.sync with signals := s.sync.signals.erase x } }
      let (s, refused) := applySignal x.source x.dest x.tally x.inc s
      let s := match x.stream with
        | some b => endStream b s
        | none => s
      match x.desc with
      | some d => settle (complete d (if refused then .limit else .ok) 0 [] [] s)
      | none => s

/-- TALLY_SIGNAL_APPLY (R226). -/
def execTallySignalApply (k : Nat) (s : State) : Host.Outcome State Fault Refusal := .next (tallySignalApplyOp k s)

/-- Releases a tile that waits at a wire. -/
def releaseAt (w q t : Nat) (s : State) : State :=
  match (s.seq? t q).bind (·.hold) with
  | some (.bind v _ _) => if v = w then s.updSeq t q SeqState.next else s
  | _ => s

/-- BINDER_WIRE_RELEASE: a wire whose every input is high releases the tiles that wait at it, lowers its inputs and counts the
release (R237). -/
def binderWireReleaseOp (w : Nat) (s : State) : State :=
  match sfind s.sync.wires w with
  | none => s
  | some x =>
    if !s.alive || x.high = [] || !x.mask.all (s.wireHigh x).contains then s
    else
      let s := each x.high (releaseAt w x.owner) s
      { s with sync := { s.sync with wires := sinsert w { x with high := [], count := x.count + 1 } s.sync.wires } }

/-- BINDER_WIRE_RELEASE (R237). -/
def execBinderWireRelease (w : Nat) (s : State) : Host.Outcome State Fault Refusal := .next (binderWireReleaseOp w s)

/-- Whether a deadline has passed. -/
def State.past (s : State) (d : Option Nat) : Bool := d.any (· ≤ s.aon)

/-- WAIT_TIMEOUT: a WAIT or BIND past its deadline raises its event, writes a dump and abandons its pass with ABORTED
(R238). -/
def waitTimeoutOp (t q : Nat) (s : State) : State :=
  match s.seq? t q with
  | none => s
  | some x =>
    if !s.alive then s
    else
      match x.hold with
      | some (.wait kind k target _ d) =>
        if s.past d then
          settle (abandonPass q .aborted t
            (waitTimedOut 1 t k x.slot target.toNat (if kind = 2 then [mtallyRec s k] else []) s))
        else s
      | some (.bind w _ d) => if s.past d then settle (abandonPass q .aborted t (waitTimedOut 2 t w x.slot 0 [] s)) else s
      | _ => s

/-- WAIT_TIMEOUT (R238). -/
def execWaitTimeout (t q : Nat) (s : State) : Host.Outcome State Fault Refusal := .next (waitTimeoutOp t q s)

end Sys2Proof.Machine
end

