-- ==== Sys2Proof/Machine/Disable.lean ====
section
/-! DEFINITION. DISABLE, and the release of held descriptors (R352, R366, R444). -/

namespace Sys2Proof.Machine

set_option Elab.async false

/-! ## DISABLE (R366) -/

/-- The object, index and mode of a DISABLE. -/
def disableOf (d : HostDesc) : DisableOp :=
  { object := descNum d 0x10 1, abort := bit (descNum d 0x11 1) 0, index := descNum d 0x12 2 }

/-- Whether a DISABLE names an object that exists. -/
def disableNames (op : DisableOp) : Bool :=
  match op.object with
  | 0 => op.index < Config.numRings
  | 1 => op.index < Config.numTiles
  | 2 => op.index < Config.numPorts
  | 3 => op.index < Config.numMemories
  | 4 => op.index < Config.numGatherers
  | 5 => op.index = 0
  | _ => false

/-- Whether an enabled submission ring names a completion ring (R347). -/
def State.ringNamed (s : State) (r : Nat) : Bool :=
  (s.ring r).completion && s.host.rings.any (fun e => e.2.enable && !e.2.completion && e.2.companion == r)

/-- What the module answers to a DISABLE. -/
def judgeDisable (d : HostDesc) (s : State) : Answer :=
  let op := disableOf d
  if !slotsAre d 0 || !disableNames op then .fail .malformed
  else if op.object = 0 && s.ringNamed op.index then .refuse 13
  else .accept

/-- Ends one accepted descriptor of a ring that is disabled in ABORT mode; a DISABLE goes on.
DEDUCED, log entry 63. -/
def abortOne (i : Inflight) (s : State) : State :=
  match i.work with
  | .disable _ => s
  | .pass q => (match s.pass? q with
    | some p => abandonPass q .aborted (p.tiles.headD 0) s
    | none => s)
  | .harvest => endHarvest .aborted s
  | .recovery => endRecovery .aborted s
  | .restore => endRestore .aborted s
  | .claim => (match s.fab.claim with
    | some c => complete i.id .aborted 0 [] [] (undoClaim c s)
    | none => s)
  | .signal => complete i.id .aborted 0 [] []
      { s with sync := { s.sync with signals := s.sync.signals.filter (fun x => x.desc ≠ some i.id) } }
  | _ => complete i.id .aborted 0 [] [] s

/-- Abandons with ABORTED the passes that f selects, t giving the tile reported. -/
def abortPasses (f : Pass → Bool) (t : Pass → Nat) (s : State) : State :=
  each (s.passes.filter f) (fun p s => abandonPass p.seq .aborted (t p) s) s

/-- Ends the work in flight of an object that is disabled in ABORT mode. -/
def abortObject (op : DisableOp) (s : State) : State :=
  match op.object with
  | 0 => each (s.host.inflight.filter (fun i => i.ring == op.index)) abortOne s
  | 1 => abortPasses (fun p => p.tiles.contains op.index) (fun _ => op.index) s
  | 2 => releaseBuffer op.index 3 s
  | 3 =>
    let s := abortPasses (fun p => p.demand.any (fun e => e.p == op.index)) (fun p => p.tiles.headD 0) s
    let s := if s.hrv.op.any (fun h => h.rates.any (fun e => e.p == op.index)) then endHarvest .aborted s else s
    if s.hrv.recRates.any (fun e => e.p == op.index) then endRecovery .aborted s else s
  | 4 => abortPasses (fun p => p.img.streams.any (fun x => x.gatherer == op.index)) (fun p => p.tiles.headD 0) s
  | _ => endRecovery .aborted (endRestore .aborted (endHarvest .aborted s))

/-- An ABORT turns the DISABLEs of the same object that run in DRAIN mode into ABORT. -/
def turnAbort (op : DisableOp) (s : State) : State :=
  let one (w : Work) : Work := match w with
    | .disable o => if o.object = op.object && o.index = op.index then .disable { o with abort := true } else .disable o
    | w => w
  { s with host := { s.host with inflight := s.host.inflight.map (fun i => { i with work := one i.work }) } }

/-- An accepted DISABLE: the object takes no new work; a port's queue moves to other ports; in ABORT mode what is in flight
ends. -/
def actDisable (d : HostDesc) (i : Inflight) (s : State) : State :=
  let op := disableOf d
  let s := addInflight { i with promise := s.margin, work := .disable op } s
  let s := if op.object = 2 then moveQueue op.index s else s
  if op.abort then abortObject op (turnAbort op s) else s

/-- DISABLE: disables an object. -/
def disableOp (d : HostDesc) (s : State) : State := consume 0x0E d (judgeDisable d) (actDisable d) s

/-- DISABLE (R366). -/
def execDisable (d : HostDesc) (s : State) : Host.Outcome State Fault Refusal := .next (disableOp d s)

/-! ## Held descriptors (R352) -/

/-- HELD_DESCRIPTOR_RELEASE: the descriptor held at a ring's head is consumed once nothing holds it. A RESTORE goes on with its
own command, which carries the host bytes that it reads (DESIGN CHOICE, log entry 111). -/
def heldDescriptorReleaseOp (r : Nat) (s : State) : State :=
  match (s.ring r).held with
  | none => s
  | some d =>
    match descOp d with
    | 0x01 => loadFurrowOp d s
    | 0x02 => runPassOp d s
    | 0x03 => if isLogReplay d then dataInLogReplayOp d s else dataInOp d s
    | 0x04 => dataOutOp d s
    | 0x05 => stepOpenOp d s
    | 0x06 => stepCloseOp d s
    | 0x07 => if harvestDest d = 3 then harvestRecoveryOp d s else harvestBeginOp d s
    | 0x09 => standinClaimOp d s
    | 0x0A => cancelOp d s
    | 0x0B => syncDumpOp d s
    | 0x0C => tallySignalOp d s
    | 0x0D => fenceOp d s
    | 0x0E => disableOp d s
    | _ => s

/-- HELD_DESCRIPTOR_RELEASE (R352). -/
def execHeldDescriptorRelease (ring : Nat) (s : State) : Host.Outcome State Fault Refusal :=
  .next (heldDescriptorReleaseOp ring s)

end Sys2Proof.Machine
end

