-- ==== Sys2Proof/Machine/EventRows.lean ====
section
/-! DEFINITION. The event ring's registers and timer, the unmasking of messages, and the enabling of gatherers, tiles and
devices (R224, R425 to R429, R444, R448). -/

namespace Sys2Proof.Machine

set_option Elab.async false

/-! ## The event ring (R425, R427, R429) -/

/-- EVT_HEAD as a position reads (R349, R428). -/
def State.evtWord (s : State) (pos : Nat) : Nat :=
  let k := s.rgBits .evtCtl 0 5
  pos % 2 ^ k % 2 ^ 20 + pos / 2 ^ k % 2 * 2 ^ 20

/-- A write to the event ring that is refused. -/
def evtErr (s : State) : State := s.flag .evtStatus 0

/-- The event ring starts: its head, tail and epochs are zero, and held records are written (R426, R429). -/
def startEvents (s : State) : State :=
  let s := { s with evt := { s.evt with head := 0, tail := 0, unsignalled := 0, oldest := none } }
  drainHold (holdSize + 1) ((s.flag .evtCtl 5).setRg .evtHead 0)

/-- A write to EVT_CTL while the ring is enabled: k and vector stay, and another value for them sets enable_err. -/
def writeEvtOn (v : Nat) (s : State) : State :=
  let s := if v % 32 = s.rgBits .evtCtl 0 5 && bits v 6 11 = s.rgBits .evtCtl 6 11 then s else evtErr s
  (s.setRgBits .evtCtl 17 2 (bits v 17 2)).setRgBits .evtCtl 5 1 (bits v 5 1)

/-- A write to EVT_CTL while the ring is disabled: setting enable succeeds if k and the vector are in range. -/
def writeEvtOff (v : Nat) (s : State) : State :=
  let s := ((s.setRgBits .evtCtl 0 5 v).setRgBits .evtCtl 6 11 (bits v 6 11)).setRgBits .evtCtl 17 2 (bits v 17 2)
  if !bit v 5 then s
  else if 6 ≤ v % 32 && v % 32 ≤ 20 && bits v 6 11 < 2048 then startEvents s
  else evtErr s

/-- EVT_ENABLE: a write to EVT_CTL.
DEDUCED, log entry 49. -/
def evtEnableOp (value : Word) (s : State) : State :=
  if s.evtOn then writeEvtOn value.toNat s else writeEvtOff value.toNat s

/-- EVT_ENABLE (R429). -/
def execEvtEnable (value : Word) (s : State) : Host.Outcome State Fault Refusal :=
  .next (barWrite 0x800008 (evtEnableOp value) s)

/-- Whether a head written by the host is stale (R349, R425). -/
def State.evtStale (s : State) (v : Nat) : Bool :=
  let k := s.rgBits .evtCtl 0 5
  let p := bits v 20 1 * 2 ^ k + bits v 0 20
  2 ^ k ≤ bits v 0 20 || s.evtHeldByHost < (p + s.evtSpan - s.evt.head) % s.evtSpan

/-- EVT_HEAD_WRITE: the host reports the records it has read; a stale head is ignored. While the ring is disabled the value is
only stored. -/
def evtHeadWriteOp (value : Word) (s : State) : State :=
  let v := value.toNat % 2 ^ 21
  if !s.evtOn then s.setRg .evtHead v
  else if s.evtStale v then s.flag .evtStatus 2
  else
    let p := bits v 20 1 * 2 ^ s.rgBits .evtCtl 0 5 + bits v 0 20
    drainHold (holdSize + 1) ({ s with evt := { s.evt with head := p } }.setRg .evtHead v)

/-- EVT_HEAD_WRITE (R425). -/
def execEvtHeadWrite (value : Word) (s : State) : Host.Outcome State Fault Refusal :=
  .next (barWrite 0x80000C (evtHeadWriteOp value) s)

/-- A write to EVT_BASE: ignored while the ring is enabled. -/
def evtBaseWrite (v : Nat) (s : State) : State := if s.evtOn then evtErr s else s.writeRg ⟨.evtBase, 0, 0⟩ v

/-- EVENT_MODERATION_TIMEOUT: the oldest unsignalled record has reached the age limit. -/
def eventModerationTimeoutOp (s : State) : State :=
  let age := s.rgBits .evtMod 8 16
  if s.stw.mainOn && s.evtOn && age ≠ 0 && s.evt.unsignalled ≠ 0 && s.evt.oldest.any (fun t => t + usCycles age ≤ s.cyc) then
    evtSignal s
  else s

/-- EVENT_MODERATION_TIMEOUT (R427). -/
def execEventModerationTimeout (s : State) : Host.Outcome State Fault Refusal := .next (eventModerationTimeoutOp s)

/-! ## Messages (R448) -/

/-- Sets the mask of an entry: a message that waited for the mask is sent once. -/
def setMask (v : Nat) (masked : Bool) (s : State) : State :=
  let e := s.msixOf v
  let s := s.setMsix v { e with masked := masked, pending := e.pending && masked }
  if e.pending && !masked then sendMsix v s else s

/-- MSIX_UNMASK: the host unmasks an entry. -/
def msixUnmaskOp (v : Nat) (s : State) : State := if v < 2048 then setMask v false s else s

/-- MSIX_UNMASK (R448). -/
def execMsixUnmask (v : Nat) (s : State) : Host.Outcome State Fault Refusal :=
  .next (barWrite (0x900000 + v * 16 + 12) (msixUnmaskOp v) s)

/-! ## Enable bits (R224, R444) -/

/-- Enables a gatherer. -/
def enableGatherer (g : Nat) (s : State) : State :=
  { s with gath := { s.gath with enable := s.gath.enable ||| (1#48 <<< g) } }

/-- GATHERER_ENABLE: a write of ones to GTH_ENABLE. -/
def gathererEnableOp (mask : BitVec 48) (s : State) : State := enableEach 4 0x280008 (setBits mask) enableGatherer s

/-- GATHERER_ENABLE (R224). -/
def execGathererEnable (mask : BitVec 48) (s : State) : Host.Outcome State Fault Refusal :=
  .next (barWrite 0x280008 (gathererEnableOp mask) s)

/-- Makes a tile available again; an absent tile stays as it is. -/
def enableTile (t : Nat) (s : State) : State := if s.absent t then s else s.setRgBits .tilEnable (t % 32) 1 1 (t / 32)

/-- TILE_ENABLE: a write of ones to TIL_ENABLE i. -/
def tileEnableOp (i : Nat) (mask : Word) (s : State) : State :=
  if i < 48 then enableEach 1 (0x400200 + i * 4) ((setBits mask).map (· + 32 * i)) enableTile s else s

/-- TILE_ENABLE (R444). -/
def execTileEnable (i : Nat) (mask : Word) (s : State) : Host.Outcome State Fault Refusal :=
  .next (barWrite (0x400200 + i * 4) (tileEnableOp i mask) s)

/-- Brings a disabled stack or package out of self-refresh; no effect on a failed or an untrained one. -/
def enableDevice (p : Nat) (s : State) : State :=
  let d := s.dev p
  if d.enabled || d.st = .failed || d.st = .untrained then s
  else s.setDev p { d with enabled := true, st := if d.st = .selfRefresh then .ready else d.st }

/-- DEVICE_ENABLE: a write of ones to MEM_DEV_EN. -/
def deviceEnableOp (mask : BitVec 28) (s : State) : State := enableEach 3 0x200010 (setBits mask) enableDevice s

/-- DEVICE_ENABLE (R444). -/
def execDeviceEnable (mask : BitVec 28) (s : State) : Host.Outcome State Fault Refusal :=
  .next (barWrite 0x200010 (deviceEnableOp mask) s)

end Sys2Proof.Machine
end

