-- ==== Sys2Proof/Machine/BusRead.lean ====
section
/-! DEFINITION. What a register shows when it is read: the stored value, or the state that it stands for (R7, R89, R156, R163,
R202, R223, R250, R280, R317, R342, R346, R368, R399, R429, R434, R435, R442, R445, R447, R448). -/

namespace Sys2Proof.Machine

set_option Elab.async false

/-- A condition as a bit in place b. -/
def at_ (b : Nat) (c : Bool) : Nat := if c then 2 ^ b else 0

/-- The bits of the numbers below n for which f holds. -/
def mask (n : Nat) (f : Nat → Bool) : Nat := ((List.range n).map (fun i => at_ i (f i))).sum

/-! ## Numeric watch and fence -/

/-- Whether any layer is seeding: of the oldest open attempt, or of the watch table (R89). -/
def State.anySeeding (s : State) : Bool :=
  match s.openAttempts.head? with
  | some a => a.seeding ≠ []
  | none => s.rgBit .numWatchCtl 31 && seedingLayers s (s.rg .numWatchBase) s.watchLayers (s.rgBits .numSeedCfg 0 8) ≠ []

/-- Samples not yet tested (R89). -/
def State.tithePending (s : State) : Nat := (s.steps.attempts.map (fun a => a.samples.length)).sum

/-- NUM_STATUS.
DEDUCED, log entry 55. -/
def State.numStatusWord (s : State) : Nat :=
  putBits (s.rg .numStatus) 0 1 (at_ 0 s.anySeeding) + min s.tithePending 65535 * 65536

/-- The code of an area's state (R163). -/
def areaCode : AreaSt → Nat
  | .next => 0 | .current => 1 | .held => 2 | .unused => 3

/-- Whether a held RUN_PASS has a role for which f holds. -/
def State.heldRole (s : State) (f : Nat → Bool) : Bool := (s.heldOf 0x02).any (fun d => f (passRole d))

/-- STP_FENCE_STATUS. -/
def State.fenceWord (s : State) : Nat :=
  areaCode s.steps.area0 + areaCode s.steps.area1 * 4 + s.steps.curArea * 16 + at_ 5 (s.heldRole (· = 3)) +
  at_ 6 (s.heldRole (· = 1))

/-! ## Memory tiers -/

/-- Whether a memory has been trained and initialised (R201).
DEDUCED, log entry 48. -/
def Device.ready (d : Device) : Bool := d.st = .ready || d.st = .selfRefresh

/-- The state of a stack (R202). -/
def stackCode : DevState → Nat
  | .untrained => 0 | .training => 0 | .initialising => 0 | .ready => 1 | .selfRefresh => 2 | .failed => 3

/-- The state of a package (R202). -/
def packageCode : DevState → Nat
  | .untrained => 0 | .training => 0 | .initialising => 1 | .ready => 2 | .selfRefresh => 2 | .failed => 3

/-- Codes of levels and re-sowing states (R202). -/
def levelCode : Level → Nat
  | .normal => 0 | .warm => 1 | .hot => 2 | .critical => 3

/-- Re-sowing states (R202). -/
def resowCode : Resow → Nat
  | .none => 0 | .awaiting => 1 | .running => 2 | .complete => 3

/-- A device as its registers show it: what an untrained one keeps of its retirement and its re-sowing is shown once it has been
trained (R8, DEDUCED, log entry 42). -/
def Device.shown (d : Device) : Device :=
  if d.st = .untrained || d.st = .training then { d with retired := none, resow := .none, wmark := 0 } else d

/-- MEM_STK_STATUS. -/
def State.stackWord (s : State) (k : Nat) : Nat :=
  let d := (s.dev k).shown
  stackCode d.st + levelCode d.level * 4 + at_ 4 d.retired.isSome + d.retired.getD 0 * 32 + resowCode d.resow * 2 ^ 10 +
  at_ 12 (s.rgBit .memStkStatus 12 k) + min d.temp 255 * 2 ^ 16

/-- The channels of a memory that are paused, as bits. -/
def Device.pausedMask (d : Device) : Nat := mask 32 d.paused.contains

/-- MEM_PC_CORR: the count of the current 1-s window (R192, R201). -/
def State.pcCorrNow (s : State) (k pc : Nat) : Nat := if (s.dev k).corrWin = s.aon / 25000000 then s.rg .memPcCorr k pc else 0

/-- A window is busy while an assembly buffer holds one of its blocks (R156). -/
def State.windowBusy (s : State) (k w : Nat) : Bool := s.memory.asm.any (fun b => b.stack = k && b.window = w)

/-- MEM_DEV_EN: an untrained device reads 1, a failed one 0 (R445). -/
def State.deviceOn (s : State) (p : Nat) : Bool :=
  let d := s.dev p
  d.st = .untrained || (d.enabled && d.st ≠ .failed)

/-! ## Gatherers -/

/-- The state of a gatherer (R223). -/
def State.gathCode (s : State) (g : Nat) : Nat :=
  match s.disabling 4 g with
  | some abort => if abort then 3 else 2
  | none => if s.gath.enable.getLsbD g then 1 else 0

/-- GTH_STATUS. -/
def State.gathWord (s : State) (g : Nat) : Nat :=
  (s.tagged g).length + s.reserved g * 2 ^ 12 + s.gathCode g * 2 ^ 24 +
  at_ 26 (s.gath.xfers.any (fun x => x.gath = g && s.mayRequest x)) + at_ 27 (sfind s.gath.window g).isSome

/-! ## Tallies, wires and collectives -/

/-- The tally that TIL_MTAL_SEL selects. -/
def State.selected (s : State) : Tally := s.mtally (s.rgBits .tilMtalSel 0 16)

/-- Whether a tile waits at a wire. -/
def State.wireWaits (s : State) (w : Nat) : Bool := s.residents.any (fun x => match x.2.hold with
  | some (.bind v _ _) => v = w
  | _ => false)

/-- TIL_BIND_STATUS. -/
def State.bindWord (s : State) : Nat :=
  mask 16 (fun w => (sfind s.sync.wires w).isSome) + mask 16 s.wireWaits * 65536

/-- Group states (R250). -/
def groupCode : GState → Nat
  | .disabled => 0 | .idle => 1 | .running => 2 | .failed => 3

/-- FAB_COLL_STATUS. -/
def State.collWord (s : State) : Nat :=
  at_ 0 s.coll.cfgErr + min 4095 (s.coll.groups.countP (fun e => e.2.st ≠ .disabled)) * 2

/-! ## Fabric -/

/-- Port states (R280). -/
def portCode : PortSt → Nat
  | .disabled => 0 | .training => 1 | .up => 2 | .downHeld => 3 | .downReleased => 4

/-- FAB_PORT_STATUS. -/
def State.portWord (s : State) (p : Nat) : Nat :=
  let q := s.port p
  portCode q.st + at_ 3 q.quarantine + q.partner % 65536 * 16 + q.partnerInc % 256 * 2 ^ 20

/-- FAB_INCARN: the records of four nodes. -/
def State.incarnWord (s : State) (i : Nat) : Nat :=
  ((List.range 4).map (fun j => (sget 0#8 s.fab.incarn (4 * i + j)).toNat * 256 ^ j)).sum

/-! ## Step unit -/

/-- The state of the oldest open attempt; 4 while a refused step awaits its replay (R317). -/
def State.attemptCode (s : State) : Nat :=
  match s.openAttempts.head? with
  | some a => (match a.st with
    | .openSt => 1
    | .run => 2
    | _ => 3)
  | none => if s.steps.job && (s.tried s.nextStepNo).isSome then 4 else 0

/-- STP_STATUS.
DEDUCED, log entry 15. -/
def State.stepWord (s : State) : Nat :=
  let old := s.openAttempts.head?
  at_ 0 s.steps.job + s.attemptCode * 2 + at_ 4 (2 ≤ s.openAttempts.length) + at_ 5 (s.checking.any (·.sent)) +
  at_ 6 (s.steps.job && s.unprotected) + at_ 7 (s.steps.repairOut ≠ [] || s.steps.repairIn ≠ []) +
  at_ 8 (s.steps.log.used ≠ 0 && s.logSize * 3 ≤ s.steps.log.used * 4) + at_ 9 (s.heldOf 0x05 ≠ []) +
  at_ 10 (old.any (·.poisoned)) + at_ 11 (s.rgBit .stpStatus 11)

/-! ## Harvest engine and host interface -/

/-- What the harvest engine does (R342). -/
def State.harvestCode (s : State) : Nat :=
  match s.hrv.op with
  | some h => if h.stage2 then 2 else 1
  | none => if s.hrv.restore.isSome then 3 else 0

/-- The recovery channel (R342). -/
def recoveryCode : RecSt → Nat
  | .idle => 0 | .sending => 1 | .receiving => 2 | .received => 3

/-- HRV_STATUS. -/
def State.harvestWord (s : State) : Nat :=
  s.harvestCode + recoveryCode s.hrv.recovery * 4 + at_ 4 s.steps.remirror + at_ 5 s.stw.fallow + s.rgBits .hrvStatus 6 2 * 64

/-- HRV_MIRROR_VER. -/
def State.mirrorWord (s : State) : Nat := match s.hrv.mirrorVer with
  | some v => v % 2 ^ 40 + 2 ^ 40
  | none => 0

/-- HST_STATUS. -/
def State.hostWord (s : State) : Nat :=
  at_ 0 s.host.running + at_ 1 s.stw.fault.isSome + s.rgBits .hstStatus 2 2 * 4 + s.deadlineRings * 2 ^ 16

/-- A rate in thousandths of a memory's bandwidth, rounded down. -/
def State.thousandths (s : State) (p : Nat) (r : ℚ) : Nat := min 1023 (r * 1000 / s.bandwidth p).floor.toNat

/-- HST_LEDGER for the memory that HST_LEDGER_SEL selects (R368): its limit is the live one at reset too.
DESIGN CHOICE, log entry 105. -/
def State.ledgerWord (s : State) : Nat :=
  let p := min 27 (s.rgBits .hstLedgerSel 0 5)
  s.thousandths p (s.ledger Demand.total p) + s.thousandths p (s.currentLimit p) * 1024

/-! ## Steward -/

/-- ALERT#: asserted while a status bit is set whose enable bit is set (R373, R384). -/
def State.alertPin (s : State) : Bool := s.rg .stwAlertStatus &&& s.rg .stwAlertEn ≠ 0

/-- The power state (R379). -/
def State.powerState (s : State) : Nat :=
  if s.stw.fault.isSome then 3
  else if !(s.stw.good && s.stw.mainOn) then 0
  else if s.stw.pll.any (· = .running) || s.tiles.any (fun e => e.2.clocked) then 2
  else 1

/-- STW_STATUS. -/
def State.stwWord (s : State) : Nat :=
  s.powerState + (s.stw.fault.map faultNum).getD 0 * 4 + at_ 6 s.stw.good + at_ 7 (s.rgBit .stwStatus 7)

/-- STW_THROTTLE. -/
def Throttle.word (t : Throttle) : Nat :=
  t.target / 4 + at_ 2 t.pin + at_ 3 t.under + t.cap * 16 + t.thermal * 64 + at_ 8 t.out + at_ 9 (t.level ≠ t.target) + t.level * 2 ^ 10

/-- STW_TEMP. -/
def State.tempWord (s : State) : Nat := ((List.range 4).map (fun q => min 255 ((s.stw.temps[q]?).getD 0) * 256 ^ q)).sum

/-- PLL states (R398). -/
def pllCode : PllSt → Nat
  | .off => 0 | .locking => 1 | .running => 2

/-- STW_CLK_STATUS. -/
def State.clockWord (s : State) : Nat :=
  ((List.range 4).map (fun q => pllCode (s.pllOf q) * 4 ^ q)).sum + mask 4 (fun q => (sfind s.stw.walks q).isSome) * 2 ^ 8

/-- What a register of the self test shows: its reset value 0 until a slice has run (R398). -/
def State.tested (s : State) (n : Nat) : Nat := if s.stw.slices = 0 then 0 else n

/-- STW_TEST_STATUS. -/
def State.testWord (s : State) : Nat :=
  min 2047 s.stw.nv.failed.length + s.tested (Config.coverageRounds s.stw.slices s.cyc).toNat * 65536

/-- STW_MBOX_STATUS. -/
def State.mboxWord (s : State) : Nat := putBits (s.rg .stwMboxStatus) 0 1 (at_ 0 s.stw.mboxBusy.isSome)

/-! ## The event ring -/

/-- EVT_STATUS. -/
def State.evtStatusWord (s : State) : Nat := s.rgBits .evtStatus 0 3 + s.evt.hold.length * 8

/-! ## The tile grid (R442) -/

/-- Logical tiles present. -/
def State.available (s : State) : Nat := Config.numTiles - s.stw.nv.absent.length

/-- TIL_STATUS. -/
def State.gridWord (s : State) : Nat := s.available % 2048 + at_ 11 (s.stw.nv.absent ≠ []) + at_ 12 s.boundary

/-- The first failed tile of a row that awaits the boundary. -/
def State.rowFailed (s : State) (r : Nat) : Option Nat := s.stw.nv.failed.find? (fun t => failedRow t = r)

/-- TIL_ROWMAP of a row. -/
def State.rowWord (s : State) (r : Nat) : Nat :=
  let f := s.rowFailed r
  (sfind s.stw.nv.retired r).getD 0 + at_ 5 (sfind s.stw.nv.retired r).isSome + (f.map s.failedCol).getD 0 * 64 + at_ 11 f.isSome +
  at_ 12 (f.any s.pendAbsent) + s.stw.nv.absent.countP (fun t => rowKey t = r) * 2 ^ 13

/-- The state code of a tile. -/
def State.tileCode (s : State) (t : Nat) : Nat :=
  if s.absent t then 3 else if !s.tileOn t then 2 else if (s.tile t).clocked then 1 else 0

/-- The slots of a tile that hold a pass for which f holds. -/
def State.slotMask (s : State) (t : Nat) (f : SeqState → Bool) : Nat := mask 4 (fun k => (s.tile t).seqs.any (fun x => x.slot = k && f x))

/-- Whether a tile awaits the job boundary. -/
def State.tilePending (s : State) (t : Nat) : Bool := s.stw.nv.failed.contains t

/-- TIL_TILE_STATE. -/
def State.tileWord (s : State) (t : Nat) : Nat :=
  s.tileCode t + s.slotMask t (fun _ => true) * 4 + s.slotMask t (·.suspended) * 64 + at_ 10 (s.cyc < (s.tile t).testUntil) +
  at_ 11 (s.tilePending t) + at_ 12 (s.tilePending t && s.pendAbsent t) + (if s.absent t then 0x1F else s.physCol t) * 2 ^ 13

/-! ## Reading -/

/-- What a register shows that is not its stored value: part 1. -/
def State.shown1 (s : State) (r : Reg) : Option Nat :=
  match r.name with
  | .numStatus => some s.numStatusWord
  | .memXpwStatus => some (s.rgBits .memXpwStatus 0 1 r.i r.j + at_ 1 (s.windowBusy r.i r.j))
  | .stpFenceStatus => some s.fenceWord
  | .stpFenceCount0 => some (s.fenceCount 0)
  | .stpFenceCount1 => some (s.fenceCount 1)
  | .stpVersionCur => some (s.steps.version % 2 ^ 40)
  | .memTrainStatus => some (mask 28 (fun p => (s.dev p).ready))
  | .memStkStatus => some (s.stackWord r.i)
  | .memStkRetraining => some (s.dev r.i).pausedMask
  | .memResowWmark => some (s.dev r.i).shown.wmark
  | .memStkHoldoff => some (if (s.dev r.i).level = .hot then (s.dev r.i).holdoff else 0)
  | .memPcCorr => some (s.pcCorrNow r.i r.j)
  | .memPkgStatus => some (packageCode (s.dev (12 + r.i)).st + (s.dev (12 + r.i)).pausedMask % 16 * 16)
  | .memDevEn => some (mask 28 s.deviceOn)
  | .gthEnable => some s.gath.enable.toNat
  | .gthReservedTotal => some ((List.range 48).map s.reserved).sum
  | .gthStatus => some (s.gathWord r.i)
  | .tilMtalCfg => some (at_ 0 s.selected.gate)
  | .tilMtalCount => some s.selected.count.toNat
  | .tilMtalRef => some s.selected.ref.toNat
  | .tilMtalDouble => some s.selected.double.toNat
  | .tilBindStatus => some s.bindWord
  | .fabCollStatus => some s.collWord
  | .fabCollState => some (groupCode (s.group r.i).st + (s.group r.i).cmd % 65536 * 4)
  | _ => none

/-- What a register shows that is not its stored value: part 2. -/
def State.shown2 (s : State) (r : Reg) : Option Nat :=
  match r.name with
  | .fabPortEn => some (mask 18 (fun p => (s.port p).st ≠ .disabled))
  | .fabStatus => some (putBits (s.rg .fabStatus) 1 1 (at_ 0 s.fab.claim.isSome))
  | .fabXferStatus => some (min 32768 (s.fab.inn.countP (·.tracked)))
  | .fabPortStatus => some (s.portWord r.i)
  | .fabIncarn => some (s.incarnWord r.i)
  | .stpStatus => some s.stepWord
  | .stpVerdict => some 0
  | .stpLogUsed => some s.steps.log.used
  | .hrvStatus => some s.harvestWord
  | .hrvMirrorVer => some s.mirrorWord
  | .hstStatus => some s.hostWord
  | .hstLedger => some s.ledgerWord
  | .stwStatus => some s.stwWord
  | .stwThrottle => some s.stw.thr.word
  | .stwTemp => some s.tempWord
  | .stwClkStatus => some s.clockWord
  | .stwTestStatus => some s.testWord
  | .stwTestAge => some (s.tested (Config.coverageAge s.stw.slices s.cyc).toNat)
  | .stwMboxStatus => some s.mboxWord
  | .stwIdSerial => some Config.serial.toNat
  | .evtTail => some (s.evtWord s.evt.tail)
  | .evtStatus => some s.evtStatusWord
  | .tilStatus => some s.gridWord
  | .tilAvail => some (mask 32 (fun j => !s.absent (32 * r.i + j)))
  | .tilRowmap => some (s.rowWord r.i)
  | .tilTileState => some (s.tileWord r.i)
  | _ => none

/-- The value that a register shows. -/
def State.show (s : State) (r : Reg) : Nat := ((s.shown1 r).orElse (fun _ => s.shown2 r)).getD (s.rg r.name r.i r.j)

/-- A position of a ring as its context shows it: index and epoch (R346). -/
def RingCtx.word (c : RingCtx) (pos : Nat) : Nat := pos % 2 ^ c.k % 2 ^ 20 + pos / 2 ^ c.k % 2 * 2 ^ 20

/-- A qword of a ring context (R346, R447). -/
def RingCtx.qword (c : RingCtx) (q : Nat) : Nat :=
  match q with
  | 0 => c.base.toNat
  | 1 => c.k + at_ 5 c.completion + at_ 6 c.deadline + at_ 7 c.enable + c.companion * 2 ^ 8 + c.vector * 2 ^ 24 + c.word c.head * 2 ^ 40
  | 2 => c.word c.tail + c.modCount * 2 ^ 24 + c.modTime * 2 ^ 32 + c.splitTo * 2 ^ 48
  | _ => at_ 0 c.staleDb + at_ 1 c.splitErr + at_ 2 c.hostErr + at_ 3 c.enableErr

/-- A qword of the MSI-X table (R448). -/
def MsixEntry.qword (e : MsixEntry) (q : Nat) : Nat := if q = 0 then e.addr.toNat else e.data.toNat + at_ 32 e.masked

/-- An area of BAR0 that is no row of a register table. -/
inductive Area where
  | ring (r q : Nat)
  | msix (v q : Nat)
  | pba (k : Nat)
  | mbox (k : Nat)
  deriving DecidableEq, Repr

/-- The qword of such an area that an offset lies in (R433). -/
def areaAt (off : Nat) : Option Area :=
  if 0x1000000 ≤ off && off < 0x1100000 then some (.ring ((off - 0x1000000) / 32) ((off - 0x1000000) % 32 / 8))
  else if 0x900000 ≤ off && off < 0x908000 then some (.msix ((off - 0x900000) / 16) ((off - 0x900000) % 16 / 8))
  else if 0x980000 ≤ off && off < 0x980100 then some (.pba ((off - 0x980000) / 8))
  else if 0x11000 ≤ off && off < 0x12000 then some (.mbox ((off - 0x11000) / 8))
  else none

/-- The value of a qword of an area. -/
def State.areaValue (s : State) : Area → Nat
  | .ring r q => (s.ring r).qword q
  | .msix v q => (s.msixOf v).qword q
  | .pba k => mask 64 (fun j => (s.msixOf (64 * k + j)).pending)
  | .mbox k => leNat ((List.range 8).map (fun j => s.mboxByte (8 * k + j)))

/-- The aligned dword at a BAR0 offset as it reads now; none where no register occupies it (R433, R434). -/
def State.dwordAt (s : State) (off : Nat) : Option Nat :=
  match areaAt off with
  | some a => some (bits (s.areaValue a) (off % 8 / 4 * 32) 32)
  | none => (regAt off).map (fun r => bits (s.show r) (8 * (off - r.offset)) 32)

end Sys2Proof.Machine
end

