-- ==== Sys2Proof/Machine/RegisterRows.lean ====
section
/-! DEFINITION. Writes to BAR0: what a write to each register does, split writes, ignored writes, and the fault state (R7, R154,
R163, R184, R249, R265, R279, R316, R341, R347, R434 to R436, R444 to R448). -/

namespace Sys2Proof.Machine

set_option Elab.async false

/-! ## Registers with behaviour of their own -/

/-- A write to MEM_TRAIN_CTL (R202). -/
def trainWrite (v : Nat) (s : State) : State :=
  memTrainPackagesOp (BitVec.ofNat 16 (v / 4096)) (memTrainStacksOp (BitVec.ofNat 12 v) s)

/-- A write to MEM_STK_CTL of stack k (R202). -/
def stackWrite (k v : Nat) (s : State) : State :=
  let pc := v % 32
  let s := s.setRgBits .memStkCtl 0 5 pc k
  let s := if bit v 5 then hostRetrainOp k pc s else s
  let s := if bit v 6 then hostRetireOp k pc s else s
  if bit v 7 then resowGoOp k s else s

/-- A write to MEM_RANGE_CFG (R184): an enabled entry changes only its enable bit and cfg_err. -/
def rangeWrite (k e v : Nat) (s : State) : State :=
  let s1 := if bit v 42 then s.setRgBits .memRangeCfg 42 1 0 k e else s
  if (s.range k e).on then (if bit v 40 then s1 else rangeDisableOp k e s1)
  else
    let s2 := (s1.setRgBits .memRangeCfg 0 9 v k e).setRgBits .memRangeCfg 16 9 (bits v 16 9) k e
    let s3 := s2.setRgBits .memRangeCfg 32 2 (bits v 32 2) k e
    if bit v 40 then rangeEnableOp k e s3 else s3

/-- A write to a register of a window other than MEM_XPW_CTL takes effect only while the window is disabled (R154).
DEDUCED, log entry 51. -/
def windowWrite (r : Reg) (v : Nat) (s : State) : State := if (s.xwin r.i r.j).on then s else s.writeRg r v

/-- A write to MEM_XPW_CTL (R151, R154). -/
def windowCtlWrite (k w v : Nat) (s : State) : State := if bit v 0 then windowEnableOp k w s else windowDisableOp k w s

/-- A write to FAB_COLL_BASE: only while every group is disabled (R249). -/
def collBaseWrite (v : Nat) (s : State) : State :=
  if s.coll.groups.all (fun e => e.2.st = .disabled) then s.writeRg ⟨.fabCollBase, 0, 0⟩ v else s

/-- A write to FAB_COLL_CTL: disable wins when both are 1 (R250). -/
def collCtlWrite (v : Nat) (s : State) : State :=
  if bit v 13 then collGroupDisableOp (v % 4096) s else if bit v 12 then collGroupEnableOp (v % 4096) s else s

/-- A write to FAB_PORT_CTL (R280). -/
def portCtlWrite (p v : Nat) (s : State) : State :=
  let s := if bit v 0 then portRetrainOp p s else s
  if bit v 1 then clearQuarantineOp p s else s

/-- Whether the route of a node must stay valid (R265). -/
def State.routeNeeded (s : State) (n : Nat) : Bool := s.steps.job && (s.jobNodes.contains n || s.partners.contains n)

/-- A write to FAB_ROUTE: while a job runs, one that would clear an entry in use is ignored (R265). -/
def routeWrite (n v : Nat) (s : State) : State :=
  if v % 2 ^ 18 = 0 && s.routeNeeded n then s.flag .fabStatus 0 else moveQueue parkPort (s.writeRg ⟨.fabRoute, n, 0⟩ v)

/-- A write to a step-unit register that a running job locks (R316). -/
def lockedWrite (r : Reg) (v : Nat) (s : State) : State := if s.steps.job then stpErr s else s.writeRg r v

/-- A write to STP_MIRROR_CFG: mirroring that starts or stops is reported (R311, R316).
DEDUCED, log entry 52. -/
def mirrorWrite (v : Nat) (s : State) : State :=
  if s.steps.job then stpErr s
  else
    let was := s.unprotected
    let s := s.writeRg ⟨.stpMirrorCfg, 0, 0⟩ v
    if s.unprotected = was then s else unprotectedEvent 0 (if was then 1 else 0) s

/-- A write to STP_FENCE_CTL: only while no step is open (R163). -/
def fenceWrite (v : Nat) (s : State) : State :=
  if s.openAttempts = [] then s.writeRg ⟨.stpFenceCtl, 0, 0⟩ v else stpErr s

/-- A write to STP_JOB_CTL: an end comes before a start (R281).
DESIGN CHOICE, log entry 53. -/
def jobWrite (v : Nat) (s : State) : State :=
  let s := if bit v 1 then stpJobEndOp s else s
  if bit v 0 then stpJobStartOp s else s

/-- A harvest register whose lock holds is not written (R341). -/
def harvestWrite (locked : Bool) (r : Reg) (v : Nat) (s : State) : State := if locked then s.flag .hrvStatus 7 else s.writeRg r v

/-- The step-unit registers that a running job locks (R316). -/
def jobLocked : RegName → Bool
  | .stpJobKey => true | .stpTallyRange => true | .stpRecBase => true | .stpLogBase => true | .stpLogSize => true
  | .stpMlogBase => true | .stpMlogSize => true | .stpMsendBase => true | .stpMsendCnt => true | .stpDigestBase => true
  | .stpSealTree => true | .stpSealKids => true | .stpSealChild => true | .stpLogRegionBase => true | .stpLogRegionSize => true
  | .stpShardSegA0 => true | .stpShardSegA1 => true | .stpShardSegBlocks => true | .stpMirrorSegA0 => true
  | .stpMirrorSegA1 => true | .stpMirrorSegBlocks => true
  | _ => false

/-- Whether a harvest register is locked now (R341). -/
def State.harvestLocked (s : State) : RegName → Bool
  | .hrvAreaBase => s.hrv.op.isSome | .hrvAreaSize => s.hrv.op.isSome | .hrvBitmapBase => s.hrv.op.isSome
  | .hrvSegCfg => s.hrv.op.isSome | .hrvXsegA0 => s.hrv.op.isSome | .hrvXsegA1 => s.hrv.op.isSome
  | .hrvXsegBlocks => s.hrv.op.isSome
  | .hrvStageBase => s.hrv.restore.isSome | .hrvStageSize => s.hrv.restore.isSome
  | .hrvRecvCfg => s.hrv.recovery = .receiving
  | _ => false

/-- The effect of a write of the whole of a register (R7), by its name. -/
def regWrite (r : Reg) (v : Nat) (s : State) : State :=
  match r.name with
  | .memTrainCtl => trainWrite v s
  | .memStkCtl => stackWrite r.i v s
  | .memRangeCfg => rangeWrite r.i r.j v s
  | .memXpwRowbase => windowWrite r v s
  | .memXpwColbase => windowWrite r v s
  | .memXpwGeom => windowWrite r v s
  | .memXpwPitch => windowWrite r v s
  | .memXpwStatus => windowWrite r v s
  | .memXpwCtl => windowCtlWrite r.i r.j v s
  | .memDevEn => deviceEnableOp (BitVec.ofNat 28 v) s
  | .gthEnable => gathererEnableOp (BitVec.ofNat 48 v) s
  | .tilMtalCfg => tilMtalCfgWriteOp (BitVec.ofNat 32 v) s
  | .tilMtalCount => tilMtalCountWriteOp (BitVec.ofNat 32 v) s
  | .tilEnable => tileEnableOp r.i (BitVec.ofNat 32 v) s
  | .fabCollBase => collBaseWrite v s
  | .fabCollCtl => collCtlWrite v s
  | .fabNodeId => fabNodeIdWriteOp (BitVec.ofNat 32 v) s
  | .fabPortEn => portEnableOp (BitVec.ofNat 18 v) s
  | .fabPortCtl => portCtlWrite r.i v s
  | .fabRoute => routeWrite r.i v s
  | .stpJobCtl => jobWrite v s
  | .stpCtl => if bit v 0 then stpRollbackOp s else s
  | .stpVerdict => stpVerdictWriteOp (BitVec.ofNat 64 v) s
  | .stpFenceCtl => fenceWrite v s
  | .stpMirrorCfg => mirrorWrite v s
  | .hrvCtl => if bit v 0 then hrvRemirrorOp s else s
  | .hrvEnable => if bit v 0 then harvestEngineEnableOp s else s
  | .hstCtl => if bit v 0 then ringEngineEnableOp s else s
  | .stwMboxCmd => mboxCommand v s
  | .evtBase => evtBaseWrite v s
  | .evtCtl => evtEnableOp (BitVec.ofNat 32 v) s
  | .evtHead => evtHeadWriteOp (BitVec.ofNat 32 v) s
  | n => if jobLocked n then lockedWrite r v s else harvestWrite (s.harvestLocked n) r v s

/-! ## Areas (R389, R447, R448) -/

/-- A number with n bytes at byte offset k replaced. -/
def patch (old k n v : Nat) : Nat := putBits old (8 * k) (8 * n) v

/-- Writes a qword of the MSI-X table: the address, or the data and the mask. -/
def msixWrite (v q x : Nat) (s : State) : State :=
  let e := s.msixOf v
  if q = 0 then s.setMsix v { e with addr := BitVec.ofNat 64 x }
  else setMask v (bit x 32) (s.setMsix v { e with data := BitVec.ofNat 32 x })

/-- Writes bytes of STW_MBOX_DATA. -/
def mboxDataWrite (k n v : Nat) (s : State) : State :=
  { s with stw := { s.stw with mboxData := (leBytes n v).zipIdx.foldl (fun m x => sput 0 m (k + x.2) x.1) s.stw.mboxData } }

/-- The effect of a write of n bytes at byte k of a qword of an area. The other half keeps its value, and clears nothing. -/
def areaWrite (a : Area) (k n v : Nat) (s : State) : State :=
  match a with
  | .ring r 3 => writeRingBus r 3 (patch 0 k n v) s
  | .ring r q => writeRingBus r q (patch (s.areaValue a) k n v) s
  | .msix e q => msixWrite e q (patch (s.areaValue a) k n v) s
  | .pba _ => s
  | .mbox j => mboxDataWrite (8 * j + k) n v s

/-! ## The fault state and the Steward (R436, R437) -/

/-- Whether a register is a STW_ register. -/
def RegName.isStw (n : RegName) : Bool := n.row.base < 0x20000

/-- Whether an offset belongs to the Steward. -/
def stwOffset (off : Nat) : Bool := off < 0x20000

/-- Whether a row is reserved: it reads zero and ignores writes without a flag (R433). -/
def RegName.reserved : RegName → Bool
  | .memXpwRsv => true | .gthRsv0 => true | .gthRsv1 => true | .stpShardSegRsv => true | .stpMirrorSegRsv => true
  | .hrvXsegRsv => true | .stwIdRsv => true
  | _ => false

/-- A write in the fault state: W1C fields are written; anything else is ignored and recorded. -/
def faultWrite (r : Reg) (v : Nat) (s : State) : State :=
  let w := r.name.row
  let s := if r.name.reserved || (w.rw = 0 && w.w1c ≠ 0) then s else barErr 35 r.offset s
  s.setRg r.name (({ w with rw := 0 } : RegRow).written (s.rg r.name r.i r.j) v) r.i r.j

/-- A write of the whole of a register as the bus brings it. -/
def wholeWrite (r : Reg) (v : Nat) (s : State) : State :=
  if r.name.isStw || s.stw.fault.isNone then regWrite r v s else faultWrite r v s

/-- Whether an area may be written in the fault state. -/
def Area.open_ : Area → Bool
  | .ring _ q => q = 3
  | .mbox _ => true
  | _ => false

/-- A write of n bytes at an offset in an area as the bus brings it.
DEDUCED, log entry 54. -/
def areaBus (a : Area) (off n v : Nat) (s : State) : State :=
  if a.open_ || s.stw.fault.isNone then areaWrite a (off % 8) n v s else barErr 35 off s

/-! ## Dwords and qwords (R434, R435) -/

/-- Holds a low half (R435). -/
def holdLow (off v : Nat) (s : State) : State :=
  { s with host := { s.host with splitHeld := some (off, BitVec.ofNat 32 v) } }

/-- Whether an offset is the low half of a 64-bit register. -/
def lowHalf (off : Nat) : Bool := (regAt off).any (fun r => r.name.row.bytes = 8 && off = r.offset)

/-- A whole dword written at an offset, when no half is held for it. -/
def dwordAlone (off v : Nat) (s : State) : State :=
  match areaAt off with
  | some a => areaBus a off 4 v s
  | none =>
    match regAt off with
    | none => barErr 32 off s
    | some r =>
      if r.name.row.bytes = 4 then wholeWrite r v s
      else if off = r.offset then holdLow off v s
      else wholeWrite r (s.show r % 2 ^ 32 + v * 2 ^ 32) s

/-- A whole dword written at an offset: the high half of a register whose low half is held writes it whole. -/
def dwordWrite (off v : Nat) (s : State) : State :=
  match s.host.splitHeld, regAt off with
  | some (o, low), some r =>
    if o + 4 = off && o = r.offset then
      wholeWrite r (low.toNat + v * 2 ^ 32) { s with host := { s.host with splitHeld := none } }
    else dwordAlone off v (dropSplit s)
  | _, _ => dwordAlone off v (dropSplit s)

/-- An aligned qword written at an offset: one 64-bit register, or two dwords in ascending order. -/
def qwordWrite (off v : Nat) (s : State) : State :=
  match areaAt off with
  | some a => areaBus a off 8 v (dropSplit s)
  | none =>
    if lowHalf off then
      match regAt off with
      | some r => wholeWrite r v (dropSplit s)
      | none => s
    else dwordWrite (off + 4) (v / 2 ^ 32) (dwordWrite off (v % 2 ^ 32) s)

/-- A dword with its byte enables: none enabled writes nothing, and not all enabled is ignored and recorded (R436).
DEDUCED, log entry 50. -/
def dwordEnabled (off v be : Nat) (s : State) : State :=
  if be = 0 then s else if be = 15 then dwordWrite off v s else barErr 33 off (dropSplit s)

/-- Whether a write to an offset reaches the module. -/
def State.reaches (s : State) (off : Nat) : Bool := if stwOffset off then s.stw.powered else s.hostWrites

/-- Bytes of BAR0 (R433). -/
def barSize : Nat := 0x4000000

/-- REGISTER_WRITE: an aligned write of 4 or 8 bytes with byte enables; a larger request is consecutive commands (R434). -/
def registerWriteOp (offset size : Nat) (value : Quad) (be : BitVec 8) (s : State) : State :=
  let v := value.toNat
  if !s.reaches offset || barSize < offset + size || offset % size ≠ 0 then s
  else if size = 8 then
    if be = 0xFF#8 then qwordWrite offset v s
    else dwordEnabled (offset + 4) (v / 2 ^ 32) (be.toNat / 16) (dwordEnabled offset (v % 2 ^ 32) (be.toNat % 16) s)
  else if size = 4 then dwordEnabled offset (v % 2 ^ 32) (be.toNat % 16) s
  else s

/-- REGISTER_WRITE (R7). -/
def execRegisterWrite (offset size : Nat) (value : Quad) (be : BitVec 8) (s : State) : Host.Outcome State Fault Refusal :=
  .next (registerWriteOp offset size value be s)

/-- BAR_SPLIT_LOW_WRITE: the low half of a 64-bit register is held until the next BAR0 write. -/
def barSplitLowWriteOp (offset : Nat) (value : Word) (s : State) : State :=
  if s.reaches offset && lowHalf offset then holdLow offset value.toNat (dropSplit s) else s

/-- BAR_SPLIT_LOW_WRITE (R435). -/
def execBarSplitLowWrite (offset : Nat) (value : Word) (s : State) : Host.Outcome State Fault Refusal :=
  .next (barSplitLowWriteOp offset value s)

/-! ## Reads (R434 to R436) -/

/-- What a read of an aligned dword of BAR0 returns, and the state after it: the low half of a 64-bit register takes a snapshot,
whose high half the next read returns; an unmapped read returns zero and is recorded. No command of the table is a read.
DESIGN CHOICE, log entry 57. -/
def busRead (off : Nat) (s : State) : Nat × State :=
  let clear (s : State) : State := { s with host := { s.host with snapshot := none } }
  match s.dwordAt off with
  | none => (0, barErr 32 off (clear s))
  | some v =>
    if lowHalf off then
      (v, { s with host := { s.host with snapshot := some (off, BitVec.ofNat 32 ((s.dwordAt (off + 4)).getD 0)) } })
    else
      match s.host.snapshot with
      | some (o, h) => (if o + 4 = off then h.toNat else v, clear s)
      | none => (v, s)

/-- Bytes of BAR2: one doorbell of 8 B for each ring (R343, R433). -/
def doorbellBarSize : Nat := 8 * Config.numRings

/-- What a read of an aligned dword of BAR0 or BAR2 returns, and the state after it: reads of BAR2 return zero (R348). -/
def barRead (bar2 : Bool) (off : Nat) (s : State) : Nat × State := if bar2 then (0, s) else busRead off s

/-! ## The PCI Express function (R343, R345) -/

/-- A base address register of the function. -/
structure PciBar where
  index        : Nat
  size         : Nat
  is64         : Bool
  prefetchable : Bool
  deriving DecidableEq, Repr

/-- What the function's configuration space tells the host: the features that R343 lists; every other one is absent. -/
structure PciFunction where
  functions    : Nat
  classCode    : Nat
  deviceId     : Nat
  bars         : List PciBar
  msixTable    : Nat
  msixPending  : Nat
  msixVectors  : Nat
  intx         : Bool
  msi          : Bool
  tagBits      : Nat
  maxPayload   : Nat
  maxReadReq   : Nat
  aer          : Bool
  doe          : Bool
  d3hot        : Bool
  aspmL1       : Bool
  aspmL0s      : Bool
  l1Substates  : Bool
  noSoftReset  : Bool
  sriov        : Bool
  ats          : Bool
  pri          : Bool
  pasid        : Bool
  resizableBar : Bool
  expansionRom : Bool
  widths       : List Nat
  /-- Speeds of the link in units of 0.5 GT/s, the lowest first. -/
  speeds       : List Nat
  flitSpeeds   : List Nat
  deriving DecidableEq, Repr

/-- The module's one PCI Express function (R343, R345). -/
def pciFunction : PciFunction :=
  { functions := 1, classCode := 0x120000, deviceId := 0x1536,
    bars := [⟨0, barSize, true, false⟩, ⟨2, doorbellBarSize, true, false⟩], msixTable := 0x900000, msixPending := 0x980000,
    msixVectors := 2048, intx := false, msi := false, tagBits := 14, maxPayload := 1024, maxReadReq := 4096, aer := true, doe := true,
    d3hot := true, aspmL1 := true, aspmL0s := false, l1Substates := false, noSoftReset := true, sriov := false, ats := false,
    pri := false, pasid := false, resizableBar := false, expansionRom := false, widths := [4, 2, 1],
    speeds := [5, 10, 16, 32, 64, 128, 256], flitSpeeds := [128, 256] }

end Sys2Proof.Machine
end

