-- ==== Sys2Proof/Machine/Vector.lean ====
section
/-! DEFINITION. The vector queue (R93 to R110). -/

namespace Sys2Proof.Machine

set_option Elab.async false

/-! ## Operands -/

/-- The elements of an FP32 source operand: raw words, by element of the destination (R94). -/
structure Source where
  shape : Shape
  rows  : List (List Nat)
  deriving DecidableEq, Repr

/-- Reads a source operand. -/
def readSource (c : Ctx) (s : State) (v : VOp) (f : Nat) : Source :=
  { shape := v.shape, rows := match vplace c v false f with
      | some p => p.rows (s.tile c.t).bin v.shape
      | none => [] }

/-- Element (r, c) of a source, broadcast (R94). -/
def Source.at (x : Source) (r c : Nat) : Word := BitVec.ofNat 32 (elemAt x.shape x.rows r c)

/-- One computed element: its word, its class, and the exact result (R54, R66). -/
structure Elem where
  w   : Word
  cls : Cls
  ex  : FVal
  deriving DecidableEq, Repr

/-- Writes the elements of an FP32 destination and reports them (R66, R77, R98). -/
def writeElems (c : Ctx) (d : VOp) (f : Nat → Nat → Elem) (s : State) : State :=
  match vplace c d true 7 with
  | none => s
  | some p =>
    let rows := buildRows d.shape f
    let all := rows.flatten
    let sc := scaling s c.w c.p.img 31
    report c { layer := sc.layer, role := sc.role, sources := all.map (·.ex), outs := all.map (·.cls),
               nonzero := all.countP (fun e => nonzeroCode 7 e.w.toNat), gauged := false, measure := false, uses := [] }
      (s.setBin c.t (p.putRows (s.tile c.t).bin d.shape (rows.map (fun r => r.map (·.w.toNat)))))

/-- The class of a word that an instruction selects or keeps: NaN and infinity are non-finite (R54, DEDUCED, log entry 24). -/
def passClass (w : Word) : Cls := if (val32 w).isFin then .none else .nonfinite

/-! ## Arithmetic (R49, R57, R58, R98) -/

/-- The result of an operation of two words with its exact value. -/
def addElem (a b : Word) : Elem := { w := (add32 a b).1, cls := (add32 a b).2, ex := (val32 a).add (val32 b) }
/-- VMUL of two words. -/
def mulElem (a b : Word) : Elem := { w := (mul32 a b).1, cls := (mul32 a b).2, ex := (val32 a).mul (val32 b) }
/-- VMIN or VMAX of two words. -/
def minmaxElem (wantMax : Bool) (a b : Word) : Elem :=
  let r := minmax32 wantMax a b
  { w := r.1, cls := r.2, ex := val32 r.1 }
/-- VFMA of three words. -/
def fmaElem (a b c : Word) : Elem :=
  { w := (fma32 a b c).1, cls := (fma32 a b c).2, ex := ((val32 a).mul (val32 b)).add (val32 c) }

/-- A two-source instruction. -/
def v2Op (t : Nat) (i : Instr) (f : V2F) (g : Word → Word → Elem) (s : State) : State :=
  runOp t i
    (fun c s =>
      let a := readSource c s f.a 7
      let b := readSource c s f.b 7
      writeElems c f.d (fun r k => g (a.at r k) (b.at r k)) s) s

/-- A three-source instruction. -/
def v3Op (t : Nat) (i : Instr) (f : V3F) (g : Word → Word → Word → Elem) (s : State) : State :=
  runOp t i
    (fun c s =>
      let a := readSource c s f.a 7
      let b := readSource c s f.b 7
      let x := readSource c s f.c 7
      writeElems c f.d (fun r k => g (a.at r k) (b.at r k) (x.at r k)) s) s

/-- VADD. -/
def vaddOp (t : Nat) (f : V2F) (s : State) : State := v2Op t (.vadd t f) f addElem s
/-- VADD (R98). -/
def execVadd (t : Nat) (f : V2F) (s : State) : Host.Outcome State Fault Refusal := .next (vaddOp t f s)

/-- VMUL. -/
def vmulOp (t : Nat) (f : V2F) (s : State) : State := v2Op t (.vmul t f) f mulElem s
/-- VMUL (R98). -/
def execVmul (t : Nat) (f : V2F) (s : State) : Host.Outcome State Fault Refusal := .next (vmulOp t f s)

/-- VFMA. -/
def vfmaOp (t : Nat) (f : V3F) (s : State) : State := v3Op t (.vfma t f) f fmaElem s
/-- VFMA (R98). -/
def execVfma (t : Nat) (f : V3F) (s : State) : Host.Outcome State Fault Refusal := .next (vfmaOp t f s)

/-- VMIN. -/
def vminOp (t : Nat) (f : V2F) (s : State) : State := v2Op t (.vmin t f) f (minmaxElem false) s
/-- VMIN (R58). -/
def execVmin (t : Nat) (f : V2F) (s : State) : Host.Outcome State Fault Refusal := .next (vminOp t f s)

/-- VMAX. -/
def vmaxOp (t : Nat) (f : V2F) (s : State) : State := v2Op t (.vmax t f) f (minmaxElem true) s
/-- VMAX (R58). -/
def execVmax (t : Nat) (f : V2F) (s : State) : Host.Outcome State Fault Refusal := .next (vmaxOp t f s)

/-! ## Masks (R99) -/

/-- Whether a predicate holds of two values: a NaN makes every predicate but NE false (R57, R58). -/
def predHolds (p : Pred) (a b : FVal) : Bool :=
  match p with
  | .eq => a.eq b
  | .ne => !a.eq b
  | .lt => a.lt b
  | .le => a.lt b || a.eq b
  | .gt => b.lt a
  | .ge => b.lt a || a.eq b

/-- The mask element of a comparison (R99). -/
def cmpElem (p : Pred) (a b : Word) : Elem :=
  let w : Word := if predHolds p (val32 a) (val32 b) then 0x3F800000#32 else 0
  { w := w, cls := .none, ex := val32 w }

/-- VCMP. -/
def vcmpOp (t : Nat) (f : VcmpF) (s : State) : State := v2Op t (.vcmp t f) f.ops (cmpElem f.pred) s
/-- VCMP (R99). -/
def execVcmp (t : Nat) (f : VcmpF) (s : State) : Host.Outcome State Fault Refusal := .next (vcmpOp t f s)

/-- The selected operand's bits (R57, R99). -/
def selElem (m a b : Word) : Elem :=
  let w := if m &&& 0x7FFFFFFF#32 = 0 then b else a
  { w := w, cls := passClass w, ex := val32 w }

/-- VSEL. -/
def vselOp (t : Nat) (f : V3F) (s : State) : State := v3Op t (.vsel t f) f selElem s
/-- VSEL (R99). -/
def execVsel (t : Nat) (f : V3F) (s : State) : Host.Outcome State Fault Refusal := .next (vselOp t f s)

/-! ## Conversions (R100) -/

/-- A finite value rounded to the nearest even integer. -/
def FVal.nearest : FVal → Option Int
  | .fin n m e => let q := roundQuot none m e 0; some (if n then -(q : Int) else q)
  | _ => none

/-- The byte and class of a CODE conversion (R100). A finite source other than zero that rounds to 0 has no outcome class: R100
names the classes of the form, and R54's underflow is not one of them (DESIGN CHOICE, log entry 90). -/
def codeOf (x : FVal) : Nat × Cls :=
  match x with
  | .nan => (0xFF, .nonfinite)
  | .inf n => (if n then 0 else 0xFF, .nonfinite)
  | y =>
    match y.nearest with
    | some v => if v < 0 then (0, .overflow) else if 255 < v then (255, .overflow) else (v.toNat, .none)
    | none => (0, .none)

/-- The FP32 value of an exponent field (R100). -/
def fieldOf (w : Word) : Nat := (round32 (.fin false (bits w.toNat 23 8) 0)).toNat

/-- The source elements of a VCVT, in stored rows of the destination's shape. -/
def vcvtSource (f : VcvtF) (c : Ctx) (s : State) : List (List (Nat × FVal)) :=
  match vplace c f.a false (vcvtFmts f).1 with
  | none => []
  | some p =>
    let bin := (s.tile c.t).bin
    (p.rows bin f.a.shape).zipIdx.map (fun r => r.1.zipIdx.map (fun x =>
      (x.1, if blockScaled p.fmt then scaledElem p.fmt x.1 (p.scaleOf bin r.2 x.2) else decodeElem p.fmt x.1)))

/-- The row and column of element i of stored row r (R108). -/
def elemPos (sh : Shape) (r i : Nat) : Nat × Nat := match sh with
  | .col => (i, 0)
  | _ => (r, i)

/-- The converted rows of a VCVT (R100). -/
def vcvtRows (f : VcvtF) (c : Ctx) (sc : Scaling) (s : State) : List Converted :=
  let src := vcvtSource f c s
  match f.form with
  | .plain =>
    let k := laneKey s c.p sc.layer
    src.zipIdx.map (fun r => convertRow f.dstFmt sc.g (r.1.zipIdx.map (fun x =>
      let p := elemPos f.d.shape r.2 x.2
      (x.1.2, roundingAt k f.sr f.srSeq c.t p.1 p.2))))
  | .field => src.map (fun r => { codes := r.map (fun x => fieldOf (BitVec.ofNat 32 x.1)), scales := [],
                                  outs := r.map (fun _ => .none) })
  | .code => src.map (fun r => { codes := r.map (fun x => (codeOf x.2).1), scales := [], outs := r.map (fun x => (codeOf x.2).2) })

/-- The format in which the destination's non-zero elements are counted. -/
def vcvtOutFmt (f : VcvtF) : Nat := match f.form with
  | .plain => f.dstFmt
  | .field => 7
  | .code => if fmtBits f.dstFmt = 8 then f.dstFmt else 8

/-- The effect of a VCVT. FIELD and CODE apply no scale (R62). -/
def vcvtEff (f : VcvtF) (c : Ctx) (s : State) : State :=
  match vplace c f.d true (vcvtFmts f).2 with
  | none => s
  | some p =>
    let sc0 := scaling s c.w c.p.img f.gref
    let sc := if f.form = .plain then sc0 else { sc0 with g := 0, gout := 0, uses := [] }
    let rows := vcvtRows f c sc s
    report c { layer := sc.layer, role := sc.role,
               sources := (vcvtSource f c s).flatten.map (fun x => x.2.scale (sc.g - sc.gout)),
               outs := rows.flatMap (·.outs),
               nonzero := (rows.map (Converted.nonzero (vcvtOutFmt f))).sum,
               gauged := f.gref ≠ 31, measure := f.measure, uses := sc.uses }
      (s.setBin c.t (p.putConverted (s.tile c.t).bin f.d.shape rows))

/-- VCVT. -/
def vcvtOp (t : Nat) (f : VcvtF) (s : State) : State :=
  runOp t (.vcvt t f) (vcvtEff f) s
/-- VCVT (R100). -/
def execVcvt (t : Nat) (f : VcvtF) (s : State) : Host.Outcome State Fault Refusal := .next (vcvtOp t f s)

/-! ## Reductions (R101) -/

/-- One combination of a reduction. -/
def redApply : RedOp → Word → Word → Elem
  | .add => addElem
  | .max => minmaxElem true
  | .min => minmaxElem false

/-- The rank of a class (R101). -/
def Cls.rank : Cls → Nat
  | .none => 0 | .underflow => 1 | .overflow => 2 | .nonfinite => 3

/-- The higher-ranking of two classes. -/
def Cls.worse (a b : Cls) : Cls := if a.rank < b.rank then b else a

/-- One level of the tree: element 2i with element 2i + 1, the lower on the left. -/
def redLevel (o : RedOp) : List Elem → List Elem
  | a :: b :: xs =>
    let e := redApply o a.w b.w
    { e with cls := (e.cls.worse a.cls).worse b.cls } :: redLevel o xs
  | xs => xs

/-- The fixed pairwise tree over 2^levels elements (R101). -/
def redTree (o : RedOp) (levels : Nat) (xs : List Word) : Elem :=
  let leaves := xs.map (fun w => ({ w := w, cls := .none, ex := val32 w } : Elem))
  (((List.range levels).foldl (fun l _ => redLevel o l) leaves).head?).getD { w := 0, cls := .none, ex := .fin false 0 0 }

/-- The elements that a reduction folds into destination element (r, c). -/
def redInputs (f : VrdcF) (a : Source) (r c : Nat) : List Word :=
  if f.column then (List.range 16).map (fun k => a.at k c) else (List.range 64).map (fun k => a.at r k)

/-- The effect of a VRDC: the tree, and last d ⊕ tree with the accumulate attribute (R101). -/
def vrdcEff (f : VrdcF) (c : Ctx) (s : State) : State :=
  let a := readSource c s f.a 7
  let d : Source := { shape := f.d.shape, rows := match vplace c f.d true 7 with
    | some p => p.rows (s.tile c.t).bin f.d.shape
    | none => [] }
  writeElems c f.d (fun r k =>
    let e := redTree f.op (if f.column then 4 else 6) (redInputs f a r k)
    if f.accum then
      let x := redApply f.op (d.at r k) e.w
      { x with cls := x.cls.worse e.cls }
    else e) s

/-- VRDC. -/
def vrdcOp (t : Nat) (f : VrdcF) (s : State) : State :=
  runOp t (.vrdc t f) (vrdcEff f) s
/-- VRDC (R101). -/
def execVrdc (t : Nat) (f : VrdcF) (s : State) : Host.Outcome State Fault Refusal := .next (vrdcOp t f s)

/-! ## Positions and random values (R102, R107, R109) -/

/-- An element of VPOS: the addend plus an exact integer, rounded once (R102). -/
def posElem (a : Word) (n : Int) : Elem :=
  let x := (val32 a).add (.fin (n < 0) n.natAbs 0)
  let r := arith [val32 a] x
  { w := r.1, cls := r.2, ex := x }

/-- VPOS. -/
def vposOp (t : Nat) (f : VposF) (s : State) : State :=
  runOp t (.vpos t f)
    (fun c s =>
      let a := readSource c s f.addend 7
      writeElems c f.d (fun r k =>
        posElem (if f.addend.ref.buf = 31 then 0 else a.at r k) (f.o + r * f.sr + k * f.sc)) s) s
/-- VPOS (R102). -/
def execVpos (t : Nat) (f : VposF) (s : State) : Host.Outcome State Fault Refusal := .next (vposOp t f s)

/-- A position's field, and whether it counts as an overflow: the field comes from the rounded integer, and the count from the
position itself (R109). -/
def posField (x : FVal) : Nat × Bool :=
  ((match x.nearest with
    | none => 0
    | some v => (v % 1048576).toNat), !x.isFin || x.lt (.fin false 0 0) || !x.lt (.fin false 1048576 0))

/-- A word as an operation writes it: a NaN is the canonical one (R44). -/
def canonical32 (w : Word) : Word := if (val32 w).isNan then 0x7FC00000#32 else w

/-- An element of VRND from its control line, its position's value and its place (R44, R106, R107, R109). -/
def rndElem (k : LaneKey) (ctl : List Byte) (x : FVal) (c : Nat) : Elem :=
  let p := posField x
  let w := k.word (numIn ctl 2 1 % 16) p.1 c (numIn ctl 0 2)
  let v : Word := if numIn ctl 3 1 = 1 then
      (if w.toNat / 65536 < min 65536 (numIn ctl 4 4) then canonical32 (BitVec.ofNat 32 (numIn ctl 8 4)) else 0)
    else round32 (.fin false (w.toNat / 256) (-24))
  { w := v, cls := if p.2 then .overflow else passClass v, ex := val32 v }

/-- The effect of a VRND. -/
def vrndEff (f : VrndF) (c : Ctx) (s : State) : State :=
  let a := readSource c s f.pos 7
  let line := match vrndCtl c f with
    | some p => p.read (s.tile c.t).bin 0 64
    | none => []
  let k := laneKey s c.p (scaling s c.w c.p.img 31).layer
  writeElems c f.d (fun r i => rndElem k line (val32 (a.at r i)) i) s

/-- VRND. -/
def vrndOp (t : Nat) (f : VrndF) (s : State) : State := runOp t (.vrnd t f) (vrndEff f) s
/-- VRND (R107). -/
def execVrnd (t : Nat) (f : VrndF) (s : State) : Host.Outcome State Fault Refusal := .next (vrndOp t f s)

end Sys2Proof.Machine
end

