-- ==== Sys2Proof/Machine/Dispatch.lean ====
section
/-! DEFINITION. The meaning of every command: one arm per constructor. -/

namespace Sys2Proof.Machine

/-- The command's effect on everything but the queue. -/
def exec (i : Instr) (s : State) : Host.Outcome State Fault Refusal :=
  match i with
  | .loadFurrow d => Sys2Proof.Machine.execLoadFurrow d s
  | .runPass d => Sys2Proof.Machine.execRunPass d s
  | .dataIn d => Sys2Proof.Machine.execDataIn d s
  | .dataInLogReplay d => Sys2Proof.Machine.execDataInLogReplay d s
  | .dataOut d => Sys2Proof.Machine.execDataOut d s
  | .stepOpen d => Sys2Proof.Machine.execStepOpen d s
  | .stepClose d => Sys2Proof.Machine.execStepClose d s
  | .harvestBegin d => Sys2Proof.Machine.execHarvestBegin d s
  | .harvestRecovery d => Sys2Proof.Machine.execHarvestRecovery d s
  | .restore d host => Sys2Proof.Machine.execRestore d host s
  | .restoreCommit host => Sys2Proof.Machine.execRestoreCommit host s
  | .standinClaim d => Sys2Proof.Machine.execStandinClaim d s
  | .claimSettle => Sys2Proof.Machine.execClaimSettle s
  | .cancel d => Sys2Proof.Machine.execCancel d s
  | .syncDump d => Sys2Proof.Machine.execSyncDump d s
  | .tallySignal d => Sys2Proof.Machine.execTallySignal d s
  | .fence d => Sys2Proof.Machine.execFence d s
  | .disable d => Sys2Proof.Machine.execDisable d s
  | .submissionDoorbell ring value size => Sys2Proof.Machine.execSubmissionDoorbell ring value size s
  | .completionDoorbell ring value size => Sys2Proof.Machine.execCompletionDoorbell ring value size s
  | .splitDescriptorTimeout d => Sys2Proof.Machine.execSplitDescriptorTimeout d s
  | .heldDescriptorRelease ring => Sys2Proof.Machine.execHeldDescriptorRelease ring s
  | .completionModerationTimeout ring => Sys2Proof.Machine.execCompletionModerationTimeout ring s
  | .opx t f => Sys2Proof.Machine.execOpx t f s
  | .alt t f => Sys2Proof.Machine.execAlt t f s
  | .shx t f => Sys2Proof.Machine.execShx t f s
  | .aclr t bank => Sys2Proof.Machine.execAclr t bank s
  | .drn t f => Sys2Proof.Machine.execDrn t f s
  | .vadd t f => Sys2Proof.Machine.execVadd t f s
  | .vmul t f => Sys2Proof.Machine.execVmul t f s
  | .vfma t f => Sys2Proof.Machine.execVfma t f s
  | .vcmp t f => Sys2Proof.Machine.execVcmp t f s
  | .vsel t f => Sys2Proof.Machine.execVsel t f s
  | .vmin t f => Sys2Proof.Machine.execVmin t f s
  | .vmax t f => Sys2Proof.Machine.execVmax t f s
  | .vcvt t f => Sys2Proof.Machine.execVcvt t f s
  | .vrdc t f => Sys2Proof.Machine.execVrdc t f s
  | .vpos t f => Sys2Proof.Machine.execVpos t f s
  | .vrnd t f => Sys2Proof.Machine.execVrnd t f s
  | .get t f => Sys2Proof.Machine.execGet t f s
  | .put t f => Sys2Proof.Machine.execPut t f s
  | .xfer t f => Sys2Proof.Machine.execXfer t f s
  | .xferLineArrive src dst => Sys2Proof.Machine.execXferLineArrive src dst s
  | .swap t buf => Sys2Proof.Machine.execSwap t buf s
  | .sig t f => Sys2Proof.Machine.execSig t f s
  | .wait t f => Sys2Proof.Machine.execWait t f s
  | .take t f => Sys2Proof.Machine.execTake t f s
  | .bind t f => Sys2Proof.Machine.execBind t f s
  | .loop t f => Sys2Proof.Machine.execLoop t f s
  | .brc t f => Sys2Proof.Machine.execBrc t f s
  | .yield t => Sys2Proof.Machine.execYield t s
  | .pend t => Sys2Proof.Machine.execPend t s
  | .passRetire pass => Sys2Proof.Machine.execPassRetire pass s
  | .passSwitch t => Sys2Proof.Machine.execPassSwitch t s
  | .passResume t => Sys2Proof.Machine.execPassResume t s
  | .budgetExceeded t pass => Sys2Proof.Machine.execBudgetExceeded t pass s
  | .preemptionBoundExceeded t pass => Sys2Proof.Machine.execPreemptionBoundExceeded t pass s
  | .tallySignalApply k => Sys2Proof.Machine.execTallySignalApply k s
  | .binderWireRelease w => Sys2Proof.Machine.execBinderWireRelease w s
  | .waitTimeout t pass => Sys2Proof.Machine.execWaitTimeout t pass s
  | .tagGrant g => Sys2Proof.Machine.execTagGrant g s
  | .readLand x => Sys2Proof.Machine.execReadLand x s
  | .memoryWriteAck x => Sys2Proof.Machine.execMemoryWriteAck x s
  | .bufferCycle g => Sys2Proof.Machine.execBufferCycle g s
  | .memoryRequestServe p pc found => Sys2Proof.Machine.execMemoryRequestServe p pc found s
  | .memTrainStacks mask => Sys2Proof.Machine.execMemTrainStacks mask s
  | .memTrainPackages mask => Sys2Proof.Machine.execMemTrainPackages mask s
  | .memoryTrainingDone p => Sys2Proof.Machine.execMemoryTrainingDone p s
  | .rangeEnable k e => Sys2Proof.Machine.execRangeEnable k e s
  | .rangeDisable k e => Sys2Proof.Machine.execRangeDisable k e s
  | .rangeInitDone k e => Sys2Proof.Machine.execRangeInitDone k e s
  | .windowEnable k w => Sys2Proof.Machine.execWindowEnable k w s
  | .windowDisable k w => Sys2Proof.Machine.execWindowDisable k w s
  | .copyAhead block => Sys2Proof.Machine.execCopyAhead block s
  | .selfRefreshEntry k => Sys2Proof.Machine.execSelfRefreshEntry k s
  | .retrainingStart p pc phy => Sys2Proof.Machine.execRetrainingStart p pc s phy
  | .hostRetrain k pc => Sys2Proof.Machine.execHostRetrain k pc s
  | .retrainingTimeout p pc => Sys2Proof.Machine.execRetrainingTimeout p pc s
  | .hostRetire k pc => Sys2Proof.Machine.execHostRetire k pc s
  | .resowGo k => Sys2Proof.Machine.execResowGo k s
  | .resowMove k => Sys2Proof.Machine.execResowMove k s
  | .patrolScrub p line found => Sys2Proof.Machine.execPatrolScrub p line found s
  | .stackTempReading k celsius => Sys2Proof.Machine.execStackTempReading k celsius s
  | .hotDelayRestate k => Sys2Proof.Machine.execHotDelayRestate k s
  | .portEnable mask => Sys2Proof.Machine.execPortEnable mask s
  | .linkControlReceive port flit => Sys2Proof.Machine.execLinkControlReceive port flit s
  | .flitReceive port flit => Sys2Proof.Machine.execFlitReceive port flit s
  | .ackTimeoutResend port => Sys2Proof.Machine.execAckTimeoutResend port s
  | .packetTransmit port => Sys2Proof.Machine.execPacketTransmit port s
  | .linkSilenceTimeout port => Sys2Proof.Machine.execLinkSilenceTimeout port s
  | .pcsLockLoss port => Sys2Proof.Machine.execPcsLockLoss port s
  | .fecLimitExceeded port codewords corrected => Sys2Proof.Machine.execFecLimitExceeded port codewords s corrected
  | .portRetrainRetry port => Sys2Proof.Machine.execPortRetrainRetry port s
  | .portRetrain port => Sys2Proof.Machine.execPortRetrain port s
  | .clearQuarantine port => Sys2Proof.Machine.execClearQuarantine port s
  | .replayBufferRelease port => Sys2Proof.Machine.execReplayBufferRelease port s
  | .stallTimeout x => Sys2Proof.Machine.execStallTimeout x s
  | .abandonTimeout x => Sys2Proof.Machine.execAbandonTimeout x s
  | .fabNodeIdWrite value => Sys2Proof.Machine.execFabNodeIdWrite value s
  | .write port => Sys2Proof.Machine.execWrite port s
  | .readReq port => Sys2Proof.Machine.execReadReq port s
  | .readResp port => Sys2Proof.Machine.execReadResp port s
  | .writeAck port => Sys2Proof.Machine.execWriteAck port s
  | .signal port => Sys2Proof.Machine.execSignal port s
  | .bareSignal port => Sys2Proof.Machine.execBareSignal port s
  | .coll port => Sys2Proof.Machine.execColl port s
  | .sealReport port => Sys2Proof.Machine.execSealReport port s
  | .mirror port => Sys2Proof.Machine.execMirror port s
  | .recovery port => Sys2Proof.Machine.execRecovery port s
  | .cancelNotice port => Sys2Proof.Machine.execCancelNotice port s
  | .cancelAck port => Sys2Proof.Machine.execCancelAck port s
  | .holdoff port => Sys2Proof.Machine.execHoldoff port s
  | .abandon port => Sys2Proof.Machine.execAbandon port s
  | .nakPkt port => Sys2Proof.Machine.execNakPkt port s
  | .claim port => Sys2Proof.Machine.execClaim port s
  | .claimRefuse port => Sys2Proof.Machine.execClaimRefuse port s
  | .collGroupEnable g => Sys2Proof.Machine.execCollGroupEnable g s
  | .collGroupDisable g => Sys2Proof.Machine.execCollGroupDisable g s
  | .collCommandStart g => Sys2Proof.Machine.execCollCommandStart g s
  | .collCommandDone g => Sys2Proof.Machine.execCollCommandDone g s
  | .collGroupTimeout g => Sys2Proof.Machine.execCollGroupTimeout g s
  | .tilMtalCountWrite value => Sys2Proof.Machine.execTilMtalCountWrite value s
  | .tilMtalCfgWrite value => Sys2Proof.Machine.execTilMtalCfgWrite value s
  | .stpJobStart => Sys2Proof.Machine.execStpJobStart s
  | .stpJobEnd => Sys2Proof.Machine.execStpJobEnd s
  | .stpRollback => Sys2Proof.Machine.execStpRollback s
  | .stpVerdictWrite value => Sys2Proof.Machine.execStpVerdictWrite value s
  | .stepEnterCheck step => Sys2Proof.Machine.execStepEnterCheck step s
  | .sealEvaluate step => Sys2Proof.Machine.execSealEvaluate step s
  | .mirrorSendEntry => Sys2Proof.Machine.execMirrorSendEntry s
  | .digestExchange => Sys2Proof.Machine.execDigestExchange s
  | .titheSampleTest => Sys2Proof.Machine.execTitheSampleTest s
  | .hrvRemirror => Sys2Proof.Machine.execHrvRemirror s
  | .harvestBlockCopy host => Sys2Proof.Machine.execHarvestBlockCopy s host
  | .powerOn f => Sys2Proof.Machine.execPowerOn f s
  | .powerOff => Sys2Proof.Machine.execPowerOff s
  | .mainRailsOff => Sys2Proof.Machine.execMainRailsOff s
  | .moduleReset cause => Sys2Proof.Machine.execModuleReset cause s
  | .perstDeassert => Sys2Proof.Machine.execPerstDeassert s
  | .pmD3hotEntry => Sys2Proof.Machine.execPmD3hotEntry s
  | .pmD0Return => Sys2Proof.Machine.execPmD0Return s
  | .throttlePinAssert => Sys2Proof.Machine.execThrottlePinAssert s
  | .throttlePinRelease => Sys2Proof.Machine.execThrottlePinRelease s
  | .undervoltageThrottle => Sys2Proof.Machine.execUndervoltageThrottle s
  | .undervoltageRelease => Sys2Proof.Machine.execUndervoltageRelease s
  | .powerCapStep meanW => Sys2Proof.Machine.execPowerCapStep meanW s
  | .dieTempThrottle q celsius => Sys2Proof.Machine.execDieTempThrottle q celsius s
  | .throttleLevelStep => Sys2Proof.Machine.execThrottleLevelStep s
  | .moduleFaultDeclare cause => Sys2Proof.Machine.execModuleFaultDeclare cause s
  | .energySample mV mA => Sys2Proof.Machine.execEnergySample mV mA s
  | .pllLock q => Sys2Proof.Machine.execPllLock q s
  | .wakeWalkStep q => Sys2Proof.Machine.execWakeWalkStep q s
  | .pllStop q => Sys2Proof.Machine.execPllStop q s
  | .tileGate t => Sys2Proof.Machine.execTileGate t s
  | .idleTestSlice t failed => Sys2Proof.Machine.execIdleTestSlice t failed s
  | .tileRetirementApply => Sys2Proof.Machine.execTileRetirementApply s
  | .mboxWriteSlot arg => Sys2Proof.Machine.execMboxWriteSlot arg s
  | .mboxVerifySlot => Sys2Proof.Machine.execMboxVerifySlot s
  | .mboxSetPreferred => Sys2Proof.Machine.execMboxSetPreferred s
  | .mboxCommit => Sys2Proof.Machine.execMboxCommit s
  | .mboxReadRecord arg => Sys2Proof.Machine.execMboxReadRecord arg s
  | .mboxCommandComplete => Sys2Proof.Machine.execMboxCommandComplete s
  | .getVersion => Sys2Proof.Machine.execGetVersion s
  | .getCapabilities => Sys2Proof.Machine.execGetCapabilities s
  | .negotiateAlgorithms => Sys2Proof.Machine.execNegotiateAlgorithms s
  | .getDigests => Sys2Proof.Machine.execGetDigests s
  | .getCertificate slot offset length => Sys2Proof.Machine.execGetCertificate slot offset length s
  | .challenge slot nonce => Sys2Proof.Machine.execChallenge slot nonce s
  | .getMeasurements index => Sys2Proof.Machine.execGetMeasurements index s
  | .entdaa addr => Sys2Proof.Machine.execEntdaa addr s
  | .setdasa st addr => Sys2Proof.Machine.execSetdasa st addr s
  | .evtEnable value => Sys2Proof.Machine.execEvtEnable value s
  | .evtHeadWrite value => Sys2Proof.Machine.execEvtHeadWrite value s
  | .eventModerationTimeout => Sys2Proof.Machine.execEventModerationTimeout s
  | .msixUnmask v => Sys2Proof.Machine.execMsixUnmask v s
  | .ringEnable r value => Sys2Proof.Machine.execRingEnable r value s
  | .ringEngineEnable => Sys2Proof.Machine.execRingEngineEnable s
  | .gathererEnable mask => Sys2Proof.Machine.execGathererEnable mask s
  | .tileEnable word mask => Sys2Proof.Machine.execTileEnable word mask s
  | .deviceEnable mask => Sys2Proof.Machine.execDeviceEnable mask s
  | .harvestEngineEnable => Sys2Proof.Machine.execHarvestEngineEnable s
  | .barSplitLowWrite offset value => Sys2Proof.Machine.execBarSplitLowWrite offset value s
  | .registerWrite offset size value be => Sys2Proof.Machine.execRegisterWrite offset size value be s
  | .retrainingSuccess p pc => Sys2Proof.Machine.execRetrainingSuccess p pc s
  | .pcsFecLock port => Sys2Proof.Machine.execPcsFecLock port s
  | .descriptorReadError ring => Sys2Proof.Machine.execDescriptorReadError ring s
  | .linkControlSend port => Sys2Proof.Machine.execLinkControlSend port s

end Sys2Proof.Machine
end

