-- ==== Sys2Proof/WellFormed.lean ====
section
/-! DEFINITION. Well-formed commands: every index within what the module has, every instruction field within its encoding
(R10, R114, R118 to R123, R173, R203, R239, R251, R346). -/

namespace Sys2Proof

set_option Elab.async false

open Config

/-- A tile number (R10). -/
def tileIx (t : Nat) : Bool := t < numTiles
/-- A ring number (R346). -/
def ringIx (r : Nat) : Bool := r < numRings
/-- A port number (R251). -/
def portIx (p : Nat) : Bool := p < numPorts
/-- A gatherer number (R203). -/
def gathIx (g : Nat) : Bool := g < numGatherers
/-- A stack number (R173). -/
def stackIx (k : Nat) : Bool := k < numStacks
/-- A memory number, stacks and then packages (R356). -/
def memIx (p : Nat) : Bool := p < numMemories
/-- A pseudo-channel number (R173). -/
def pcIx (c : Nat) : Bool := c < 32
/-- An entry of a range table or a window number (R155, R184). -/
def entryIx (e : Nat) : Bool := e < 64
/-- A quadrant number (R11). -/
def quadIx (q : Nat) : Bool := q < 4
/-- A collective group (R239). -/
def groupIx (g : Nat) : Bool := g < 4096

/-- A wide reference (R114). -/
def wideRef (r : Ref) : Bool := r.buf < 32 && r.off < 4096
/-- A short reference (R114). -/
def shortRef (r : Ref) : Bool := r.buf < 32 && r.off < 128
/-- A shaped operand (R120). -/
def vopWf (v : VOp) : Bool := shortRef v.ref
/-- A bank (R27). -/
def bankIx (b : Nat) : Bool := b < 4
/-- A signed field of w bits. -/
def sfield (v : Int) (w : Nat) : Bool := -(2 ^ (w - 1) : Nat) ≤ v && v < (2 ^ (w - 1) : Nat)

/-- OPX (R118). -/
def OpxF.wf (f : OpxF) : Bool :=
  bankIx f.bank && wideRef f.a && wideRef f.b && 1 ≤ f.k && f.k ≤ 4096 && f.sa < 4 && f.sb < 4
/-- ALT (R118). -/
def AltF.wf (f : AltF) : Bool :=
  f.dxBank < 2 && 2 ≤ f.dwBank && f.dwBank < 4 && wideRef f.dy && wideRef f.w && wideRef f.x
/-- SHX (R118). -/
def ShxF.wf (f : ShxF) : Bool :=
  bankIx f.bank && wideRef f.a && wideRef f.b && 1 ≤ f.rows && f.rows ≤ 4096 && 1 ≤ f.taps && f.taps ≤ 17 && 1 ≤ f.str
    && f.str ≤ 4
/-- DRN (R118). -/
def DrnF.wf (f : DrnF) : Bool := bankIx f.bank && wideRef f.dst && f.srSeq < 4096 && f.gref < 32
/-- Two-source vector instructions (R120). -/
def V2F.wf (f : V2F) : Bool := vopWf f.d && vopWf f.a && vopWf f.b
/-- Three-source vector instructions (R120). -/
def V3F.wf (f : V3F) : Bool := vopWf f.d && vopWf f.a && vopWf f.b && vopWf f.c
/-- VCVT (R120). -/
def VcvtF.wf (f : VcvtF) : Bool :=
  vopWf f.d && vopWf f.a && f.srcFmt ≤ 8 && f.dstFmt ≤ 8 && f.srSeq < 4096 && f.gref < 32
/-- VRDC (R120). -/
def VrdcF.wf (f : VrdcF) : Bool := vopWf f.d && vopWf f.a
/-- VPOS (R120). -/
def VposF.wf (f : VposF) : Bool := vopWf f.d && vopWf f.addend && sfield f.o 12 && sfield f.sr 8 && sfield f.sc 8
/-- VRND (R120). -/
def VrndF.wf (f : VrndF) : Bool := vopWf f.d && vopWf f.pos && shortRef f.ctrl
/-- GET and PUT (R121). -/
def MoveF.wf (f : MoveF) : Bool := f.stream < 64 && wideRef f.ref && 1 ≤ f.lines && f.lines ≤ 4096 && f.off < 2097152
/-- XFER (R121). -/
def XferF.wf (f : XferF) : Bool :=
  wideRef f.src && wideRef f.dst && sfield f.dx 7 && sfield f.dy 6 && 1 ≤ f.lines && f.lines ≤ 512
/-- SIG (R123). -/
def SigF.wf (f : SigF) : Bool :=
  f.kind < 4 && f.tally < 65536 && 1 ≤ f.inc && f.inc < 65536 && sfield f.dx 7 && sfield f.dy 6 && f.stream < 64
    && (2 ≤ f.kind || f.tally < 64)
/-- WAIT (R123). -/
def WaitF.wf (f : WaitF) : Bool :=
  (f.kind = 0 && f.tally < 64 || f.kind = 2) && f.tally < 65536 && f.index < 4 && f.step < 65536 && f.base < 524288
/-- TAKE (R123). -/
def TakeF.wf (f : TakeF) : Bool :=
  (f.kind = 0 && f.tally < 64 || f.kind = 2) && f.tally < 65536 && 1 ≤ f.amount && f.amount < 65536
/-- BIND (R123). -/
def BindF.wf (f : BindF) : Bool := f.wire < 16
/-- LOOP (R123). -/
def LoopF.wf (f : LoopF) : Bool := f.depth ≤ 2 && 1 ≤ f.body && f.body < 4096 && 1 ≤ f.count && f.count < 16777216
/-- BRC (R123). -/
def BrcF.wf (f : BrcF) : Bool := f.cond < 7 && f.n < 4 && sfield f.disp 16 && f.disp ≠ 0

/-- Whether a command is well formed. -/
def Instr.wf : Instr → Bool
  | .loadFurrow d => ringIx d.ring
  | .runPass d => ringIx d.ring
  | .dataIn d => ringIx d.ring
  | .dataInLogReplay d => ringIx d.ring
  | .dataOut d => ringIx d.ring
  | .stepOpen d => ringIx d.ring
  | .stepClose d => ringIx d.ring
  | .harvestBegin d => ringIx d.ring
  | .harvestRecovery d => ringIx d.ring
  | .restore d _ => ringIx d.ring
  | .restoreCommit _ => true
  | .standinClaim d => ringIx d.ring
  | .claimSettle => true
  | .cancel d => ringIx d.ring
  | .syncDump d => ringIx d.ring
  | .tallySignal d => ringIx d.ring
  | .fence d => ringIx d.ring
  | .disable d => ringIx d.ring
  | .submissionDoorbell r _ n => ringIx r && (n = 4 || n = 8)
  | .completionDoorbell r _ n => ringIx r && (n = 4 || n = 8)
  | .splitDescriptorTimeout d => ringIx d.ring
  | .heldDescriptorRelease r => ringIx r
  | .completionModerationTimeout r => ringIx r
  | .opx t f => tileIx t && f.wf
  | .alt t f => tileIx t && f.wf
  | .shx t f => tileIx t && f.wf
  | .aclr t b => tileIx t && bankIx b
  | .drn t f => tileIx t && f.wf
  | .vadd t f => tileIx t && f.wf
  | .vmul t f => tileIx t && f.wf
  | .vfma t f => tileIx t && f.wf
  | .vcmp t f => tileIx t && f.ops.wf
  | .vsel t f => tileIx t && f.wf
  | .vmin t f => tileIx t && f.wf
  | .vmax t f => tileIx t && f.wf
  | .vcvt t f => tileIx t && f.wf
  | .vrdc t f => tileIx t && f.wf
  | .vpos t f => tileIx t && f.wf
  | .vrnd t f => tileIx t && f.wf
  | .get t f => tileIx t && f.wf
  | .put t f => tileIx t && f.wf
  | .xfer t f => tileIx t && f.wf
  | .xferLineArrive a b => tileIx a && tileIx b
  | .swap t b => tileIx t && b < 32
  | .sig t f => tileIx t && f.wf
  | .wait t f => tileIx t && f.wf
  | .take t f => tileIx t && f.wf
  | .bind t f => tileIx t && f.wf
  | .loop t f => tileIx t && f.wf
  | .brc t f => tileIx t && f.wf
  | .yield t => tileIx t
  | .pend t => tileIx t
  | .passRetire _ => true
  | .passSwitch t => tileIx t
  | .passResume t => tileIx t
  | .budgetExceeded t _ => tileIx t
  | .preemptionBoundExceeded t _ => tileIx t
  | .tallySignalApply _ => true
  | .binderWireRelease w => w < 16
  | .waitTimeout t _ => tileIx t
  | .tagGrant g => gathIx g
  | .readLand _ => true
  | .memoryWriteAck _ => true
  | .bufferCycle g => gathIx g
  | .memoryRequestServe p c _ => memIx p && pcIx c
  | .memTrainStacks _ => true
  | .memTrainPackages _ => true
  | .memoryTrainingDone p => memIx p
  | .rangeEnable k e => stackIx k && entryIx e
  | .rangeDisable k e => stackIx k && entryIx e
  | .rangeInitDone k e => stackIx k && entryIx e
  | .windowEnable k w => stackIx k && entryIx w
  | .windowDisable k w => stackIx k && entryIx w
  | .copyAhead b => b < 65536
  | .selfRefreshEntry k => stackIx k
  | .retrainingStart p c _ => memIx p && pcIx c
  | .hostRetrain k c => stackIx k && pcIx c
  | .retrainingTimeout p c => memIx p && pcIx c
  | .hostRetire k c => stackIx k && pcIx c
  | .resowGo k => stackIx k
  | .resowMove k => stackIx k
  | .patrolScrub p _ _ => memIx p
  | .stackTempReading k c => stackIx k && c < 256
  | .hotDelayRestate k => stackIx k
  | .portEnable _ => true
  | .linkControlReceive p _ => portIx p
  | .flitReceive p _ => portIx p
  | .ackTimeoutResend p => portIx p
  | .packetTransmit p => portIx p
  | .linkSilenceTimeout p => portIx p
  | .pcsLockLoss p => portIx p
  | .fecLimitExceeded p _ _ => portIx p
  | .portRetrainRetry p => portIx p
  | .portRetrain p => portIx p
  | .clearQuarantine p => portIx p
  | .replayBufferRelease p => portIx p
  | .stallTimeout _ => true
  | .abandonTimeout _ => true
  | .fabNodeIdWrite _ => true
  | .write p => portIx p
  | .readReq p => portIx p
  | .readResp p => portIx p
  | .writeAck p => portIx p
  | .signal p => portIx p
  | .bareSignal p => portIx p
  | .coll p => portIx p
  | .sealReport p => portIx p
  | .mirror p => portIx p
  | .recovery p => portIx p
  | .cancelNotice p => portIx p
  | .cancelAck p => portIx p
  | .holdoff p => portIx p
  | .abandon p => portIx p
  | .nakPkt p => portIx p
  | .claim p => portIx p
  | .claimRefuse p => portIx p
  | .collGroupEnable g => groupIx g
  | .collGroupDisable g => groupIx g
  | .collCommandStart g => groupIx g
  | .collCommandDone g => groupIx g
  | .collGroupTimeout g => groupIx g
  | .tilMtalCountWrite _ => true
  | .tilMtalCfgWrite _ => true
  | .stpJobStart => true
  | .stpJobEnd => true
  | .stpRollback => true
  | .stpVerdictWrite _ => true
  | .stepEnterCheck n => n < 1099511627776
  | .sealEvaluate n => n < 1099511627776
  | .mirrorSendEntry => true
  | .digestExchange => true
  | .titheSampleTest => true
  | .hrvRemirror => true
  | .harvestBlockCopy _ => true
  | .powerOn _ => true
  | .powerOff => true
  | .mainRailsOff => true
  | .moduleReset _ => true
  | .perstDeassert => true
  | .pmD3hotEntry => true
  | .pmD0Return => true
  | .throttlePinAssert => true
  | .throttlePinRelease => true
  | .undervoltageThrottle => true
  | .undervoltageRelease => true
  | .powerCapStep _ => true
  | .dieTempThrottle q c => quadIx q && c < 256
  | .throttleLevelStep => true
  | .moduleFaultDeclare c => (match c with
      | .criticalStack k => stackIx k
      | .failedDevice p => memIx p
      | .nodeIdLost n => n < 65536
      | .dieTemperature => true
      | .inputVoltage => true)
  | .energySample _ _ => true
  | .pllLock q => quadIx q
  | .wakeWalkStep q => quadIx q
  | .pllStop q => quadIx q
  | .tileGate t => tileIx t
  | .idleTestSlice t _ => t < numTiles + 64
  | .tileRetirementApply => true
  | .mboxWriteSlot a => a < 16777216
  | .mboxVerifySlot => true
  | .mboxSetPreferred => true
  | .mboxCommit => true
  | .mboxReadRecord a => a < 16777216
  | .mboxCommandComplete => true
  | .getVersion => true
  | .getCapabilities => true
  | .negotiateAlgorithms => true
  | .getDigests => true
  | .getCertificate slot off len => slot < 256 && off < 65536 && len < 65536
  | .challenge slot _ => slot < 256
  | .getMeasurements n => n < 256
  | .entdaa _ => true
  | .setdasa _ _ => true
  | .evtEnable _ => true
  | .evtHeadWrite _ => true
  | .eventModerationTimeout => true
  | .msixUnmask v => v < 2048
  | .ringEnable r _ => ringIx r
  | .ringEngineEnable => true
  | .gathererEnable _ => true
  | .tileEnable i _ => i < 48
  | .deviceEnable _ => true
  | .harvestEngineEnable => true
  | .barSplitLowWrite off _ => off < 0x4000000 && off % 8 = 0
  | .registerWrite off n _ _ => off < 0x4000000 && (n = 4 || n = 8) && off % n = 0
  | .retrainingSuccess p c => memIx p && pcIx c
  | .pcsFecLock p => portIx p
  | .descriptorReadError r => ringIx r
  | .linkControlSend p => portIx p

/-- What a command acts on, when its operands name one thing. -/
inductive Target where
  | tile (t : Nat) | anyTile (t : Nat) | ring (r : Nat) | port (p : Nat) | gatherer (g : Nat) | memory (p : Nat)
  | channel (p c : Nat) | entry (k e : Nat) | group (g : Nat) | quadrant (q : Nat) | wire (w : Nat) | offset (off : Nat) | module
  deriving DecidableEq, Repr

/-- Whether the module has it. A tile of the spare columns is 1,536 + its row key; BAR0 has 64 MiB (R433). -/
def Target.present : Target → Bool
  | .tile t => tileIx t
  | .anyTile t => t < numTiles + 64
  | .ring r => ringIx r
  | .port p => portIx p
  | .gatherer g => gathIx g
  | .memory p => memIx p
  | .channel p c => memIx p && pcIx c
  | .entry k e => stackIx k && entryIx e
  | .group g => groupIx g
  | .quadrant q => quadIx q
  | .wire w => w < 16
  | .offset off => off < 0x4000000
  | .module => true

/-- What a command acts on. -/
def Instr.target : Instr → Target
  | .loadFurrow d => .ring (d.ring)
  | .runPass d => .ring (d.ring)
  | .dataIn d => .ring (d.ring)
  | .dataInLogReplay d => .ring (d.ring)
  | .dataOut d => .ring (d.ring)
  | .stepOpen d => .ring (d.ring)
  | .stepClose d => .ring (d.ring)
  | .harvestBegin d => .ring (d.ring)
  | .harvestRecovery d => .ring (d.ring)
  | .restore d _ => .ring (d.ring)
  | .restoreCommit _ => .module
  | .standinClaim d => .ring (d.ring)
  | .claimSettle => .module
  | .cancel d => .ring (d.ring)
  | .syncDump d => .ring (d.ring)
  | .tallySignal d => .ring (d.ring)
  | .fence d => .ring (d.ring)
  | .disable d => .ring (d.ring)
  | .submissionDoorbell r _ _ => .ring r
  | .completionDoorbell r _ _ => .ring r
  | .splitDescriptorTimeout d => .ring (d.ring)
  | .heldDescriptorRelease r => .ring r
  | .completionModerationTimeout r => .ring r
  | .opx t _ => .tile t
  | .alt t _ => .tile t
  | .shx t _ => .tile t
  | .aclr t _ => .tile t
  | .drn t _ => .tile t
  | .vadd t _ => .tile t
  | .vmul t _ => .tile t
  | .vfma t _ => .tile t
  | .vcmp t _ => .tile t
  | .vsel t _ => .tile t
  | .vmin t _ => .tile t
  | .vmax t _ => .tile t
  | .vcvt t _ => .tile t
  | .vrdc t _ => .tile t
  | .vpos t _ => .tile t
  | .vrnd t _ => .tile t
  | .get t _ => .tile t
  | .put t _ => .tile t
  | .xfer t _ => .tile t
  | .xferLineArrive a _ => .tile a
  | .swap t _ => .tile t
  | .sig t _ => .tile t
  | .wait t _ => .tile t
  | .take t _ => .tile t
  | .bind t _ => .tile t
  | .loop t _ => .tile t
  | .brc t _ => .tile t
  | .yield t => .tile t
  | .pend t => .tile t
  | .passRetire _ => .module
  | .passSwitch t => .tile t
  | .passResume t => .tile t
  | .budgetExceeded t _ => .tile t
  | .preemptionBoundExceeded t _ => .tile t
  | .tallySignalApply _ => .module
  | .binderWireRelease w => .wire w
  | .waitTimeout t _ => .tile t
  | .tagGrant g => .gatherer g
  | .readLand _ => .module
  | .memoryWriteAck _ => .module
  | .bufferCycle g => .gatherer g
  | .memoryRequestServe p c _ => .channel p c
  | .memTrainStacks _ => .module
  | .memTrainPackages _ => .module
  | .memoryTrainingDone p => .memory p
  | .rangeEnable k e => .entry k e
  | .rangeDisable k e => .entry k e
  | .rangeInitDone k e => .entry k e
  | .windowEnable k w => .entry k w
  | .windowDisable k w => .entry k w
  | .copyAhead _ => .module
  | .selfRefreshEntry k => .memory k
  | .retrainingStart p c _ => .channel p c
  | .hostRetrain k c => .channel k c
  | .retrainingTimeout p c => .channel p c
  | .hostRetire k c => .channel k c
  | .resowGo k => .memory k
  | .resowMove k => .memory k
  | .patrolScrub p _ _ => .memory p
  | .stackTempReading k _ => .memory k
  | .hotDelayRestate k => .memory k
  | .portEnable _ => .module
  | .linkControlReceive p _ => .port p
  | .flitReceive p _ => .port p
  | .ackTimeoutResend p => .port p
  | .packetTransmit p => .port p
  | .linkSilenceTimeout p => .port p
  | .pcsLockLoss p => .port p
  | .fecLimitExceeded p _ _ => .port p
  | .portRetrainRetry p => .port p
  | .portRetrain p => .port p
  | .clearQuarantine p => .port p
  | .replayBufferRelease p => .port p
  | .stallTimeout _ => .module
  | .abandonTimeout _ => .module
  | .fabNodeIdWrite _ => .module
  | .write p => .port p
  | .readReq p => .port p
  | .readResp p => .port p
  | .writeAck p => .port p
  | .signal p => .port p
  | .bareSignal p => .port p
  | .coll p => .port p
  | .sealReport p => .port p
  | .mirror p => .port p
  | .recovery p => .port p
  | .cancelNotice p => .port p
  | .cancelAck p => .port p
  | .holdoff p => .port p
  | .abandon p => .port p
  | .nakPkt p => .port p
  | .claim p => .port p
  | .claimRefuse p => .port p
  | .collGroupEnable g => .group g
  | .collGroupDisable g => .group g
  | .collCommandStart g => .group g
  | .collCommandDone g => .group g
  | .collGroupTimeout g => .group g
  | .tilMtalCountWrite _ => .module
  | .tilMtalCfgWrite _ => .module
  | .stpJobStart => .module
  | .stpJobEnd => .module
  | .stpRollback => .module
  | .stpVerdictWrite _ => .module
  | .stepEnterCheck _ => .module
  | .sealEvaluate _ => .module
  | .mirrorSendEntry => .module
  | .digestExchange => .module
  | .titheSampleTest => .module
  | .hrvRemirror => .module
  | .harvestBlockCopy _ => .module
  | .powerOn _ => .module
  | .powerOff => .module
  | .mainRailsOff => .module
  | .moduleReset _ => .module
  | .perstDeassert => .module
  | .pmD3hotEntry => .module
  | .pmD0Return => .module
  | .throttlePinAssert => .module
  | .throttlePinRelease => .module
  | .undervoltageThrottle => .module
  | .undervoltageRelease => .module
  | .powerCapStep _ => .module
  | .dieTempThrottle q _ => .quadrant q
  | .throttleLevelStep => .module
  | .moduleFaultDeclare _ => .module
  | .energySample _ _ => .module
  | .pllLock q => .quadrant q
  | .wakeWalkStep q => .quadrant q
  | .pllStop q => .quadrant q
  | .tileGate t => .tile t
  | .idleTestSlice t _ => .anyTile t
  | .tileRetirementApply => .module
  | .mboxWriteSlot _ => .module
  | .mboxVerifySlot => .module
  | .mboxSetPreferred => .module
  | .mboxCommit => .module
  | .mboxReadRecord _ => .module
  | .mboxCommandComplete => .module
  | .getVersion => .module
  | .getCapabilities => .module
  | .negotiateAlgorithms => .module
  | .getDigests => .module
  | .getCertificate _ _ _ => .module
  | .challenge _ _ => .module
  | .getMeasurements _ => .module
  | .entdaa _ => .module
  | .setdasa _ _ => .module
  | .evtEnable _ => .module
  | .evtHeadWrite _ => .module
  | .eventModerationTimeout => .module
  | .msixUnmask _ => .module
  | .ringEnable r _ => .ring r
  | .ringEngineEnable => .module
  | .gathererEnable _ => .module
  | .tileEnable _ _ => .module
  | .deviceEnable _ => .module
  | .harvestEngineEnable => .module
  | .barSplitLowWrite off _ => .offset off
  | .registerWrite off _ _ _ => .offset off
  | .retrainingSuccess p c => .channel p c
  | .pcsFecLock p => .port p
  | .descriptorReadError r => .ring r
  | .linkControlSend p => .port p

end Sys2Proof
end

