-- ==== Sys2Proof/Safety.lean ====
section
/-! DEFINITION. What claims call a sound state, when a command completes, and what it leaves as it was. -/

namespace Sys2Proof.Machine

set_option Elab.async false

/-- A memory in canonical form: addresses strictly rising, and no byte listed that equals what an unlisted one reads as. -/
abbrev Memory.wf (m : Memory) : Prop := memWf m.mem

end Sys2Proof.Machine

namespace Sys2Proof.Safety

open Sys2Proof.Machine

/-- The memory's invariant: its list is in canonical form. -/
def MemInv (s : State) : Prop := s.memory.wf

/-- A command answers a next state of which something holds. -/
def Answers (c : Instr) (s : State) (p : State → Prop) : Prop := ∃ u, exec c s = .next u ∧ p u

/-- Every byte of memory outside the bytes stored reads as before. -/
def MemKept (s u : State) (stored : Nat → Prop) : Prop := ∀ a, ¬ stored a → byteAt u.memory.mem a = byteAt s.memory.mem a

/-- Every register outside a list keeps what is stored for it. -/
def RegsKept (s u : State) (written : List Reg) : Prop := ∀ o, o ∉ written.map Reg.offset → sfind u.regs o = sfind s.regs o

/-- Every tile but one is as before. -/
def TilesKept (s u : State) (t : Nat) : Prop := ∀ j, j ≠ t → u.tile j = s.tile j

/-- The bytes of a tile's bin outside some lines read as before. -/
def BinKept (s u : State) (t : Nat) (lines : List Nat) : Prop :=
  ∀ x, (∀ l ∈ lines, ¬ (l ≤ x ∧ x < l + 64)) → byteAt (u.tile t).bin x = byteAt (s.tile t).bin x

/-- A tile's sequencer presents an instruction that may issue: no GET has yet to write one of its lines, no earlier instruction that
has not issued has yet to touch one, and no PUT has yet to read one that it writes. -/
def Issues (s : State) (t : Nat) (i : Instr) (c : Ctx) (rd wr : List Nat) : Prop :=
  present s t i = some c ∧ s.behindGet t c.earlier (rd ++ wr) = false ∧ c.free i rd wr s = true ∧ s.putPending t wr = false

/-- On the instruction's tile its pass has a sequencer state, and every other pass has the one it had. -/
def PassIs (c : Ctx) (s u : State) (q : SeqState) : Prop :=
  u.seq? c.t c.q.pass = some q ∧ ∀ r, r ≠ c.q.pass → u.seq? c.t r = s.seq? c.t r

/-- The instruction's pass has the sequencer state that issuing it leaves, changed by f. -/
def PassAt (c : Ctx) (i : Instr) (s u : State) (f : SeqState → SeqState := id) : Prop := PassIs c s u (f (c.step i c.q))

/-- What the pass of an instruction of the fetch has while it holds there. -/
def heldAs (c : Ctx) (h : Hold) : SeqState := { c.q with hold := some h }

/-- The bytes of a layer's entry in a watch table, in the pass's bank and in bank 0. -/
def LayerBytes (w : Watch) (l : Nat) (a : Nat) : Prop :=
  (w.entry l ≤ a ∧ a < w.entry l + 0x400) ∨ (w.shared l ≤ a ∧ a < w.shared l + 0x400)

/-- The registers in which a tile's conversions are counted and the watch is flagged. -/
def countRegs (t : Nat) : List Reg :=
  [⟨.numTileCntOvf, t, 0⟩, ⟨.numTileCntUdf, t, 0⟩, ⟨.numTileCntNonf, t, 0⟩, ⟨.numStatus, 0, 0⟩]

/-- An accumulator element after the cycles of a sweep, each adding its exact sum of products with one rounding. -/
def sweptElem (tl : Tile) (bank r col : Nat) (cycles : List (List OpStep)) : Word :=
  cycles.foldl (fun a xs => accumulate a (xs.map (cellProduct r col))) (tl.accAt bank r col)

/-- What an instruction that converts or computes elements leaves as it was: it may change one tile, the counts and flags of
the watch, for a role of R63 the layer's entry in memory alone, the pass's loss count and the attempt's record of the gauges and
samples. -/
def CountFrame (c : Ctx) (sc : Scaling) (s u : State) : Prop :=
  TilesKept s u c.t ∧ RegsKept s u (countRegs c.t) ∧ (sc.role ≤ 4 → MemKept s u (LayerBytes c.w sc.layer)) ∧
  u = { s with tiles := u.tiles, regs := u.regs, memory := { s.memory with mem := u.memory.mem },
               steps := { s.steps with attempts := u.steps.attempts }, passes := u.passes }

/-- The words of an FP32 destination: one number for each stored element. -/
def wordRows (sh : Shape) (g : Nat → Nat → Elem) : List (List Nat) := buildRows sh (fun r k => (g r k).w.toNat)

/-- A vector instruction has written its FP32 destination and nothing else of the tile's data: the words are g's by row and
column, and every bin byte outside the destination's lines, the banks and the tallies are as before. -/
def Wrote (c : Ctx) (i : Instr) (d : VOp) (g : Nat → Nat → Elem) (wr : List Nat) (s u : State) : Prop :=
  (∀ p, vplace c d true 7 = some p → (u.tile c.t).bin = p.putRows (s.tile c.t).bin d.shape (wordRows d.shape g)) ∧
  BinKept s u c.t wr ∧ (u.tile c.t).acc = (s.tile c.t).acc ∧ (u.tile c.t).tallies = (s.tile c.t).tallies ∧
  PassAt c i s u ∧ CountFrame c (scaling s c.w c.p.img 31) s u

/-- A two-source vector instruction computes its elements by g from its broadcast sources. -/
def TwoSource (i : Instr) (t : Nat) (f : V2F) (g : Word → Word → Elem) : Prop :=
  ∀ (s : State) (c : Ctx) (rd wr : List Nat), Issues s t i c rd wr →
    v2Touch f c s = some (rd, wr) →
    Answers i s (Wrote c i f.d (fun r k => g ((readSource c s f.a 7).at r k) ((readSource c s f.b 7).at r k)) wr s)

/-- A three-source vector instruction computes its elements by g from its broadcast sources. -/
def ThreeSource (i : Instr) (t : Nat) (f : V3F) (g : Word → Word → Word → Elem) : Prop :=
  ∀ (s : State) (c : Ctx) (rd wr : List Nat), Issues s t i c rd wr →
    v3Touch f c s = some (rd, wr) →
    Answers i s (Wrote c i f.d (fun r k =>
      g ((readSource c s f.a 7).at r k) ((readSource c s f.b 7).at r k) ((readSource c s f.c 7).at r k)) wr s)

/-- A completion of a descriptor of which something holds has been posted: it stands in the companion ring's wait list or has
been written to the ring. -/
def PostedAs (i : Inflight) (s u : State) (q : Completion → Prop) : Prop :=
  ∃ e : Completion, q e ∧ e.tag = i.tag ∧ e.ring = i.ring ∧ e.slot = i.slot ∧ e.opcode = i.opcode ∧
    ((∃ pos ws, Emit.completion (s.ring i.ring).companion pos e ws ∈ u.emitted) ∨ e ∈ (u.ring (s.ring i.ring).companion).waiting)

/-- A completion carries a status; one with OK whose deadline has passed carries DEADLINE_MISS. -/
def Carries (st : Status) (e : Completion) : Prop := e.status = st ∨ (st = .ok ∧ e.status = .deadlineMiss)

/-- A completion of a descriptor with a status has been posted. -/
def Posted (i : Inflight) (st : Status) (s u : State) : Prop := PostedAs i s u (Carries st)

/-- An accepted descriptor has completed with a status: it is accepted no longer, and its completion is posted. -/
def Completes (d : Nat) (st : Status) (s u : State) : Prop :=
  (∀ j ∈ u.host.inflight, j.id ≠ d) ∧ ∀ i, s.inflight? d = some i → Posted i st s u

/-- A pass has been abandoned with a status on a tile: no tile of its set keeps it, nothing of it is on the mesh, no wire is
its, of its reads only those requested remain, their data to be discarded, and it either waits for its tags with that status
or has gone. -/
def Abandoned (p : Pass) (st : Status) (t : Nat) (u : State) : Prop :=
  (∀ k ∈ p.tiles, u.seq? k p.seq = none) ∧ (∀ m ∈ u.gath.mesh, m.pass ≠ p.seq) ∧
  (∀ w ∈ u.sync.wires, w.2.owner ≠ p.seq) ∧
  (∀ x ∈ u.gath.xfers, x.pass = p.seq → x.write = false → x.st = .requested ∧ x.discard = true) ∧
  (u.pass? p.seq = none ∨ ∃ p', u.pass? p.seq = some p' ∧ p'.ending = some (st, t))

/-- The transfers that a move has added to the gatherers' list, issued or ahead of its issue. -/
def NewMoves (c : Ctx) (f : MoveF) (m : MoveAt) (write issued : Bool) (new : List Xfer) : Prop :=
  ∀ x ∈ new, x.tile = c.t ∧ x.pass = c.p.seq ∧ x.stream = f.stream ∧ x.gath = m.x.gatherer ∧ x.node = m.x.node ∧
    x.prio = m.x.prio ∧ x.write = write ∧ x.issued = issued ∧ x.st = .waiting ∧ x.reserve = none ∧
    (m.x.compress = false → x.lines = x.bins.length ∧ (x.mpa + 64 * (x.lines - 1)) / 256 = x.mpa / 256)

/-- The lines of transfers, each its memory address and its bin line, in order. -/
def linesCovered (xs : List Xfer) : List (Nat × Nat) := xs.flatMap (fun x => x.bins.zipIdx.map (fun b => (x.mpa + 64 * b.2, b.1)))

/-- A ring can give its head descriptor to the command of an opcode. -/
def AtHead (op : Nat) (d : HostDesc) (s : State) : Prop :=
  s.mayTake d.ring (descSlots d) = true ∧ (∀ e, (s.ring d.ring).held = some e → e = d) ∧ descOp d = op

/-- The ring's head has moved past a descriptor and its payload. -/
def HeadPast (d : HostDesc) (s u : State) : Prop :=
  (u.ring d.ring).head = ((s.ring d.ring).head + (descSlots d + 1)) % (s.ring d.ring).span ∧ u.host.nextId = s.host.nextId + 1

/-- Only the host interface, its registers, the events and the module's output may differ. -/
def HostOnly (s u : State) : Prop := u = { s with host := u.host, regs := u.regs, evt := u.evt, emitted := u.emitted }

/-- What becomes of a descriptor that its command does not accept: one that breaks its layout completes with MALFORMED, one that
its judge fails with that status, one refused with NOT_ADMITTED and the reason, and one held, or behind a DATA_IN whose bytes are
not yet visible, stays at the ring's head. -/
def Turned (c : Instr) (op : Nat) (d : HostDesc) (judge : State → Answer) : Prop :=
  ∀ s, AtHead op d s →
    (layoutOk d = false → Answers c s (fun u => HeadPast d s u ∧ Posted (s.entryOf d) .malformed s u ∧ HostOnly s u)) ∧
    (layoutOk d = true →
      (∀ st, judge s = .fail st → Answers c s (fun u => HeadPast d s u ∧ Posted (s.entryOf d) st s u ∧ HostOnly s u)) ∧
      (∀ k, judge s = .refuse k → Answers c s (fun u => HeadPast d s u ∧
        PostedAs (s.entryOf d) s u (fun e => e.status = .notAdmitted ∧ e.reason = k) ∧ HostOnly s u)) ∧
      (judge s = .hold ∨ (judge s = .accept ∧ s.dataUnseen d = true) → Answers c s (fun u => u = s.setRing d.ring { s.ring d.ring with held := some d })))

/-- Everything that names an accepted descriptor names a number that has been given, and a DISABLE names an object that
exists. -/
def HostInv (s : State) : Prop :=
  (∀ i ∈ s.host.inflight, i.id < s.host.nextId ∧ ∀ op, i.work = .disable op → disableNames op = true) ∧
  (∀ p ∈ s.passes, p.desc < s.host.nextId) ∧ (∀ h, s.hrv.op = some h → h.desc < s.host.nextId) ∧
  (∀ r, s.hrv.restore = some r → r.desc < s.host.nextId) ∧ (s.hrv.recovery = .sending → s.hrv.recDesc < s.host.nextId) ∧
  (∀ c, s.fab.claim = some c → c.desc < s.host.nextId) ∧ (∀ x ∈ s.sync.signals, ∀ d, x.desc = some d → d < s.host.nextId) ∧
  (∀ o ∈ s.fab.out, ∀ d a, o.purpose = .logCopy (some d) a → d < s.host.nextId)

/-- A descriptor at the head of its ring that its command accepts. -/
def Accepted (op : Nat) (d : HostDesc) (judge : State → Answer) (s : State) : Prop :=
  AtHead op d s ∧ layoutOk d = true ∧ judge s = .accept ∧ s.dataUnseen d = false ∧ HostInv s

/-- The module once it has taken a descriptor off its ring: what an accepted one acts on. -/
def taken (d : HostDesc) (s : State) : State := takeSlots d.ring (descSlots d + 1) (noteTurn d.ring s)

/-- The opcodes whose descriptors HELD_DESCRIPTOR_RELEASE consumes, each with what the module answers to a descriptor. -/
def releaseRows (d : HostDesc) : List (Nat × (State → Answer)) :=
  [(0x01, judgeLoad d), (0x02, judgePass d), (0x03, if isLogReplay d then judgeReplay d else judgeData d), (0x04, judgeOut d),
   (0x05, judgeOpen d), (0x06, judgeClose d), (0x07, if harvestDest d = 3 then judgeRecovery d else judgeHarvest d),
   (0x09, judgeClaim d), (0x0A, judgeBare d), (0x0B, judgeBare d), (0x0C, judgeSignal d), (0x0D, judgeBare d),
   (0x0E, judgeDisable d)]

/-- An accepted descriptor waits for some work. -/
def WaitsFor (s u : State) (w : Work) : Prop := ∃ j ∈ u.host.inflight, j.id = s.host.nextId ∧ j.work = w

/-- No window, harvest, twin update, failed pseudo-channel or device error takes part in writes, and no assembly buffer is in
use. -/
def PlainMemory (s : State) : Prop :=
  (∀ a, s.windowAt a = none) ∧ (∀ a, s.onFailedPc a = false) ∧ s.hrv.op = none ∧ s.mirrorOn = false ∧ s.memory.asm = [] ∧
  s.memory.errs = []

/-- Bytes have been stored at an address. -/
def Stored (u : State) (a : Nat) (b : List Byte) : Prop := bytesAt u.memory.mem a b.length = b

/-- A write of the host that the module takes: the main domain runs, the link is up and no module fault holds. -/
abbrev HostWrite (s : State) : Prop := s.hostWrites = true ∧ s.stw.fault = none

/-- Every memory device but one is as before. -/
def DevsKept (s u : State) (p : Nat) : Prop := ∀ j, j ≠ p → u.dev j = s.dev j

/-- Only the memories' records, registers and events may differ: raising an event touches registers, the event unit, MSI-X and
the module's output. -/
def DevFrame (s u : State) : Prop :=
  u = { s with memory := { s.memory with dev := u.memory.dev }, regs := u.regs, evt := u.evt, emitted := u.emitted,
               host := { s.host with msix := u.host.msix, msixHeld := u.host.msixHeld } }

/-- A counter has grown by one at its width. -/
def Counted (s u : State) (n : RegName) (i : Nat := 0) (j : Nat := 0) : Prop :=
  u.rg n i j = (s.rg n i j + 1) % 256 ^ n.row.bytes

/-- The level that a stack's reading leads to from a level: up at 85, 95 and 105, down again at 92 and 82; the critical level
stays. -/
def levelAfter (l : Level) (celsius : Nat) : Level :=
  match l with
  | .critical => .critical
  | .normal => if 105 ≤ celsius then .critical else if 95 ≤ celsius then .hot else if 85 ≤ celsius then .warm else .normal
  | .warm => if 105 ≤ celsius then .critical else if 95 ≤ celsius then .hot else if celsius ≤ 82 then .normal else .warm
  | .hot => if 105 ≤ celsius then .critical else if celsius ≤ 82 then .normal else if celsius ≤ 92 then .warm else .hot

/-- The lines of a list of granules of a stack. -/
def granuleLines (k : Nat) (gs : List Nat) : List Nat :=
  gs.flatMap (fun g => (List.range 4).map (fun l => k * 0x800000000 + g * 256 + l * 64))

/-- Every port but one is as before. -/
def PortsKept (s u : State) (p : Nat) : Prop := ∀ j, j ≠ p → u.port j = s.port j

/-- Only the ports, registers and events may differ. -/
def PortFrame (s u : State) : Prop :=
  u = { s with fab := { s.fab with ports := u.fab.ports }, regs := u.regs, evt := u.evt, emitted := u.emitted,
               host := { s.host with msix := u.host.msix, msixHeld := u.host.msixHeld } }

/-- No DISABLE is in progress. -/
abbrev NoDisable (s : State) : Prop := ∀ i ∈ s.host.inflight, i.work.disables = false

/-- A port that was up has been declared down for a cause: it keeps its buffers, and the event is raised. -/
def WentDown (p cause : Nat) (s u : State) : Prop :=
  u.port p = { s.port p with st := .downHeld, locked := false, hello := false, downAt := s.cyc, retryAt := s.cyc,
                             cause := cause } ∧
  Counted s u .fabPortRetrains p ∧ Counted s u .evtRaised ∧ PortsKept s u p ∧ PortFrame s u

/-- A packet of a type for another node waits on some port. -/
def Queued (u : State) (node xid type : Nat) : Prop :=
  ∃ q, ∃ o ∈ (u.port q).txq, o.node = node ∧ o.xid = xid ∧ o.type = type

/-- A packet of a type stands whole at the head of its lane, neither it nor the module's record of its source is older than the
other, and v is the state once it has been taken off its lane. -/
def Received (s : State) (port type : Nat) (p : Packet) (v : State) : Prop :=
  ∃ n, s.headPacket port type = some (n, p) ∧ (isNode p.src && newer (s.incOf p.src) p.inc) = false ∧
    v = takePacket port n p s ∧ (isNode p.src && newer p.inc (v.incOf p.src)) = false ∧ v.alive = true

/-- A packet has been dropped as late: it is counted, and nothing but the port, registers and events changes. -/
def Late (port : Nat) (v u : State) : Prop :=
  u.rg .fabPortLate port = min (v.rg .fabPortLate port + 1) (256 ^ RegName.fabPortLate.row.bytes - 1) ∧
  PortsKept v u port ∧ PortFrame v u

/-- The commands that receive packets from a lane, with the packet type that each serves; read requests stand in request entries of
their own. -/
def packetRows : List ((Nat → Instr) × Nat) :=
  [(.write, 0x01), (.readResp, 0x03), (.writeAck, 0x04), (.signal, 0x05), (.bareSignal, 0x06), (.coll, 0x10),
   (.sealReport, 0x11), (.mirror, 0x20), (.recovery, 0x21), (.cancelNotice, 0x30), (.cancelAck, 0x31), (.holdoff, 0x32),
   (.abandon, 0x34), (.nakPkt, 0x35), (.claim, 0x38), (.claimRefuse, 0x39)]

/-- A packet whose fields fit the places that the header and the trailer give them. -/
def Fits (p : Packet) : Prop :=
  p.type < 2 ^ 8 ∧ p.flags < 2 ^ 8 ∧ p.dst < 2 ^ 16 ∧ p.src < 2 ^ 16 ∧ p.xid < 2 ^ 32 ∧ p.idx < 2 ^ 16 ∧ p.hop < 2 ^ 8 ∧
  p.inc < 2 ^ 8 ∧ p.addr < 2 ^ 48 ∧ p.spec.length = 10 ∧ p.payload.length ≤ 4096 ∧ p.tally < 2 ^ 16 ∧ p.sigInc < 2 ^ 16

/-- The STEP_CLOSE descriptors of a step have completed with a status. -/
def Closed (step : Nat) (st : Status) (s u : State) : Prop :=
  ∀ d i, s.inflight? d = some i → i.work = .stepClose step → Completes d st s u

/-- An attempt has been sealed: its step's version is current in the other area, the attempt is open no longer, its STEP_CLOSE
completes with OK, and the sealed step and its multiply-accumulates stand in their registers. -/
def Sealed (a : Attempt) (s u : State) : Prop :=
  u.steps.version = (a.step + 1) % 2 ^ 40 ∧ u.steps.curArea = 1 - s.steps.curArea ∧
  (∀ b ∈ u.steps.attempts, b.step ≠ a.step) ∧ Closed a.step .ok s u ∧
  (PlainMemory s → NoDisable s →
    u.rg .stpLastSealed = (a.step + 2 ^ 40) % 256 ^ RegName.stpLastSealed.row.bytes ∧
    u.rg .stpSealedMac4 = (s.rg .stpSealedMac4 + a.mac4) % 256 ^ RegName.stpSealedMac4.row.bytes ∧
    u.rg .stpSealedMac8 = (s.rg .stpSealedMac8 + a.mac8) % 256 ^ RegName.stpSealedMac8.row.bytes ∧
    u.rg .stpSealedMac16 = (s.rg .stpSealedMac16 + a.mac16) % 256 ^ RegName.stpSealedMac16.row.bytes)

/-- An attempt has been refused: the version stays, the attempt and every later open one are rolled back, its STEP_CLOSE
completes with SEAL_REFUSED, and the refusal is counted. -/
def Refused (a : Attempt) (s u : State) : Prop :=
  u.steps.version = s.steps.version ∧ u.steps.curArea = s.steps.curArea ∧ (∀ b ∈ u.steps.attempts, b.step ≠ a.step) ∧
  (∀ c ∈ s.openAttempts, a.step < c.step → ∀ b ∈ u.steps.attempts, b.step ≠ c.step) ∧ Closed a.step .sealRefused s u ∧
  (PlainMemory s → NoDisable s → s.passes = [] →
    u.rgBits .stpAttempts 32 32 = (s.rgBits .stpAttempts 32 32 + 1) % 2 ^ 32)

/-- A verdict has come for an attempt: with every tithe sample tested it seals or refuses the attempt, and otherwise it waits with
the attempt for the last one. -/
def Decided (a : Attempt) (pass : Bool) (s u : State) : Prop :=
  (a.samples = [] → if pass then Sealed a s u else Refused a s u) ∧
  (a.samples ≠ [] → (∃ w : Verdict, w.pass = pass ∧ { a with verdict := some w } ∈ u.steps.attempts) ∧
    u.steps.version = s.steps.version ∧ u.memory = s.memory)

/-- A data packet's acknowledgement has been queued, or waits for what holds it. -/
def Acked (p : Packet) (u : State) : Prop :=
  Queued u p.src p.xid 0x04 ∨ ∃ a ∈ u.fab.acks, a.node = p.src ∧ a.xid = p.xid ∧ a.idx = p.idx

/-- A data packet has been written at an address and acknowledged. -/
def Landed (p : Packet) (a : Nat) (w u : State) : Prop :=
  Queued u p.src p.xid 0x04 ∧
  (p.mask = 0 → Stored u a p.payload ∧ MemKept w u (fun x => a ≤ x ∧ x < a + p.payload.length))

/-- HST_BAR_ERR has recorded an ignored access: its flag is set, the other flags are as before, and the offset field holds the
access's offset where no flag was set, and what it held otherwise. -/
def Recorded (flag off : Nat) (s u : State) : Prop :=
  u.rgBit .hstBarErr flag = true ∧ (∀ f, 32 ≤ f → f ≤ 36 → f ≠ flag → u.rgBit .hstBarErr f = s.rgBit .hstBarErr f) ∧
  (s.rgBits .hstBarErr 32 5 = 0 → u.rgBits .hstBarErr 0 26 = off) ∧
  (s.rgBits .hstBarErr 32 5 ≠ 0 → u.rgBits .hstBarErr 0 26 = s.rgBits .hstBarErr 0 26)

/-- An ignored access has been recorded, and nothing but HST_BAR_ERR has changed. -/
def OnlyRecorded (flag off : Nat) (s u : State) : Prop :=
  Recorded flag off s u ∧ RegsKept s u [⟨.hstBarErr, 0, 0⟩] ∧ u = { s with regs := u.regs }

/-- The registers a write of which does something of its own; a write of any other register stores its fields. -/
def ownBehaviour : List RegName :=
  [.memTrainCtl, .memStkCtl, .memRangeCfg, .memXpwRowbase, .memXpwColbase, .memXpwGeom, .memXpwPitch, .memXpwStatus, .memXpwCtl,
   .memDevEn, .gthEnable, .tilMtalCfg, .tilMtalCount, .tilEnable, .fabCollBase, .fabCollCtl, .fabNodeId, .fabPortEn, .fabPortCtl,
   .fabRoute, .stpJobCtl, .stpCtl, .stpVerdict, .stpFenceCtl, .stpMirrorCfg, .hrvCtl, .hrvEnable, .hstCtl, .stwMboxCmd, .evtBase,
   .evtCtl, .evtHead]

/-- A register of 64 bits stands at an offset of BAR0, and its high half four bytes above. -/
def Wide (r : Reg) (off : Nat) : Prop :=
  r.offset = off ∧ r.name.row.bytes = 8 ∧ off % 8 = 0 ∧ off + 8 ≤ barSize ∧ regAt off = some r ∧ regAt (off + 4) = some r ∧
  areaAt off = none ∧ areaAt (off + 4) = none

end Sys2Proof.Safety
end

