-- ==== Sys2Proof/Certificates/Slice0/Obligations.lean ====
section
/-! DEFINITION. The statements about the model, each from the rules of the manual that it cites. -/

open Sys2Proof Sys2Proof.Machine Sys2Proof.Safety

/-- A step runs the command at the front of the queue on the state with the queue's rest. For every command c, queue rest cs
and state s whose queue is c followed by cs, step s is exec of c on s with the queue cs, whatever the outcome. The queue is
the model's own (log entry 1). (00_scope.md; log entry 1; log entry 2) -/
def Obligations.StepRunsFrontCommand : Prop :=
  ∀ (c : Instr) (cs : List Instr) (s : State), s.pending = c :: cs → step s = exec c (s.withPending cs)

/-- OPX adds A times B into its target bank in ascending step order and changes no other bank. When a tile presents an OPX
whose operands lie in their halves and are not awaited, the command completes: every element of the target bank is the old one
with each operand step's product added in ascending order, one rounding a cycle, two FP4 steps to a cycle; every other bank's
elements and the bin are as before; the pass moves past the instruction; no other tile, no memory byte and no register
changes; the step's multiply-accumulate counts grow by 1,024 K when the pass is tagged. (02_outer_product_array.md R19;
02_outer_product_array.md R26; 02_outer_product_array.md R31) -/
def Obligations.OpxAddsEveryProduct : Prop :=
  ∀ (s : State) (t : Nat) (f : OpxF) (c : Ctx) (a b : Side) (rd : List Nat),
    Issues s t (.opx t f) c rd [] → opxSides f c = some (a, b) → opxTouch f c s = some (rd, []) →
    Answers (.opx t f) s (fun u =>
      (∀ r col, r < 16 → col < 64 → (u.tile t).accAt f.bank r col =
        sweptElem (s.tile t) f.bank r col
          (if rateClass [a.pl.fmt, b.pl.fmt] = 0 then pieces 2 (plainSteps a b (s.tile t).bin f.k)
           else (plainSteps a b (s.tile t).bin f.k).map (fun x => [x]))) ∧
      (∀ bank r col, bank ≠ f.bank → r < 16 → col < 64 → (u.tile t).accAt bank r col = (s.tile t).accAt bank r col) ∧
      u.tile t = { s.tile t with acc := (u.tile t).acc, opBits := (u.tile t).opBits, seqs := (u.tile t).seqs,
                                 brow := (latchRow (s.tile t) (b.codes (s.tile t).bin (f.k - 1))).brow, clocked := true } ∧
      PassAt c (.opx t f) s u (fun q => { q with parts := (f.bank :: q.parts).dedup }) ∧
      TilesKept s u t ∧
      u = { s with tiles := u.tiles, steps := (countMacs c.p (rateClass [a.pl.fmt, b.pl.fmt]) (1024 * f.k) s).steps })

/-- ALT adds dY times W into the dX bank and X times dY into the dW bank, and loads the other chunk half. When a tile presents
an ALT with its banks apart and its operands in their halves and not awaited, the command completes: each dX element is the
old one with the 64 products of the chunk's columns and the weight rows added in ascending order, each dW element the old one
with the 16 products of the X columns and the chunk's rows, the chunk is in the half that the previous ALT did not use, the
other half and the other banks keep their contents, and nothing outside the tile changes but the step's multiply-accumulate
counts. (02_outer_product_array.md R35; 02_outer_product_array.md R37) -/
def Obligations.AltFeedsBothGradients : Prop :=
  ∀ (s : State) (t : Nat) (f : AltF) (c : Ctx) (dy w x : Side) (rd : List Nat),
    Issues s t (.alt t f) c rd [] → altSides f c = some (dy, w, x) → altTouch f c s = some (rd, []) →
    f.dxBank ≠ f.dwBank →
    let bin := (s.tile t).bin
    let chunk : Nat → List FVal := fun m => (dy.codes bin m).map (decodeElem dy.pl.fmt)
    Answers (.alt t f) s (fun u =>
      (∀ r col, r < 16 → col < 64 → (u.tile t).accAt f.dxBank r col =
        sweptElem (s.tile t) f.dxBank r col ((List.range 64).map (fun n =>
          [((List.range 16).map (fun m => ((chunk m)[n]?).getD .nan), (w.codes bin n).map (decodeElem w.pl.fmt))]))) ∧
      (∀ r col, r < 16 → col < 64 → (u.tile t).accAt f.dwBank r col =
        sweptElem (s.tile t) f.dwBank r col ((List.range 16).map (fun m =>
          [((x.codes bin m).map (decodeElem x.pl.fmt), chunk m)]))) ∧
      (∀ bank r col, bank ≠ f.dxBank → bank ≠ f.dwBank → r < 16 → col < 64 →
        (u.tile t).accAt bank r col = (s.tile t).accAt bank r col) ∧
      (u.tile t).chunkSel = !(s.tile t).chunkSel ∧
      (if (s.tile t).chunkSel then (u.tile t).chunk1 = (s.tile t).chunk1 else (u.tile t).chunk0 = (s.tile t).chunk0) ∧
      (if (s.tile t).chunkSel then (u.tile t).chunk0 else (u.tile t).chunk1) =
        ((List.range 16).map (dy.codes bin)).flatten.map (BitVec.ofNat 16) ∧
      (u.tile t).bin = bin ∧ (u.tile t).tallies = (s.tile t).tallies ∧
      PassAt c (.alt t f) s u (fun q => { q with parts := (f.dxBank :: (f.dwBank :: q.parts).dedup).dedup }) ∧
      TilesKept s u t ∧
      u = { s with tiles := u.tiles,
                   steps := (countMacs c.p (rateClass [dy.pl.fmt, w.pl.fmt, x.pl.fmt]) (1024 * 80) s).steps })

/-- SHX adds, at tap t, the A column times register position c + t s of each loaded row. When a tile presents an SHX whose
operands lie in their halves and are not awaited, the command completes: each element of the target bank is the old one with
the products of the rows' taps added in ascending order, tap t of a row taking register position c + t times the stride for
column c, two FP4 taps of one row to a cycle; the other banks and the bin are as before; the register holds the last row;
nothing outside the tile changes but the step's multiply-accumulate counts. (02_outer_product_array.md R26;
02_outer_product_array.md R38; 02_outer_product_array.md R39) -/
def Obligations.ShxSlidesTheRow : Prop :=
  ∀ (s : State) (t : Nat) (f : ShxF) (c : Ctx) (a b : Side) (rd : List Nat),
    Issues s t (.shx t f) c rd [] → shxSides f c = some (a, b) → shxTouch f c s = some (rd, []) →
    Answers (.shx t f) s (fun u =>
      (∀ r col, r < 16 → col < 64 → (u.tile t).accAt f.bank r col =
        sweptElem (s.tile t) f.bank r col ((List.range f.rows).flatMap (fun i =>
          if rateClass [a.pl.fmt, b.pl.fmt] = 0 then pieces 2 (shxRow f a b (s.tile t).bin i)
          else (shxRow f a b (s.tile t).bin i).map (fun x => [x])))) ∧
      (∀ bank r col, bank ≠ f.bank → r < 16 → col < 64 → (u.tile t).accAt bank r col = (s.tile t).accAt bank r col) ∧
      u.tile t = { s.tile t with acc := (u.tile t).acc, opBits := (u.tile t).opBits, seqs := (u.tile t).seqs,
                                 brow := (latchRow (s.tile t) (b.codes (s.tile t).bin (f.rows - 1))).brow, clocked := true } ∧
      PassAt c (.shx t f) s u (fun q => { q with parts := (f.bank :: q.parts).dedup }) ∧
      TilesKept s u t ∧
      u = { s with tiles := u.tiles,
                   steps := (countMacs c.p (rateClass [a.pl.fmt, b.pl.fmt]) (1024 * (f.rows * f.taps)) s).steps })

/-- ACLR sets every element of its bank to +0.0 and changes no other bank. When a tile presents an ACLR of bank b below 4 with
no operand to wait for, the command completes: every element of bank b is +0.0, the other banks and the bin are as before, the
bank holds no partial block, the pass moves past the instruction, and nothing outside the tile changes.
(02_outer_product_array.md R28) -/
def Obligations.AclrClearsOneBank : Prop :=
  ∀ (s : State) (t bank : Nat) (c : Ctx), Issues s t (.aclr t bank) c [] [] → bank < 4 →
    Answers (.aclr t bank) s (fun u =>
      (∀ r col, r < 16 → col < 64 → (u.tile t).accAt bank r col = 0) ∧
      (∀ b r col, b ≠ bank → b < 4 → r < 16 → col < 64 → (u.tile t).accAt b r col = (s.tile t).accAt b r col) ∧
      u.tile t = { s.tile t with acc := (u.tile t).acc, opBits := (u.tile t).opBits, seqs := (u.tile t).seqs,
                                 clocked := true } ∧
      PassAt c (.aclr t bank) s u (fun q => { q with parts := q.parts.filter (· ≠ bank) }) ∧
      TilesKept s u t ∧ u = { s with tiles := u.tiles })

/-- DRN writes the bank's 16 rows, scaled and converted, to its destination and leaves the bank unchanged. When a tile
presents a DRN whose destination lies in its half and which nothing keeps back, the command completes: the bin holds the bank's
rows converted to the destination's format under the instruction's scaling, with their block scales; the bin outside the
destination's lines and every bank keep their contents; the bank holds no partial block; the conversion counters take the
rows' outcomes. Without the tithe's wide form no register but the tile's counters and NUM_STATUS, only the bytes of the layer's
watch entry in memory (for a role that a gauge can have) and no further part of the module may change; with it, memory is then
what the tithe's copy of the block (titheWide) makes of that. (02_outer_product_array.md R33; 03_number_formats.md R50;
04_scaling_and_watch.md R62; 04_scaling_and_watch.md R66; 04_scaling_and_watch.md R77; 04_scaling_and_watch.md R79;
04_scaling_and_watch.md R80) -/
def Obligations.DrnWritesConvertedRows : Prop :=
  ∀ (s : State) (t : Nat) (f : DrnF) (c : Ctx) (p : Place) (wr : List Nat),
    Issues s t (.drn t f) c [] wr → operand c f.dst true = some p → drnTouch f c s = some ([], wr) →
    let sc := scaling s c.w c.p.img f.gref
    let rows := drnRows f c p.fmt sc s
    Answers (.drn t f) s (fun u =>
      (u.tile t).bin = p.putConverted (s.tile t).bin .tile rows ∧
      BinKept s u t wr ∧
      (u.tile t).acc = (s.tile t).acc ∧ (u.tile t).tallies = (s.tile t).tallies ∧
      PassAt c (.drn t f) s u (fun q => { q with parts := q.parts.filter (· ≠ f.bank) }) ∧
      TilesKept s u t ∧
      (f.wide = false ∨ c.p.img.gauges[f.gref]? = none → CountFrame c sc s u) ∧
      (∀ g, f.wide = true → c.p.img.gauges[f.gref]? = some g →
        ∃ m, CountFrame c sc s m ∧ (m.tile t).acc = (s.tile t).acc ∧ u.memory = (titheWide c g f sc m).memory))

/-- VADD, VMUL, VMIN, VMAX and VCMP write the operation's result for every element after broadcast. When a tile presents a
VADD, VMUL, VMIN, VMAX or VCMP whose operands lie in their halves and are not awaited, the command completes: each destination
element is the sum, the product, the smaller, the larger or the mask (1.0 where the predicate holds, +0 where it does not) of
the broadcast source elements; every other bin byte, the banks and the tallies are as before, the pass moves past the
instruction, and outside the tile only the watch's counts change. (03_number_formats.md R49; 03_number_formats.md R54;
03_number_formats.md R58; 05_vector_engine.md R94; 05_vector_engine.md R98; 05_vector_engine.md R99) -/
def Obligations.VectorSumsProductsAndMasks : Prop :=
  (∀ (t : Nat) (f : V2F), TwoSource (.vadd t f) t f (fun a b => ⟨(add32 a b).1, (add32 a b).2, (val32 a).add (val32 b)⟩)) ∧
  (∀ (t : Nat) (f : V2F), TwoSource (.vmul t f) t f (fun a b => ⟨(mul32 a b).1, (mul32 a b).2, (val32 a).mul (val32 b)⟩)) ∧
  (∀ (t : Nat) (f : V2F), TwoSource (.vmin t f) t f (fun a b =>
    ⟨(minmax32 false a b).1, (minmax32 false a b).2, val32 (minmax32 false a b).1⟩)) ∧
  (∀ (t : Nat) (f : V2F), TwoSource (.vmax t f) t f (fun a b =>
    ⟨(minmax32 true a b).1, (minmax32 true a b).2, val32 (minmax32 true a b).1⟩)) ∧
  (∀ (t : Nat) (f : VcmpF), TwoSource (.vcmp t f) t f.ops (fun a b =>
    let w : Word := if predHolds f.pred (val32 a) (val32 b) then 0x3F800000#32 else 0
    ⟨w, .none, val32 w⟩))

/-- VFMA writes a times b plus c rounded once, and VSEL the operand that the mask element chooses. When a tile presents a VFMA
or a VSEL whose operands lie in their halves and are not awaited, the command completes: each destination element is the fused
product and sum of the broadcast sources, or the first operand where the mask element's bits without the sign are non-zero and
the second where they are zero; every other bin byte, the banks and the tallies are as before, the pass moves past the
instruction, and outside the tile only the watch's counts change. (05_vector_engine.md R94; 05_vector_engine.md R98;
05_vector_engine.md R99) -/
def Obligations.VectorFusedAndSelect : Prop :=
  (∀ (t : Nat) (f : V3F), ThreeSource (.vfma t f) t f (fun a b c =>
    ⟨(fma32 a b c).1, (fma32 a b c).2, ((val32 a).mul (val32 b)).add (val32 c)⟩)) ∧
  (∀ (t : Nat) (f : V3F), ThreeSource (.vsel t f) t f (fun m a b =>
    let w := if m &&& 0x7FFFFFFF#32 = 0 then b else a
    ⟨w, passClass w, val32 w⟩))

/-- VCVT writes its source converted by the plain, FIELD or CODE form. When a tile presents a VCVT whose operands lie in their
halves and are not awaited, the command completes: the destination holds the converted rows and, in a block-scaled format,
their scales; every other bin byte, the banks and the tallies are as before, the pass moves past the instruction, and outside
the tile only the watch's counts change. FIELD gives the FP32 integer of the source's exponent field; CODE gives the source
rounded to the nearest even integer and clamped to a byte, 0xFF for a NaN. (03_number_formats.md R50; 04_scaling_and_watch.md
R62; 05_vector_engine.md R95; 05_vector_engine.md R100) -/
def Obligations.VcvtConvertsByItsForm : Prop :=
  ∀ (s : State) (t : Nat) (f : VcvtF) (c : Ctx) (rd wr : List Nat) (p : Place),
    Issues s t (.vcvt t f) c rd wr → touchOf (.vcvt t f) c s = some (rd, wr) →
    vplace c f.d true (vcvtFmts f).2 = some p →
    let sc := scaling s c.w c.p.img f.gref
    Answers (.vcvt t f) s (fun u =>
      (u.tile t).bin = p.putConverted (s.tile t).bin f.d.shape
        (match f.form with
          | .plain => vcvtRows f c sc s
          | .field => (vcvtSource f c s).map (fun r =>
              { codes := r.map (fun x => (round32 (.fin false (bits (x.1 % 2 ^ 32) 23 8) 0)).toNat), scales := [],
                outs := r.map (fun _ => .none) })
          | .code => (vcvtSource f c s).map (fun r =>
              { codes := r.map (fun x => (codeOf x.2).1), scales := [], outs := r.map (fun x => (codeOf x.2).2) })) ∧
      BinKept s u t wr ∧ (u.tile t).acc = (s.tile t).acc ∧ (u.tile t).tallies = (s.tile t).tallies ∧
      PassAt c (.vcvt t f) s u ∧ CountFrame c sc s u)

/-- VRDC folds the fixed pairwise tree, VPOS adds the exact position, and VRND writes the lane generator's values. When a tile
presents a VRDC, VPOS or VRND whose operands lie in their halves and are not awaited, the command completes: VRDC writes the
tree of six levels along rows or four along columns, with the destination's old element combined last under the accumulate
attribute; VPOS writes the addend (0 when none is named) plus o + r sr + c sc rounded once; VRND writes for each element the
value of its control line and position. Every other bin byte, the banks and the tallies are as before, the pass moves past the
instruction, and outside the tile only the watch's counts change. (05_vector_engine.md R101; 05_vector_engine.md R102;
05_vector_engine.md R106; 05_vector_engine.md R107; 05_vector_engine.md R109) -/
def Obligations.ReductionsPositionsAndRandomValues : Prop :=
  (∀ (s : State) (t : Nat) (f : VrdcF) (c : Ctx) (rd wr : List Nat) (p : Place),
    Issues s t (.vrdc t f) c rd wr → touchOf (.vrdc t f) c s = some (rd, wr) → vplace c f.d true 7 = some p →
    let tree := fun r k => redTree f.op (if f.column then 4 else 6) (redInputs f (readSource c s f.a 7) r k)
    let old : Source := { shape := f.d.shape, rows := p.rows (s.tile c.t).bin f.d.shape }
    Answers (.vrdc t f) s (Wrote c (.vrdc t f) f.d (fun r k =>
      if f.accum then { redApply f.op (old.at r k) (tree r k).w with
                        cls := ((redApply f.op (old.at r k) (tree r k).w).cls).worse (tree r k).cls }
      else tree r k) wr s)) ∧
  (∀ (s : State) (t : Nat) (f : VposF) (c : Ctx) (rd wr : List Nat),
    Issues s t (.vpos t f) c rd wr → touchOf (.vpos t f) c s = some (rd, wr) →
    Answers (.vpos t f) s (Wrote c (.vpos t f) f.d (fun r k =>
      posElem (if f.addend.ref.buf = 31 then 0 else (readSource c s f.addend 7).at r k) (f.o + r * f.sr + k * f.sc)) wr s)) ∧
  (∀ (s : State) (t : Nat) (f : VrndF) (c : Ctx) (rd wr : List Nat) (p : Place),
    Issues s t (.vrnd t f) c rd wr → vrndTouch f c s = some (rd, wr) → vrndCtl c f = some p →
    Answers (.vrnd t f) s (Wrote c (.vrnd t f) f.d (fun r k =>
      rndElem (laneKey s c.p (scaling s c.w c.p.img 31).layer) (p.read (s.tile c.t).bin 0 64)
        (val32 ((readSource c s f.pos 7).at r k)) k) wr s))

/-- GET and PUT form transfers that cover every line of the move once, in order, each within one 256-byte granule. When a tile
presents a GET or PUT whose bin lines lie in its half and which nothing keeps back, whose node has a route and whose lines may
all be moved, the command completes: the gatherer's list gains waiting transfers of the pass and stream that cover exactly the
move's lines in order, each within one aligned 256-byte granule (on a compressing stream a GET reads one header for each block
of 64 lines, and a PUT forms the packed block's header and lines); a GET dispatched before marks its transfers issued instead;
the pass moves past the instruction; the bin, every other tile and memory are as before. A GET that waits for bin lines of an
earlier one is dispatched, and its transfers are formed unissued, for its gatherer to fetch ahead. (06_tile_programs.md R121;
06_tile_programs.md R122; 07_backward_pass.md R165; 09_gatherers_and_buffers.md R204; 09_gatherers_and_buffers.md R206;
11_plynar_fabric.md R261) -/
def Obligations.MovesFormTheirTransfers : Prop :=
  (∀ (s : State) (t : Nat) (f : MoveF) (c : Ctx) (m : MoveAt) (bins : List Nat),
    Issues s t (.get t f) c [] bins → moveAt c f true = some m → m.bins = some bins → s.noRoute m.x.node = false →
    (goodLines c s f m).2 = false → s.dispatched c = [] →
    let ls := (moveLines c.v m.p m.x f).map (fun l => (l.mpa.toNat, l.bin))
    Answers (.get t f) s (fun u => ∃ new, u.gath.xfers = s.gath.xfers ++ new ∧ NewMoves c f m false true new ∧
      (m.x.compress = false → linesCovered new = ls) ∧
      (m.x.compress = true → new.map (·.bins) = (pieces 64 ls).map (fun b => b.map (·.2)) ∧ ∀ x ∈ new, x.lines = 1) ∧
      PassAt c (.get t f) s u ∧ TilesKept s u t ∧
      u.tile t = { s.tile t with seqs := (u.tile t).seqs, clocked := true } ∧
      u = { s with tiles := u.tiles, fab := { s.fab with nextXid := u.fab.nextXid },
                   gath := { s.gath with xfers := u.gath.xfers, nextId := u.gath.nextId, dispatches := u.gath.dispatches } })) ∧
  (∀ (s : State) (t : Nat) (f : MoveF) (c : Ctx) (m : MoveAt) (bins : List Nat),
    Issues s t (.get t f) c [] bins → moveAt c f true = some m → m.bins = some bins → s.dispatched c ≠ [] →
    Answers (.get t f) s (fun u =>
      u.gath.xfers = s.gath.xfers.map (fun x => if (s.dispatched c).contains x.id
        then { x with issued := true, since := if x.refetch then s.cyc else x.since } else x) ∧
      PassAt c (.get t f) s u ∧ TilesKept s u t ∧
      u.tile t = { s.tile t with seqs := (u.tile t).seqs, clocked := true } ∧
      u = { s with tiles := u.tiles, gath := { s.gath with xfers := u.gath.xfers, dispatches := u.gath.dispatches } })) ∧
  (∀ (s : State) (t : Nat) (f : MoveF) (c : Ctx) (m : MoveAt) (bins : List Nat),
    present s t (.get t f) = some c → c.queued = false → moveAt c f true = some m → m.bins = some bins →
    s.behindGet t c.earlier bins = true → s.noRoute m.x.node = false → (goodLines c s f m).2 = false →
    Answers (.get t f) s (fun u => ∃ new, u.gath.xfers = s.gath.xfers ++ new ∧ NewMoves c f m false false new ∧
      (m.x.compress = false → linesCovered new = (moveLines c.v m.p m.x f).map (fun l => (l.mpa.toNat, l.bin))) ∧
      PassIs c s u (c.q.push (.get t f) bins bins c.order) ∧ TilesKept s u t ∧ u.memory = s.memory)) ∧
  (∀ (s : State) (t : Nat) (f : MoveF) (c : Ctx) (m : MoveAt) (bins : List Nat),
    Issues s t (.put t f) c bins [] → moveAt c f false = some m → m.bins = some bins → s.noRoute m.x.node = false →
    (goodLines c s f m).2 = false →
    let ls := (moveLines c.v m.p m.x f).map (fun l => (l.mpa.toNat, l.bin))
    Answers (.put t f) s (fun u => ∃ new, u.gath.xfers = s.gath.xfers ++ new ∧ NewMoves c f m true true new ∧
      (m.x.compress = false → linesCovered new = ls ∧ ∀ x ∈ new, x.data = []) ∧
      (m.x.compress = true → new.flatMap (·.data) = (pieces 64 ls).flatMap (fun b =>
        let k := packBlock m.p.fmt (b.flatMap (fun l => bytesAt (s.tile t).bin l.2 64))
        k.1 ++ (pieces 64 k.2).flatMap (fun l => l ++ List.replicate (64 - l.length) 0))) ∧
      PassAt c (.put t f) s u ∧ TilesKept s u t ∧
      u.tile t = { s.tile t with seqs := (u.tile t).seqs, clocked := true } ∧
      (m.x.node = 0 ∨ m.x.compress = true → u.fab = s.fab) ∧
      u = { s with tiles := u.tiles, fab := { s.fab with nextXid := u.fab.nextXid, turn := u.fab.turn, out := u.fab.out },
                   gath := { s.gath with xfers := u.gath.xfers, nextId := u.gath.nextId, dispatches := u.gath.dispatches } }))

/-- XFER puts its source lines on the mesh in order, and an arriving line is written into the producer half. An XFER that
issues completes with its source lines on the mesh in order for the tile that dx and dy name, with the destination buffer and
line numbers counted from the first; the bin is as before. XFER_LINE_ARRIVE takes the oldest line from one tile to another off
the mesh and writes its 64 bytes into the producer half of the receiving tile's buffer, changing nothing else; a line outside
that half abandons the pass with MALFORMED. (06_tile_programs.md R116; 06_tile_programs.md R121; 06_tile_programs.md R130;
09_gatherers_and_buffers.md R220) -/
def Obligations.MeshLinesArriveInTheProducerHalf : Prop :=
  (∀ (s : State) (t : Nat) (f : XferF) (c : Ctx) (rd : List Nat) (p : Place) (n : Nat) (l0 : Int),
    Issues s t (.xfer t f) c rd [] → xferTouch f c s = some (rd, []) → xferSource c f = some (p, n) →
    xferLine c f = some l0 →
    Answers (.xfer t f) s (fun u =>
      u.gath.mesh = s.gath.mesh ++ (List.range n).map (fun j =>
        { id := s.gath.nextLine + j, src := t, dst := xferTarget t f, pass := c.p.seq, buf := f.dst.buf, line := l0 + j,
          data := p.read (s.tile t).bin (j * 64) 64 }) ∧
      PassAt c (.xfer t f) s u ∧ TilesKept s u t ∧ u.tile t = { s.tile t with seqs := (u.tile t).seqs, clocked := true } ∧
      u = { s with tiles := u.tiles, gath := { s.gath with mesh := u.gath.mesh, nextLine := s.gath.nextLine + n } })) ∧
  (∀ (s : State) (src dst : Nat) (m : MeshLine) (p : Pass) (b : BufEntry),
    s.gath.mesh.find? (fun x => x.src == src && x.dst == dst) = some m → s.pass? m.pass = some p →
    p.img.bufs[m.buf]? = some b →
    let pl : Place := { buf := b, half := arriveHalf b (s.seq? dst m.pass) m.buf, fmt := 0, line := m.line }
    (pl.has 0 64 = true → Answers (.xferLineArrive src dst) s (fun u =>
      u.tile dst = { s.tile dst with bin := pl.write (s.tile dst).bin 0 m.data } ∧ TilesKept s u dst ∧
      u = { s with tiles := u.tiles, gath := { s.gath with mesh := s.gath.mesh.filter (fun x => x.id != m.id) } })) ∧
    (pl.has 0 64 = false → p.ending = none →
      Answers (.xferLineArrive src dst) s (Abandoned p .malformed dst)))

/-- TAG_GRANT gives the preferred transfer its tag, reads land in the bin, and tags return. A working gatherer gives the
waiting transfer that R207 prefers its tag; a local one is requested, a write with its lines captured, and for a remote one that
alone makes its packet the packet is queued; a controller serves the next request it does not hold, reading the bytes, or
storing them (and no other byte, where no window, harvest, twin update or device error takes part); an arrived read whose GET
has issued is written to its bin lines, detected lines as NaN, and its tag returns; one whose GET has not issued keeps its
landing slot; a part of a compressed block waits for the others; a served write whose lines no assembly buffer holds is
acknowledged and its tag returns. (09_gatherers_and_buffers.md R204; 09_gatherers_and_buffers.md R206;
09_gatherers_and_buffers.md R207; 09_gatherers_and_buffers.md R212) -/
def Obligations.TagGrantsAndReturns : Prop :=
  (∀ (s : State) (g : Nat) (x : Xfer) (r : Bool), s.alive = true → s.gath.enable.getLsbD g = true →
    s.pllOf (g / 12) = .running → s.nextGrant g = some x → s.tagFor x = some r →
    Answers (.tagGrant g) s (fun u => (∃ y ∈ u.gath.xfers, y.id = x.id) ∧ ∀ y ∈ u.gath.xfers, y.id = x.id →
      y.reserve = some r ∧ (x.node = 0 → y.st = .requested ∧ (x.write = true → y.data = captureData x s)))) ∧
  (∀ (s : State) (g : Nat) (x : Xfer) (b : Nat × Nat), s.alive = true → s.gath.enable.getLsbD g = true →
    s.pllOf (g / 12) = .running → s.nextGrant g = some x → s.tagFor x ≠ none → x.node ≠ 0 → x.block = some b →
    s.gath.xfers.filter (fun y => y.id == x.id || (y.st = .waiting && y.node == x.node && y.block == some b)) = [x] →
    (x.write = true → s.fab.out.any (fun o => o.xid == b.1 && o.node == x.node) = true) →
    Answers (.tagGrant g) s (fun u => Queued u x.node b.1 (if x.write then 0x01 else 0x02) ∧
      ∀ y ∈ u.gath.xfers, y.id = x.id → y.st = .requested)) ∧
  (∀ (s : State) (p pc : Nat) (found : List Finding) (x : Xfer), s.alive = true →
    ((s.dev p).st = .ready ∨ (s.dev p).st = .selfRefresh) → s.nextServe p pc = some x → x.write = false →
    Answers (.memoryRequestServe p pc found) s (fun u => ∀ y ∈ u.gath.xfers, y.id = x.id → y.st = .arrived ∧
      (found = [] → s.memory.errs = [] → y.data = (readRange s x.mpa x.bytes).data ∧
        y.detected = (linesOf x.mpa x.bytes).map (readRange s x.mpa x.bytes).bad.contains))) ∧
  (∀ (s : State) (p pc : Nat) (found : List Finding) (x : Xfer), s.alive = true →
    ((s.dev p).st = .ready ∨ (s.dev p).st = .selfRefresh) → s.nextServe p pc = some x → x.write = true →
    Answers (.memoryRequestServe p pc found) s (fun u =>
      (∀ y ∈ u.gath.xfers, y.id = x.id → y.st = .written) ∧
      (found = [] → PlainMemory s → Stored u x.mpa x.data ∧
        MemKept s u (fun a => x.mpa ≤ a ∧ a < x.mpa + x.data.length)))) ∧
  (∀ (s : State) (x : Nat) (y : Xfer), s.alive = true → s.xfer? x = some y → y.write = false → y.discard = false →
    (y.st = .arrived ∨ y.st = .landed) → (y.block = none ∨ y.node ≠ 0) →
    (y.issued = true → Answers (.readLand x) s (fun u =>
      (u.tile y.tile).bin = ((y.bins.zip (pieces 64 y.data)).zip y.detected).foldl (fun m b =>
        putBytes m b.1.1 (if b.2 then nanLine y.fmt else b.1.2)) (s.tile y.tile).bin ∧
      (∀ z ∈ u.gath.xfers, z.id ≠ x) ∧ TilesKept s u y.tile ∧ (u.tile y.tile).acc = (s.tile y.tile).acc)) ∧
    (y.issued = false → Answers (.readLand x) s (fun u =>
      (∀ z ∈ u.gath.xfers, z.id = x → z.st = .landed) ∧ u = { s with gath := u.gath }))) ∧
  (∀ (s : State) (x i k : Nat) (y : Xfer), s.alive = true → s.xfer? x = some y → y.write = false → y.discard = false →
    (y.st = .arrived ∨ y.st = .landed) → y.block = some (i, k) → y.node = 0 → x < s.gath.nextId →
    Answers (.readLand x) s (fun u => ∀ z ∈ u.gath.xfers, z.id = x → z.st = .landed)) ∧
  (∀ (s : State) (x : Nat) (y : Xfer), s.alive = true → s.xfer? x = some y → y.write = true → y.node = 0 →
    y.st = .written → s.ackHeld x = false →
    Answers (.memoryWriteAck x) s (fun u => ∀ z ∈ u.gath.xfers, z.id ≠ x))

/-- BUFFER_CYCLE cancels the newest GET of the victim stream and raises its event. When a gatherer's buffer-cycle conditions
hold, have held for 4,096 cycles and shared tags are held, the command completes: of the holders of shared tags there is one
that no other precedes as a victim; its GET's transfers wait again without tags, to be fetched when the GET issues, or are
gone to be asked for again; the watch's window starts afresh; GTH_CYCLES of the gatherer counts one and one event is raised.
(09_gatherers_and_buffers.md R209) -/
def Obligations.BufferCycleCancelsOneVictim : Prop :=
  ∀ (s : State) (g since : Nat), gathIx g = true → s.alive = true → sfind s.gath.window g = some since → since + 4096 ≤ s.cyc →
    s.cycleNow g = true → s.sharedTagged g ≠ [] →
    Answers (.bufferCycle g) s (fun u => ∃ v ∈ s.sharedTagged g, (∀ x ∈ s.sharedTagged g, x.victim v = false) ∧
      (∀ x ∈ s.gath.xfers, x.pass = v.pass → x.tile = v.tile → x.move = v.move → x.write = false →
        ∀ z ∈ u.gath.xfers, z.id = x.id → z.st = .waiting ∧ z.reserve = none ∧ z.refetch = true) ∧
      sfind u.gath.window g = none ∧
      u.rg .gthCycles g = (s.rg .gthCycles g + 1) % 256 ^ RegName.gthCycles.row.bytes ∧
      u.rg .evtRaised = (s.rg .evtRaised + 1) % 256 ^ RegName.evtRaised.row.bytes)

/-- SWAP exchanges a buffer's halves, LOOP opens a body at the next instruction, BRC branches on its loop counter. When a tile
presents a SWAP whose lines are not awaited, a LOOP or a BRC, the command completes: SWAP toggles the buffer's roles; LOOP
opens a body of its length and count that starts at the next instruction with its counter at 0; BRC continues at its
displacement when its condition on the loop counter holds and at the next instruction otherwise. After the last instruction of
a body execution goes back to its start with the counter raised while further turns remain, and leaves the loop after the
last. Nothing but the pass's place on the tile changes. (06_tile_programs.md R123; 06_tile_programs.md R124;
06_tile_programs.md R130) -/
def Obligations.LoopsSwapsAndBranches : Prop :=
  (∀ (s : State) (t buf : Nat) (c : Ctx) (wr : List Nat), Issues s t (.swap t buf) c [] wr →
    swapTouch buf c s = some ([], wr) →
    Answers (.swap t buf) s (fun u =>
      PassAt c (.swap t buf) s u (fun q => { q with swapped := if q.swapped.contains buf then q.swapped.filter (· ≠ buf)
                                                               else q.swapped ++ [buf] }) ∧
      u.tile t = { s.tile t with seqs := (u.tile t).seqs, clocked := true } ∧ TilesKept s u t ∧ u = { s with tiles := u.tiles })) ∧
  (∀ (s : State) (t : Nat) (f : LoopF) (c : Ctx), present s t (.loop t f) = some c → 1 ≤ f.body →
    Answers (.loop t f) s (fun u =>
      PassIs c s u { c.q with pc := c.q.pc + 1, hold := none,
                              loops := c.q.loops ++ [{ start := c.q.pc + 1, body := f.body, count := f.count, cur := 0 }] } ∧
      u.tile t = { s.tile t with seqs := (u.tile t).seqs, clocked := true } ∧ TilesKept s u t ∧ u = { s with tiles := u.tiles })) ∧
  (∀ (s : State) (t : Nat) (f : BrcF) (c : Ctx), present s t (.brc t f) = some c →
    Answers (.brc t f) s (fun u =>
      PassIs c s u (if brcTaken c.q f then c.q.goto ((c.q.pc : Int) + f.disp).toNat else c.q.next) ∧
      u.tile t = { s.tile t with seqs := (u.tile t).seqs, clocked := true } ∧ TilesKept s u t ∧ u = { s with tiles := u.tiles })) ∧
  (∀ (q : SeqState) (ls : List LoopCtr) (l : LoopCtr), q.loops = ls ++ [l] →
    (q.pc + 1 ≠ l.start + l.body → q.next = { q with pc := q.pc + 1, hold := none }) ∧
    (q.pc + 1 = l.start + l.body → l.cur + 1 < l.count →
      q.next = { q with pc := l.start, loops := ls ++ [{ l with cur := l.cur + 1 }], hold := none }) ∧
    (q.pc + 1 = l.start + l.body → l.count ≤ l.cur + 1 → ls = [] →
      q.next = { q with pc := q.pc + 1, loops := [], hold := none }))

/-- SIG sends a signal behind its fence, and a signal applied adds to its tally, doubles a gate or is refused. A SIG whose
target is a tile of the grid or a node with a route completes: a bare signal to another module leaves at once in a packet of its
own, and every other joins the signals on their way with the transfers and mesh lines that keep it back, one for this module
staying until TALLY_SIGNAL_APPLY; with another target it abandons its pass with MALFORMED. TALLY_SIGNAL_APPLY of a signal whose
fence conditions are met, and before which no other source comes, takes it off the list: a count tally grows by the increment,
or is unchanged when the sum would pass the overrun bound, which raises the event and sets TIL_SYNC_STATUS; a gate tally at 0
becomes 1, and otherwise counts a double. A signal of a TALLY_SIGNAL descriptor completes it with OK, or with LIMIT when
refused. (01_architecture.md R10; 06_tile_programs.md R133; 10_tallies_and_collectives.md R226; 10_tallies_and_collectives.md
R229; 10_tallies_and_collectives.md R230; 10_tallies_and_collectives.md R231; 10_tallies_and_collectives.md R234) -/
def Obligations.SignalsReachTheirTallies : Prop :=
  (∀ (s : State) (t : Nat) (f : SigF) (c : Ctx), Issues s t (.sig t f) c [] [] →
    let node := sigNode c f
    let x : PendSig := { source := .tile t, pass := some c.p.seq, dest := sigDest t f, node := node, tally := f.tally, inc := f.inc,
                         fence := sigFence c f node s, lines := sigLines c f node s, desc := none, bare := f.bare }
    (sigOk s c f = true → Answers (.sig t f) s (fun u =>
      (f.bare = true → node ≠ 0 → u = advance c (.sig t f) (sendBare c.p.seq node f.tally f.inc s)) ∧
      (f.bare = false ∨ node = 0 → u = advance c (.sig t f) (sendRemoteSignals (addSignal x s))) ∧
      (node = 0 → x ∈ u.sync.signals) ∧ PassAt c (.sig t f) s u ∧ TilesKept s u t ∧
      u = { s with tiles := u.tiles, sync := { s.sync with signals := u.sync.signals }, fab := u.fab, regs := u.regs })) ∧
    (sigOk s c f = false → Answers (.sig t f) s (Abandoned c.p .malformed t))) ∧
  (∀ (s : State) (k : Nat) (x : PendSig), s.ownSignals[k]? = some x → s.alive = true → s.fenceMet x = true →
    s.signalsFirst x = false →
    let y := s.tally x.dest x.tally
    let i := BitVec.ofNat 32 x.inc
    Answers (.tallySignalApply k) s (fun u =>
      u.sync.signals = s.sync.signals.erase x ∧
      (y.gate = false → (y.count + i - y.ref).msb = false → (u.tally x.dest x.tally).count = y.count + i) ∧
      (y.gate = false → (y.count + i - y.ref).msb = true → u.tally x.dest x.tally = y ∧
        (x.desc = none → x.stream = none → u.rgBit .tilSyncStatus 1 = true ∧
          u.rg .evtRaised = (s.rg .evtRaised + 1) % 256 ^ RegName.evtRaised.row.bytes)) ∧
      (y.gate = true → y.count = 0 → (u.tally x.dest x.tally).count = 1) ∧
      (y.gate = true → y.count ≠ 0 → (u.tally x.dest x.tally).count = y.count ∧
        (u.tally x.dest x.tally).double = (if y.double = 0xFFFFFFFF#32 then y.double else y.double + 1)) ∧
      (∀ d, x.desc = some d → Completes d (if y.gate = false ∧ (y.count + i - y.ref).msb = true then .limit else .ok) s u) ∧
      (x.desc = none → u.memory = s.memory ∧ u.gath = s.gath ∧ u.host.inflight = s.host.inflight)))

/-- WAIT holds until its tally meets its target at the end of a cycle, TAKE subtracts there, BIND holds until its wire releases.
A WAIT that a tile presents behind no other instruction completes by holding the pass with its target and deadline. At the end of
a cycle a pending WAIT whose tally is at or past its target in the signed distance lets its pass go on, setting a count tally's
reference to a target beyond it, and holds otherwise. A TAKE joins the TAKEs of its cycle, which subtract their amount from the
count and the reference of a count tally and clear a gate. A BIND raises the tile's input on its wire and holds the pass.
BINDER_WIRE_RELEASE of a wire whose every input is high moves each tile that waits at it past its BIND, lowers the inputs and
counts the release; a wire with an input low keeps every tile. (06_tile_programs.md R132; 10_tallies_and_collectives.md R227;
10_tallies_and_collectives.md R228; 10_tallies_and_collectives.md R229; 10_tallies_and_collectives.md R237;
10_tallies_and_collectives.md R238) -/
def Obligations.WaitsTakesAndBinds : Prop :=
  (∀ (s : State) (t : Nat) (f : WaitF) (c : Ctx), present s t (.wait t f) = some c → c.q.hold = none → c.earlier = [] →
    let target : Word := (if f.kind = 2 then c.p.origin else 0) + BitVec.ofNat 32 (f.base + f.step * c.q.counter f.index)
    Answers (.wait t f) s (fun u =>
      PassIs c s u (heldAs c (.wait f.kind f.tally target s.aon
        (if f.timeout && c.p.img.timeout ≠ 0 then some (s.aon + c.p.img.timeout) else none))) ∧
      TilesKept s u t ∧ u = { s with tiles := u.tiles })) ∧
  (∀ (s : State) (t r : Nat) (q : SeqState) (kind k since : Nat) (target : Word) (d : Option Nat), s.seq? t r = some q →
    q.hold = some (.wait kind k target since d) →
    let dest := waitDest t kind
    let y := s.tally dest k
    let u := evalWait t r s
    ((y.count - target).msb = false →
      (u.tally dest k).count = y.count ∧
      (u.tally dest k).ref = (if y.gate = false ∧ target ≠ y.ref ∧ (target - y.ref).msb = false then target else y.ref) ∧
      u.seq? t r = some q.next ∧ u = { s with tiles := u.tiles, sync := { s.sync with mtal := u.sync.mtal } }) ∧
    ((y.count - target).msb = true → u = s)) ∧
  (∀ (s : State) (t : Nat) (f : TakeF) (c : Ctx), Issues s t (.take t f) c [] [] →
    Answers (.take t f) s (fun u =>
      u.sync.takes = s.sync.takes ++ [(waitDest t f.kind, f.tally, BitVec.ofNat 32 f.amount)] ∧
      PassAt c (.take t f) s u ∧ TilesKept s u t ∧
      u = { s with tiles := u.tiles, sync := { s.sync with takes := u.sync.takes } })) ∧
  (∀ (s : State) (dest : Option Nat) (k : Nat) (a : Word), s.sync.takes = [(dest, k, a)] →
    let y := s.tally dest k
    let u := applyTakes s
    (y.gate = false → u.tally dest k = { y with count := y.count - a, ref := y.ref - a }) ∧
    (y.gate = true → u.tally dest k = { y with count := 0 }) ∧ u.sync.takes = []) ∧
  (∀ (s : State) (t : Nat) (f : BindF) (c : Ctx), present s t (.bind t f) = some c → c.q.hold = none → c.earlier = [] →
    Answers (.bind t f) s (fun u =>
      PassIs c s u (heldAs c (.bind f.wire s.aon
        (if f.timeout && c.p.img.timeout ≠ 0 then some (s.aon + c.p.img.timeout) else none))) ∧
      (∀ x, sfind s.sync.wires f.wire = some x → ∃ x', sfind u.sync.wires f.wire = some x' ∧ t ∈ x'.high ∧
        x'.mask = x.mask ∧ x'.owner = x.owner ∧ x'.count = x.count) ∧
      TilesKept s u t ∧ u = { s with tiles := u.tiles, sync := { s.sync with wires := u.sync.wires } })) ∧
  (∀ (s : State) (w : Nat) (x : Wire), sfind s.sync.wires w = some x → s.alive = true → x.high ≠ [] →
    (x.mask.all (s.wireHigh x).contains = true → Answers (.binderWireRelease w) s (fun u =>
      sfind u.sync.wires w = some { x with high := [], count := x.count + 1 } ∧
      (∀ t ∈ x.high, ∀ q since d, s.seq? t x.owner = some q → q.hold = some (.bind w since d) → u.seq? t x.owner = some q.next) ∧
      (∀ t r, r ≠ x.owner → u.seq? t r = s.seq? t r) ∧ u = { s with tiles := u.tiles, sync := { s.sync with wires := u.sync.wires } })) ∧
    (x.mask.all (s.wireHigh x).contains = false → Answers (.binderWireRelease w) s (fun u => u = s)))

/-- YIELD suspends or switches, PEND ends the pass on its tile, and a pass that has ended on every tile completes with OK. A
YIELD behind no other instruction in a partial block only moves on; otherwise with a pre-emption pending the pass is suspended and its 64-byte save line
written, and without one the tile runs the ready pass that R137 chooses, if any. A PEND with everything before it complete
ends the pass on the tile and clears the accumulator elements of its banks; otherwise the pass waits there. PASS_SWITCH of a
tile whose running pass is held runs the chosen ready pass. PASS_RESUME gives a suspended pass the free slot. PASS_RETIRE of a
pass that has ended on every tile completes its descriptor with OK. (02_outer_product_array.md R27; 06_tile_programs.md R136;
06_tile_programs.md R137; 06_tile_programs.md R139; 06_tile_programs.md R140; 06_tile_programs.md R143) -/
def Obligations.YieldPendAndRetire : Prop :=
  (∀ (s : State) (t : Nat) (c : Ctx), present s t (.yield t) = some c → c.earlier = [] →
    let q := { c.q.next with sinceYield := 0 }
    (c.q.parts ≠ [] → Answers (.yield t) s (fun u => PassIs c s u q ∧ (u.tile t).running = (s.tile t).running ∧
      TilesKept s u t ∧ u = { s with tiles := u.tiles })) ∧
    (c.q.parts = [] → c.q.preempt = true → Answers (.yield t) s (fun u =>
      (u.seq? t c.q.pass).any (·.suspended) = true ∧ (u.tile t).running ≠ some c.q.pass ∧
      bytesAt (u.tile t).bin c.p.img.save 64 = (List.range 64).map (Config.saveByte (savedState q)) ∧
      TilesKept s u t ∧ u = { s with tiles := u.tiles })) ∧
    (c.q.parts = [] → c.q.preempt = false → Answers (.yield t) s (fun u => PassIs c s u q ∧ TilesKept s u t ∧
      (∀ n, (u.tile t).running = some n → n ≠ c.q.pass →
        ∃ x ∈ (u.tile t).seqs, x.pass = n ∧ x.suspended = false ∧ x.pended = false) ∧
      u = { s with tiles := u.tiles }))) ∧
  (∀ (s : State) (t : Nat) (c : Ctx), present s t (.pend t) = some c → c.earlier = [] → c.q.pended = false →
    (s.pendDone t c.q.pass = true → Answers (.pend t) s (fun u => u.seq? t c.q.pass = none ∧
      (∀ p, u.pass? c.q.pass = some p → t ∈ p.done) ∧ (u.pass? c.q.pass).isSome = true ∧
      (∀ b r col, b < 4 → c.p.img.banks.getLsbD b = true → r < 16 → col < 64 → (u.tile t).accAt b r col = 0))) ∧
    (s.pendDone t c.q.pass = false → Answers (.pend t) s (fun u =>
      (u.seq? t c.q.pass).any (fun x => x.pended && x.hold == some .pend) = true))) ∧
  (∀ (s : State) (t n : Nat), s.tileWorks t = true → s.runningHeld t = true → s.nextPassOn t (s.tile t).running = some n →
    Answers (.passSwitch t) s (fun u => u.tile t = { s.tile t with running := some n } ∧ TilesKept s u t ∧
      u = { s with tiles := u.tiles })) ∧
  (∀ (s : State) (t q : Nat) (x : SeqState), s.tileWorks t = true → (s.tile t).freeSlot ≠ 4 → s.nextSuspended t = some q →
    s.seq? t q = some x →
    Answers (.passResume t) s (fun u => u.seq? t q = some { x with suspended := false, slot := (s.tile t).freeSlot } ∧
      TilesKept s u t ∧ u = { s with tiles := u.tiles })) ∧
  (∀ (s : State) (q : Nat) (p : Pass), s.pass? q = some p → s.alive = true → p.ending = none → p.tiles.all p.done.contains = true →
    Answers (.passRetire q) s (fun u => u.pass? q = none ∧ Completes p.desc .ok s u ∧ (∀ w ∈ u.sync.wires, w.2.owner ≠ q) ∧
      u.memory.mem = s.memory.mem))

/-- A pass past its budget or its pre-emption bound ends with LIMIT, and a WAIT or BIND past its deadline with ABORTED.
BUDGET_EXCEEDED of a pass whose budget count on a tile exceeds its budget, and PREEMPTION_BOUND_EXCEEDED of a pre-empted pass
that has neither yielded nor reached PEND for more than 16,384 running cycles, abandon the pass with LIMIT; WAIT_TIMEOUT of a pass whose WAIT or
BIND is past its deadline abandons the pass with ABORTED. Within the bound or before the deadline each changes nothing.
(06_tile_programs.md R141; 06_tile_programs.md R142; 06_tile_programs.md R144; 10_tallies_and_collectives.md R238) -/
def Obligations.BoundsAbandonThePass : Prop :=
  (∀ (s : State) (t q : Nat) (p : Pass) (x : SeqState), s.pass? q = some p → s.seq? t q = some x → s.alive = true →
    p.ending = none →
    (p.budget < x.budget → Answers (.budgetExceeded t q) s (Abandoned p .limit t)) ∧
    (x.budget ≤ p.budget → Answers (.budgetExceeded t q) s (fun u => u = s)) ∧
    (x.preempt = true → x.pended = false → 16384 < x.sinceYield →
      Answers (.preemptionBoundExceeded t q) s (Abandoned p .limit t)) ∧
    (x.preempt = false ∨ x.pended = true ∨ x.sinceYield ≤ 16384 → Answers (.preemptionBoundExceeded t q) s (fun u => u = s)) ∧
    (∀ kind k target since d, x.hold = some (.wait kind k target since (some d)) → d ≤ s.aon →
      Answers (.waitTimeout t q) s (fun u => Abandoned p .aborted t u)) ∧
    (∀ w since d, x.hold = some (.bind w since (some d)) → d ≤ s.aon →
      Answers (.waitTimeout t q) s (fun u => Abandoned p .aborted t u)) ∧
    (∀ kind k target since d, x.hold = some (.wait kind k target since (some d)) → s.aon < d →
      Answers (.waitTimeout t q) s (fun u => u = s)) ∧
    (∀ w since d, x.hold = some (.bind w since (some d)) → s.aon < d →
      Answers (.waitTimeout t q) s (fun u => u = s)))

/-- A descriptor that is malformed, failed or refused completes so and is consumed, and a held one stays at its ring's head.
For each of the sixteen descriptor commands at the head of a ring that may give it: one whose header breaks its layout
completes with MALFORMED; one that its conditions fail completes with that status; one refused completes with NOT_ADMITTED and
the reason; each moves the head past its slots, posts its completion to the companion ring and changes nothing but the host
interface, its registers, the events and the output; one held, or one behind a DATA_IN of its ring whose bytes are not yet
visible, is kept at the head and changes nothing else. (14_host_rings.md R344; 14_host_rings.md R352; 14_host_rings.md R353; 14_host_rings.md R355; 14_host_rings.md R361; 14_host_rings.md R362;
14_host_rings.md R367) -/
def Obligations.DescriptorsTurnedAwayComplete : Prop :=
  (∀ d, Turned (.loadFurrow d) 0x01 d (judgeLoad d)) ∧ (∀ d, Turned (.runPass d) 0x02 d (judgePass d)) ∧
  (∀ d, isLogReplay d = false → Turned (.dataIn d) 0x03 d (judgeData d)) ∧
  (∀ d, isLogReplay d = true → Turned (.dataInLogReplay d) 0x03 d (judgeReplay d)) ∧
  (∀ d, Turned (.dataOut d) 0x04 d (judgeOut d)) ∧ (∀ d, Turned (.stepOpen d) 0x05 d (judgeOpen d)) ∧
  (∀ d, Turned (.stepClose d) 0x06 d (judgeClose d)) ∧
  (∀ d, harvestDest d ≠ 3 → Turned (.harvestBegin d) 0x07 d (judgeHarvest d)) ∧
  (∀ d, harvestDest d = 3 → Turned (.harvestRecovery d) 0x07 d (judgeRecovery d)) ∧
  (∀ d host, Turned (.restore d host) 0x08 d (judgeRestore d)) ∧ (∀ d, Turned (.standinClaim d) 0x09 d (judgeClaim d)) ∧
  (∀ d, Turned (.cancel d) 0x0A d (judgeBare d)) ∧ (∀ d, Turned (.syncDump d) 0x0B d (judgeBare d)) ∧
  (∀ d, Turned (.tallySignal d) 0x0C d (judgeSignal d)) ∧ (∀ d, Turned (.fence d) 0x0D d (judgeBare d)) ∧
  (∀ d, Turned (.disable d) 0x0E d (judgeDisable d))

/-- An accepted LOAD_FURROW writes its image to every tile's bin, and an accepted RUN_PASS takes a slot on every tile of its
set. An accepted LOAD_FURROW whose lines all read well completes with OK, its image standing at the bin address of each tile
named and every other tile's bin as before; one with a detected line completes with MEM_DETECTED and changes no bin. An
accepted RUN_PASS joins the passes under the next number, has a sequencer state at its first instruction on each tile of its
set, finds the local tallies of its range at zero there, and waits in the list of accepted descriptors under the promise of
R358. (14_host_rings.md R353; 14_host_rings.md R358; 06_tile_programs.md R126; 06_tile_programs.md R134; 06_tile_programs.md
R135) -/
def Obligations.PassesAreLoadedAndAdmitted : Prop :=
  (∀ (s : State) (d : HostDesc) (ts : List Nat), Accepted 0x01 d (judgeLoad d) s → loadTiles d = some ts →
    let r := ((taken d s).loadBytes d).1
    (r.bad = [] → Answers (.loadFurrow d) s (fun u => HeadPast d s u ∧ Posted (s.entryOf d) .ok s u ∧
      (∀ t ∈ ts, bytesAt (u.tile t).bin (descNum d 0x1C 4) (descNum d 0x18 4) = r.data) ∧
      (∀ t, t ∉ ts → (u.tile t).bin = (s.tile t).bin))) ∧
    (r.bad ≠ [] → Answers (.loadFurrow d) s (fun u => HeadPast d s u ∧
      Posted (s.entryOf d) .memDetected s u ∧ (∀ t, (u.tile t).bin = (s.tile t).bin)))) ∧
  (∀ (s : State) (d : HostDesc) (p : Pass), Accepted 0x02 d (judgePass d) s → s.passOf d = some p →
    Answers (.runPass d) s (fun u => HeadPast d s u ∧ u.nextPass = s.nextPass + 1 ∧
      (∃ p' ∈ u.passes, p'.seq = s.nextPass ∧ p'.desc = s.host.nextId ∧ p'.tiles = p.tiles ∧ p'.img = p.img ∧
        p'.ending = none ∧ p'.done = []) ∧
      (∀ t ∈ p.tiles, (∃ x ∈ (u.tile t).seqs, x.pass = s.nextPass ∧ x.pc = 0 ∧ x.loops = [] ∧ x.hold = none) ∧
        ∀ k, p.img.tBase ≤ k → k < p.img.tBase + p.img.tCount → u.tally (some t) k = Tally.init) ∧
      (∃ j ∈ u.host.inflight, j.id = s.host.nextId ∧ j.work = .pass s.nextPass ∧
        j.promise = (latchBoundary (taken d s)).promiseOf { p with desc := s.host.nextId })))

/-- DATA_IN stores and logs its payload, a log replay stores a logged one again, and DATA_OUT returns the bytes read. An
accepted DATA_IN that is not logged completes with OK, or waits while an assembly buffer holds some of its bytes; one that is
logged joins the glean log with its target, length, step and attempt number, and completes with OK at once while the module is
unprotected and its bytes are visible, and otherwise waits for its copy and its bytes. Without windows, harvest, twin update,
failed pseudo-channels or device errors an unlogged one stores exactly its payload and completes at once. An accepted replay
whose entry keeps its check stores the entry's payload at its target and completes with OK, or waits for its bytes, and one
that fails it completes with MEM_DETECTED. An accepted DATA_OUT returns every byte as read, in its completion or in host
memory, with OK or, where a line reads as detected, MEM_DETECTED; without device errors no byte of memory changes.
(14_host_rings.md R353; 14_host_rings.md R362; 12_steps_seal_and_replay.md R299; 12_steps_seal_and_replay.md R302;
12_steps_seal_and_replay.md R303) -/
def Obligations.DataMovesThroughDescriptors : Prop :=
  (∀ (s : State) (d : HostDesc), isLogReplay d = false → Accepted 0x03 d (judgeData d) s →
    let a := descNum d 0x10 8
    let b := (descData d).take (descNum d 0x18 4)
    (s.logsData d = false → Answers (.dataIn d) s (fun u => HeadPast d s u ∧
      (Posted (s.entryOf d) .ok s u ∨ ∃ k, WaitsFor s u (.dataIn [] k)) ∧
      (PlainMemory s → Posted (s.entryOf d) .ok s u ∧ Stored u a b ∧ MemKept s u (fun x => a ≤ x ∧ x < a + b.length)))) ∧
    (s.logsData d = true → Answers (.dataIn d) s (fun u => HeadPast d s u ∧
      (∃ e ∈ u.steps.log.ents, e.kind = 0 ∧ e.target = a ∧ e.len = descNum d 0x18 4 ∧ (e.step, e.num) = s.dataStep d) ∧
      (Posted (s.entryOf d) .ok s u ∨ ∃ x k, WaitsFor s u (.dataIn x k))))) ∧
  (∀ (s : State) (d : HostDesc) (e : LogEnt), isLogReplay d = true → Accepted 0x03 d (judgeReplay d) s →
    s.replayEntry d = some e →
    let v := noteRead (s.rg .stpLogBase + e.off) (64 + e.len) 5 e.step (taken d s)
    (∀ b, v.entryPayload e = some b → Answers (.dataInLogReplay d) s (fun u => HeadPast d s u ∧
      (Posted (s.entryOf d) .ok s u ∨ ∃ k, WaitsFor s u (.dataIn [] k)) ∧
      (PlainMemory s → Posted (s.entryOf d) .ok s u ∧ Stored u e.target b ∧
        MemKept s u (fun x => e.target ≤ x ∧ x < e.target + b.length)))) ∧
    (v.entryPayload e = none → Answers (.dataInLogReplay d) s (fun u => HeadPast d s u ∧
      Posted (s.entryOf d) .memDetected s u ∧ (s.memory.errs = [] → MemKept s u (fun _ => False))))) ∧
  (∀ (s : State) (d : HostDesc), Accepted 0x04 d (judgeOut d) s →
    let v := taken d s
    let r := (readBy 1 ((v.tagStep d).getD v.oldestStep) (descNum d 0x10 8) (descNum d 0x18 4) v).1
    Answers (.dataOut d) s (fun u => HeadPast d s u ∧
      (s.memory.errs = [] → MemKept s u (fun _ => False) ∧ r = readRange s (descNum d 0x10 8) (descNum d 0x18 4)) ∧
      PostedAs (s.entryOf d) s u (fun e => Carries (if r.bad = [] then .ok else .memDetected) e ∧
        e.payload = (if outToHost d then [] else r.data)) ∧
      (outToHost d = true → Emit.hostWrite true (descNum d 0x20 8) r.data ∈ u.emitted)))

/-- An accepted STEP_OPEN opens an attempt in state OPEN, and an accepted STEP_CLOSE closes it and waits for the verdict. An
accepted STEP_OPEN that is no replay adds an attempt of its step in state OPEN with the next attempt number of that step and
completes with OK; of a replay, it completes with OK or, when a logged entry fails, with MEM_DETECTED. An accepted STEP_CLOSE
marks every open attempt of its step closed and waits for its verdict. (12_steps_seal_and_replay.md R283;
12_steps_seal_and_replay.md R284; 12_steps_seal_and_replay.md R285; 12_steps_seal_and_replay.md R303) -/
def Obligations.StepsOpenAndClose : Prop :=
  (∀ (s : State) (d : HostDesc), Accepted 0x05 d (judgeOpen d) s →
    let n := descNum d 0x10 5
    Answers (.stepOpen d) s (fun u => HeadPast d s u ∧
      ((s.tried n).isSome = false → Posted (s.entryOf d) .ok s u ∧
        ∃ a ∈ u.steps.attempts, a.step = n ∧ a.st = .openSt ∧ a.num = s.numberOf n ∧ a.closed = false ∧ a.replay = false) ∧
      ((s.tried n).isSome = true → Posted (s.entryOf d) .ok s u ∨ Posted (s.entryOf d) .memDetected s u))) ∧
  (∀ (s : State) (d : HostDesc), Accepted 0x06 d (judgeClose d) s →
    let n := descNum d 0x10 5
    Answers (.stepClose d) s (fun u => HeadPast d s u ∧ WaitsFor s u (.stepClose n) ∧
      (∃ a ∈ u.steps.attempts, a.step = n) ∧ (∀ a ∈ u.steps.attempts, a.step = n → a.closed = true) ∧
      u.memory.mem = s.memory.mem))

/-- FENCE and CANCEL wait for the descriptors they name, SYNC_DUMP returns its snapshot, TALLY_SIGNAL sends a host signal. An
accepted FENCE waits for every accepted descriptor of its ring, or of all rings, and completes with OK where there is none. An
accepted CANCEL abandons with CANCELLED every pass that it names and waits for their completions. An accepted SYNC_DUMP
completes with OK and the snapshot as payload. An accepted TALLY_SIGNAL adds a signal of its increment to its module tally,
behind the earlier memory-writing descriptors of its ring, and waits for it. (10_tallies_and_collectives.md R235;
10_tallies_and_collectives.md R245; 14_host_rings.md R363; 14_host_rings.md R364) -/
def Obligations.FencesDumpsSignalsAndCancels : Prop :=
  (∀ (s : State) (d : HostDesc), Accepted 0x0D d (judgeBare d) s →
    Answers (.fence d) s (fun u => HeadPast d s u ∧ (s.fenceWaits d = [] → Posted (s.entryOf d) .ok s u) ∧
      (Posted (s.entryOf d) .ok s u ∨ WaitsFor s u (.fence (s.fenceWaits d))) ∧
      (∀ i ∈ s.host.inflight, i.ring = d.ring → i.id ∈ s.fenceWaits d))) ∧
  (∀ (s : State) (d : HostDesc), Accepted 0x0A d (judgeBare d) s →
    Answers (.cancel d) s (fun u => HeadPast d s u ∧
      (∀ p ∈ s.cancels d, s.pass? p.seq = some p → Abandoned p .cancelled (p.tiles.headD 0) u) ∧
      (Posted (s.entryOf d) .ok s u ∨
        WaitsFor s u (.cancel ((s.cancels d).map (·.desc)) (s.cancels d).length)))) ∧
  (∀ (s : State) (d : HostDesc), Accepted 0x0B d (judgeBare d) s →
    Answers (.syncDump d) s (fun u => HeadPast d s u ∧ PostedAs (s.entryOf d) s u (fun e => Carries .ok e ∧
      e.payload = dumpPayload (taken d s) (descNum d 0x10 4)
        (if descNum d 0x16 2 = 0 then 1 else descNum d 0x14 2)
        (if descNum d 0x16 2 = 0 then 0 else descNum d 0x14 2 + descNum d 0x16 2 - 1)))) ∧
  (∀ (s : State) (d : HostDesc), Accepted 0x0C d (judgeSignal d) s →
    Answers (.tallySignal d) s (fun u => HeadPast d s u ∧ WaitsFor s u .signal ∧ u.memory.mem = s.memory.mem ∧
      u.sync.signals = s.sync.signals ++ [
        { source := .host, pass := none, dest := none, node := 0, tally := descNum d 0x10 2, inc := descNum d 0x12 2,
          fence := [d.ring], lines := [], desc := some s.host.nextId, bare := false }]))

/-- An accepted DISABLE of an object with nothing in flight completes with DISABLED and clears its enable, and ABORT ends its
work. An accepted DISABLE in DRAIN mode of an object with nothing in flight completes with DISABLED, and then a ring, tile,
port, memory, gatherer or the harvest engine reads as disabled. Any accepted DISABLE either completes so or waits with its
object and mode. In ABORT mode of a tile every pass of that tile is abandoned with ABORTED. (14_host_rings.md R366;
18_register_map.md R444) -/
def Obligations.DisableClearsTheObjectsEnable : Prop :=
  ∀ (s : State) (d : HostDesc), Accepted 0x0E d (judgeDisable d) s →
    let op := disableOf d
    Answers (.disable d) s (fun u => HeadPast d s u ∧
      (Posted (s.entryOf d) .disabled s u ∨ WaitsFor s u (.disable op)) ∧
      (op.abort = false → s.busy op = false → Posted (s.entryOf d) .disabled s u ∧
        (op.object = 0 → (u.ring op.index).enable = false) ∧
        (op.object = 1 → u.rgBit .tilEnable (op.index % 32) (op.index / 32) = false ∧ (u.tile op.index).clocked = false) ∧
        (op.object = 2 → (u.port op.index).st = .disabled) ∧ (op.object = 3 → (u.dev op.index).enabled = false) ∧
        (op.object = 4 → u.gath.enable.getLsbD op.index = false) ∧ (op.object = 5 → u.rgBit .hrvEnable 0 = false)) ∧
      (op.abort = true → op.object = 1 → ∀ p ∈ s.passes, p.tiles.contains op.index = true → s.pass? p.seq = some p →
        p.ending = none → Abandoned p .aborted op.index u))

/-- A doorbell that is not stale moves its ring, a stale one is flagged, and the ring's timeouts and errors act on the head. A
well formed doorbell to an enabled ring of its type sets the submission tail or the completion head to its position unless it
is stale, and a stale one moves nothing and sets the ring's flag. A descriptor that waited longer than split_to for its slots
completes with MALFORMED, the head moving to the tail. HELD_DESCRIPTOR_RELEASE runs a held descriptor as its own command does, so
that one that nothing holds any longer is consumed; only a RESTORE goes on with its own command, which carries host bytes (log
entry 111). A failed descriptor read stops its ring and sets its flag. A completion ring whose oldest unsignalled completion reaches mod_time sends its message and
starts afresh. (14_host_rings.md R344; 14_host_rings.md R346; 14_host_rings.md R349; 14_host_rings.md R350; 14_host_rings.md
R352) -/
def Obligations.RingsMoveByTheirDoorbells : Prop :=
  (∀ (s : State) (r : Nat) (v : Quad), s.stw.good = true → r < Config.numRings → v.toNat < 2 ^ 21 →
    (s.ring r).enable = true → (s.ring r).completion = false →
    ((s.ring r).stale v.toNat = false → Answers (.submissionDoorbell r v 8) s (fun u =>
      (u.ring r).tail = (s.ring r).position v.toNat ∧ (u.ring r).head = (s.ring r).head ∧
      (∀ q, q ≠ r → u.ring q = s.ring q) ∧ u = { s with host := u.host })) ∧
    ((s.ring r).stale v.toNat = true → Answers (.submissionDoorbell r v 8) s (fun u =>
      u.ring r = { s.ring r with staleDb := true } ∧ u = { s with host := u.host, regs := u.regs }))) ∧
  (∀ (s : State) (r : Nat) (v : Quad), s.stw.good = true → r < Config.numRings → v.toNat < 2 ^ 21 →
    (s.ring r).enable = true → (s.ring r).completion = true →
    ((s.ring r).stale v.toNat = false → Answers (.completionDoorbell r v 8) s (fun u =>
      (u.ring r).head = (s.ring r).position v.toNat ∧ (∀ q, q ≠ r → u.ring q = s.ring q) ∧
      u = { s with host := u.host, emitted := u.emitted })) ∧
    ((s.ring r).stale v.toNat = true → Answers (.completionDoorbell r v 8) s (fun u =>
      u.ring r = { s.ring r with staleDb := true } ∧ u = { s with host := u.host, regs := u.regs }))) ∧
  (∀ (s : State) (d : HostDesc), s.splitDue d = true → Answers (.splitDescriptorTimeout d) s (fun u =>
    Posted (s.entryOf d) .malformed s u ∧ (u.ring d.ring).splitErr = true ∧
    (u.ring d.ring).head = ((s.ring d.ring).head + (s.ring d.ring).dist (s.ring d.ring).tail (s.ring d.ring).head) %
      (s.ring d.ring).span)) ∧
  (∀ (s : State) (r : Nat) (d : HostDesc), (s.ring r).held = some d →
    exec (.heldDescriptorRelease r) s =
      (if descOp d = 0x01 then exec (.loadFurrow d) s else if descOp d = 0x02 then exec (.runPass d) s
       else if descOp d = 0x03 then (if isLogReplay d then exec (.dataInLogReplay d) s else exec (.dataIn d) s)
       else if descOp d = 0x04 then exec (.dataOut d) s else if descOp d = 0x05 then exec (.stepOpen d) s
       else if descOp d = 0x06 then exec (.stepClose d) s
       else if descOp d = 0x07 then (if harvestDest d = 3 then exec (.harvestRecovery d) s else exec (.harvestBegin d) s)
       else if descOp d = 0x09 then exec (.standinClaim d) s else if descOp d = 0x0A then exec (.cancel d) s
       else if descOp d = 0x0B then exec (.syncDump d) s else if descOp d = 0x0C then exec (.tallySignal d) s
       else if descOp d = 0x0D then exec (.fence d) s else if descOp d = 0x0E then exec (.disable d) s
       else .next s)) ∧
  (∀ (s : State) (r : Nat) (d : HostDesc) (row : Nat × (State → Answer)), (s.ring r).held = some d → d.ring = r →
    row ∈ releaseRows d → Accepted row.1 d row.2 s → Answers (.heldDescriptorRelease r) s (HeadPast d s)) ∧
  (∀ (s : State) (r : Nat), s.mayServe r 0 = true → (s.ring r).held = none →
    Answers (.descriptorReadError r) s (fun u => u = s.setRing r { s.ring r with hostErr := true, stopped := true })) ∧
  (∀ (s : State) (r t : Nat), s.stw.mainOn = true → (s.ring r).completion = true → (s.ring r).enable = true →
    (s.ring r).modTime ≠ 0 → (s.ring r).unsignalled ≠ 0 → (s.ring r).oldest = some t →
    t + usCycles (s.ring r).modTime ≤ s.cyc →
    Answers (.completionModerationTimeout r) s (fun u =>
      u.ring r = { s.ring r with unsignalled := 0, oldest := none } ∧
      (if (s.msixOf (s.ring r).vector).masked then (u.msixOf (s.ring r).vector).pending = true
       else if s.hostUp then u.emitted = .msix (s.ring r).vector (s.msixOf (s.ring r).vector).addr (s.msixOf (s.ring r).vector).data :: s.emitted
       else u.host.msixHeld = s.host.msixHeld ++ [(s.ring r).vector])))

/-- Claims change the node id, harvests copy block by block, and a restore commits the common step or fails. An accepted
STANDIN_CLAIM writes FAB_NODE_ID and records the claim; CLAIM_SETTLE after the settle time completes it with OK. An accepted
HARVEST_BEGIN starts a harvest of the current version, or a recovery stream of the mirror; HARVEST_BLOCK_COPY and COPY_AHEAD
copy a block with the check of its winnowed bytes, and with no block left the harvest completes with OK, with VERIFY_FAIL when
a block failed, or goes on to its export. An export to host memory writes a part, reads it back and goes on when it agrees, writes it
once more when it does not, and ends as an abandoned transfer when the read fails; after its header the harvest completes. An
accepted RESTORE verifies its candidates, or ends so when host memory cannot be read; RESTORE_COMMIT ends with VERIFY_FAIL when
none is good or a staged block fails twice, RESTORE_MIXED when there is no common step, as an abandoned transfer when host memory
cannot be read, and otherwise with OK and a job started, or with ABORTED when the job may not start. (11_plynar_fabric.md R276; 13_standins_and_harvests.md R321; 13_standins_and_harvests.md R328;
13_standins_and_harvests.md R330; 13_standins_and_harvests.md R332; 13_standins_and_harvests.md R335;
13_standins_and_harvests.md R336; 13_standins_and_harvests.md R338) -/
def Obligations.StandInsHarvestsAndRestores : Prop :=
  (∀ (s : State) (d : HostDesc), Accepted 0x09 d (judgeClaim d) s → Answers (.standinClaim d) s (fun u => HeadPast d s u ∧
    u.rg .fabNodeId = descNum d 0x10 2 + descNum d 0x12 1 * 2 ^ 16 ∧ WaitsFor s u .claim ∧
    ∃ c, u.fab.claim = some c ∧ c.node = descNum d 0x10 2 ∧ c.inc = descNum d 0x12 1 ∧ c.prev.toNat = s.rg .fabNodeId % 2 ^ 32 ∧
      c.since = s.cyc ∧ c.desc = s.host.nextId)) ∧
  (∀ (s : State) (c : ClaimOp), s.fab.claim = some c → s.alive = true → c.since + s.settleTime ≤ s.cyc →
    Answers .claimSettle s (fun u => u.fab.claim = none ∧ u.hrv.claimAt = s.cyc ∧ Completes c.desc .ok s u)) ∧
  (∀ (s : State) (d : HostDesc), harvestDest d ≠ 3 → Accepted 0x07 d (judgeHarvest d) s →
    Answers (.harvestBegin d) s (fun u => HeadPast d s u ∧ WaitsFor s u .harvest ∧ ∃ h, u.hrv.op = some h ∧
      h.desc = s.host.nextId ∧ h.version = s.steps.version ∧ h.dest = harvestDest d ∧ h.mirror = harvestMirror d ∧
      h.segs = s.imageSegs (harvestMirror d) ∧ h.stage2 = false)) ∧
  (∀ (s : State) (d : HostDesc), harvestDest d = 3 → Accepted 0x07 d (judgeRecovery d) s →
    Answers (.harvestRecovery d) s (fun u => HeadPast d s u ∧ WaitsFor s u .recovery ∧ u.hrv.recovery = .sending ∧
      u.hrv.recDesc = s.host.nextId ∧ u.hrv.recRates = harvestDemand d)) ∧
  (∀ (s : State) (h : HarvestOp) (i : Nat) (g : HSeg) (j : Nat) (host : List (Nat × Byte)), s.hrv.op = some h →
    segAt h.segs i = some (g, j) → s.alive = true → s.blockHeld h i = false →
    let img := fun v : State => (winnow g.mode (readBy 4 v.oldestStep (g.base + j * 0x10000) 0x10000 v).1.data).bytes
    (h.stage2 = false → s.nextBlock h = some i → Answers (.harvestBlockCopy host) s (fun u =>
      ∃ h', u.hrv.op = some h' ∧ sget 0 h'.crcs i = crc64 (img s) ∧ h'.segs = h.segs)) ∧
    (s.uncopied i = true → i < sourceBlocks h.segs → s.waitingWrites.any (fun w => (h.touched w.2.1 w.2.2).contains i) = true →
      Answers (.copyAhead i) s (fun u => ∃ h', u.hrv.op = some h' ∧ sget 0 h'.crcs i = crc64 (img (noteHolds s))))) ∧
  (∀ (s : State) (h : HarvestOp) (host : List (Nat × Byte)), s.hrv.op = some h → s.alive = true → h.stage2 = false →
    s.nextBlock h = none → s.engineHeld (s.rg .hrvAreaBase) (dataOffset (segsBlocks h.segs)) = false →
    Answers (.harvestBlockCopy host) s (fun u =>
      (h.failed = true → u.hrv.op = none ∧ Completes h.desc .verifyFail s u) ∧
      (h.failed = false → h.dest = 0 → u.hrv.op = none ∧ Completes h.desc .ok s u) ∧
      (h.failed = false → h.dest ≠ 0 → ∃ n, u.hrv.op = some { h with stage2 := true, next := 0, op := n }))) ∧
  (∀ (s : State) (h : HarvestOp) (host : List (Nat × Byte)), s.hrv.op = some h → s.alive = true → h.stage2 = true → h.dest = 1 →
    s.hostUp = true →
    (h.phase = 0 → s.engineHeld (s.rg .hrvAreaBase + h.part.1) h.part.2 = false →
      Answers (.harvestBlockCopy host) s (fun u => u.hrv.op = some { h with phase := 1, back := [] } ∧
        Emit.hostWrite true (h.addr + h.part.1)
          ((noteRead (s.rg .hrvAreaBase + h.part.1) h.part.2 4 s.oldestStep s).partBytes h) ∈ u.emitted)) ∧
    (h.phase = 1 → (h.atHeader && h.failed) = false →
      (hostBytes host (h.addr + h.part.1) h.part.2 = none → Answers (.harvestBlockCopy host) s (fun u =>
        u.hrv.op = none ∧ Completes h.desc .abandoned s u)) ∧
      (∀ b, hostBytes host (h.addr + h.part.1) h.part.2 = some b →
        (crc64 b = s.partCrc h → h.atHeader = false → Answers (.harvestBlockCopy host) s (fun u =>
          u.hrv.op = some { h with next := h.next + 1, phase := 0, again := false })) ∧
        (crc64 b = s.partCrc h → h.atHeader = true → Answers (.harvestBlockCopy host) s (fun u =>
          u.hrv.op = none ∧ Completes h.desc .ok s u)) ∧
        (crc64 b ≠ s.partCrc h → h.again = false → Answers (.harvestBlockCopy host) s (fun u =>
          u.hrv.op = some { h with phase := 0, again := true }))))) ∧
  (∀ (s : State) (d : HostDesc) (host : List (Nat × Byte)), Accepted 0x08 d (judgeRestore d) s →
    let key := BitVec.ofNat 64 (descNum d 0x10 8)
    let cs := (restoreCands d).filterMap id
    let v := each (cs.filter (fun c => !c.host)) (fun c s => noteRead c.addr c.len 4 s.oldestStep s) (taken d s)
    (cs.any (fun c => (v.verifies key host c).isNone) = true → Answers (.restore d host) s (fun u =>
      HeadPast d s u ∧ Posted (s.entryOf d) .abandoned s u)) ∧
    (cs.any (fun c => (v.verifies key host c).isNone) = false → Answers (.restore d host) s (fun u =>
      HeadPast d s u ∧ WaitsFor s u .restore ∧ ∃ r, u.hrv.restore = some r ∧ r.desc = s.host.nextId ∧ r.key = key ∧
      r.cands = cs.map (fun c => { c with ok := ((v.verifies key host c).map (·.1)).getD false })))) ∧
  (∀ (s : State) (host : List (Nat × Byte)) (r : RestoreOp), s.hrv.restore = some r → s.alive = true →
    s.agreementFailed r = false → s.agreementDone r = true →
    (r.cands.all (fun c => !c.ok) = true → Answers (.restoreCommit host) s (fun u =>
      u.hrv.restore = none ∧ Completes r.desc .verifyFail s u)) ∧
    (r.cands.all (fun c => !c.ok) = false → s.commonStep r = none → Answers (.restoreCommit host) s (fun u =>
      u.hrv.restore = none ∧ Completes r.desc .restoreMixed s u)) ∧
    (∀ c, r.cands.all (fun c => !c.ok) = false → s.commonStep r = some c → (c.host = false ∨ s.hostUp = true) →
      s.stageHeld c = false →
      let v := if c.host then s else noteRead c.addr c.len 4 s.oldestStep s
      (v.candManifest host c = none → Answers (.restoreCommit host) s (fun u =>
        u.hrv.restore = none ∧ Completes r.desc .abandoned s u)) ∧
      (∀ h gs table, v.candManifest host c = some (h, gs, table) →
        let n := segsBlocks gs
        let s0 := v.setRg .hrvProgress (n * 2 ^ 32)
        let x := stageBlocks host c table gs (List.range n) (enginePut (s0.rg .hrvStageBase) (h ++ table) s0)
        let may := ({ x.1 with hrv := { x.1.hrv with restore := none } } : State).mayStart
        (x.2 = none → Answers (.restoreCommit host) s (fun u => u.hrv.restore = none ∧ Completes r.desc .abandoned s u)) ∧
        (x.2 = some false → Answers (.restoreCommit host) s (fun u =>
          u.hrv.restore = none ∧ Completes r.desc .verifyFail s u)) ∧
        (x.2 = some true → may = false → Answers (.restoreCommit host) s (fun u =>
          u.hrv.restore = none ∧ Completes r.desc .aborted s u)) ∧
        (x.2 = some true → may = true → Answers (.restoreCommit host) s (fun u =>
          u.hrv.restore = none ∧ Completes r.desc .ok s u ∧ u.steps.job = true ∧
          u.steps.key = BitVec.ofNat 64 (numIn h 8 8) ∧ u.steps.restored = some c.step)))))

/-- Every step keeps the numbers of accepted descriptors below the next one and every DISABLE's object in range. For every
state in which each accepted descriptor, pass, harvest, restore, recovery stream, claim, signal and log copy names a
descriptor number already given, and each DISABLE in progress names an object that exists, a step that answers a next state
leaves a state of which the same holds. Descriptor numbers are the model's own; the statements about accepted descriptors
assume this. (14_host_rings.md R352; log entry 1) -/
def Obligations.AcceptedDescriptorsStayNamed : Prop :=
  ∀ (s t : State), HostInv s → step s = .next t → HostInv t

/-- The state after reset names no accepted descriptor and its memory is in canonical form. The state after reset meets the
invariant of accepted descriptors and that of the memory, and so does every state that differs from it only in the commands
that wait. (14_host_rings.md R346; log entry 1; log entry 6) -/
def Obligations.ResetMeetsTheInvariants : Prop :=
  HostInv State.reset ∧ MemInv State.reset ∧ ∀ q, HostInv (State.reset.withPending q) ∧ MemInv (State.reset.withPending q)

/-- Training starts on the untrained memories of a mask, and ends ready, packages by way of initialisation after a power-on. A
write of MEM_TRAIN_CTL by the host starts training of exactly the untrained stacks or packages of its mask.
MEMORY_TRAINING_DONE of a stack in training leaves it ready with every pseudo-channel trained at its present temperature, and
on its survivors when a retirement is recorded and it has not kept its state; of a package in training it leaves it ready if
it kept its data and otherwise initialising with its whole area zero; of an initialising package it leaves it ready. Nothing
else changes but the event of the retirement. SELF_REFRESH_ENTRY moves a ready stack that has been idle for 100 microseconds into
self-refresh.
(08_memory_tiers.md R180; 08_memory_tiers.md R184; 08_memory_tiers.md R185; 08_memory_tiers.md R197) -/
def Obligations.MemoriesTrainToReady : Prop :=
  (∀ (s : State) (mask : BitVec 12), HostWrite s → Answers (.memTrainStacks mask) s (fun u =>
    (∀ k, u.dev k = if mask.getLsbD k = true ∧ (s.dev k).st = .untrained then { s.dev k with st := .training } else s.dev k) ∧
    u = { dropSplit s with memory := { s.memory with dev := u.memory.dev } })) ∧
  (∀ (s : State) (mask : BitVec 16), HostWrite s → Answers (.memTrainPackages mask) s (fun u =>
    (∀ k, u.dev k = if 12 ≤ k ∧ mask.getLsbD (k - 12) = true ∧ (s.dev k).st = .untrained
      then { s.dev k with st := .training } else s.dev k) ∧
    u = { dropSplit s with memory := { s.memory with dev := u.memory.dev } })) ∧
  (∀ (s : State) (p : Nat), s.alive = true → p < 28 →
    (p < 12 → (s.dev p).st = .training → sfind s.stw.nv.pcRetired p = none ∨ (s.dev p).kept = true →
      Answers (.memoryTrainingDone p) s (fun u => u.dev p = (s.dev p).trained p .ready ∧ DevsKept s u p ∧
        u = { s with memory := { s.memory with dev := u.memory.dev } })) ∧
    (p < 12 → (s.dev p).st = .training → (s.dev p).kept = false → ∀ pc, sfind s.stw.nv.pcRetired p = some pc →
      Answers (.memoryTrainingDone p) s (fun u =>
        u.dev p = { (s.dev p).trained p .ready with retired := some pc, resow := .complete, wmark := 0 } ∧
        DevsKept s u p ∧ Counted s u .evtRaised ∧ DevFrame s u)) ∧
    (12 ≤ p → (s.dev p).st = .training → (s.dev p).kept = true → Answers (.memoryTrainingDone p) s (fun u =>
      u.dev p = (s.dev p).trained p .ready ∧ DevsKept s u p ∧ u = { s with memory := { s.memory with dev := u.memory.dev } })) ∧
    (12 ≤ p → (s.dev p).st = .training → (s.dev p).kept = false →
      let area (a : Nat) : Prop := 0x8000000000 + (p - 12) * 0x1000000000 ≤ a ∧ a < 0x8000000000 + (p - 11) * 0x1000000000
      Answers (.memoryTrainingDone p) s (fun u => u.dev p = (s.dev p).trained p .initialising ∧ DevsKept s u p ∧
        (∀ a, area a → byteAt u.memory.mem a = 0) ∧ MemKept s u area ∧ (∀ l ∈ u.memory.marks, ¬ area l ∧ l ∈ s.memory.marks) ∧
        u = { s with memory := { s.memory with dev := u.memory.dev, mem := u.memory.mem, marks := u.memory.marks,
                                               errs := u.memory.errs } })) ∧
    ((s.dev p).st = .initialising → Answers (.memoryTrainingDone p) s (fun u => u.dev p = { s.dev p with st := .ready } ∧
      DevsKept s u p ∧ u = { s with memory := { s.memory with dev := u.memory.dev } }))) ∧
  (∀ (s : State) (k : Nat), s.alive = true → k < 12 → (s.dev k).st = .ready → (s.dev k).queue = [] → (s.dev k).paused = [] →
    s.demanded k = false → (∀ b ∈ s.memory.asm, b.stack ≠ k) → (s.dev k).resow ≠ .running →
    (∀ e, e < 64 → (s.range k e).busy = false) → ∀ t, (s.dev k).quietAt = some t → t + usCycles 100 ≤ s.cyc →
    Answers (.selfRefreshEntry k) s (fun u => u.dev k = { s.dev k with st := .selfRefresh, quietAt := none } ∧ DevsKept s u k ∧
      u = { s with memory := { s.memory with dev := u.memory.dev } }))

/-- RANGE_ENABLE checks an entry and initialises a protected range to zero; RANGE_DISABLE and RANGE_INIT_DONE clear their
bits. A host's write of 1 to the enable bit of a disabled range entry sets the configuration error and leaves the entry
disabled when the entry fails its checks; otherwise it enables the entry, clears its two counters and, for class W or A,
starts initialisation and makes every byte of the range zero. A write of 0 disables the entry and leaves the device bytes as they
are: of a class N range all of memory, and of the others every byte outside the range and, without device errors, every byte
outside the check area, where the check bytes of each line that is not zero then stand. RANGE_INIT_DONE of a memory that answers ends initialisation. No other register and no other byte changes. (08_memory_tiers.md
R184; 08_memory_tiers.md R202) -/
def Obligations.RangesAreCheckedAndInitialised : Prop :=
  (∀ (s : State) (k e : Nat), HostWrite s → k < 12 → e < 64 →
    let v := dropSplit s
    let r := v.range k e
    let a := k * 0x800000000 + r.base
    (r.on = false → v.rangeOk k e = false → Answers (.rangeEnable k e) s (fun u =>
      u.rgBit .memRangeCfg 42 k e = true ∧ u.range k e = r ∧ RegsKept v u [⟨.memRangeCfg, k, e⟩] ∧
      u = { v with regs := u.regs })) ∧
    (r.on = false → v.rangeOk k e = true → Answers (.rangeEnable k e) s (fun u =>
      u.range k e = { r with on := true, busy := r.busy || decide (r.cls ≠ 0) } ∧
      u.rg .memRangeDet k e = 0 ∧ u.rg .memRangeCorr k e = 0 ∧
      RegsKept v u [⟨.memRangeCfg, k, e⟩, ⟨.memRangeDet, k, e⟩, ⟨.memRangeCorr, k, e⟩] ∧
      (r.cls ≠ 0 → (∀ x, a ≤ x → x < a + r.size → byteAt u.memory.mem x = 0) ∧
        ∀ l ∈ u.memory.marks, ¬ (a ≤ l ∧ l < a + r.size)) ∧
      MemKept v u (fun x => r.cls ≠ 0 ∧ a ≤ x ∧ x < a + r.size) ∧
      u = { v with regs := u.regs, memory := { v.memory with mem := u.memory.mem, marks := u.memory.marks,
                                                             errs := u.memory.errs } })) ∧
    (r.on = true → Answers (.rangeDisable k e) s (fun u =>
      u.range k e = { r with on := false, busy := false } ∧ RegsKept v u [⟨.memRangeCfg, k, e⟩] ∧
      (r.cls = 0 → u.memory = v.memory) ∧ MemKept v u (fun x => a ≤ x ∧ x < a + r.size) ∧
      (v.memory.errs = [] → MemKept v u (fun x => a + r.data ≤ x ∧ x < a + r.size) ∧
        (MemInv v → r.cls = 1 ∨ r.cls = 2 → ∀ l, l % 64 = 0 → a ≤ l → l < a + r.data → l ∉ v.memory.marks →
          bytesAt v.memory.mem l 64 ≠ List.replicate 64 0 →
          bytesAt u.memory.mem (a + r.data + checkOffset r.cls ((l - a) / 64)) (if r.cls = 2 then 4 else 2) =
            checkBytes r.cls (bytesAt v.memory.mem l 64))) ∧
      u = { v with regs := u.regs, memory := { v.memory with mem := u.memory.mem, marks := u.memory.marks,
                                                             errs := u.memory.errs } }))) ∧
  (∀ (s : State) (k e : Nat), s.alive = true → k < 12 → e < 64 → (s.dev k).serves = true →
    Answers (.rangeInitDone k e) s (fun u => u.range k e = { s.range k e with busy := false } ∧
      RegsKept s u [⟨.memRangeCfg, k, e⟩] ∧ u = { s with regs := u.regs }))

/-- WINDOW_ENABLE enables a window that passes its checks and flags one that fails; WINDOW_DISABLE flushes its buffers first.
A host's write of 1 to the enable bit of a disabled transposing window enables it when it passes the checks of R154, and
otherwise sets the configuration error and leaves it disabled; no other register and nothing else changes. A write of 0 to an
enabled window empties and frees every assembly buffer of the window, keeps every buffer of another window, and clears the
enable bit. (07_backward_pass.md R151; 07_backward_pass.md R154; 07_backward_pass.md R156) -/
def Obligations.WindowsAreCheckedAndFlushed : Prop :=
  ∀ (s : State) (k w : Nat), HostWrite s → k < 12 → w < 64 →
    let v := dropSplit s
    let x := v.xwin k w
    (x.on = false → v.windowOk k w = true → Answers (.windowEnable k w) s (fun u =>
      u.xwin k w = { x with on := true } ∧ RegsKept v u [⟨.memXpwCtl, k, w⟩] ∧ u = { v with regs := u.regs })) ∧
    (x.on = false → v.windowOk k w = false → Answers (.windowEnable k w) s (fun u =>
      u.rgBit .memXpwStatus 0 k w = true ∧ u.xwin k w = x ∧ RegsKept v u [⟨.memXpwStatus, k, w⟩] ∧ u = { v with regs := u.regs })) ∧
    (x.on = true → Answers (.windowDisable k w) s (fun u =>
      (u.xwin k w).on = false ∧ (∀ b ∈ u.memory.asm, b.stack ≠ k ∨ b.window ≠ w) ∧
      (∀ b ∈ v.memory.asm, b.stack ≠ k ∨ b.window ≠ w → b ∈ u.memory.asm) ∧
      u = (each (v.memory.asm.filter (fun b => b.stack == k && b.window == w)) flushBuf v).setRgBits .memXpwCtl 0 1 0 k w)) ∧
    (x.on = true → v.memory.asm.filter (fun b => b.stack == k && b.window == w) = [] → Answers (.windowDisable k w) s (fun u =>
      u.xwin k w = { x with on := false } ∧ RegsKept v u [⟨.memXpwCtl, k, w⟩] ∧ u = { v with regs := u.regs }))

/-- Retraining pauses one channel and counts, success clears its failures, the third failure retires it, and a host retires
it. A retraining that may start, for the PHY's errors or a drift of 8 degrees, pauses exactly its channel from now on and adds to the memory's retraining counter; a host's
request also leaves its pseudo-channel in MEM_STK_CTL. Success within the limit resumes the channel with no failures counted and the present
temperature. A retraining still unfinished at its limit resumes the channel with one more failure; the third in succession
retires a stack's pseudo-channel as failed, fails the stack when another is retired already, and fails a package; a failed
memory is a module fault. A host's retirement records the pseudo-channel and has the stack await re-sowing; a second one fails
the stack. (08_memory_tiers.md R190; 08_memory_tiers.md R192; 08_memory_tiers.md R193; 08_memory_tiers.md R198) -/
def Obligations.ChannelsRetrainAndRetire : Prop :=
  (∀ (s : State) (p pc : Nat) (phy : Bool), s.mayRetrain p pc = true → phy = true ∨ s.drifted p pc = true →
    let n : Reg := if p < 12 then ⟨.memStkRetrains, p, 0⟩ else ⟨.memPkgRetrains, p - 12, 0⟩
    Answers (.retrainingStart p pc phy) s (fun u =>
      u.dev p = { s.dev p with paused := [pc], retrainAt := sinsert pc s.cyc (s.dev p).retrainAt,
                               retrSince := (s.dev p).retrSince + 1 } ∧
      DevsKept s u p ∧ Counted s u n.name n.i ∧ RegsKept s u [n] ∧
      u = { s with regs := u.regs, memory := { s.memory with dev := u.memory.dev } })) ∧
  (∀ (s : State) (k pc : Nat), HostWrite s → k < 12 →
    let v := dropSplit s
    Answers (.hostRetrain k pc) s (fun u =>
      u.rgBits .memStkCtl 0 5 k = pc % 32 ∧ DevsKept v u k ∧ RegsKept v u [⟨.memStkCtl, k, 0⟩, ⟨.memStkRetrains, k, 0⟩] ∧
      (v.mayRetrain k (pc % 32) = true → (u.dev k).paused = [pc % 32] ∧ sfind (u.dev k).retrainAt (pc % 32) = some s.cyc ∧
        Counted v u .memStkRetrains k) ∧
      (v.mayRetrain k (pc % 32) = false → u.dev k = v.dev k ∧ u.rg .memStkRetrains k = v.rg .memStkRetrains k) ∧
      u = { v with regs := u.regs, memory := { v.memory with dev := u.memory.dev } })) ∧
  (∀ (s : State) (p pc at' : Nat), s.alive = true → p < 28 → (s.dev p).paused.contains pc = true →
    sfind (s.dev p).retrainAt pc = some at' → at' + 3500 ≤ s.cyc →
    let n := sget 0 (s.dev p).fails pc + 1
    Answers (.retrainingTimeout p pc) s (fun u =>
      pc ∉ (u.dev p).paused ∧
      (n < 3 → (u.dev p).st = (s.dev p).st ∧ sget 0 (u.dev p).fails pc = n ∧ DevsKept s u p ∧ DevFrame s u) ∧
      (3 ≤ n → p < 12 → (s.dev p).retired = none →
        (u.dev p).retired = some pc ∧ (u.dev p).retiredFailed = true ∧ (u.dev p).resow = .awaiting ∧
        sfind u.stw.nv.pcRetired p = some pc ∧ u.stw.fault = none) ∧
      (3 ≤ n → p < 12 → (s.dev p).retired = some pc → (u.dev p).retiredFailed = true ∧ u.stw = s.stw) ∧
      (3 ≤ n → p < 12 → ∀ r, (s.dev p).retired = some r → r ≠ pc →
        (u.dev p).st = .failed ∧ u.stw.fault = some (.failedDevice p) ∧ u.stw.faultPin = true) ∧
      (3 ≤ n → 12 ≤ p → (u.dev p).st = .failed ∧ u.stw.fault = some (.failedDevice p) ∧ u.stw.faultPin = true))) ∧
  (∀ (s : State) (p pc at' : Nat), s.alive = true → p < 28 → (s.dev p).paused.contains pc = true →
    sfind (s.dev p).retrainAt pc = some at' → s.cyc ≤ at' + 3500 →
    Answers (.retrainingSuccess p pc) s (fun u =>
      pc ∉ (u.dev p).paused ∧ sfind (u.dev p).fails pc = none ∧ sfind (u.dev p).trainTemp pc = some (s.dev p).temp ∧
      (u.dev p).st = (s.dev p).st ∧ DevsKept s u p ∧ DevFrame s u)) ∧
  (∀ (s : State) (k pc : Nat), HostWrite s → k < 12 → (s.dev k).st ≠ .failed →
    Answers (.hostRetire k pc) s (fun u =>
      ((s.dev k).retired = none →
        u.dev k = { s.dev k with retired := some (pc % 32), retiredFailed := false, resow := .awaiting } ∧
        sfind u.stw.nv.pcRetired k = some (pc % 32) ∧ u.stw.fault = none ∧ DevsKept s u k ∧ u.memory.mem = s.memory.mem) ∧
      ((s.dev k).retired = some (pc % 32) → u.memory = s.memory ∧ u.stw = s.stw) ∧
      (∀ r, (s.dev k).retired = some r → r ≠ pc % 32 →
        (u.dev k).st = .failed ∧ u.stw.fault = some (.failedDevice k) ∧ u.stw.faultPin = true)))

/-- RESOW_GO starts the walk, RESOW_MOVE lowers the mark by a granule and keeps data, PATROL_SCRUB reports what it reads. A
host's RESOW_GO sets the status flag when an enabled range or window of the stack still reaches into the area needed, and
otherwise starts re-sowing of a stack that awaits it with every granule at its old place. RESOW_MOVE moves the granule below the mark,
and below 1,024 all the rest at once, after which re-sowing is complete; bytes of lines on a failed pseudo-channel read zero
in class N and stay detected in the other classes, and every other byte keeps its value. PATROL_SCRUB of a class W line moves
the scrub position there, counts the correction of an error in one symbol and reports a detected line. (08_memory_tiers.md R188; 08_memory_tiers.md R193;
08_memory_tiers.md R194; 08_memory_tiers.md R196) -/
def Obligations.ResowingMovesTheGranules : Prop :=
  (∀ (s : State) (k : Nat), HostWrite s → k < 12 →
    let v := dropSplit s
    Answers (.resowGo k) s (fun u =>
      (v.reachesTop k = true → u.rgBit .memStkStatus 12 k = true ∧ RegsKept v u [⟨.memStkStatus, k, 0⟩] ∧
        u = { v with regs := u.regs }) ∧
      (v.reachesTop k = false → (s.dev k).resow = .awaiting →
        u.dev k = { s.dev k with resow := .running, wmark := 97517568 } ∧ DevsKept v u k ∧
        u = { v with memory := { v.memory with dev := u.memory.dev } }) ∧
      (v.reachesTop k = false → (s.dev k).resow ≠ .awaiting → u = v))) ∧
  (∀ (s : State) (k : Nat), s.alive = true → k < 12 → (s.dev k).resow = .running → (s.dev k).serves = true →
    let moved := if (s.dev k).wmark ≤ 1024 then List.range (s.dev k).wmark else [(s.dev k).wmark - 1]
    Answers (.resowMove k) s (fun u =>
      u.dev k = (if (s.dev k).wmark ≤ 1024 then { s.dev k with wmark := 0, resow := .complete }
                 else { s.dev k with wmark := (s.dev k).wmark - 1 }) ∧ DevsKept s u k ∧
      (∀ l ∈ granuleLines k moved, s.onFailedPc l = true →
        (s.mpaClass l = 0 → ∀ x, l ≤ x → x < l + 64 → byteAt u.memory.mem x = 0) ∧ (s.mpaClass l ≠ 0 → l ∈ u.memory.marks)) ∧
      MemKept s u (fun x => ∃ l ∈ granuleLines k moved, s.onFailedPc l = true ∧ s.mpaClass l = 0 ∧ l ≤ x ∧ x < l + 64) ∧
      u = { s with memory := { s.memory with dev := u.memory.dev, mem := u.memory.mem, marks := u.memory.marks,
                                             errs := u.memory.errs } })) ∧
  (∀ (s : State) (p line : Nat), s.alive = true → s.rgBits .memScrubCfg 0 8 ≠ 0 →
    let l := line / 64 * 64
    (mpaWindow l).map (·.1) = some p → (s.dev p).serves = true → s.isHole l = false → s.mpaClass l = 2 →
    s.memory.errs = [] →
    Answers (.patrolScrub p line []) s (fun u =>
      (u.dev p).scrubPos = l ∧ DevsKept s u p ∧ DevFrame s u ∧
      (s.lineDetected l = true → Counted s u .evtRaised ∧
        (if p < 12 then Counted s u .memStkDet p else Counted s u .memPkgDet (p - 12))) ∧
      (s.lineDetected l = false → u.regs = s.regs)) ∧
    (∀ k d, k < 34 → d ≠ 0 → s.rgBits .memRetireThr 0 16 = 0 → Answers (.patrolScrub p line [.errors l [(k, d)]]) s (fun u =>
      (u.dev p).scrubPos = l ∧ (if p < 12 then Counted s u .memStkCorr p else Counted s u .memPkgCorr (p - 12)) ∧
      DevsKept s u p ∧ DevFrame s u)))

/-- A temperature reading moves a stack between its levels; a hot stack states its delay, and a critical one is a module
fault. A reading of a stack, taken on the 100 microsecond grid, sets the stack's temperature and its level: up at
85, 95 and 105 degrees, down at 92 and 82. Entering the hot level starts a new episode and states the delay of R200. Entering
the critical level leaves a ready stack in self-refresh and declares the module fault, at once when no packet of a collective
chunk is still to be sent. HOT_DELAY_RESTATE states the delay again
when it has grown by more than 10 per cent or 100 microseconds at a tenth reading after the stack became hot, and changes
nothing when it has not. (08_memory_tiers.md R199; 08_memory_tiers.md R200; 11_plynar_fabric.md R277;
15_steward_power_security.md R383) -/
def Obligations.StacksEnterAndLeaveLevels : Prop :=
  (∀ (s : State) (k celsius : Nat), s.alive = true → k < 12 → s.aon % 2500 = 0 →
    let l := (s.dev k).level
    let n := levelAfter l celsius
    Answers (.stackTempReading k celsius) s (fun u =>
      (u.dev k).temp = celsius ∧ (u.dev k).level = n ∧
      (n = l → u = s.setDev k { s.dev k with temp := celsius }) ∧
      (n ≠ .critical → DevsKept s u k ∧ (u.dev k).st = (s.dev k).st ∧ u.stw = s.stw ∧ u.memory.mem = s.memory.mem) ∧
      (l ≠ .hot → n = .hot → (u.dev k).holdoff = s.hotDelay k ∧ (u.dev k).episode = (s.fab.episode + 1) % 256 ∧
        (u.dev k).hotAt = s.aon ∧ u.fab.episode = (s.fab.episode + 1) % 256) ∧
      (l = .hot → n = .warm → (u.dev k).holdoff = 0 ∧ Counted s u .evtRaised ∧ DevFrame s u) ∧
      (l ≠ .critical → n = .critical → ((s.dev k).st = .ready → (u.dev k).st = .selfRefresh) ∧
        (s.coll.ending = none → s.collSending = false → u.stw.fault = some (.criticalStack k) ∧ u.stw.faultPin = true) ∧
        (s.coll.ending = none → s.collSending = true → u.stw.fault = none ∧ u.coll.ending = some k)))) ∧
  (∀ (s : State) (k : Nat), s.alive = true → k < 12 → (s.dev k).level = .hot → s.aon % 2500 = 0 → s.aon ≠ (s.dev k).hotAt →
    (s.aon / 2500 - (s.dev k).hotAt / 2500) % 10 = 0 →
    (s.hotDelay k * 10 > (s.dev k).holdoff * 11 ∨ s.hotDelay k > (s.dev k).holdoff + 100 →
      Answers (.hotDelayRestate k) s (fun u => u.dev k = { s.dev k with holdoff := s.hotDelay k } ∧ DevsKept s u k ∧
        u.memory.mem = s.memory.mem ∧ u.stw = s.stw)) ∧
    (s.hotDelay k * 10 ≤ (s.dev k).holdoff * 11 → s.hotDelay k ≤ (s.dev k).holdoff + 100 →
      Answers (.hotDelayRestate k) s (fun u => u = s)))

/-- A packet cut into flits and joined again is the packet that was sent, and every flit carries its kind, lane, sequence and
CRC. For every packet whose fields fit their places and every lane and starting sequence number: the flits that carry it
number one for each 56 bytes of its 48 bytes and payload; each passes its CRC-16, has its reserved bits zero, the packet's
lane and the next sequence number modulo 2^24, and is the first flit of a packet or a later one by its place; and reading the
joined bodies gives the packet back with every field, payload byte and trailer as it was, so that a receiver finds it whole at
the head of its lane. (11_plynar_fabric.md R253; 11_plynar_fabric.md R257; 11_plynar_fabric.md R258; 11_plynar_fabric.md R259)
-/
def Obligations.PacketsReadBackAsSent : Prop :=
  ∀ (p : Packet) (vl seq : Nat), Fits p → vl < 4 →
    let fs := packetFlits vl seq p.bytes
    fs.length = flitCount p.payload.length ∧
    (∀ k f, fs[k]? = some f → flitOk f = true ∧ flitRsvOk f = true ∧ flitVl f = vl ∧ flitSeq f = (seq + k) % 2 ^ 24 ∧
      flitKind f = (if k = 0 then 1 else 2)) ∧
    parsePacket p.bytes = p ∧ parsePacket (flitBodies fs) = p ∧ headOf fs = .whole (flitCount p.payload.length) p

/-- PORT_ENABLE trains disabled ports, a lock starts hellos, a hello brings a training port up, and control flits carry
credits. A host's write of FAB_PORT_EN starts training of exactly the disabled ports of its mask that no DISABLE still holds.
PCS_FEC_LOCK of a port that is neither disabled nor up locks it and has it send hellos. LINK_CONTROL_RECEIVE of a valid hello
by a locked training port with nothing to replay brings it up with the partner of the hello, both directions at sequence 0 and
the credits of the flit; by a port that is up, a flit without hello or retrain frees what its number acknowledges, adds or
sets credits, and resends from the number of a NAK; a flit that fails its check asks an up port for a NAK only.
LINK_CONTROL_SEND sends one link-control flit that acknowledges the last accepted number, and owes no credit after it.
(11_plynar_fabric.md R252; 11_plynar_fabric.md R254; 11_plynar_fabric.md R255; 11_plynar_fabric.md R256; 11_plynar_fabric.md
R268) -/
def Obligations.PortsTrainAndComeUp : Prop :=
  (∀ (s : State) (mask : BitVec 18), HostWrite s →
    let v := dropSplit s
    Answers (.portEnable mask) s (fun u =>
      (∀ p, u.port p = if mask.getLsbD p = true ∧ (v.port p).st = .disabled ∧ v.disabling 2 p = none
        then { v.port p with st := .training, lastRx := s.cyc } else v.port p) ∧
      RegsKept v u [⟨.hstBarErr, 0, 0⟩] ∧
      u = { v with fab := { v.fab with ports := u.fab.ports }, regs := u.regs })) ∧
  (∀ (s : State) (p : Nat), s.alive = true → p < 18 → (s.port p).st ≠ .disabled → (s.port p).st ≠ .up →
    Answers (.pcsFecLock p) s (fun u => u.port p = { s.port p with locked := true, hello := true, lastRx := s.cyc } ∧
      PortsKept s u p ∧ u = { s with fab := { s.fab with ports := u.fab.ports } })) ∧
  (∀ (s : State) (p : Nat) (flit : BitVec 512), s.alive = true → p < 18 → (s.port p).locked = true →
    let b := flitBytes flit
    let fl := numIn b 8 1
    let cr := (List.range 4).map (fun k => numIn b (12 + 2 * k) 2)
    let rq := numIn b 20 2
    let node := numIn b 22 2
    let inc := numIn b 24 1
    (flitOk flit = false → Answers (.linkControlReceive p flit) s (fun u =>
      u.port p = { s.port p with nak := (s.port p).nak || decide ((s.port p).st = .up) } ∧ PortsKept s u p ∧
      u = { s with fab := { s.fab with ports := u.fab.ports } })) ∧
    (flitOk flit = true → flitKind flit = 0 → fl.testBit 1 = false → s.disabling 2 p = none →
      (fl.testBit 2 = true → (isNode node && newer inc (s.incOf node)) = false → (s.port p).st = .training →
        (s.port p).replay = [] → Answers (.linkControlReceive p flit) s (fun u =>
          (u.port p).st = .up ∧ (u.port p).partner = node ∧ (u.port p).partnerInc = inc ∧ (u.port p).txSeq = 0 ∧
          (u.port p).expected = 0 ∧ (u.port p).replay = [] ∧ (u.port p).credits = cr ∧ (u.port p).reqCred = rq ∧
          (u.port p).lastRx = s.cyc)) ∧
      (fl.testBit 2 = false → (s.port p).st = .up → Answers (.linkControlReceive p flit) s (fun u =>
        let rest := unacked (flitSeq flit) (s.port p).replay
        (u.port p).st = .up ∧ (u.port p).replay = rest ∧ (u.port p).lastRx = s.cyc ∧
        (u.port p).credits = (if fl.testBit 3
          then cr.zipIdx.map (fun x => x.1 - rest.countP (fun r => decide (flitVl r.flit = x.2)))
          else ((s.port p).credits.zip cr).map (fun x => x.1 + x.2)) ∧
        (u.port p).reqCred = (if fl.testBit 3 then rq else (s.port p).reqCred + rq) ∧ (NoDisable s → PortsKept s u p) ∧
        (fl.testBit 0 = true →
          ∀ r ∈ rest.dropWhile (fun r => !decide ((r.seq + 2 ^ 24 - numIn b 9 3) % 2 ^ 24 < 2 ^ 23)),
            Emit.flit p r.flit ∈ u.emitted))))) ∧
  (∀ (s : State) (p : Nat), s.alive = true → p < 18 → (s.port p).locked = true →
    Answers (.linkControlSend p) s (fun u => ∃ f, Emit.flit p f ∈ u.emitted ∧ flitKind f = 0 ∧ flitOk f = true ∧
      flitSeq f = ((s.port p).expected + 2 ^ 24 - 1) % 2 ^ 24 ∧ (numIn (flitBytes f) 8 1).testBit 0 = s.nakDue (s.port p) ∧
      (u.port p).owed = [0, 0, 0, 0] ∧ (u.port p).reqOwed = 0 ∧ (u.port p).run = 0 ∧ (u.port p).st = (s.port p).st ∧
      u.memory = s.memory ∧ u.tiles = s.tiles))

/-- A port accepts flits in sequence, asks again for missing ones, and sends the next packet that credit and buffer allow.
FLIT_RECEIVE by a port that is up: a flit that fails its check, or one ahead of its place, only has the port ask for a NAK;
one behind its place is counted as a duplicate; the one expected, with a credit of its lane, zero reserved bits, no part of a
packet already dropped and no packet at the head of the lane at fault, joins its lane, spends its credit, is counted, and is
expected no longer; one that completes a read request puts it into a request entry instead. The 64th packet flit since the
last acknowledgement has the port send one. PACKET_TRANSMIT of a port that is up, with a node id and room in the
replay buffer, takes the packet that R263 chooses off the queue, the acknowledgements that nothing holds queued first, sends its flits in order as far as the buffer has
room, keeps them for replay and spends their credits, and goes on with the rest of a packet sent in part; with no such packet
nothing is sent. (When a critical stack waits for the last packet of a collective chunk, its fault may follow.) ACK_TIMEOUT_RESEND resends every flit kept. (11_plynar_fabric.md R253; 11_plynar_fabric.md R255;
11_plynar_fabric.md R256; 11_plynar_fabric.md R257; 11_plynar_fabric.md R263) -/
def Obligations.FlitsCrossInSequence : Prop :=
  (∀ (s : State) (p : Nat) (flit : BitVec 512), s.alive = true → p < 18 → (s.port p).st = .up →
    let x := s.port p
    let vl := flitVl flit
    let d := (flitSeq flit + 2 ^ 24 - x.expected % 2 ^ 24) % 2 ^ 24
    let lane := x.lane vl ++ [flit]
    let quiet : Prop := x.rxCount + 1 < 64 ∨ x.locked = false
    let fits : Prop := d = 0 ∧ x.rx.length = 4 ∧ nth x.granted vl ≠ 0 ∧ (flitKind flit = 2 → x.skips vl = false) ∧
      flitRsvOk flit = true
    let taken : Port := { (x.setLane vl lane).setSkip vl false with
      expected := (x.expected + 1) % 2 ^ 24, nak := false, nakAt := none, lastRx := s.cyc,
      granted := updNth x.granted vl (· - 1), rxCount := x.rxCount + 1 }
    (flitOk flit = false → Answers (.flitReceive p flit) s (fun u => u.port p = { x with nak := true } ∧ PortsKept s u p ∧
      u = { s with fab := { s.fab with ports := u.fab.ports } })) ∧
    (flitOk flit = true → flitKind flit = 1 ∨ flitKind flit = 2 →
      (fits → (headOf lane = .partial_ ∨ ∃ n q, headOf lane = .whole n q ∧ q.type ≠ 0x02 ∧
          s.packetFault vl (flitBodies (lane.take n)) q = none) →
        (quiet → Answers (.flitReceive p flit) s (fun u => u.port p = taken ∧
          Counted s u .fabPortFlitsRx p ∧ RegsKept s u [⟨.fabPortFlitsRx, p, 0⟩] ∧ PortsKept s u p ∧
          u = { s with fab := { s.fab with ports := u.fab.ports }, regs := u.regs })) ∧
        (¬ quiet → Answers (.flitReceive p flit) s (fun u => (u.port p).lane vl = lane ∧ (u.port p).rxCount = 0 ∧
          Counted s u .fabPortFlitsRx p ∧ PortsKept s u p ∧
          ∃ c, u.emitted = .flit p c :: s.emitted ∧ flitKind c = 0 ∧ flitOk c = true ∧ flitSeq c = x.expected % 2 ^ 24))) ∧
      (fits → ∀ q, headOf lane = .whole lane.length q → q.type = 0x02 →
        s.packetFault vl (flitBodies lane) q = none → x.grantReq ≠ 0 →
        Answers (.flitReceive p flit) s (fun u => (u.port p).reqs = x.reqs ++ [flitBodies lane] ∧
          (u.port p).grantReq = x.grantReq - 1 ∧ (u.port p).lane vl = [] ∧ Counted s u .fabPortFlitsRx p ∧ PortsKept s u p)) ∧
      (0 < d → d < 2 ^ 23 → quiet → Answers (.flitReceive p flit) s (fun u =>
        u.port p = { x with nak := true, lastRx := s.cyc, rxCount := x.rxCount + 1 } ∧ PortsKept s u p ∧
        u = { s with fab := { s.fab with ports := u.fab.ports } })) ∧
      (2 ^ 23 ≤ d → quiet → Answers (.flitReceive p flit) s (fun u =>
        u.port p = { x with lastRx := s.cyc, rxCount := x.rxCount + 1 } ∧ Counted s u .fabPortDups p ∧
        RegsKept s u [⟨.fabPortDups, p, 0⟩] ∧
        PortsKept s u p ∧ u = { s with fab := { s.fab with ports := u.fab.ports }, regs := u.regs })) ∧
      (0 < d → ¬ quiet → Answers (.flitReceive p flit) s (fun u => (u.port p).rxCount = 0 ∧ (u.port p).rx = x.rx ∧
        (u.port p).expected = x.expected ∧ PortsKept s u p ∧ ∃ c, u.emitted = .flit p c :: s.emitted ∧ flitKind c = 0 ∧
        flitOk c = true ∧ flitSeq c = (x.expected + 2 ^ 24 - 1) % 2 ^ 24)))) ∧
  (∀ (s : State) (p : Nat), s.alive = true → p < 18 → (s.port p).st = .up →
    let r := releaseAcks s
    let x := r.port p
    let n := 4096 - x.replay.length
    let calm : Prop := s.coll.ending = none
    (s.fab.acks = [] → r = s) ∧
    ((r.nextPacket p = none ∧ x.rest = none) ∨ s.nodeId = 0 ∨ n = 0 →
      Answers (.packetTransmit p) s (fun u => calm → u = r)) ∧
    (∀ o, r.nextPacket p = some o → x.rest = none → s.nodeId ≠ 0 → 0 < n →
      let fs := packetFlits o.vl x.txSeq o.bytes
      Answers (.packetTransmit p) s (fun u => (∀ f ∈ fs.take n, Emit.flit p f ∈ u.emitted) ∧ (calm →
        (u.port p).txq = x.txq.erase o ∧
        (u.port p).txSeq = (x.txSeq + min fs.length n) % 2 ^ 24 ∧
        (u.port p).replay.map (·.flit) = x.replay.map (·.flit) ++ fs.take n ∧
        (u.port p).credits = updNth x.credits o.vl (· - fs.length) ∧
        (u.port p).reqCred = (if o.req then x.reqCred - 1 else x.reqCred) ∧
        (fs.length ≤ n → (u.port p).rest = none ∧ u.fab.out = (notePacket o r).fab.out) ∧
        (n < fs.length → (∃ r, (u.port p).rest = some (o, r) ∧ r.map (·.flit) = fs.drop n) ∧ u.fab.out = s.fab.out) ∧
        u.memory = s.memory ∧ u.tiles = s.tiles))) ∧
    (∀ o y, x.rest = some (o, y) → s.nodeId ≠ 0 → 0 < n →
      Answers (.packetTransmit p) s (fun u => (∀ f ∈ y.take n, Emit.flit p f.flit ∈ u.emitted) ∧ (calm →
        (u.port p).txq = x.txq ∧ (u.port p).txSeq = (x.txSeq + min y.length n) % 2 ^ 24 ∧
        (u.port p).replay = x.replay ++ y.take n ∧
        (u.port p).credits = x.credits ∧ (u.port p).rest = (if y.length ≤ n then none else some (o, y.drop n)) ∧
        u.memory = s.memory ∧ u.tiles = s.tiles)))) ∧
  (∀ (s : State) (p : Nat), s.alive = true → p < 18 → (s.port p).st = .up → (s.port p).replay ≠ [] →
    (s.port p).lastAck + 17500 ≤ s.cyc → Answers (.ackTimeoutResend p) s (fun u =>
      (u.port p).lastAck = s.cyc ∧ (u.port p).replay = (s.port p).replay ∧ (u.port p).st = .up ∧
      (∀ r ∈ (s.port p).replay, Emit.flit p r.flit ∈ u.emitted) ∧
      PortsKept s u p ∧ RegsKept s u [⟨.fabPortResent, p, 0⟩, ⟨.fabPortFlitsTx, p, 0⟩] ∧
      u = { s with fab := { s.fab with ports := u.fab.ports }, regs := u.regs, emitted := u.emitted }))

/-- Silence, lost lock, too many bad codewords or the host take a port down; it retrains, and releases its buffers after 250
ms. A port that is up is declared down by 1 ms without a valid flit (cause 0), by lost lock (cause 1), by more uncorrectable
codewords than the limit (cause 2) and by the host (cause 5): it keeps its buffers, counts a retraining and raises the event.
A port that is not up stays as it is, but loses its lock with the PCS. Each second that it is down it retrains. A port down for 250 ms releases
its buffers: its transfers with a packet in the replay buffer are abandoned. The host clears the quarantine bit.
(11_plynar_fabric.md R267; 11_plynar_fabric.md R268; 11_plynar_fabric.md R273; 11_plynar_fabric.md R278) -/
def Obligations.PortsGoDownAndRelease : Prop :=
  (∀ (s : State) (p : Nat), s.alive = true → p < 18 → (s.port p).lastRx + 1750000 ≤ s.cyc →
    Answers (.linkSilenceTimeout p) s (fun u =>
      ((s.port p).st = .up → WentDown p 0 s u) ∧ ((s.port p).st ≠ .up → u = s))) ∧
  (∀ (s : State) (p : Nat), s.alive = true → p < 18 → Answers (.pcsLockLoss p) s (fun u =>
    ((s.port p).st = .up → WentDown p 1 s u) ∧
    ((s.port p).st ≠ .up → u.port p = { s.port p with locked := false, hello := false } ∧ PortsKept s u p ∧
      u = { s with fab := { s.fab with ports := u.fab.ports } }))) ∧
  (∀ (s : State) (p codewords corrected : Nat), s.alive = true → p < 18 → (s.port p).st = .up →
    Answers (.fecLimitExceeded p codewords corrected) s (fun u =>
      u.rg .fabPortFecUncorr p = (s.rg .fabPortFecUncorr p + codewords) % 256 ^ RegName.fabPortFecUncorr.row.bytes ∧
      u.rg .fabPortFecCorr p = (s.rg .fabPortFecCorr p + corrected) % 256 ^ RegName.fabPortFecCorr.row.bytes ∧
      (max 1 (s.rgBits .fabCfg 8 8) < codewords → WentDown p 2 s u) ∧
      (codewords ≤ max 1 (s.rgBits .fabCfg 8 8) →
        RegsKept s u [⟨.fabPortFecUncorr, p, 0⟩, ⟨.fabPortFecCorr, p, 0⟩] ∧ u = { s with regs := u.regs }))) ∧
  (∀ (s : State) (p : Nat), HostWrite s → p < 18 → Answers (.portRetrain p) s (fun u =>
    ((s.port p).st = .up → WentDown p 5 (dropSplit s) u) ∧ ((s.port p).st ≠ .up → u = dropSplit s))) ∧
  (∀ (s : State) (p : Nat), s.alive = true → p < 18 → (s.port p).st = .downHeld ∨ (s.port p).st = .downReleased →
    (s.port p).retryAt + 1750000000 ≤ s.cyc → Answers (.portRetrainRetry p) s (fun u =>
      u.port p = { s.port p with locked := false, hello := false, retryAt := s.cyc } ∧ PortsKept s u p ∧
      u = { s with fab := { s.fab with ports := u.fab.ports } })) ∧
  (∀ (s : State) (p : Nat), HostWrite s → p < 18 → Answers (.clearQuarantine p) s (fun u =>
    u.port p = { s.port p with quarantine := false } ∧ PortsKept s u p ∧
    u = { dropSplit s with fab := { s.fab with ports := u.fab.ports } })) ∧
  (∀ (s : State) (p : Nat), s.alive = true → p < 18 → (s.port p).st = .downHeld → (s.port p).downAt + 437500000 ≤ s.cyc →
    s.disabling 2 p = none → Answers (.replayBufferRelease p) s (fun u =>
      (u.port p).st = .downReleased ∧ (u.port p).replay = [] ∧
      (∀ o ∈ s.replayed p, ∀ y ∈ u.fab.out, ¬ (y.xid = o.xid ∧ y.node = o.node)) ∧
      (∀ i ∈ s.replayedReads p, ∀ j ∈ u.fab.inn, i.same j = false)))

/-- A transfer without progress is reported once as stalled and then abandoned, and the node id is set while no port is
enabled. STALL_TIMEOUT of a tracked open transfer past the stall timeout marks it stalled and raises the event.
ABANDON_TIMEOUT of an inbound transfer or awaited read past the abandon timeout closes it and tells its source, and of a
transfer of this module whose route is lost, or whose oldest unacknowledged packet was sent an abandon timeout ago, closes it and
tells its target; a read whose request has not left is closed when its route is lost; before the timeout nothing changes. A host's write of FAB_NODE_ID while no port is enabled sets the node id and
incarnation and the module's own record; while one is enabled it only sets the status flag. (11_plynar_fabric.md R269;
11_plynar_fabric.md R270; 11_plynar_fabric.md R274; 11_plynar_fabric.md R278) -/
def Obligations.TransfersStallAndAreAbandoned : Prop :=
  (∀ (s : State) (x : Nat) (i : InXfer), s.alive = true → s.fab.inn[x]? = some i → i.tracked = true → i.opened = true →
    (i.stalled = false → i.last + s.stallTime + usCycles i.extend ≤ s.cyc → Answers (.stallTimeout x) s (fun u =>
      u.fab.inn = s.fab.inn.map (fun j => if i.same j then { j with stalled := true } else j) ∧ Counted s u .evtRaised ∧
      u = { s with fab := { s.fab with inn := u.fab.inn }, regs := u.regs, evt := u.evt, emitted := u.emitted,
                   host := { s.host with msix := u.host.msix, msixHeld := u.host.msixHeld } })) ∧
    (i.last + s.abandonTime + usCycles i.extend ≤ s.cyc → Answers (.abandonTimeout x) s (fun u =>
      (∀ j ∈ u.fab.inn, i.same j = false) ∧ Queued u i.src i.xid 0x34)) ∧
    (s.cyc < i.last + s.abandonTime + usCycles i.extend → Answers (.abandonTimeout x) s (fun u => u = s))) ∧
  (∀ (s : State) (x : Nat) (o : OutXfer), s.alive = true → s.fab.inn[x]? = none →
    s.fab.out[x - s.fab.inn.length]? = some o →
    let late := o.waits.any (fun w => w.2 + s.abandonTime + usCycles o.extend ≤ s.cyc)
    (s.routeLost o.node o.since = true ∨ late = true → Answers (.abandonTimeout x) s (fun u =>
      (∀ y ∈ u.fab.out, ¬ (y.xid = o.xid ∧ y.node = o.node)) ∧ Queued u o.node o.xid 0x34)) ∧
    (s.routeLost o.node o.since = false → late = false → Answers (.abandonTimeout x) s (fun u => u = s))) ∧
  (∀ (s : State) (x : Nat) (i : InXfer), s.alive = true → s.fab.inn[x]? = some i → i.isRead = true → i.opened = false →
    (s.routeLost i.src i.last = true → Answers (.abandonTimeout x) s (fun u => ∀ j ∈ u.fab.inn, i.same j = false)) ∧
    (s.routeLost i.src i.last = false → Answers (.abandonTimeout x) s (fun u => u = s))) ∧
  (∀ (s : State) (value : Word), HostWrite s →
    let v := dropSplit s
    (v.anyPort = true → Answers (.fabNodeIdWrite value) s (fun u => u.rgBit .fabStatus 0 = true ∧
      RegsKept v u [⟨.fabStatus, 0, 0⟩] ∧ u = { v with regs := u.regs })) ∧
    (v.anyPort = false → Answers (.fabNodeIdWrite value) s (fun u =>
      u.nodeId = value.toNat % 2 ^ 16 ∧ u.ownInc = value.toNat / 2 ^ 16 % 2 ^ 8 ∧
      (isNode u.nodeId = true → u.incOf u.nodeId = u.ownInc) ∧ (∀ n, n ≠ u.nodeId → u.incOf n = s.incOf n) ∧
      RegsKept v u [⟨.fabNodeId, 0, 0⟩] ∧ u = { v with regs := u.regs, fab := { v.fab with incarn := u.fab.incarn } })))

/-- A packet command serves only the whole packet of its type at the head of its lane; a stale one is late, a newer source is
noted. For every command that receives packets: with no whole packet of its type at the head of its lane it changes nothing; a
packet of an older incarnation than its source's record is taken off its lane and dropped as late. A packet that leaves
nothing behind it on its lane is taken by returning its flits' credits. A SIGNAL packet of a newer incarnation has that
incarnation recorded, and every transfer with its source, in either direction, is closed. READ_REQ serves the first request
entry that does not wait; a stale one is late and returns its request credit. (11_plynar_fabric.md R257;
11_plynar_fabric.md R271; 11_plynar_fabric.md R275) -/
def Obligations.PacketsAreTakenInOrder : Prop :=
  (∀ row ∈ packetRows, ∀ (s : State) (port : Nat),
    (s.headPacket port row.2 = none → Answers (row.1 port) s (fun u => u = s)) ∧
    (∀ n p, s.headPacket port row.2 = some (n, p) → (isNode p.src && newer (s.incOf p.src) p.inc) = true →
      Answers (row.1 port) s (fun u => Late port (takePacket port n p s) u))) ∧
  (∀ (s : State) (port : Nat), s.alive = true → port < 18 →
    (s.nextRequest port (s.port port).reqs [] = none → Answers (.readReq port) s (fun u => u = s)) ∧
    (∀ b, s.nextRequest port (s.port port).reqs [] = some b →
      (isNode (parsePacket b).src && newer (s.incOf (parsePacket b).src) (parsePacket b).inc) = true →
      Answers (.readReq port) s (fun u => Late port (s.updPort port (fun q =>
        { q with reqs := q.reqs.erase b, reqOwed := q.reqOwed + 1 })) u))) ∧
  (∀ (s : State) (port n vl : Nat) (p : Packet), laneOf p.type = some vl → ((s.port port).lane vl).drop n = [] → (s.port port).rx.length = 4 →
    let v := takePacket port n p s
    (v.port port).lane vl = [] ∧ (v.port port).owed = updNth (s.port port).owed vl (· + n) ∧ PortsKept s v port ∧
    v = { s with fab := { s.fab with ports := v.fab.ports } }) ∧
  (∀ (s : State) (port n : Nat) (p : Packet), s.headPacket port 0x05 = some (n, p) →
    (isNode p.src && newer (s.incOf p.src) p.inc) = false →
    (isNode p.src && newer p.inc ((takePacket port n p s).incOf p.src)) = true →
    Answers (.signal port) s (fun u => u.incOf p.src = p.inc ∧ (∀ o ∈ u.fab.out, o.node ≠ p.src) ∧
      (∀ i ∈ u.fab.inn, i.src ≠ p.src)))

/-- A WRITE stores its payload and is acknowledged, a READ_REQ is answered, and responses and acknowledgements return tags. A
WRITE packet that follows its transfer, waits for nothing and lies in memory stores its payload at its address and nowhere
else, with the lines of its mask detected, and is acknowledged; one whose target is no memory stores nothing and is
acknowledged with status 2. A READ_REQ of a valid length is answered by one response of its transfer and index, and without
device errors memory stays as it is; one of another length is a violation. The response to an awaited read gives the waiting transfer its bytes and line flags, and its last one closes
the read; with status 2 the requesting pass is abandoned with MALFORMED; that to the reading back of an export adds its bytes to
those read. A WRITE_ACK returns the tags of its packet's
transfers, and closes the transfer with its last packet. A response or acknowledgement that nothing awaits is late.
(07_backward_pass.md R150; 08_memory_tiers.md R176; 09_gatherers_and_buffers.md R204; 09_gatherers_and_buffers.md R213;
11_plynar_fabric.md R261; 11_plynar_fabric.md R262; 11_plynar_fabric.md R272) -/
def Obligations.RemoteReadsAndWritesComplete : Prop :=
  (∀ (s v w : State) (port : Nat) (p : Packet), Received s port 0x01 p v → writeHold p s = false →
    trackIn port p (if v.mpaOk p.addr p.payload.length then payRemote p.addr p.payload.length v else v) = .ok w →
    (w.mpaOk p.addr p.payload.length = false → Answers (.write port) s (fun u => Queued u p.src p.xid 0x04 ∧
      u = { w with fab := { w.fab with ports := u.fab.ports } })) ∧
    (w.mpaOk p.addr p.payload.length = true → Answers (.write port) s (fun u => Acked p u ∧ u.tiles = w.tiles ∧
      u.passes = w.passes ∧ (PlainMemory w → w.logsWrite p = false →
      MemKept w u (fun a => p.addr / 64 * 64 ≤ a ∧ a < p.addr + p.payload.length + 63) ∧
      (p.mask = 0 → Stored u p.addr p.payload ∧ MemKept w u (fun a => p.addr ≤ a ∧ a < p.addr + p.payload.length)) ∧
      (∀ l k, (l, k) ∈ (linesOf p.addr p.payload.length).zipIdx → p.mask.testBit k = true → w.mpaClass l ≠ 0 →
        l ∈ u.memory.marks) ∧
      Queued u p.src p.xid 0x04)))) ∧
  (∀ (s : State) (port : Nat) (b : List Byte), s.alive = true → port < 18 →
    s.nextRequest port (s.port port).reqs [] = some b →
    let p := parsePacket b
    let v := s.updPort port (fun q => { q with reqs := q.reqs.erase b })
    let y := if v.mpaOk p.addr p.readLen then payRemote p.addr p.readLen (noteRead p.addr p.readLen 3 v.oldestStep v) else v
    (isNode p.src && newer (s.incOf p.src) p.inc) = false → (isNode p.src && newer p.inc (s.incOf p.src)) = false →
    (readLenOk p.readLen = true → y.stw.fault = none → Answers (.readReq port) s (fun u =>
      (∃ q, ∃ o ∈ (u.port q).txq, o.credit = some port ∧
        o.bytes = (y.ownPacket 0x03 p.src p.xid p.idx (p.flags / 4 % 4 * 4) (readAnswer p p.readLen y) 0 0).bytes) ∧
      (s.memory.errs = [] → u.memory.mem = s.memory.mem) ∧ u.tiles = s.tiles ∧ u.gath = s.gath ∧ u.sync = s.sync)) ∧
    (readLenOk p.readLen = false → Answers (.readReq port) s (fun u =>
      u.rg .fabPortViol port = min (s.rg .fabPortViol port + 1) (256 ^ RegName.fabPortViol.row.bytes - 1) ∧
      u.memory = s.memory ∧ u.tiles = s.tiles ∧ u.gath = s.gath))) ∧
  (∀ (s v : State) (port : Nat) (p : Packet), Received s port 0x03 p v → v.fab.cancelled.contains (p.src, p.xid) = false →
    (v.readOf p.src p.xid = none → Answers (.readResp port) s (fun u => Late port v u)) ∧
    (∀ i x, v.readOf p.src p.xid = some i → i.back = false → p.idx = i.got → v.readParts p.src p.xid p.idx = [x] →
      (p.specNum 22 1 ≠ 2 → Answers (.readResp port) s (fun u =>
        u.gath.xfers = v.gath.xfers.map (fun y => if y.id = x.id then
          { y with st := .arrived, data := p.payload.take x.bytes,
                   detected := ((List.range 64).map p.mask.testBit).take x.lines } else y) ∧
        (p.last = true → ∀ j ∈ u.fab.inn, i.same j = false) ∧
        u = { v with gath := { v.gath with xfers := u.gath.xfers }, fab := { v.fab with inn := u.fab.inn } })) ∧
      (p.specNum 22 1 = 2 → ∀ q, v.pass? x.pass = some q → q.ending = none →
        Answers (.readResp port) s (fun u => Abandoned q .malformed x.tile u))) ∧
    (∀ i h, v.readOf p.src p.xid = some i → i.back = true → p.idx = i.got → p.specNum 22 1 ≠ 2 → v.hrv.op = some h →
      Answers (.readResp port) s (fun u => u.hrv.op = some { h with back := h.back ++ p.payload } ∧
        (p.last = true → ∀ j ∈ u.fab.inn, i.same j = false) ∧
        u = { v with hrv := { v.hrv with op := u.hrv.op }, fab := { v.fab with inn := u.fab.inn } }))) ∧
  (∀ (s v : State) (port : Nat) (p : Packet), Received s port 0x04 p v →
    (v.fab.out.find? (fun o => o.node == p.src && o.xid == p.xid) = none →
      Answers (.writeAck port) s (fun u => Late port v u)) ∧
    (∀ o, v.fab.out.find? (fun o => o.node == p.src && o.xid == p.xid) = some o → p.specNum 22 1 ≠ 2 →
      Answers (.writeAck port) s (fun u =>
        (∀ x ∈ u.gath.xfers, ¬ (x.write = true ∧ x.st ≠ .waiting ∧ x.node = o.node ∧ x.block = some (o.xid, p.idx))) ∧
        (o.packets ≤ o.acked + 1 → v.waitsFor o.node o.xid = false →
          ∀ y ∈ u.fab.out, ¬ (y.xid = o.xid ∧ y.node = o.node)) ∧
        (o.acked + 1 < o.packets → ∃ y ∈ u.fab.out, y.xid = o.xid ∧ y.node = o.node ∧ y.acked = o.acked + 1 ∧
          y.waits = o.waits.filter (fun w => w.1 != p.idx)) ∧
        (o.purpose ≠ .export_ → u.memory.mem = v.memory.mem))))

/-- Signals, cancellations, HOLDOFF, ABANDON, NAK_PKT and claims act on the tallies, transfers and records that they name. A
SIGNAL packet adds its signal behind the earlier transfers of its source on its lane. A BARE_SIGNAL adds to its tally at once.
A CANCEL_NOTICE drops the unsent responses to its read and answers each with a CANCEL_ACK, which returns the read's tags. A
HOLDOFF beyond the delay last applied for its stack and episode extends the transfers with its source by the increase, and any
other changes nothing. An ABANDON or NAK_PKT closes the transfer that it names, and an ABANDON of a read that this module
serves drops the responses not yet sent. A CLAIM of a newer incarnation is recorded,
one not newer is refused. A CLAIM_REFUSE of the claim in progress restores the previous node id and record, and its descriptor
is not admitted with reason 12. (09_gatherers_and_buffers.md R218; 10_tallies_and_collectives.md R232;
10_tallies_and_collectives.md R234; 11_plynar_fabric.md R265; 11_plynar_fabric.md R270; 11_plynar_fabric.md R272;
11_plynar_fabric.md R275; 11_plynar_fabric.md R276; 11_plynar_fabric.md R277) -/
def Obligations.SignalsAndMessagesOfTheFabric : Prop :=
  (∀ (s v : State) (port : Nat) (p : Packet), Received s port 0x05 p v → p.hasSig = true →
    Answers (.signal port) s (fun u => ∃ x : PendSig, u.sync.signals = v.sync.signals ++ [x] ∧ x.source = .remote p.src ∧
      x.dest = none ∧ x.node = 0 ∧ x.tally = p.tally ∧ x.inc = p.sigInc ∧
      (∀ i ∈ v.fab.inn, i.isRead = false → i.src = p.src → i.vl = 0 → i.xid ∈ x.fence) ∧
      u = { v with sync := { v.sync with signals := u.sync.signals } })) ∧
  (∀ (s v : State) (port : Nat) (p : Packet), Received s port 0x06 p v → p.hasSig = true →
    let y := v.mtally p.tally
    let i := BitVec.ofNat 32 p.sigInc
    Answers (.bareSignal port) s (fun u =>
      (y.gate = false → (y.count + i - y.ref).msb = false → (u.mtally p.tally).count = y.count + i) ∧
      (y.gate = false → (y.count + i - y.ref).msb = true → u.mtally p.tally = y ∧ u.rgBit .tilSyncStatus 1 = true) ∧
      (y.gate = true → y.count = 0 → (u.mtally p.tally).count = 1) ∧
      u.memory.mem = v.memory.mem ∧ u.gath = v.gath)) ∧
  (∀ (s v : State) (port : Nat) (p : Packet), Received s port 0x30 p v → Answers (.cancelNotice port) s (fun u =>
    (∀ k, k < 19 → ∀ o ∈ (u.port k).txq, o.answers p.src p.xid = false) ∧
    (∀ k, k < 19 → ∀ o ∈ (v.port k).txq, o.answers p.src p.xid = true → Queued u p.src p.xid 0x31) ∧
    u = { v with fab := { v.fab with ports := u.fab.ports, serving := u.fab.serving } })) ∧
  (∀ (s v : State) (port : Nat) (p : Packet), Received s port 0x31 p v → Answers (.cancelAck port) s (fun u =>
    ∀ x ∈ v.readParts p.src p.xid p.idx, ∀ y ∈ u.gath.xfers, y.id ≠ x.id)) ∧
  (∀ (s v : State) (port : Nat) (p : Packet), Received s port 0x32 p v →
    let d := p.specNum 22 4
    let old := v.lastDelay p.src (p.specNum 26 1) (p.specNum 27 1)
    (d ≤ old → Answers (.holdoff port) s (fun u => u = v)) ∧
    (old < d → Answers (.holdoff port) s (fun u =>
      u.lastDelay p.src (p.specNum 26 1) (p.specNum 27 1) = d ∧ Counted v u .evtRaised ∧
      u.fab.inn = v.fab.inn.map (fun i => if i.src = p.src then { i with extend := i.extend + (d - old) } else i) ∧
      u.fab.out = v.fab.out.map (fun o => if o.node = p.src then { o with extend := o.extend + (d - old) } else o) ∧
      u.memory = v.memory ∧ u.gath = v.gath))) ∧
  (∀ (s v : State) (port : Nat) (p : Packet) (o : OutXfer),
    v.fab.out.find? (fun o => o.node == p.src && o.xid == p.xid) = some o →
    (Received s port 0x35 p v → Answers (.nakPkt port) s (fun u => ∀ y ∈ u.fab.out, ¬ (y.xid = o.xid ∧ y.node = o.node))) ∧
    (Received s port 0x34 p v → Answers (.abandon port) s (fun u => ∀ y ∈ u.fab.out, ¬ (y.xid = o.xid ∧ y.node = o.node)))) ∧
  (∀ (s v : State) (port : Nat) (p : Packet), Received s port 0x34 p v →
    v.fab.out.find? (fun o => o.node == p.src && o.xid == p.xid) = none → v.readOf p.src p.xid = none →
    (∀ i, v.openOf p = some i → Answers (.abandon port) s (fun u => ∀ j ∈ u.fab.inn, i.same j = false)) ∧
    (v.openOf p = none → v.serves p.src p.xid = true → Answers (.abandon port) s (fun u => Counted v u .evtRaised ∧
      ∀ k, k < 19 → ∀ o ∈ (u.port k).txq, o.answers p.src p.xid = false))) ∧
  (∀ (s v : State) (port : Nat) (p : Packet), Received s port 0x38 p v →
    let n := p.specNum 22 2
    let i := p.specNum 24 1
    (newer i (v.incOf n) = true → isNode n = true → Answers (.claim port) s (fun u => u.incOf n = i ∧
      (∀ o ∈ u.fab.out, o.node ≠ n) ∧ (∀ j ∈ u.fab.inn, j.src ≠ n))) ∧
    (v.incOf n = i ∨ newer (v.incOf n) i = true → newer i (v.incOf n) = false → Answers (.claim port) s (fun u => (∃ xid, Queued u n xid 0x39) ∧
      u = { v with fab := { v.fab with ports := u.fab.ports, nextXid := u.fab.nextXid } }))) ∧
  (∀ (s v : State) (port : Nat) (p : Packet) (c : ClaimOp), Received s port 0x39 p v → v.fab.claim = some c →
    c.node = p.specNum 22 2 → c.inc = p.specNum 24 1 → Answers (.claimRefuse port) s (fun u =>
      u.rg .fabNodeId = c.prev.toNat ∧ (c.record < 256 → u.incOf c.node = c.record) ∧ u.fab.claim = none ∧
      (NoDisable v → ∀ i, v.inflight? c.desc = some i → PostedAs i v u (fun e => e.status = .notAdmitted ∧ e.reason = 12))))

/-- TIL_MTAL_COUNT sets the selected tally's count and reference and TIL_MTAL_CFG its mode, unless a wait or trigger uses it.
A host's write of TIL_MTAL_COUNT sets the count and the reference of the tally that TIL_MTAL_SEL selects and clears its double
count; a write of TIL_MTAL_CFG sets its mode, a change clearing the count. While a pending WAIT or collective trigger names
the tally each only sets the status flag. No other tally, tile or memory byte changes. (10_tallies_and_collectives.md R227;
10_tallies_and_collectives.md R249; 10_tallies_and_collectives.md R250) -/
def Obligations.ModuleTalliesAreSetByTheHost : Prop :=
  ∀ (s : State) (value : Word), HostWrite s →
    let v := dropSplit s
    let k := v.rgBits .tilMtalSel 0 16
    let y := v.mtally k
    (v.tallyInUse k = true →
      Answers (.tilMtalCountWrite value) s (fun u => u.rgBit .tilSyncStatus 0 = true ∧ RegsKept v u [⟨.tilSyncStatus, 0, 0⟩] ∧
        u = { v with regs := u.regs }) ∧
      Answers (.tilMtalCfgWrite value) s (fun u => u.rgBit .tilSyncStatus 0 = true ∧ RegsKept v u [⟨.tilSyncStatus, 0, 0⟩] ∧
        u = { v with regs := u.regs })) ∧
    (v.tallyInUse k = false →
      Answers (.tilMtalCountWrite value) s (fun u => u.mtally k = { y with count := value, ref := value, double := 0 } ∧
        (∀ j, j ≠ k → u.mtally j = v.mtally j) ∧ u = { v with sync := { v.sync with mtal := u.sync.mtal } }) ∧
      Answers (.tilMtalCfgWrite value) s (fun u =>
        u.mtally k = (if y.gate = value.getLsbD 0 then y else { y with gate := value.getLsbD 0, count := 0 }) ∧
        (∀ j, j ≠ k → u.mtally j = v.mtally j) ∧ u = { v with sync := { v.sync with mtal := u.sync.mtal } }))

/-- Groups are checked and enabled, commands start on their triggers, take agreeing chunks, complete, and fail at their
deadline. A host enables a disabled group that passes R239 at command 0 and flags one that does not, and disables a group. An
idle group whose trigger tally holds need, and whose input and output can be served, starts its next command: the need is taken, so
that the tally's reference stays, the deadline set, an empty command sends a chunk to every other member, and an all-to-all places
its own part. An agreeing COLL chunk is kept; any other is counted as
a violation and leaves the collective engine as it is. A running command that has all it needs adds its counts to its layer,
signals its done tally and moves the group on. One past its deadline fails the group, marks every open attempt and is
reported. (10_tallies_and_collectives.md R239; 10_tallies_and_collectives.md R240; 10_tallies_and_collectives.md R241;
10_tallies_and_collectives.md R242; 10_tallies_and_collectives.md R243; 10_tallies_and_collectives.md R244;
10_tallies_and_collectives.md R250; 11_plynar_fabric.md R260) -/
def Obligations.CollectivesRunTheirCommands : Prop :=
  (∀ (s : State) (g : Nat), HostWrite s → g < 4096 →
    let v := dropSplit s
    (∀ j, j ≠ g → ∃ u, exec (.collGroupEnable g) s = .next u ∧ u.group j = s.group j) ∧
    ((v.group g).st = .disabled → Answers (.collGroupEnable g) s (fun u =>
      (v.collValid g = true → u.group g = { Group.init with st := .idle, since := s.aon } ∧ u.coll.cfgErr = false) ∧
      (v.collValid g = false → u.group g = v.group g ∧ u.coll.cfgErr = true) ∧ u = { v with coll := u.coll })) ∧
    ((v.group g).st ≠ .disabled → Answers (.collGroupEnable g) s (fun u => u = v)) ∧
    Answers (.collGroupDisable g) s (fun u => u.group g = .init ∧ (∀ j, j ≠ g → u.group j = v.group j) ∧
      u = { v with coll := { v.coll with groups := u.coll.groups } })) ∧
  (∀ (s : State) (g : Nat), s.alive = true → (s.group g).st = .idle → (s.group g).cmd < (s.collEntry g).count →
    let e := s.collEntry g
    let c := s.collCmd e (s.group g).cmd
    (s.triggerMet c.trigger c.need = false → Answers (.collCommandStart g) s (fun u => u = s)) ∧
    (s.triggerMet c.trigger c.need = true → s.inputHeld e c = false → s.outputHeld e c = false →
      Answers (.collCommandStart g) s (fun u =>
      (u.group g).st = .running ∧ (u.group g).cmd = (s.group g).cmd ∧
      (u.group g).deadline = (if e.timeout = 0 then none else some (s.aon + e.timeout)) ∧
      ((s.mtally c.trigger).gate = false →
        u.mtally c.trigger = { s.mtally c.trigger with count := (s.mtally c.trigger).count - BitVec.ofNat 32 c.need }) ∧
      ((s.mtally c.trigger).gate = true → (u.mtally c.trigger).count = 0) ∧
      (c.elems = 0 → u.memory = s.memory ∧ ∀ m ∈ e.others, ∃ xid, Queued u (s.collMember e m) xid 0x10) ∧
      (c.elems ≠ 0 → c.op = 4 → (s.group g).chunks = [] → PlainMemory s →
        s.mpaOk (c.output + e.own * c.partBytes e.n) (c.partBytes e.n) = true →
        Stored u (c.output + e.own * c.partBytes e.n)
          (bytesAt s.memory.mem (c.input + e.own * c.partBytes e.n) (c.partBytes e.n)))))) ∧
  (∀ (s v : State) (port : Nat) (p : Packet), Received s port 0x10 p v → collHold p s = false →
    let g := p.specNum 22 2
    let x : CollChunk := { member := p.specNum 30 2, chunk := p.specNum 26 4, data := p.payload }
    (v.collAgrees p = true → Answers (.coll port) s (fun u => x ∈ (u.group g).chunks ∧ (u.group g).st = (v.group g).st ∧
      ((v.group g).st = .idle → (u.group g).chunks = (v.group g).chunks ++ [x] ∧
        u = { v with coll := { v.coll with groups := u.coll.groups } }))) ∧
    (v.collAgrees p = false → Answers (.coll port) s (fun u => u.coll = v.coll ∧ u.memory = v.memory ∧
      u.rg .fabPortViol port = min (v.rg .fabPortViol port + 1) (256 ^ RegName.fabPortViol.row.bytes - 1)))) ∧
  (∀ (s : State) (g : Nat), s.alive = true → (s.group g).st = .running →
    let e := s.collEntry g
    let c := s.collCmd e (s.group g).cmd
    ((s.group g).complete e c = true → Answers (.collCommandDone g) s (fun u =>
      u.group g = { s.group g with st := .idle, cmd := (s.group g).cmd + 1, chunks := [], deadline := none, reduced := false,
                                   since := s.aon, counts := .zero, ack := none } ∧
      (∃ x : PendSig, u.sync.signals = s.sync.signals ++ [x] ∧ x.source = .coll ∧ x.node = 0 ∧ x.dest = none ∧
        x.tally = c.done ∧ x.inc = c.inc ∧ x.fence = [] ∧ x.lines = (s.group g).ack.toList) ∧
      (c.role ≤ 4 → MemKept s u (LayerBytes (s.collWatch e) c.layer)) ∧ u.tiles = s.tiles ∧ u.regs = s.regs)) ∧
    ((s.group g).complete e c = false → Answers (.collCommandDone g) s (fun u => u = s)) ∧
    (∀ d, (s.group g).deadline = some d → d < s.aon → Answers (.collGroupTimeout g) s (fun u =>
      (u.group g).st = .failed ∧ (u.group g).deadline = none ∧ (∀ a ∈ u.steps.attempts, a.groupFailed = true) ∧
      (s.rg .tilDumpBase = 0 → Counted s u .evtRaised ∧ u.rgBit .tilSyncStatus 3 = true ∧ u.memory = s.memory))))

/-- A job starts and ends by STP_JOB_CTL, a rollback ends every open attempt, and HRV_REMIRROR arms the module. A host's job
start, when a job may start, runs a job with the key of STP_JOB_KEY, no attempts, sequence 0, the tried attempts of a received
recovery stream and the admission values latched, retires the tiles that awaited the job boundary, and clears the valid bits of
the last sealed step and verdict; otherwise it only sets the configuration error. A job end without open attempts ends the job and otherwise sets the error. A rollback with
no attempt in CHECK leaves no attempt that was open and completes their STEP_CLOSE with ABORTED; with one it only sets the
error. HRV_REMIRROR arms a module that is not armed. (11_plynar_fabric.md R265; 12_steps_seal_and_replay.md R281;
12_steps_seal_and_replay.md R283; 12_steps_seal_and_replay.md R296; 13_standins_and_harvests.md R324;
13_standins_and_harvests.md R326; 14_host_rings.md R357; 17_events_status_limits.md R431; 18_register_map.md R443) -/
def Obligations.JobsStartEndAndRollBack : Prop :=
  ∀ (s : State), HostWrite s →
    let v := dropSplit s
    let err (u : State) : Prop := u.rgBit .stpStatus 11 = true ∧ RegsKept v u [⟨.stpStatus, 0, 0⟩] ∧ u = { v with regs := u.regs }
    (v.mayStart = false → Answers .stpJobStart s err) ∧
    (v.mayStart = true → Answers .stpJobStart s (fun u =>
      let b := tileRetirementApplyOp (latchBoundary v)
      u.steps.job = true ∧ u.steps.key = BitVec.ofNat 64 (v.rg .stpJobKey) ∧ u.steps.attempts = [] ∧ u.steps.seqNo = 0 ∧
      u.steps.tried = v.standinTries ∧ u.steps.firstStep = none ∧ u.host.admitCfg = some v.admitNow ∧
      u.stw.nv = b.stw.nv ∧ u.rgBit .stpLastSealed 40 = false ∧ u.rgBit .stpLastVerdict 49 = false ∧ u.steps.version = v.steps.version ∧
      RegsKept b u [⟨.stpLastSealed, 0, 0⟩, ⟨.stpLastVerdict, 0, 0⟩] ∧ u.memory = v.memory ∧ u.tiles = v.tiles)) ∧
    (v.steps.job = true → v.steps.attempts = [] → Answers .stpJobEnd s (fun u =>
      u = { v with steps := { v.steps with job := false } })) ∧
    (v.steps.job = false ∨ v.steps.attempts ≠ [] → Answers .stpJobEnd s err) ∧
    (v.checking.isSome = true → Answers .stpRollback s err) ∧
    (v.checking = none → Answers .stpRollback s (fun u =>
      (v.openAttempts = [] → u = v) ∧ u.steps.version = v.steps.version ∧
      ∀ a ∈ v.openAttempts, (∀ b ∈ u.steps.attempts, b.step ≠ a.step) ∧ Closed a.step .aborted v u)) ∧
    (v.steps.remirror = false → Answers .hrvRemirror s (fun u =>
      u = { v with steps := { v.steps with remirror := true, remirrorCopied := false } })) ∧
    (v.steps.remirror = true → Answers .hrvRemirror s (fun u => u = v))

/-- An attempt enters CHECK with its record written, is evaluated, and is sealed or refused by the root, the host or a packet.
STEP_ENTER_CHECK of an attempt that may enter CHECK puts it there and writes its status and multiply-accumulates to the step
record; of any other it changes nothing. SEAL_EVALUATE of a root without children seals an attempt that is ready within its
policy and refuses any other; of another module without children it sends its report to its parent once. A host's verdict
seals or refuses the attempt in CHECK that it names, once every tithe sample of the step has been tested, and otherwise sets the
error. A SEAL verdict packet does the same, or is late; a report packet of a child is kept. (12_steps_seal_and_replay.md R284; 12_steps_seal_and_replay.md R285;
12_steps_seal_and_replay.md R288; 12_steps_seal_and_replay.md R289; 12_steps_seal_and_replay.md R290;
12_steps_seal_and_replay.md R291; 12_steps_seal_and_replay.md R292; 12_steps_seal_and_replay.md R293;
12_steps_seal_and_replay.md R294; 12_steps_seal_and_replay.md R295; 12_steps_seal_and_replay.md R298) -/
def Obligations.StepsAreCheckedAndDecided : Prop :=
  (∀ (s : State) (step : Nat) (a : Attempt), s.attempt? step = some a →
    (s.mayCheck a = false → Answers (.stepEnterCheck step) s (fun u => u = s)) ∧
    (s.mayCheck a = true → Answers (.stepEnterCheck step) s (fun u =>
      (∃ b, u.attempt? step = some b ∧ b.st = .check ∧ b.num = a.num ∧ b.step = a.step) ∧ u.tiles = s.tiles ∧
      (PlainMemory s → s.mpaOk (s.recAddr a) 0x1000 = true →
        u.memNum (s.recAddr a + 0x06) 1 = 2 ∧ u.memNum (s.recAddr a + 0x48) 8 = a.mac4 % 2 ^ 64 ∧
        u.memNum (s.recAddr a + 0x50) 8 = a.mac8 % 2 ^ 64 ∧ u.memNum (s.recAddr a + 0x58) 8 = a.mac16 % 2 ^ 64))) ∧
    (s.mayEvaluate a = true → s.sealKids = [] → a.sent = false →
      let r := s.ownReport a
      (s.sealParent = 0 → r.ready = true → r.sum ≤ a.policy → Answers (.sealEvaluate step) s (Sealed a s)) ∧
      (s.sealParent = 0 → r.ready = false ∨ a.policy < r.sum → Answers (.sealEvaluate step) s (Refused a s)) ∧
      (s.sealParent ≠ 0 → Answers (.sealEvaluate step) s (fun u =>
        (∃ b, u.attempt? step = some b ∧ b.report = some r ∧ b.sent = true ∧ b.st = .check) ∧
        (∃ xid, Queued u s.sealParent xid 0x11) ∧ u.memory = s.memory))) ∧
    (s.mayEvaluate a = false → Answers (.sealEvaluate step) s (fun u => u = s))) ∧
  (∀ (s : State) (value : Quad), HostWrite s →
    let v := dropSplit s
    let which := v.checkingAs (bits value.toNat 0 40) (bits value.toNat 40 8)
    (which = none → Answers (.stpVerdictWrite value) s (fun u => u.rgBit .stpStatus 11 = true ∧
      RegsKept v u [⟨.stpStatus, 0, 0⟩] ∧ u = { v with regs := u.regs })) ∧
    (∀ a, which = some a → Answers (.stpVerdictWrite value) s (Decided a (value.getLsbD 48) v))) ∧
  (∀ (s v : State) (port : Nat) (p : Packet), Received s port 0x11 p v → p.payload.length = 16 →
    let step := p.specNum 24 5
    let num := p.specNum 23 1
    (p.specNum 22 1 = 1 → v.checkingAs step num = none → Answers (.sealReport port) s (fun u => Late port v u)) ∧
    (∀ a, p.specNum 22 1 = 1 → v.checkingAs step num = some a → Answers (.sealReport port) s (Decided a (bit (p.specNum 29 1) 0) v)) ∧
    (p.specNum 22 1 = 0 → v.steps.job = true → v.lastSealed.all (· < step) = true → num = v.numberOf step →
      v.attempt? step = none → Answers (.sealReport port) s (fun u =>
        (∃ r ∈ u.steps.reports, r.child = p.src ∧ r.step = step ∧ r.num = num ∧ r.ready = bit (p.specNum 29 1) 0 ∧
          r.sum = numIn p.payload 0 8 ∧ r.count = numIn p.payload 8 4) ∧
        u = { v with steps := { v.steps with reports := u.steps.reports } })))

/-- Mirror sends, digests and tithe samples advance their attempts, and MIRROR and RECOVERY packets are written or checked.
MIRROR_SEND_ENTRY takes the need of the next ready entry and either sends its bytes to the partner or, without a twin or
bytes, passes it over. DIGEST_EXCHANGE sends the digests of the attempt in CHECK once. TITHE_SAMPLE_TEST takes the oldest
sample, counts a divergence when the error exceeds the threshold, and writes only the layer's entry; after the last sample a
verdict that waited is applied. A MIRROR packet of data is written at its target and acknowledged, digests of the step in CHECK
are kept and acknowledged, others are late. A RECOVERY packet of shard or side data is written, counted and acknowledged; the end
packet sends its signal, and when that is applied a payload that agrees with the counts ends the stream as received, and one that
does not sets the status flag. Each waits for memory that does not yet serve it. (04_scaling_and_watch.md R81; 04_scaling_and_watch.md R83;
12_steps_seal_and_replay.md R302; 12_steps_seal_and_replay.md R305; 12_steps_seal_and_replay.md R306;
12_steps_seal_and_replay.md R309; 12_steps_seal_and_replay.md R311; 13_standins_and_harvests.md R319;
13_standins_and_harvests.md R322; 13_standins_and_harvests.md R323) -/
def Obligations.TwinsMirrorTestAndRecover : Prop :=
  (∀ (s : State) (a : Attempt), s.alive = true → s.openAttempts.find? s.sendReady = some a → s.attempt? a.step = some a →
    s.openAttempts.any (·.mirrorBusy) = false →
    let e := s.sendEntry a
    Answers .mirrorSendEntry s (fun u =>
      ((s.mtally e.tally).gate = false →
        (u.mtally e.tally).count = (s.mtally e.tally).count - BitVec.ofNat 32 e.need) ∧
      (s.twin a = false ∨ e.len = 0 → (∃ b, u.attempt? a.step = some b ∧ b.mirrorPos = a.mirrorPos + 1) ∧ u.fab = s.fab) ∧
      (s.twin a = true → e.len ≠ 0 → (∃ b, u.attempt? a.step = some b ∧ b.mirrorBusy = true) ∧
        ∃ o ∈ u.fab.out, o.purpose = .mirrorSend ∧ o.node = s.partner ∧ o.vl = 3) ∧
      (s.memory.errs = [] → u.memory.mem = s.memory.mem))) ∧
  (∀ (s : State) (a : Attempt), s.alive = true → s.checking = some a →
    let held := s.engineHeld (s.digestBase a false) (s.digestBytes false) || s.engineHeld (s.digestBase a true) (s.digestBytes true)
    (s.twin a = true → a.digestSent = false → held = false → Answers .digestExchange s (fun u =>
      (∃ b ∈ u.steps.attempts, b.step = a.step ∧ b.digestSent = true) ∧ (s.memory.errs = [] → u.memory.mem = s.memory.mem) ∧
      (mapBlocks (s.mapSegs false) ≠ 0 → ∃ o ∈ u.fab.out, o.purpose = .digests ∧ o.node = s.partner ∧ o.vl = 3))) ∧
    (s.twin a = false ∨ a.digestSent = true ∨ held = true → Answers .digestExchange s (fun u => u = s))) ∧
  (∀ (s : State) (a : Attempt) (x : TitheSample) (xs : List TitheSample), s.alive = true →
    s.openAttempts.find? (fun b => b.samples != []) = some a → s.attempt? a.step = some a → a.samples = x :: xs →
    let held := (titheReads s (watchOf a) x).any (fun r => s.engineHeld r.1 r.2)
    let ps := tithePairs s (watchOf a) x
    let t : FVal := .fin false 1 (titheExp s (watchOf a) a x)
    let b := testSample a x s
    (held = true → Answers .titheSampleTest s (fun u => u = s)) ∧
    (held = false → s.memory.errs = [] → a.verdict = none → Answers .titheSampleTest s (fun u =>
      (∃ b, u.attempt? a.step = some b ∧ b.samples = xs ∧
        b.diverged = a.diverged + (if ps.all (fun p => (val32 p.1).isFin && (val32 p.2).isFin) && t.lt (val32 (titheError ps))
                                   then 1 else 0)) ∧
      MemKept s u (LayerBytes (watchOf a) x.layer) ∧ u.tiles = s.tiles)) ∧
    (∀ w c, held = false → a.verdict = some w → xs = [] → b.attempt? a.step = some c →
      Answers .titheSampleTest s (fun u => if w.pass then Sealed c b u else Refused c b u))) ∧
  (∀ (s v w : State) (port : Nat) (p : Packet), Received s port 0x20 p v → mirrorHold p s = false → trackIn port p v = .ok w →
    (p.kind = 0 ∨ p.kind = 1 ∨ p.kind = 6 ∨ p.kind = 7 →
      ((mirrorTarget p w).filter (fun a => w.mpaOk a p.payload.length) = none → Answers (.mirror port) s (fun u =>
        Queued u p.src p.xid 0x04 ∧ u = { w with fab := { w.fab with ports := u.fab.ports } })) ∧
      (∀ a, mirrorTarget p w = some a → w.mpaOk a p.payload.length = true →
        Answers (.mirror port) s (fun u => Acked p u ∧ (PlainMemory w → Landed p a w u) ∧
          (p.kind ≠ 1 → p.kind ≠ 6 → u.steps = w.steps) ∧
          (p.kind = 6 → (p.addr + p.payload.length) % blockSize = 0 → p.addr / blockSize ∉ u.steps.repairIn))))) ∧
  (∀ (s v : State) (port : Nat) (p : Packet), Received s port 0x20 p v → 2 ≤ p.kind → p.kind ≤ 5 →
    let wanted := v.checking.any (fun a => a.step % 256 == p.specNum 31 1)
    (∀ w, wanted = true → trackIn port p v = .ok w → Answers (.mirror port) s (fun u =>
      (∃ d ∈ u.steps.digests, d.step = p.specNum 31 1 ∧ d.kind = p.kind ∧ d.index = p.addr ∧ d.data = p.payload) ∧
      Queued u p.src p.xid 0x04)) ∧
    (wanted = false → Answers (.mirror port) s (fun u => Late port v u))) ∧
  (∀ (s v w : State) (port : Nat) (p : Packet), Received s port 0x21 p v → recoveryHold p s = false →
    (p.kind = 0 ∨ p.kind = 2 → v.recvOk = true → trackIn port p (beginStream v) = .ok w →
      ∀ a, recoveryTarget p w = some a → w.mpaOk a p.payload.length = true →
        Answers (.recovery port) s (fun u => Acked p u ∧ (PlainMemory w → Landed p a w u) ∧
          u.hrv.gotBlocks = w.hrv.gotBlocks + (if p.kind = 0 then p.payload.length else 0) ∧
          u.hrv.gotSide = w.hrv.gotSide + (if p.kind = 2 then p.payload.length else 0))) ∧
    (p.kind = 0 ∨ p.kind = 2 ∨ (p.kind = 3 ∧ p.payload.length = 64) → v.recvOk = false → trackIn port p v = .ok w →
      Answers (.recovery port) s (fun u => Queued u p.src p.xid 0x04 ∧ u = { w with fab := { w.fab with ports := u.fab.ports } })) ∧
    (p.kind = 3 → p.payload.length = 64 → p.hasSig = true → trackIn port p v = .ok w → w.recvOk = true →
      Answers (.recovery port) s (fun u => Queued u p.src p.xid 0x04 ∧ u.hrv = (beginStream w).hrv ∧
        ∃ x : PendSig, u.sync.signals = w.sync.signals ++ [x] ∧ x.stream = some p.payload ∧ x.source = .remote p.src ∧
          x.dest = none ∧ x.tally = w.rgBits .hrvRecvCfg 0 16 ∧ x.inc = 1))) ∧
  (∀ (s : State) (k : Nat) (x : PendSig) (b : List Byte), s.alive = true → s.ownSignals[k]? = some x → s.fenceMet x = true →
    s.signalsFirst x = false → x.stream = some b → x.desc = none →
    let w := (applySignal x.source x.dest x.tally x.inc { s with sync := { s.sync with signals := s.sync.signals.erase x } }).1
    Answers (.tallySignalApply k) s (fun u => u.hrv.streamEnded = true ∧
      (if s.hrv.gotBlocks = numIn b 20 4 * blockSize ∧ s.hrv.gotLogs = numIn b 24 4 ∧ s.hrv.gotSide = numIn b 28 8
       then u.hrv.recovery = .received ∧ u.steps.facts = s.streamFacts b ∧ Counted w u .evtRaised
       else u.hrv.recovery = s.hrv.recovery ∧ u.rgBit .hrvStatus 6 = true)))

/-- Power-up boots a verified slot or holds, resets keep what R369 keeps, rails off is a fault, and D3hot holds the link's
work. POWER_ON of an unpowered module samples the straps; a present module boots the slot that verifies and is good, with its
link up unless PERST# is asserted, and with none sets the failure record and stays off. POWER_OFF keeps only the non-volatile
contents, pins and output. MAIN_RAILS_OFF ends with a fault held, the main rails and the link off. A module reset releases the
fault, drops the passes and accepted work, keeps the registers that R369 names and resets the others, keeps every bin's bytes
and the bytes of trained memories, the check bytes of their enabled ranges among them, and sets the link as its cause says. PERST_DEASSERT lets the link train. D3hot stops
requests; D0 sends what was held. (14_host_rings.md R345; 14_host_rings.md R365; 15_steward_power_security.md R369;
15_steward_power_security.md R371; 15_steward_power_security.md R372; 15_steward_power_security.md R373;
15_steward_power_security.md R386; 15_steward_power_security.md R387; 16_connectors_and_electrical.md R402;
16_connectors_and_electrical.md R412) -/
def Obligations.PowerAndResetsLeaveTheirState : Prop :=
  (∀ (s : State) (f : PowerOnF),
    (s.stw.powered = true → Answers (.powerOn f) s (fun u => u = s)) ∧
    (s.stw.powered = false → Answers (.powerOn f) s (fun u =>
      u.stw.powered = true ∧ u.stw.present = f.present ∧ u.stw.slotId = f.sheafSlot ∧ u.stw.fallow = f.fallow ∧
      u.stw.fuse = s.stw.fuse ∧ u.stw.flash = s.stw.flash ∧ u.cyc = 0 ∧ u.passes = [] ∧ u.tiles = [] ∧ u.memory.mem = [] ∧
      u.pending = s.pending ∧ u.stw.nv.retired = s.stw.nv.retired ∧
      (f.present = false → u.stw.good = false ∧ u.stw.mainOn = false) ∧
      (∀ k, f.present = true → s.bootResult.slot = some k → u.stw.good = true ∧ u.stw.mainOn = true ∧ u.stw.bootSlot = k ∧
        u.host.linkUp = !s.stw.perst) ∧
      (f.present = true → s.bootResult.slot = none → u.stw.good = false ∧ u.stw.mainOn = false ∧ u.stw.nv.authFail = true ∧
        u.rgBit .stwAlertStatus 0 = true)))) ∧
  (∀ (s : State),
    (s.stw.powered = true → Answers .powerOff s (fun u => u.stw.powered = false ∧ u.stw.good = false ∧ u.stw.mainOn = false ∧
      u.stw.nv = s.stw.nv ∧ u.stw.fuse = s.stw.fuse ∧ u.stw.flash = s.stw.flash ∧ u.stw.perst = s.stw.perst ∧ u.regs = [] ∧
      u.memory.mem = [] ∧ u.tiles = [] ∧ u.passes = [] ∧ u.emitted = s.emitted ∧ u.pending = s.pending)) ∧
    (s.stw.powered = false → Answers .powerOff s (fun u => u = s)) ∧
    (s.stw.powered = true → s.stw.mainOn = true → Answers .mainRailsOff s (fun u =>
      u.stw.fault = some (s.stw.fault.getD .inputVoltage) ∧ u.stw.mainOn = false ∧ u.host.linkUp = false ∧
      (s.stw.faultPin = false → u.stw.faultPin = true ∧ u.passes = [] ∧ u.host.inflight = []))) ∧
    Answers .perstDeassert s (fun u => u = { s with stw := { s.stw with perst := false },
                                                    host := { s.host with linkUp := s.host.linkUp || (s.stw.good && s.stw.mainOn) } }) ∧
    (s.hostWrites = true → Answers .pmD3hotEntry s (fun u => u = { s with host := { s.host with d3hot := true } })) ∧
    (s.hostWrites = true → s.host.d3hot = true → Answers .pmD0Return s (fun u => u.host.d3hot = false ∧ u.host.msixHeld = [] ∧
      (∀ v ∈ s.host.msixHeld, (s.msixOf v).masked = false → Emit.msix v (s.msixOf v).addr (s.msixOf v).data ∈ u.emitted) ∧ u.memory = s.memory ∧
      u.tiles = s.tiles ∧ u.host.inflight = s.host.inflight))) ∧
  (∀ (s : State) (c : ResetCause),
    (if c = .perst then s.stw.good && s.stw.mainOn else s.hostWrites) = true → Answers (.moduleReset c) s (fun u =>
      u.stw.fault = none ∧ u.stw.faultPin = false ∧ u.passes = [] ∧ u.host.inflight = [] ∧ u.steps.job = false ∧
      u.host.linkUp = decide (c ≠ .perst) ∧ u.stw.perst = (s.stw.perst || decide (c = .perst)) ∧ u.stw.nv = s.stw.nv ∧
      u.stw.mainOn = s.stw.mainOn ∧ u.cyc = s.cyc ∧ u.pending = s.pending ∧
      (∀ r : Reg, regAt r.offset = some r →
        u.rgQ r = (if r.name.row.keep then s.rgQ r else BitVec.ofNat 64 r.name.row.reset)) ∧
      (swf Tile.init s.tiles → ∀ t, u.tile t = { Tile.init with bin := (s.tile t).bin }) ∧
      (∀ a p o, mpaWindow a = some (p, o) →
        byteAt u.memory.mem a = (if (s.dev p).keeps then byteAt (keepAllChecks s).memory.mem a else 0)) ∧
      ((∀ k e, (s.range k e).on = false) → ∀ a p o, mpaWindow a = some (p, o) →
        byteAt u.memory.mem a = (if (s.dev p).keeps then byteAt s.memory.mem a else 0)) ∧
      (swf Device.init s.memory.dev → ∀ p, u.dev p = (s.dev p).afterReset)))

/-- Pin, undervoltage, power and temperature set the throttle's target; the clock moves one level after 16 edges. While the
Steward is powered, THROTTLE# and the undervoltage condition request a divisor of 2 and withdraw it; mean power above the cap
moves its request up one level at most each millisecond, and far below the cap down; a junction temperature moves its request
one level towards what R381 asks, up at once and down after a millisecond at the lower temperature. After each the target is that of the largest request, and the level stays.
THROTTLE_LEVEL_STEP after 16 edges moves the level by one towards the target and starts its edges anew; otherwise it changes
nothing. (15_steward_power_security.md R381; 15_steward_power_security.md R382; 15_steward_power_security.md R397;
15_steward_power_security.md R398; 15_steward_power_security.md R399) -/
def Obligations.ThrottleFollowsItsCauses : Prop :=
  let set (f : Throttle → Throttle) (s u : State) : Prop :=
    let t := f s.stw.thr
    (u.stw.thr.pin, u.stw.thr.under, u.stw.thr.cap, u.stw.thr.thermal) = (t.pin, t.under, t.cap, t.thermal) ∧
    u.stw.thr.target = 4 * t.request ∧ u.stw.thr.level = s.stw.thr.level ∧ u.stw.thr.edges = s.stw.thr.edges ∧
    u.tiles = s.tiles ∧ u.memory = s.memory ∧ u.passes = s.passes ∧ u.stw.fault = s.stw.fault
  (∀ s : State, s.stw.powered = true →
    Answers .throttlePinAssert s (set (fun t => { t with pin := true }) s) ∧
    Answers .throttlePinRelease s (set (fun t => { t with pin := false }) s) ∧
    Answers .undervoltageThrottle s (fun u => set (fun t => { t with under := true }) s u ∧ u.rgBit .stwAlertStatus 1 = true) ∧
    Answers .undervoltageRelease s (set (fun t => { t with under := false }) s)) ∧
  (∀ (s : State) (w : Nat), s.stw.powered = true →
    (s.powerCap < w → s.stw.thr.cap < 2 → s.capMay 1 = true → Answers (.powerCapStep w) s (fun u =>
      set (fun t => { t with cap := t.cap + 1 }) s u ∧ u.stw.capAt = some s.cyc)) ∧
    (s.powerCap < w → 2 ≤ s.stw.thr.cap → s.capMay 10 = true → Answers (.powerCapStep w) s (fun u =>
      u.rgBit .stwAlertStatus 3 = true ∧ RegsKept s u [⟨.stwAlertStatus, 0, 0⟩] ∧ u = { s with regs := u.regs })) ∧
    (100 * w < 45 * s.powerCap → s.stw.thr.cap ≠ 0 → s.capMay 1 = true → Answers (.powerCapStep w) s (fun u =>
      set (fun t => { t with cap := t.cap - 1 }) s u ∧ u.stw.capAt = some s.cyc)) ∧
    (w ≤ s.powerCap → 45 * s.powerCap ≤ 100 * w → Answers (.powerCapStep w) s (fun u => u = s))) ∧
  (∀ (s : State) (q c : Nat), s.stw.powered = true →
    let h := (lput s.stw.temps q c).foldl max 0
    let th := s.stw.thr.thermal
    Answers (.dieTempThrottle q c) s (fun u =>
      u.stw.temps = lput s.stw.temps q c ∧
      (s.capMay 1 = true → th < thermalUp h → u.stw.thr.thermal = th + 1) ∧
      (s.capMay 1 = true → thermalUp h ≤ th → thermalDown h < th →
        (∀ c, s.stw.coolSince = some c → c + msCycles 1 ≤ s.cyc → u.stw.thr.thermal = th - 1) ∧
        (s.stw.coolSince = none → u.stw.thr = s.stw.thr ∧ u.stw.coolSince = some s.cyc)) ∧
      (s.capMay 1 = false → u.stw.thr = s.stw.thr) ∧
      (110 ≤ c → u.stw.fault = some (s.stw.fault.getD .dieTemperature)) ∧ (c < 110 → u.stw.fault = s.stw.fault))) ∧
  (∀ s : State, s.stw.powered = true →
    let t := s.stw.thr
    (16 ≤ t.edges → t.level ≠ t.target → Answers .throttleLevelStep s (fun u =>
      u.stw.thr.level = (if t.level < t.target then t.level + 1 else t.level - 1) ∧ u.stw.thr.edges = 0 ∧
      u.stw.thr.target = t.target ∧ u = { s with stw := { s.stw with thr := u.stw.thr } })) ∧
    (t.edges < 16 ∨ t.level = t.target → Answers .throttleLevelStep s (fun u => u = s)))

/-- A fault ends all work and rests the module; energy is summed; PLLs, walks, gates, test slices and retirement act on tiles.
MODULE_FAULT_DECLARE of the first cause latches it, asserts the pin, completes every accepted descriptor with ABORTED and a pass
whose end came in an earlier cycle with that status (log entry 110), leaves no pass, transfer or running tile and no memory ready,
clears the banks of the passes it ends and a running harvest's bitmap, turns the quadrant PLLs off, and idles every port that has no
packet of a collective chunk to send; a further cause changes
nothing.
ENERGY_SAMPLE adds the sample's power to the energy. PLL_LOCK starts the wake walk, each step of which releases the waking
tiles of its group; the PLL of a quadrant unused for the stop delay stops, and the clock of a tile idle for the gate delay is
gated. A test slice on an idle tile clears its
banks, and a failure is recorded. At a job boundary a failed tile is shifted out of its row, or is absent when the row has one
already. (01_architecture.md R12; 15_steward_power_security.md R376; 15_steward_power_security.md R377;
15_steward_power_security.md R378; 15_steward_power_security.md R380; 15_steward_power_security.md R383;
15_steward_power_security.md R393; 15_steward_power_security.md R394; 15_steward_power_security.md R396; 18_register_map.md
R443) -/
def Obligations.FaultsClocksAndTests : Prop :=
  (∀ (s : State) (c : FaultCause), s.stw.powered = true →
    (s.stw.fault = none → s.stw.faultPin = false → Answers (.moduleFaultDeclare c) s (fun u =>
      u.stw.fault = some c ∧ u.stw.faultPin = true ∧ u.passes = [] ∧ u.host.inflight = [] ∧
      (∀ d i, s.inflight? d = some i → (∀ p ∈ s.passes, p.desc ≠ d) → Posted i .aborted s u) ∧
      ((s.passes.map (·.desc)).Nodup → ∀ p ∈ s.passes, ∀ i, s.inflight? p.desc = some i →
        Posted i (p.faultStatus s.cyc).1 s u) ∧ (∀ q, u.pllOf q = .off) ∧ u.gath.xfers = [] ∧
      (∀ t, (u.tile t).seqs = [] ∧ (u.tile t).running = none ∧ (u.tile t).clocked = false ∧ (u.tile t).bin = (s.tile t).bin ∧
        ∀ k r n, (s.declaredOn t).getLsbD k = true → r < 16 → n < 64 → (u.tile t).accAt k r n = 0) ∧
      (∀ p, (u.dev p).st = (if (s.dev p).st = .ready then .selfRefresh else (s.dev p).st)) ∧
      u.fab.out = [] ∧ u.fab.inn = [] ∧
      (s.passes = [] → s.host.inflight = [] → ∀ p,
        (u.port p).st = (if (s.port p).collSending then .up else .disabled)) ∧
      (s.hrv.op = none → u.memory.mem = s.memory.mem) ∧
      (∀ h, s.hrv.op = some h →
        MemKept s u (fun a => s.rg .hrvBitmapBase ≤ a ∧ a < s.rg .hrvBitmapBase + h.bitmapBytes)))) ∧
    (s.stw.fault ≠ none → s.stw.faultPin = true → c ≠ .inputVoltage → Answers (.moduleFaultDeclare c) s (fun u => u = s)) ∧
    (s.sampleDue = true → ∀ mV mA, Answers (.energySample mV mA) s (fun u =>
      u.stw.energy = s.stw.energy + mV * mA ∧
      u.rg .stwEnergy = (s.stw.energy + mV * mA) / 100000000 % 256 ^ RegName.stwEnergy.row.bytes ∧
      u.rgBits .stwInput 0 16 = mV % 65536 ∧
      RegsKept s u [⟨.stwEnergy, 0, 0⟩, ⟨.stwInput, 0, 0⟩, ⟨.stwAlertStatus, 0, 0⟩] ∧
      u = { s with stw := { s.stw with energy := u.stw.energy, powers := u.stw.powers, sampleAt := some s.cyc }, regs := u.regs }))) ∧
  (∀ (s : State) (q : Nat), s.alive = true →
    (s.pllOf q = .locking → Answers (.pllLock q) s (fun u => u.pllOf q = .running ∧ (∀ k, k ≠ q → u.pllOf k = s.pllOf k) ∧
      sfind u.stw.walks q = some (0, s.edge) ∧ u = { s with stw := { s.stw with pll := u.stw.pll, walks := u.stw.walks, locked := u.stw.locked } })) ∧
    (∀ g e, sfind s.stw.walks q = some (g, e) → e ≤ s.edge → Answers (.wakeWalkStep q) s (fun u =>
      (∀ t, u.tile t = if t ∈ walkTiles q g ∧ (s.tile t).waking = true then { s.tile t with clocked := true, waking := false }
        else s.tile t) ∧
      sfind u.stw.walks q = (if g + 1 < 96 then some (g + 1, s.edge + 16) else none) ∧
      u = { s with tiles := u.tiles, stw := { s.stw with walks := u.stw.walks } })) ∧
    (∀ c, s.pllOf q = .running → s.stopDelay ≠ 0 → s.unused q = true → sfind s.stw.unused q = some c →
      c + usCycles s.stopDelay ≤ s.cyc → Answers (.pllStop q) s (fun u => u.pllOf q = .off ∧
      sfind u.stw.walks q = none ∧ u = { s with stw := { s.stw with pll := u.stw.pll, walks := u.stw.walks } }))) ∧
  (∀ (s : State) (t : Nat), s.alive = true → (s.tile t).clocked = true → s.hasWork t = false →
    s.inFlight t = false → (s.tile t).issuedAt + s.gateDelay ≤ s.cyc →
    Answers (.tileGate t) s (fun u => u.tile t = { s.tile t with clocked := false } ∧ TilesKept s u t ∧
      u = { s with tiles := u.tiles })) ∧
  (∀ (s : State) (t : Nat), s.mayTest t = true →
    Answers (.idleTestSlice t none) s (fun u => u.stw.slices = s.stw.slices + 1 ∧ TilesKept s u t ∧
      (t < 1536 → u.tile t = { s.tile t with testUntil := s.cyc + 2625, acc := [], opBits := [] }) ∧
      u = { s with tiles := u.tiles, stw := { s.stw with slices := u.stw.slices } }) ∧
    (∀ part addr sig, Answers (.idleTestSlice t (some (part, addr, sig))) s (fun u =>
      t ∈ u.stw.nv.failed ∧ u.rgBit .stwAlertStatus 5 = true ∧ Counted s u .evtRaised ∧ TilesKept s u t ∧
      (part ≠ 2 → (u.tile t).bin = (s.tile t).bin) ∧ (u.tile t).seqs = (s.tile t).seqs))) ∧
  (∀ (s : State) (t : Nat), s.alive = true → s.boundary = true → s.rgBit .stwTestCfg 1 = true → s.stw.nv.failed = [t] →
    Answers .tileRetirementApply s (fun u => u.stw.nv.failed = [] ∧
      (sfind s.stw.nv.retired (failedRow t) = none → sfind u.stw.nv.retired (failedRow t) = some (s.failedCol t) ∧
        u.stw.nv.absent = s.stw.nv.absent) ∧
      (sfind s.stw.nv.retired (failedRow t) ≠ none → t < 1536 → u.stw.nv.absent = s.stw.nv.absent ++ [t] ∧
        u.stw.nv.retired = s.stw.nv.retired) ∧ u.tiles = s.tiles ∧ u.memory = s.memory))

/-- A mailbox command writes or verifies the inactive slot, prefers it, commits or reads a record, and completes with its
result. With GOOD asserted and no command under way, each mailbox command acts and is under way with its result: a 4 KiB write
inside the inactive slot changes exactly those flash bytes and clears the verified mark, and one outside changes none and
results in 1; a verification sets the mark and results in 0 or 10 plus the failing check; preferring needs the mark; a commit
raises the anti-rollback counter to the running version or results in 3; a record read fills the data or results in 1. While
one is under way another only sets the two error flags. MBOX_COMMAND_COMPLETE posts the result, ends the command and sends
vector 0. (15_steward_power_security.md R384; 15_steward_power_security.md R388; 15_steward_power_security.md R389;
15_steward_power_security.md R399; 16_connectors_and_electrical.md R400) -/
def Obligations.MailboxCommandsAct : Prop :=
  (∀ (s : State), s.stw.powered = true → s.stw.good = true → s.stw.mboxBusy = none →
    let v := dropSplit s
    let b := 1 - s.stw.bootSlot
    let code := s.verifyCode b
    let did (op r : Nat) (u : State) : Prop := u.stw.mboxBusy = some (op, r) ∧ u.rgBit .stwMboxStatus 1 = false ∧
      RegsKept v u [⟨.stwMboxStatus, 0, 0⟩] ∧ u = { v with regs := u.regs, stw := u.stw }
    (∀ arg, (arg + 1) * 4096 ≤ 0x800000 → Answers (.mboxWriteSlot arg) s (fun u => did 1 0 u ∧ u.stw.verified = false ∧
      (∀ k, k < 4096 → u.flashByte (b * 0x800000 + arg * 4096 + k) = s.mboxByte k) ∧
      (∀ a, a < b * 0x800000 + arg * 4096 ∨ b * 0x800000 + (arg + 1) * 4096 ≤ a → u.flashByte a = s.flashByte a) ∧
      u.stw.fuse = s.stw.fuse ∧ u.stw.nv = s.stw.nv)) ∧
    (∀ arg, 0x800000 < (arg + 1) * 4096 → Answers (.mboxWriteSlot arg) s (fun u => did 1 1 u ∧
      u.stw = { s.stw with mboxBusy := some (1, 1) })) ∧
    Answers .mboxVerifySlot s (fun u => did 2 (if code = 0 then 0 else 10 + code) u ∧
      u.stw = { s.stw with verified := decide (code = 0), mboxBusy := u.stw.mboxBusy }) ∧
    Answers .mboxSetPreferred s (fun u => did 3 (if s.stw.verified then 0 else 2) u ∧
      u.stw.nv = (if s.stw.verified then { s.stw.nv with preferred := some b } else s.stw.nv) ∧
      u.stw = { s.stw with nv := u.stw.nv, mboxBusy := u.stw.mboxBusy }) ∧
    Answers .mboxCommit s (fun u => did 4 (if s.stw.fuse < s.runningVersion then 0 else 3) u ∧
      u.stw = { s.stw with fuse := max s.stw.fuse s.runningVersion, mboxBusy := u.stw.mboxBusy }) ∧
    (∀ arg, Answers (.mboxReadRecord arg) s (fun u =>
      (Config.nvRecord s.stw.nv.numbers arg = none → did 5 1 u ∧ u.stw = { s.stw with mboxBusy := some (5, 1) }) ∧
      (∀ d, Config.nvRecord s.stw.nv.numbers arg = some d → did 5 0 u ∧
        (∀ k x, (d.take 4096)[k]? = some x → u.mboxByte k = x) ∧
        u.stw = { s.stw with mboxData := u.stw.mboxData, mboxBusy := some (5, 0) })))) ∧
  (∀ (s : State) (c : Instr) (arg : Nat), s.stw.powered = true → s.stw.good = true → s.stw.mboxBusy.isSome = true →
    c ∈ [.mboxWriteSlot arg, .mboxVerifySlot, .mboxSetPreferred, .mboxCommit, .mboxReadRecord arg] →
    Answers c s (fun u => u.rgBit .stwStatus 7 = true ∧ u.rgBit .stwMboxStatus 1 = true ∧
      RegsKept (dropSplit s) u [⟨.stwStatus, 0, 0⟩, ⟨.stwMboxStatus, 0, 0⟩] ∧ u = { dropSplit s with regs := u.regs })) ∧
  (∀ (s : State) (op r : Nat), s.stw.mboxBusy = some (op, r) → Answers .mboxCommandComplete s (fun u =>
    u.stw = { s.stw with mboxBusy := none } ∧ u.rgBits .stwMboxStatus 8 8 = r % 256 ∧
    RegsKept s u [⟨.stwMboxStatus, 0, 0⟩] ∧
    ((s.msixOf 0).masked = true → (u.msixOf 0).pending = true) ∧
    ((s.msixOf 0).masked = false → s.hostUp = true → Emit.msix 0 (s.msixOf 0).addr (s.msixOf 0).data ∈ u.emitted)))

/-- SPDM requests are answered in order with versions, digests, certificates, signatures and measurements; I3C assigns an
address. Over a link that is up each SPDM request whose stage has been reached emits one answer and changes only the exchange:
GET_VERSION starts it, capabilities and algorithms move it on, digests, certificates and measurements read the identity, and
CHALLENGE signs both nonces with the chain's digest and counts them. A request before its stage emits only the error. The
response codes and the free identity values are the model's (log entries 4 and 9). ENTDAA gives a powered target without a
dynamic address one, and SETDASA does so at the static address only. (15_steward_power_security.md R390;
15_steward_power_security.md R391; 15_steward_power_security.md R392; 16_connectors_and_electrical.md R413; log entry 4; log
entry 9) -/
def Obligations.TheModuleAttestsItself : Prop :=
  (∀ (s : State), s.hostWrites = true →
    let st := s.stw.spdm.stage
    let speaks (b : List Byte) (n : Nat) (u : State) : Prop :=
      u = { s with emitted := .doe b :: s.emitted, stw := { s.stw with spdm := { s.stw.spdm with stage := n } } }
    Answers .getVersion s (speaks [0x04, 0x13] 1) ∧
    (1 ≤ st → Answers .getCapabilities s (speaks (0x61 :: leBytes 4 0x16) (max 2 st))) ∧
    (2 ≤ st → Answers .negotiateAlgorithms s (speaks (0x63 :: (leBytes 4 0x80 ++ leBytes 4 0x02 ++ leBytes 4 0x04)) 3)) ∧
    (3 ≤ st →
      Answers .getDigests s (speaks (0x01 :: chainDigest) st) ∧
      (∀ off len, off ≤ Config.certChain.length →
        Answers (.getCertificate 0 off len) s (speaks (0x02 :: (Config.certChain.drop off).take len) st)) ∧
      (∀ nonce : BitVec 256, Answers (.challenge 0 nonce) s (fun u =>
        let body := chainDigest ++ s.nonce
        u = { s with emitted := .doe (0x03 :: (body ++ s.identitySign (leBytes 32 nonce.toNat ++ body))) :: s.emitted,
                     stw := { s.stw with spdm := { s.stw.spdm with count := s.stw.spdm.count + 1 }, sigs := s.stw.sigs + 1 } })) ∧
      (∀ k b, k ≠ 0 → k ≠ 0xFF → s.measurement k = some b →
        Answers (.getMeasurements k) s (speaks (0x60 :: (leBytes 1 k ++ b)) st)) ∧
      Answers (.getMeasurements 0) s (speaks [0x60, 5] st)) ∧
    (st < 1 → Answers .getCapabilities s (speaks [0x7F, 4] st)) ∧
    (st < 3 → ∀ k slot off len (nonce : BitVec 256), ∀ c : Instr,
      c ∈ [.getDigests, .getCertificate slot off len, .challenge slot nonce, .getMeasurements k] →
      Answers c s (speaks [0x7F, 4] st))) ∧
  (∀ (s : State) (a : BitVec 7), s.stw.powered = true →
    (s.stw.i3c = none →
      Answers (.entdaa a) s (fun u => u = { s with stw := { s.stw with i3c := some a } }) ∧
      Answers (.setdasa 0x2A#7 a) s (fun u => u = { s with stw := { s.stw with i3c := some a } })) ∧
    (∀ st : BitVec 7, st ≠ 0x2A#7 → Answers (.setdasa st a) s (fun u => u = s)))

/-- The event ring is enabled, read and moderated by its registers, and an unmasked message that waited is sent once. A write
to EVT_CTL while the ring is disabled stores k, vector and irq_sev; with enable it starts the ring at position 0 when k lies
from 6 to 20 and the vector is below 2,048, writing the held records in order, and otherwise sets enable_err. While the ring
is enabled it keeps k and the vector, sets enable_err when they differ, and takes irq_sev and enable. A write to EVT_HEAD
moves the head unless it is stale, which sets stale_head; held records follow into the space. When the oldest unsignalled
record reaches the age limit the ring's message is sent, kept as pending, or waits for the link. MSIX_UNMASK unmasks an entry
and sends its pending message once. (17_events_status_limits.md R425; 17_events_status_limits.md R426;
17_events_status_limits.md R427; 17_events_status_limits.md R429; 18_register_map.md R448; log entry 2) -/
def Obligations.EventsReachTheHost : Prop :=
  (∀ (s : State) (v : Word), HostWrite s →
    let w := dropSplit s
    let k := v.toNat % 32
    let vec := bits v.toNat 6 11
    let stored : State → Prop := fun u => u.rgBits .evtCtl 0 5 = k ∧ u.rgBits .evtCtl 6 11 = vec ∧
      u.rgBits .evtCtl 17 2 = bits v.toNat 17 2
    (w.evtOn = false → bit v.toNat 5 = false → Answers (.evtEnable v) s (fun u => stored u ∧ u.evtOn = false ∧
      RegsKept w u [⟨.evtCtl, 0, 0⟩] ∧ u = { w with regs := u.regs })) ∧
    (w.evtOn = false → bit v.toNat 5 = true → 6 ≤ k → k ≤ 20 → vec < 2048 → Answers (.evtEnable v) s (fun u => stored u ∧
      u.evtOn = true ∧ u.rg .evtHead = 0 ∧ u.evt.head = 0 ∧
      (w.evt.hold = [] → u.evt = { w.evt with head := 0, tail := 0, unsignalled := 0, oldest := none }) ∧
      (w.hostUp = true → w.evt.hold.length ≤ 64 → u.evt.hold = [] ∧ u.evt.tail = w.evt.hold.length ∧
        ∀ n r, w.evt.hold[n]? = some r → Emit.record n r (u.recordAddr n) (r.bytes (n / (u.evtSpan / 2))) ∈ u.emitted) ∧
      RegsKept w u [⟨.evtCtl, 0, 0⟩, ⟨.evtHead, 0, 0⟩] ∧
      u = { w with regs := u.regs, evt := u.evt, emitted := u.emitted,
                   host := { w.host with msix := u.host.msix, msixHeld := u.host.msixHeld } })) ∧
    (w.evtOn = false → bit v.toNat 5 = true → k < 6 ∨ 20 < k ∨ 2048 ≤ vec → Answers (.evtEnable v) s (fun u => stored u ∧
      u.evtOn = false ∧ u.rgBit .evtStatus 0 = true ∧ RegsKept w u [⟨.evtCtl, 0, 0⟩, ⟨.evtStatus, 0, 0⟩] ∧
      u = { w with regs := u.regs })) ∧
    (w.evtOn = true → Answers (.evtEnable v) s (fun u => u.rgBits .evtCtl 0 5 = w.rgBits .evtCtl 0 5 ∧
      u.rgBits .evtCtl 6 11 = w.rgBits .evtCtl 6 11 ∧ u.rgBits .evtCtl 17 2 = bits v.toNat 17 2 ∧ u.evtOn = bit v.toNat 5 ∧
      u.rgBit .evtStatus 0 = (w.rgBit .evtStatus 0 || k != w.rgBits .evtCtl 0 5 || vec != w.rgBits .evtCtl 6 11) ∧
      RegsKept w u [⟨.evtCtl, 0, 0⟩, ⟨.evtStatus, 0, 0⟩] ∧ u = { w with regs := u.regs }))) ∧
  (∀ (s : State) (v : Word), HostWrite s →
    let w := dropSplit s
    let n := v.toNat % 2 ^ 21
    let p := bits n 20 1 * 2 ^ w.rgBits .evtCtl 0 5 + bits n 0 20
    (w.evtOn = false → Answers (.evtHeadWrite v) s (fun u => u.rg .evtHead = n ∧ RegsKept w u [⟨.evtHead, 0, 0⟩] ∧
      u = { w with regs := u.regs })) ∧
    (w.evtOn = true → w.evtStale n = true → Answers (.evtHeadWrite v) s (fun u => u.rgBit .evtStatus 2 = true ∧
      RegsKept w u [⟨.evtStatus, 0, 0⟩] ∧ u = { w with regs := u.regs })) ∧
    (w.evtOn = true → w.evtStale n = false → Answers (.evtHeadWrite v) s (fun u => u.evt.head = p ∧ u.rg .evtHead = n ∧
      (w.evt.hold = [] → u.evt = { w.evt with head := p } ∧ u.emitted = w.emitted) ∧
      (w.hostUp = true → w.evt.hold.length ≤ 64 →
        u.evt.hold = w.evt.hold.drop (w.evtSpan / 2 - (w.evt.tail + w.evtSpan - p) % w.evtSpan)) ∧
      RegsKept w u [⟨.evtHead, 0, 0⟩] ∧
      u = { w with regs := u.regs, evt := u.evt, emitted := u.emitted,
                   host := { w.host with msix := u.host.msix, msixHeld := u.host.msixHeld } }))) ∧
  (∀ (s : State) (age t : Nat), s.stw.mainOn = true → s.evtOn = true → s.rgBits .evtMod 8 16 = age → age ≠ 0 →
    s.evt.unsignalled ≠ 0 → s.evt.oldest = some t → t + usCycles age ≤ s.cyc →
    let vec := s.rgBits .evtCtl 6 11
    let w : State := { s with evt := { s.evt with unsignalled := 0, oldest := none } }
    ((s.msixOf vec).masked = true → Answers .eventModerationTimeout s (fun u =>
      u = w.setMsix vec { s.msixOf vec with pending := true })) ∧
    ((s.msixOf vec).masked = false → s.hostUp = true → Answers .eventModerationTimeout s (fun u =>
      u = { w with emitted := .msix vec (s.msixOf vec).addr (s.msixOf vec).data :: s.emitted })) ∧
    ((s.msixOf vec).masked = false → s.hostUp = false → Answers .eventModerationTimeout s (fun u =>
      u = { w with host := { s.host with msixHeld := s.host.msixHeld ++ [vec] } }))) ∧
  (∀ (s : State) (v : Nat), HostWrite s → v < 2048 →
    let w := dropSplit s
    let e := w.msixOf v
    Answers (.msixUnmask v) s (fun u => u.msixOf v = { e with masked := false, pending := false } ∧
      (∀ j, j ≠ v → u.msixOf j = w.msixOf j) ∧
      u.emitted = (if e.pending = true ∧ w.hostUp = true then .msix v e.addr e.data :: w.emitted else w.emitted) ∧
      u.host.msixHeld = (if e.pending = true ∧ w.hostUp = false then w.host.msixHeld ++ [v] else w.host.msixHeld) ∧
      u = { w with emitted := u.emitted, host := { w.host with msix := u.host.msix, msixHeld := u.host.msixHeld } }))

/-- A write of 1 to an enable bit enables its object, and one whose DISABLE has not completed keeps its state. A write of a
disabled ring's context with enable set stores its fields and enables the ring from position 0 when k lies from 6 to 20 and
its vector, companion and class are allowed; otherwise it sets enable_err and the ring stays disabled. An enabled ring keeps
its context. HST_CTL.enable starts the ring engine. GTH_ENABLE, TIL_ENABLE and MEM_DEV_EN enable each object named with 1 but
one whose DISABLE has not completed, an absent tile, and a failed or untrained device. HRV_ENABLE sets its bit.
(14_host_rings.md R347; 14_host_rings.md R368; 18_register_map.md R444; 09_gatherers_and_buffers.md R224) -/
def Obligations.ObjectsAreEnabled : Prop :=
  (∀ (s : State) (r : Nat) (v : Quad), HostWrite s → r < Config.numRings → bit v.toNat 7 = true →
    (dropSplit s).disabling 0 r = none →
    let w := dropSplit s
    let n := v.toNat
    let c : RingCtx := { w.ring r with
      k := bits n 0 5, completion := bit n 5, deadline := bit n 6, companion := bits n 8 15, vector := bits n 24 11 }
    let ok : Prop := 6 ≤ c.k ∧ c.k ≤ 20 ∧ (c.completion = true → c.vector < 2048) ∧ (c.completion = false →
      (w.ring c.companion).enable = true ∧ (w.ring c.companion).completion = true ∧ (c.deadline = true → w.deadlineRings < 256))
    ((w.ring r).enable = true → Answers (.ringEnable r v) s (fun u => u = w)) ∧
    ((w.ring r).enable = false → ok → Answers (.ringEnable r v) s (fun u =>
      (u.ring r).enable = true ∧ (u.ring r).head = 0 ∧ (u.ring r).k = c.k ∧ (u.ring r).completion = c.completion ∧
      (u.ring r).deadline = c.deadline ∧ (u.ring r).companion = c.companion ∧ (u.ring r).vector = c.vector ∧
      ((w.ring r).waiting = [] → u.emitted = w.emitted ∧ u.ring r =
        { c with enable := true, head := 0, tail := 0, held := none, stopped := false, unsignalled := 0, oldest := none,
                 splitSince := none, short := false }) ∧
      (∀ q, q ≠ r → u.ring q = w.ring q) ∧ u = { w with host := u.host, emitted := u.emitted })) ∧
    ((w.ring r).enable = false → ¬ ok → Answers (.ringEnable r v) s (fun u => u.ring r = { c with enableErr := true } ∧
      u.rgBit .hstStatus 3 = true ∧ RegsKept w u [⟨.hstStatus, 0, 0⟩] ∧ (∀ q, q ≠ r → u.ring q = w.ring q) ∧
      u = { w with host := { w.host with rings := u.host.rings }, regs := u.regs }))) ∧
  (∀ (s : State), HostWrite s → Answers .ringEngineEnable s (fun u =>
    let w := dropSplit s
    u.host.running = true ∧ u.rgBit .hstCtl 0 = true ∧ RegsKept w u [⟨.hstCtl, 0, 0⟩] ∧
    u = { w with host := { w.host with running := true }, regs := u.regs })) ∧
  (∀ (s : State) (m : BitVec 48), HostWrite s → Answers (.gathererEnable m) s (fun u =>
    let w := dropSplit s
    (∀ g, g < 48 → u.gath.enable.getLsbD g =
      (w.gath.enable.getLsbD g || (m.getLsbD g && (w.disabling 4 g).isNone))) ∧
    RegsKept w u [⟨.hstBarErr, 0, 0⟩] ∧ u = { w with gath := { w.gath with enable := u.gath.enable }, regs := u.regs })) ∧
  (∀ (s : State) (i : Nat) (m : Word), HostWrite s → i < 48 → Answers (.tileEnable i m) s (fun u =>
    let w := dropSplit s
    (∀ j, j < 32 → u.rgBit .tilEnable j i =
      (w.rgBit .tilEnable j i || (m.getLsbD j && (w.disabling 1 (32 * i + j)).isNone && !w.absent (32 * i + j)))) ∧
    RegsKept w u [⟨.hstBarErr, 0, 0⟩, ⟨.tilEnable, i, 0⟩] ∧ u = { w with regs := u.regs })) ∧
  (∀ (s : State) (m : BitVec 28), HostWrite s → Answers (.deviceEnable m) s (fun u =>
    let w := dropSplit s
    (∀ p, u.dev p =
      (if p < 28 ∧ m.getLsbD p = true ∧ w.disabling 3 p = none ∧ (w.dev p).enabled = false ∧ (w.dev p).st ≠ .failed ∧
          (w.dev p).st ≠ .untrained
       then { w.dev p with enabled := true, st := if (w.dev p).st = .selfRefresh then .ready else (w.dev p).st } else w.dev p)) ∧
    RegsKept w u [⟨.hstBarErr, 0, 0⟩] ∧ u = { w with memory := { w.memory with dev := u.memory.dev }, regs := u.regs })) ∧
  (∀ (s : State), HostWrite s → (dropSplit s).disabling 5 0 = none → Answers .harvestEngineEnable s (fun u =>
    let w := dropSplit s
    u.rgBit .hrvEnable 0 = true ∧ RegsKept w u [⟨.hrvEnable, 0, 0⟩] ∧ u = { w with regs := u.regs }))

/-- A 64-bit register may be read and written in halves: a read of the low half takes a snapshot, a write of it is held. A
read of the low half returns it and takes a snapshot; a read of the high half returns the snapshot's high half if the previous
read was of that low half, and otherwise the current one; any other read drops the snapshot. A write of the low half alone is
held; the next BAR0 write, if it is to the high half, writes the register whole with both halves. A held half is discarded
before any other BAR0 write acts, which sets HST_BAR_ERR.split. A write of the high half with none held writes the register
whole with the low half as it reads, which is zero for the WO register STP_VERDICT. An 8-byte write writes it whole. A
register without behaviour of its own then holds the bits written in its RW fields, has its W1C bits cleared by ones, and
keeps the rest. (18_register_map.md R435) -/
def Obligations.WideRegistersAreAccessedInHalves : Prop :=
  (∀ (s : State) (r : Reg) (o : Nat), Wide r o →
    busRead o s = (s.show r % 2 ^ 32, { s with host := { s.host with snapshot := some (o, BitVec.ofNat 32 (s.show r / 2 ^ 32)) } }) ∧
    (∀ h, s.host.snapshot = some (o, h) → (busRead (o + 4) s).1 = h.toNat) ∧
    ((∀ h, s.host.snapshot ≠ some (o, h)) → (busRead (o + 4) s).1 = s.show r / 2 ^ 32 % 2 ^ 32) ∧
    (busRead (o + 4) s).2 = { s with host := { s.host with snapshot := none } }) ∧
  (∀ (s : State) (o : Nat), lowHalf o = false → (busRead o s).2.host.snapshot = none) ∧
  (∀ (s : State) (r : Reg) (o : Nat) (x : Word), Wide r o → s.reaches o = true → s.reaches (o + 4) = true →
    (let w := dropSplit s
     let t : State := { w with host := { w.host with splitHeld := some (o, x) } }
     exec (.barSplitLowWrite o x) s = .next t ∧
     (∀ be : BitVec 8, be.toNat % 16 = 15 → exec (.registerWrite o 4 (x.setWidth 64) be) s = .next t)) ∧
    (∀ (low : Word) (be : BitVec 8), be.toNat % 16 = 15 → s.host.splitHeld = some (o, low) →
      exec (.registerWrite (o + 4) 4 (x.setWidth 64) be) s =
        .next (wholeWrite r (low.toNat + x.toNat * 2 ^ 32) { s with host := { s.host with splitHeld := none } })) ∧
    (∀ be : BitVec 8, be.toNat % 16 = 15 → (∀ low, s.host.splitHeld ≠ some (o, low)) →
      exec (.registerWrite (o + 4) 4 (x.setWidth 64) be) s =
        .next (wholeWrite r ((dropSplit s).show r % 2 ^ 32 + x.toNat * 2 ^ 32) (dropSplit s)))) ∧
  (∀ (s : State) (r : Reg) (o : Nat) (v : Quad), Wide r o → s.reaches o = true →
    exec (.registerWrite o 8 v 0xFF#8) s = .next (wholeWrite r v.toNat (dropSplit s))) ∧
  (∀ (s : State) (o off : Nat) (low : Word) (v : Quad) (be : BitVec 8), s.host.splitHeld = some (o, low) → off ≠ o + 4 →
    be.toNat % 16 ≠ 0 →
    let w := dropSplit s
    exec (.registerWrite off 4 v be) s = (if s.reaches off = true ∧ off + 4 ≤ barSize ∧ off % 4 = 0
      then exec (.registerWrite off 4 v be) w else .next s) ∧
    (∀ act, s.hostWrites = true → barWrite off act s = barWrite off act w) ∧
    w.host.splitHeld = none ∧ w.rgBit .hstBarErr 34 = true ∧ RegsKept s w [⟨.hstBarErr, 0, 0⟩] ∧
    w = { s with host := { s.host with splitHeld := none }, regs := w.regs }) ∧
  (∀ (s : State) (r : Reg), r.name = .stpVerdict → s.show r = 0) ∧
  (∀ (s : State) (r : Reg) (v : Nat), s.stw.fault = none → r.name ∉ ownBehaviour →
    (jobLocked r.name = true → s.steps.job = false) → (jobLocked r.name = false → s.harvestLocked r.name = false) →
    let u := wholeWrite r v s
    (∀ b, b < 8 * r.name.row.bytes → (u.rg r.name r.i r.j).testBit b =
      (if r.name.row.rw.testBit b then v.testBit b
       else if r.name.row.w1c.testBit b && v.testBit b then false else (s.rg r.name r.i r.j).testBit b)) ∧
    RegsKept s u [r] ∧ u = { s with regs := u.regs })

/-- HST_BAR_ERR records each ignored access by its flag, and the offset of the first since every flag was 0. An ignored access
sets its flag in HST_BAR_ERR, leaves the other flags, and writes the offset field only when every flag was 0: a write or read
of an unmapped offset (which returns zero), a write whose byte enables do not cover a dword, a held low half discarded, a
write in the fault state outside the Steward and W1C fields, and an enable written during a DISABLE, of a ring, tiles,
gatherers, devices or the harvest engine. Ones written to the flags clear them and change nothing else of the register. A
write that a block's own rules ignore sets that block's cfg_err and leaves HST_BAR_ERR. (18_register_map.md R446) -/
def Obligations.IgnoredAccessesAreRecorded : Prop :=
  (∀ (s : State) (off : Nat), off < barSize → off % 4 = 0 → areaAt off = none → regAt off = none →
    ((busRead off s).1 = 0 ∧
      OnlyRecorded 32 off { s with host := { s.host with snapshot := none } } (busRead off s).2) ∧
    (∀ (v : Quad) (be : BitVec 8), s.host.splitHeld = none → s.reaches off = true → be.toNat % 16 = 15 →
      Answers (.registerWrite off 4 v be) s (OnlyRecorded 32 off s))) ∧
  (∀ (s : State) (off : Nat) (v : Quad) (be : BitVec 8), off < barSize → off % 4 = 0 → s.host.splitHeld = none →
    s.reaches off = true → be.toNat % 16 ≠ 0 → be.toNat % 16 ≠ 15 →
    Answers (.registerWrite off 4 v be) s (OnlyRecorded 33 off s)) ∧
  (∀ (s : State) (r : Reg) (o off : Nat) (low x : Word), s.host.splitHeld = some (o, low) → o < 2 ^ 26 → Wide r off →
    s.reaches off = true → Answers (.barSplitLowWrite off x) s (fun u => Recorded 34 o s u ∧
      RegsKept s u [⟨.hstBarErr, 0, 0⟩] ∧ u = { s with regs := u.regs, host := { s.host with splitHeld := some (off, x) } })) ∧
  (∀ (s : State) (r : Reg) (off : Nat) (v : Quad) (be : BitVec 8), s.stw.fault ≠ none → s.host.splitHeld = none →
    s.reaches off = true → off < barSize → off % 4 = 0 → areaAt off = none → regAt off = some r → r.offset = off →
    r.name.row.bytes = 4 → r.name.isStw = false → r.name.reserved = false → r.name.row.w1c = 0 →
    s.rg r.name r.i r.j < 2 ^ 32 → be.toNat % 16 = 15 → Answers (.registerWrite off 4 v be) s (fun u => Recorded 35 off s u ∧
      u.rg r.name r.i r.j = s.rg r.name r.i r.j ∧ RegsKept s u [⟨.hstBarErr, 0, 0⟩, r] ∧ u = { s with regs := u.regs })) ∧
  (∀ (s : State), s.hostWrites = true → s.host.splitHeld = none →
    (s.stw.fault ≠ none → ∀ off act, off < 2 ^ 26 → OnlyRecorded 35 off s (barWrite off act s)) ∧
    (s.stw.fault = none →
      (∀ (r : Nat) (v : Quad), r < Config.numRings → bit v.toNat 7 = true → s.disabling 0 r ≠ none →
        Answers (.ringEnable r v) s (OnlyRecorded 36 (ringOffset r 1) s)) ∧
      (∀ (i : Nat) (m : Word), i < 48 → m ≠ 0 → (∀ j, m.getLsbD j = true → s.disabling 1 (32 * i + j) ≠ none) →
        Answers (.tileEnable i m) s (OnlyRecorded 36 (0x400200 + i * 4) s)) ∧
      (∀ m : BitVec 48, m ≠ 0 → (∀ j, m.getLsbD j = true → s.disabling 4 j ≠ none) →
        Answers (.gathererEnable m) s (OnlyRecorded 36 0x280008 s)) ∧
      (∀ m : BitVec 28, m ≠ 0 → (∀ j, m.getLsbD j = true → s.disabling 3 j ≠ none) →
        Answers (.deviceEnable m) s (OnlyRecorded 36 0x200010 s)) ∧
      (s.disabling 5 0 ≠ none → Answers .harvestEngineEnable s (OnlyRecorded 36 0x700060 s)))) ∧
  (∀ (s : State) (v : Quad), s.hostWrites = true → s.host.splitHeld = none → Answers (.registerWrite 0x100038 8 v 0xFF#8) s (fun u =>
    (∀ f, 32 ≤ f → f ≤ 36 → u.rgBit .hstBarErr f = (s.rgBit .hstBarErr f && !v.getLsbD f)) ∧
    u.rgBits .hstBarErr 0 26 = s.rgBits .hstBarErr 0 26 ∧ RegsKept s u [⟨.hstBarErr, 0, 0⟩] ∧ u = { s with regs := u.regs })) ∧
  (∀ (s : State) (r : Reg) (v : Nat), s.stw.fault = none →
    (jobLocked r.name = true → s.steps.job = true → wholeWrite r v s = s.flag .stpStatus 11) ∧
    (r.name ∉ ownBehaviour → jobLocked r.name = false → s.harvestLocked r.name = true →
      wholeWrite r v s = s.flag .hrvStatus 7))

/-- A doorbell at a stale position is ignored, sets stale_db and is counted, and any other moves its ring to its position. A
doorbell's position is epoch × 2^k + index modulo 2^(k+1). It is stale when its index is 2^k or more; on a submission ring
also when its distance past the tail and the outstanding slots together exceed 2^k; on a completion ring also when its
distance past the head exceeds the slots between head and tail. A stale doorbell moves nothing, sets stale_db and is counted;
any other becomes the tail, or the head, and leaves stale_db. A submission doorbell that fills the ring whole is not stale,
and one at a position 1 to 2^k − 1 behind the tail is. (14_host_rings.md R349) -/
def Obligations.StaleDoorbellsAreIgnored : Prop :=
  let dist : RingCtx → Nat → Nat → Nat := fun c a b => (((a : Int) - (b : Int)) % (2 ^ (c.k + 1) : Int)).toNat
  let index : Nat → Nat := fun v => v % 2 ^ 20
  let position : RingCtx → Nat → Nat := fun c v => (v / 2 ^ 20 * 2 ^ c.k + index v) % 2 ^ (c.k + 1)
  let ready : State → Nat → Quad → Bool → Prop := fun s r v t => s.stw.good = true ∧ r < Config.numRings ∧ v.toNat < 2 ^ 21 ∧
    (s.ring r).enable = true ∧ (s.ring r).completion = t ∧ (s.ring r).head < 2 ^ ((s.ring r).k + 1) ∧
    (s.ring r).tail < 2 ^ ((s.ring r).k + 1)
  let submissionStale : RingCtx → Nat → Prop := fun c v =>
    2 ^ c.k ≤ index v ∨ 2 ^ c.k < dist c (position c v) c.tail + dist c c.tail c.head
  let completionStale : RingCtx → Nat → Prop := fun c v =>
    2 ^ c.k ≤ index v ∨ dist c c.tail c.head < dist c (position c v) c.head
  let ignored : State → Nat → State → Prop := fun s r u => u.ring r = { s.ring r with staleDb := true } ∧
    (∀ q, q ≠ r → u.ring q = s.ring q) ∧ u.rg .hstDoorbellStale = min (s.rg .hstDoorbellStale + 1) (2 ^ 32 - 1) ∧
    RegsKept s u [⟨.hstDoorbellStale, 0, 0⟩, ⟨.hstStatus, 0, 0⟩] ∧
    u = { s with host := { s.host with rings := u.host.rings }, regs := u.regs }
  (∀ (s : State) (r : Nat) (v : Quad), ready s r v false →
    (submissionStale (s.ring r) v.toNat → Answers (.submissionDoorbell r v 8) s (ignored s r)) ∧
    (¬ submissionStale (s.ring r) v.toNat → Answers (.submissionDoorbell r v 8) s (fun u =>
      (u.ring r).tail = position (s.ring r) v.toNat ∧ (u.ring r).head = (s.ring r).head ∧
      (u.ring r).staleDb = (s.ring r).staleDb ∧ (∀ q, q ≠ r → u.ring q = s.ring q) ∧ u.regs = s.regs))) ∧
  (∀ (s : State) (r : Nat) (v : Quad), ready s r v true →
    (completionStale (s.ring r) v.toNat → Answers (.completionDoorbell r v 8) s (ignored s r)) ∧
    (¬ completionStale (s.ring r) v.toNat → Answers (.completionDoorbell r v 8) s (fun u =>
      (u.ring r).head = position (s.ring r) v.toNat ∧ (u.ring r).staleDb = (s.ring r).staleDb ∧
      (∀ q, q ≠ r → u.ring q = s.ring q) ∧ u.regs = s.regs))) ∧
  (∀ (c : RingCtx) (v : Nat), v < 2 ^ 21 → c.head < 2 ^ (c.k + 1) → c.tail < 2 ^ (c.k + 1) → index v < 2 ^ c.k →
    (dist c (position c v) c.head = 2 ^ c.k → dist c c.tail c.head ≤ 2 ^ c.k → ¬ submissionStale c v) ∧
    (∀ j, 1 ≤ j → j < 2 ^ c.k → position c v = (c.tail + 2 ^ (c.k + 1) - j) % 2 ^ (c.k + 1) → submissionStale c v))

/-- With no command waiting, a step of the powered module passes one undivided cycle, the model's choice of log entry 2. This
is the model's choice of log entry 2, not a rule of the manual. With an empty queue a step of a module that has the 50 V input
passes one undivided cycle: the cycle count grows by one, the tile clock by one edge when one falls in it, and the queue stays
empty. Where no fault is latched and nothing waits for the cycle (no copy, recovery stream, critical stack or DISABLE), memory,
fabric, steps and collectives stay as they are; while the module is alive the TAKEs of the cycle are applied to the module tallies.
Without the input nothing changes. (00_scope.md R6; 10_tallies_and_collectives.md R229; log entry 2) -/
def Obligations.EmptyQueueTicks : Prop :=
  ∀ (s : State), s.pending = [] →
    (s.stw.powered = false → step s = .next s) ∧
    (s.stw.powered = true → ∃ u, step s = .next u ∧ u.cyc = s.cyc + 1 ∧ u.pending = [] ∧
      u.edge = s.edge + (if s.stw.thr.left ≤ 1 then 1 else 0) ∧
      (s.stw.fault = none → s.coll.ending = none → s.steps.copies = [] → s.hrv.recWait = none → NoDisable s →
        u.memory.mem = s.memory.mem ∧ u.fab = s.fab ∧ u.steps = s.steps ∧ u.coll = s.coll ∧ u.hrv.op = s.hrv.op ∧
        (s.host.inflight = [] → u.host.rings = s.host.rings) ∧
        (s.stw.mainOn = true → u.sync.takes = [] ∧ ∀ k, (u.mtally k).count = (s.mtallyTaken k).count)))

/-- Every step keeps the memory's list in its canonical form, whatever command stands in front. For every state whose memory
lists its bytes with addresses strictly rising and no byte equal to what an unlisted address reads as, a step that answers a
next state leaves a memory of which the same holds. That an unlisted byte reads 0 is the model's choice of log entry 6.
(00_scope.md R5; log entry 6) -/
def Obligations.MemoryStaysCanonical : Prop :=
  ∀ (s t : State), MemInv s → step s = .next t → MemInv t
end

