-- ==== Sys2Proof/Laws/Sparse.lean ====
section
/-! SUPPORT. The laws of sparse tables and of memory bytes: a read after a write, and the canonical form that writes keep. -/

namespace Sys2Proof.Laws

set_option Elab.async false

open Sys2Proof.Machine

variable {α : Type}

@[simp] theorem sfind_nil (k : Nat) : sfind ([] : List (Nat × α)) k = none := rfl

@[simp] theorem sget_nil (d : α) (k : Nat) : sget d [] k = d := rfl

theorem sfind_sinsert (k j : Nat) (v : α) (m : List (Nat × α)) :
    sfind (sinsert k v m) j = if j = k then some v else sfind m j := by
  induction m with
  | nil => simp [sinsert, sfind, eq_comm]
  | cons e m ih =>
    obtain ⟨k', v'⟩ := e
    unfold sinsert
    by_cases h1 : k < k'
    · rw [if_pos h1, sfind]; simp only [eq_comm]
    · by_cases h2 : k' = k
      · subst h2
        by_cases h : j = k'
        · simp [sfind, h]
        · simp [sfind, h, Ne.symm h]
      · by_cases h : j = k
        · subst h; simp [h1, sfind, h2, ih]
        · simp [h1, sfind, h2, ih, h]

theorem sfind_filter (p : Nat → Bool) (m : List (Nat × α)) (j : Nat) :
    sfind (m.filter (fun e => p e.1)) j = if p j then sfind m j else none := by
  induction m with
  | nil => simp
  | cons e m ih =>
    obtain ⟨k', v'⟩ := e
    by_cases hp : p k' = true
    · by_cases hk : k' = j
      · subst hk; simp [sfind, hp]
      · simp [sfind, hp, hk, ih]
    · by_cases hk : k' = j
      · subst hk; simp [hp, ih]
      · simp [sfind, hp, hk, ih]

theorem sfind_serase (k j : Nat) (m : List (Nat × α)) :
    sfind (serase m k) j = if j = k then none else sfind m j := by
  have h := sfind_filter (fun x => x != k) m j
  rw [serase, h]
  by_cases hj : j = k <;> simp [hj]

/-- A read after a write: the written key reads the value, and every other key reads as before. -/
theorem sget_sput [DecidableEq α] (d : α) (m : List (Nat × α)) (k j : Nat) (v : α) :
    sget d (sput d m k v) j = if j = k then v else sget d m j := by
  unfold sget sput
  by_cases hv : v = d
  · by_cases hj : j = k <;> simp [hv, sfind_serase, hj]
  · by_cases hj : j = k <;> simp [hv, sfind_sinsert, hj]

@[simp] theorem sget_sput_self [DecidableEq α] (d : α) (m : List (Nat × α)) (k : Nat) (v : α) :
    sget d (sput d m k v) k = v := by simp [sget_sput]

theorem sget_sput_other [DecidableEq α] (d : α) (m : List (Nat × α)) {k j : Nat} (h : j ≠ k) (v : α) :
    sget d (sput d m k v) j = sget d m j := by simp [sget_sput, h]

theorem sget_supd [DecidableEq α] (d : α) (m : List (Nat × α)) (k j : Nat) (f : α → α) :
    sget d (supd d m k f) j = if j = k then f (sget d m k) else sget d m j := by simp [supd, sget_sput]

/-! ## The canonical form -/

theorem mem_sinsert (k : Nat) (v : α) (m : List (Nat × α)) (e : Nat × α) (h : e ∈ sinsert k v m) : e = (k, v) ∨ e ∈ m := by
  induction m with
  | nil => simpa [sinsert] using h
  | cons a m ih =>
    obtain ⟨k', v'⟩ := a
    simp only [sinsert] at h
    split at h
    · simpa using h
    · split at h
      · rcases List.mem_cons.mp h with h | h
        · exact .inl h
        · exact .inr (List.mem_cons_of_mem _ h)
      · rcases List.mem_cons.mp h with h | h
        · exact .inr (h ▸ List.mem_cons_self ..)
        · rcases ih h with h | h
          · exact .inl h
          · exact .inr (List.mem_cons_of_mem _ h)

theorem sinsert_pairwise (k : Nat) (v : α) (m : List (Nat × α)) (h : m.Pairwise (fun a b => a.1 < b.1)) :
    (sinsert k v m).Pairwise (fun a b => a.1 < b.1) := by
  induction m with
  | nil => simp [sinsert]
  | cons a m ih =>
    obtain ⟨k', v'⟩ := a
    obtain ⟨h1, h2⟩ := List.pairwise_cons.mp h
    simp only [sinsert]
    split
    · refine List.pairwise_cons.mpr ⟨fun b hb => ?_, h⟩
      rcases List.mem_cons.mp hb with hb | hb
      · subst hb; assumption
      · have := h1 b hb; simp only at this ⊢; omega
    · split
      · subst_vars; exact List.pairwise_cons.mpr ⟨h1, h2⟩
      · refine List.pairwise_cons.mpr ⟨fun b hb => ?_, ih h2⟩
        rcases mem_sinsert k v m b hb with hb | hb
        · subst hb; simp only; omega
        · exact h1 b hb

/-- Erasing a key keeps the canonical form. -/
theorem swf_serase (d : α) (m : List (Nat × α)) (k : Nat) (h : swf d m) : swf d (serase m k) :=
  ⟨h.1.filter _, fun e he => h.2 e (List.mem_filter.mp he).1⟩

/-- Keeping the entries that a test passes keeps the canonical form. -/
theorem swf_filter (d : α) (m : List (Nat × α)) (p : Nat × α → Bool) (h : swf d m) : swf d (m.filter p) :=
  ⟨h.1.filter _, fun e he => h.2 e (List.mem_filter.mp he).1⟩

/-- A write keeps the canonical form. -/
theorem swf_sput [DecidableEq α] (d : α) (m : List (Nat × α)) (k : Nat) (v : α) (h : swf d m) : swf d (sput d m k v) := by
  unfold sput
  split
  · exact swf_serase d m k h
  · refine ⟨sinsert_pairwise k v m h.1, fun e he => ?_⟩
    rcases mem_sinsert k v m e he with he | he
    · subst he; assumption
    · exact h.2 e he

theorem swf_supd [DecidableEq α] (d : α) (m : List (Nat × α)) (k : Nat) (f : α → α) (h : swf d m) :
    swf d (supd d m k f) := swf_sput d m k _ h

/-! ## Memory bytes -/

/-- A memory write keeps the canonical form. -/
theorem memWf_putBytes (m : List Host.Cell) (a : Nat) (b : List Byte) (h : memWf m) : memWf (putBytes m a b) := by
  induction b generalizing m a with
  | nil => exact h
  | cons x xs ih => exact ih _ _ (swf_sput _ _ _ _ h)

/-- A byte after a write of one byte. -/
theorem byteAt_sput (m : List Host.Cell) (a b : Nat) (v : Byte) :
    byteAt (sput unwritten m a v) b = if b = a then v else byteAt m b := sget_sput unwritten m a b v

/-- A write leaves every byte outside it alone. -/
theorem byteAt_putBytes_out (m : List Host.Cell) (a b : Nat) (l : List Byte) (h : b < a ∨ a + l.length ≤ b) :
    byteAt (putBytes m a l) b = byteAt m b := by
  induction l generalizing m a with
  | nil => rfl
  | cons x xs ih =>
    simp only [List.length_cons] at h
    rw [putBytes, ih _ _ (by omega), byteAt_sput, if_neg (by omega)]

/-- A read after a write: byte i of the written range reads byte i of the data. -/
theorem byteAt_putBytes_in (m : List Host.Cell) (a i : Nat) (l : List Byte) (h : i < l.length) :
    byteAt (putBytes m a l) (a + i) = l[i] := by
  induction l generalizing m a i with
  | nil => simp at h
  | cons x xs ih =>
    cases i with
    | zero => rw [putBytes, byteAt_putBytes_out _ _ _ _ (by omega)]; simp [byteAt_sput]
    | succ i =>
      have := ih (sput unwritten m a x) (a + 1) i (by simpa using h)
      rw [putBytes, show a + (i + 1) = a + 1 + i by omega, this]; rfl

/-- A run of state changes keeps what each of them keeps. -/
theorem each_keeps {σ β : Type} (p : σ → Prop) (l : List β) (f : β → σ → σ) (s : σ) (h : p s)
    (hf : ∀ x s, p s → p (f x s)) : p (each l f s) := by
  unfold each
  induction l generalizing s with
  | nil => exact h
  | cons x xs ih => exact ih _ (hf x s h)

@[simp] theorem each_nil {σ β : Type} (f : β → σ → σ) (s : σ) : each [] f s = s := rfl
@[simp] theorem each_cons {σ β : Type} (x : β) (l : List β) (f : β → σ → σ) (s : σ) :
    each (x :: l) f s = each l f (f x s) := rfl

end Sys2Proof.Laws
end

