-- ==== Sys2Proof/Laws/Memory.lean ====
section
/-! SUPPORT. What the operations over memory do: each keeps the canonical form, and says which bytes it changes. These are all
the operations of the model that write memory. -/

namespace Sys2Proof.Laws

set_option Elab.async false

open Sys2Proof.Machine Sys2Proof.Safety

/-! ## The canonical form -/

/-- Reset memory lists nothing. -/
theorem wf_reset : State.reset.memory.wf := by decide

/-- Bytes written at an address, those on a failed pseudo-channel discarded. -/
theorem wf_putKept (lost : Nat → Bool) (m : List Host.Cell) (a : Nat) (b : List Byte) (h : memWf m) : memWf (putKept lost m a b) := by
  induction b generalizing m a with
  | nil => exact h
  | cons x b ih =>
    unfold putKept
    refine ih _ _ ?_
    split
    · exact h
    · exact swf_sput _ _ _ _ h

/-- Bytes written at an address. -/
theorem wf_memPut (s : State) (a : Nat) (b : List Byte) (h : s.memory.wf) : (s.memPut a b).memory.wf := by
  show memWf (if _ then _ else _)
  split
  · exact wf_putKept _ _ _ _ h
  · exact memWf_putBytes _ _ _ h

/-- A number written at an address. -/
theorem wf_memPutNum (s : State) (a n v : Nat) (h : s.memory.wf) : (s.memPutNum a n v).memory.wf := wf_memPut _ _ _ h

/-- A number added at an address. -/
theorem wf_memAdd (s : State) (a n k : Nat) (h : s.memory.wf) : (s.memAdd a n k).memory.wf := by
  unfold State.memAdd
  split
  · exact h
  · exact wf_memPutNum _ _ _ _ h

/-- A number added at an address, saturating. -/
theorem wf_memAddSat (s : State) (a n k : Nat) (h : s.memory.wf) : (s.memAddSat a n k).memory.wf := by
  unfold State.memAddSat
  split
  · exact h
  · exact wf_memPutNum _ _ _ _ h

/-- A line's bytes changed by its device errors. -/
theorem wf_alterLine (s : State) (l : Nat) (es : List (Nat × BitVec 16)) (h : s.memory.wf) : (alterLine l es s).memory.wf :=
  memWf_putBytes _ _ _ h

/-- The check bytes of a range whose entry is disabled. -/
theorem wf_storeChecks (s : State) (a : Nat) (r : Range) (h : s.memory.wf) : (storeChecks a r s).memory.wf := by
  unfold storeChecks
  refine each_keeps (fun (u : State) => u.memory.wf) _ _ _ h (fun l u hu => ?_)
  exact memWf_putBytes _ _ _ (wf_alterLine _ _ _ hu)

/-- A range written as zero. -/
theorem wf_zeroRange (s : State) (a n : Nat) (h : s.memory.wf) : (zeroRange a n s).memory.wf := swf_filter _ _ _ h

/-- Bytes written by the harvest engine. -/
theorem wf_enginePut (s : State) (a : Nat) (b : List Byte) (h : s.memory.wf) : (enginePut a b s).memory.wf := by
  unfold enginePut
  split
  · exact wf_memPut _ _ _ h
  · exact h

/-- A module reset. -/
theorem wf_afterReset (m : Memory) (h : m.wf) : m.afterReset.wf := swf_filter _ _ _ h

/-! ## Which bytes change -/

/-- No pseudo-channel has failed its retraining, so that every byte written is kept. -/
abbrev NoFailedPc (s : State) : Prop := s.memory.dev.any (fun e => e.2.retiredFailed) = false

/-- The bytes of memory after a write while no pseudo-channel has failed. -/
theorem memPut_plain (s : State) (a : Nat) (b : List Byte) (h : NoFailedPc s) :
    (s.memPut a b).memory.mem = putBytes s.memory.mem a b := by
  show (if _ then _ else _) = _
  rw [if_neg (by rw [h]; decide)]

/-- A write gives the bytes written. -/
theorem byteAt_memPut_in (s : State) (a i : Nat) (b : List Byte) (hf : NoFailedPc s) (h : i < b.length) :
    byteAt (s.memPut a b).memory.mem (a + i) = b[i] := by
  rw [memPut_plain s a b hf]; exact byteAt_putBytes_in _ _ _ _ h

/-- Bytes written, some discarded, leave every byte outside their range. -/
theorem byteAt_putKept_out (lost : Nat → Bool) (m : List Host.Cell) (a x : Nat) (b : List Byte) (h : x < a ∨ a + b.length ≤ x) :
    byteAt (putKept lost m a b) x = byteAt m x := by
  induction b generalizing m a with
  | nil => rfl
  | cons v b ih =>
    have hl : (v :: b).length = b.length + 1 := rfl
    unfold putKept
    rw [ih _ _ (by omega)]
    split
    · rfl
    · exact sget_sput_other _ _ (by omega) _

/-- A write leaves every other byte. -/
theorem memKept_memPut (s : State) (a : Nat) (b : List Byte) : MemKept s (s.memPut a b) (fun x => a ≤ x ∧ x < a + b.length) := by
  intro x hx
  show byteAt (if _ then _ else _) x = _
  split
  · exact byteAt_putKept_out _ _ _ _ _ (by omega)
  · exact byteAt_putBytes_out _ _ _ _ (by omega)

/-- Bytes read at the address of a write are the bytes written. -/
theorem stored_memPut (s : State) (a : Nat) (b : List Byte) (hf : NoFailedPc s) : Stored (s.memPut a b) a b := by
  have upFrom_eq : ∀ n lo : Nat, upFrom lo n = (List.range n).map (lo + ·) := by
    intro n
    induction n with
    | zero => intro lo; rfl
    | succ n ih =>
      intro lo
      rw [upFrom, ih, List.range_succ_eq_map]
      simp [Function.comp_def, Nat.add_comm, Nat.add_left_comm]
  unfold Stored bytesAt
  apply List.ext_getElem
  · simp [upFrom_eq]
  · intro i h1 h2
    simp only [upFrom_eq, List.getElem_map, List.getElem_range]
    exact byteAt_memPut_in _ _ _ _ hf h2

/-- A write that covers no whole line leaves the marks of detected lines and the device errors. -/
theorem marks_memPut_part (s : State) (a : Nat) (b : List Byte) (h : b.length < 64) :
    (s.memPut a b).memory.marks = s.memory.marks ∧ (s.memPut a b).memory.errs = s.memory.errs := by
  have hc : ∀ l, coversLine a b.length l = false := by
    intro l; unfold coversLine; simp only [Bool.and_eq_false_iff, decide_eq_false_iff_not]; omega
  constructor
  · exact List.filter_eq_self.mpr (fun l _ => by simp [hc])
  · exact List.filter_eq_self.mpr (fun e _ => by simp [hc])

/-- A whole line written is no longer marked (R172, R187). -/
theorem memPut_unmarks (s : State) (a l : Nat) (b : List Byte) (h1 : a ≤ l) (h2 : l + 64 ≤ a + b.length) :
    l ∉ (s.memPut a b).memory.marks := by
  show l ∉ List.filter _ _
  simp [coversLine, h1, h2]

/-- A range written as zero reads as zero, and every other byte as before. -/
theorem byteAt_zeroRange (s : State) (a n x : Nat) :
    byteAt (zeroRange a n s).memory.mem x = if a ≤ x ∧ x < a + n then 0 else byteAt s.memory.mem x := by
  have := sfind_filter (fun k => !(decide (a ≤ k) && decide (k < a + n))) s.memory.mem x
  simp only [byteAt, zeroRange, sget, this]
  by_cases h : a ≤ x ∧ x < a + n
  · simp [h, unwritten]
  · have h' : (!(decide (a ≤ x) && decide (x < a + n))) = true := by simp; omega
    simp [h, h']

/-- A module reset keeps the bytes of memories that were trained. -/
theorem byteAt_afterReset (m : Memory) (a p o : Nat) (h : mpaWindow a = some (p, o)) :
    byteAt m.afterReset.mem a = if (sget Device.init m.dev p).keeps then byteAt m.mem a else 0 := by
  have hf := congrArg (fun v => Option.getD v unwritten) (sfind_filter (fun k => match mpaWindow k with
    | some (p, _) => (sget Device.init m.dev p).keeps
    | none => false) m.mem a)
  refine hf.trans ?_
  simp only [h, byteAt]
  by_cases hk : (sget Device.init m.dev p).keeps = true
  · rw [if_pos hk, if_pos hk]; rfl
  · rw [if_neg hk, if_neg hk]; rfl

end Sys2Proof.Laws
end

