-- ==== Sys2Proof/Laws/PerInstr.lean ====
section
/-! SUPPORT. Statements made per command: what a well-formed command acts on is a thing the module has. -/

namespace Sys2Proof.Laws.Addressed

set_option Elab.async false

open Config

/-- A well-formed command acts on something that the module has. -/
def Statement (i : Instr) : Prop := i.wf = true → i.target.present = true

/-- A stack is a memory. -/
theorem memIx_of_stackIx {k : Nat} (h : stackIx k = true) : memIx k = true := by
  simp only [stackIx, memIx, decide_eq_true_eq] at *; exact Nat.lt_trans h (by decide)

/-- The left part of a check. -/
theorem left_of_and {a b : Bool} (h : (a && b) = true) : a = true := by simp_all

theorem loadFurrow (x0) : Statement (.loadFurrow x0) := fun h => h
theorem runPass (x0) : Statement (.runPass x0) := fun h => h
theorem dataIn (x0) : Statement (.dataIn x0) := fun h => h
theorem dataInLogReplay (x0) : Statement (.dataInLogReplay x0) := fun h => h
theorem dataOut (x0) : Statement (.dataOut x0) := fun h => h
theorem stepOpen (x0) : Statement (.stepOpen x0) := fun h => h
theorem stepClose (x0) : Statement (.stepClose x0) := fun h => h
theorem harvestBegin (x0) : Statement (.harvestBegin x0) := fun h => h
theorem harvestRecovery (x0) : Statement (.harvestRecovery x0) := fun h => h
theorem restore (x0) (x1) : Statement (.restore x0 x1) := fun h => h
theorem restoreCommit (x0) : Statement (.restoreCommit x0) := fun _ => rfl
theorem standinClaim (x0) : Statement (.standinClaim x0) := fun h => h
theorem claimSettle : Statement (.claimSettle) := fun _ => rfl
theorem cancel (x0) : Statement (.cancel x0) := fun h => h
theorem syncDump (x0) : Statement (.syncDump x0) := fun h => h
theorem tallySignal (x0) : Statement (.tallySignal x0) := fun h => h
theorem fence (x0) : Statement (.fence x0) := fun h => h
theorem disable (x0) : Statement (.disable x0) := fun h => h
theorem submissionDoorbell (x0) (x1) (x2) : Statement (.submissionDoorbell x0 x1 x2) := fun h => by
  simp only [Instr.wf, Bool.and_eq_true] at h
  exact h.1
theorem completionDoorbell (x0) (x1) (x2) : Statement (.completionDoorbell x0 x1 x2) := fun h => by
  simp only [Instr.wf, Bool.and_eq_true] at h
  exact h.1
theorem splitDescriptorTimeout (x0) : Statement (.splitDescriptorTimeout x0) := fun h => h
theorem heldDescriptorRelease (x0) : Statement (.heldDescriptorRelease x0) := fun h => h
theorem completionModerationTimeout (x0) : Statement (.completionModerationTimeout x0) := fun h => h
theorem opx (x0) (x1) : Statement (.opx x0 x1) := fun h => by
  simp only [Instr.wf, Bool.and_eq_true] at h
  exact h.1
theorem alt (x0) (x1) : Statement (.alt x0 x1) := fun h => by
  simp only [Instr.wf, Bool.and_eq_true] at h
  exact h.1
theorem shx (x0) (x1) : Statement (.shx x0 x1) := fun h => by
  simp only [Instr.wf, Bool.and_eq_true] at h
  exact h.1
theorem aclr (x0) (x1) : Statement (.aclr x0 x1) := fun h => by
  simp only [Instr.wf, Bool.and_eq_true] at h
  exact h.1
theorem drn (x0) (x1) : Statement (.drn x0 x1) := fun h => by
  simp only [Instr.wf, Bool.and_eq_true] at h
  exact h.1
theorem vadd (x0) (x1) : Statement (.vadd x0 x1) := fun h => by
  simp only [Instr.wf, Bool.and_eq_true] at h
  exact h.1
theorem vmul (x0) (x1) : Statement (.vmul x0 x1) := fun h => by
  simp only [Instr.wf, Bool.and_eq_true] at h
  exact h.1
theorem vfma (x0) (x1) : Statement (.vfma x0 x1) := fun h => by
  simp only [Instr.wf, Bool.and_eq_true] at h
  exact h.1
theorem vcmp (x0) (x1) : Statement (.vcmp x0 x1) := fun h => by
  simp only [Instr.wf, Bool.and_eq_true] at h
  exact h.1
theorem vsel (x0) (x1) : Statement (.vsel x0 x1) := fun h => by
  simp only [Instr.wf, Bool.and_eq_true] at h
  exact h.1
theorem vmin (x0) (x1) : Statement (.vmin x0 x1) := fun h => by
  simp only [Instr.wf, Bool.and_eq_true] at h
  exact h.1
theorem vmax (x0) (x1) : Statement (.vmax x0 x1) := fun h => by
  simp only [Instr.wf, Bool.and_eq_true] at h
  exact h.1
theorem vcvt (x0) (x1) : Statement (.vcvt x0 x1) := fun h => by
  simp only [Instr.wf, Bool.and_eq_true] at h
  exact h.1
theorem vrdc (x0) (x1) : Statement (.vrdc x0 x1) := fun h => by
  simp only [Instr.wf, Bool.and_eq_true] at h
  exact h.1
theorem vpos (x0) (x1) : Statement (.vpos x0 x1) := fun h => by
  simp only [Instr.wf, Bool.and_eq_true] at h
  exact h.1
theorem vrnd (x0) (x1) : Statement (.vrnd x0 x1) := fun h => by
  simp only [Instr.wf, Bool.and_eq_true] at h
  exact h.1
theorem get (x0) (x1) : Statement (.get x0 x1) := fun h => by
  simp only [Instr.wf, Bool.and_eq_true] at h
  exact h.1
theorem put (x0) (x1) : Statement (.put x0 x1) := fun h => by
  simp only [Instr.wf, Bool.and_eq_true] at h
  exact h.1
theorem xfer (x0) (x1) : Statement (.xfer x0 x1) := fun h => by
  simp only [Instr.wf, Bool.and_eq_true] at h
  exact h.1
theorem xferLineArrive (x0) (x1) : Statement (.xferLineArrive x0 x1) := fun h => by
  simp only [Instr.wf, Bool.and_eq_true] at h
  exact h.1
theorem swap (x0) (x1) : Statement (.swap x0 x1) := fun h => by
  simp only [Instr.wf, Bool.and_eq_true] at h
  exact h.1
theorem sig (x0) (x1) : Statement (.sig x0 x1) := fun h => by
  simp only [Instr.wf, Bool.and_eq_true] at h
  exact h.1
theorem wait (x0) (x1) : Statement (.wait x0 x1) := fun h => by
  simp only [Instr.wf, Bool.and_eq_true] at h
  exact h.1
theorem take (x0) (x1) : Statement (.take x0 x1) := fun h => by
  simp only [Instr.wf, Bool.and_eq_true] at h
  exact h.1
theorem bind (x0) (x1) : Statement (.bind x0 x1) := fun h => by
  simp only [Instr.wf, Bool.and_eq_true] at h
  exact h.1
theorem loop (x0) (x1) : Statement (.loop x0 x1) := fun h => by
  simp only [Instr.wf, Bool.and_eq_true] at h
  exact h.1
theorem brc (x0) (x1) : Statement (.brc x0 x1) := fun h => by
  simp only [Instr.wf, Bool.and_eq_true] at h
  exact h.1
theorem yield (x0) : Statement (.yield x0) := fun h => h
theorem pend (x0) : Statement (.pend x0) := fun h => h
theorem passRetire (x0) : Statement (.passRetire x0) := fun _ => rfl
theorem passSwitch (x0) : Statement (.passSwitch x0) := fun h => h
theorem passResume (x0) : Statement (.passResume x0) := fun h => h
theorem budgetExceeded (x0) (x1) : Statement (.budgetExceeded x0 x1) := fun h => h
theorem preemptionBoundExceeded (x0) (x1) : Statement (.preemptionBoundExceeded x0 x1) := fun h => h
theorem tallySignalApply (x0) : Statement (.tallySignalApply x0) := fun _ => rfl
theorem binderWireRelease (x0) : Statement (.binderWireRelease x0) := fun h => h
theorem waitTimeout (x0) (x1) : Statement (.waitTimeout x0 x1) := fun h => h
theorem tagGrant (x0) : Statement (.tagGrant x0) := fun h => h
theorem readLand (x0) : Statement (.readLand x0) := fun _ => rfl
theorem memoryWriteAck (x0) : Statement (.memoryWriteAck x0) := fun _ => rfl
theorem bufferCycle (x0) : Statement (.bufferCycle x0) := fun h => h
theorem memoryRequestServe (x0) (x1) (x2) : Statement (.memoryRequestServe x0 x1 x2) := fun h => h
theorem memTrainStacks (x0) : Statement (.memTrainStacks x0) := fun _ => rfl
theorem memTrainPackages (x0) : Statement (.memTrainPackages x0) := fun _ => rfl
theorem memoryTrainingDone (x0) : Statement (.memoryTrainingDone x0) := fun h => h
theorem rangeEnable (x0) (x1) : Statement (.rangeEnable x0 x1) := fun h => h
theorem rangeDisable (x0) (x1) : Statement (.rangeDisable x0 x1) := fun h => h
theorem rangeInitDone (x0) (x1) : Statement (.rangeInitDone x0 x1) := fun h => h
theorem windowEnable (x0) (x1) : Statement (.windowEnable x0 x1) := fun h => h
theorem windowDisable (x0) (x1) : Statement (.windowDisable x0 x1) := fun h => h
theorem copyAhead (x0) : Statement (.copyAhead x0) := fun _ => rfl
theorem selfRefreshEntry (x0) : Statement (.selfRefreshEntry x0) := fun h => memIx_of_stackIx h
theorem retrainingStart (x0) (x1) (x2) : Statement (.retrainingStart x0 x1 x2) := fun h => h
theorem hostRetrain (x0) (x1) : Statement (.hostRetrain x0 x1) := fun h => by
  simp only [Instr.wf, Bool.and_eq_true] at h
  exact Bool.and_eq_true _ _ ▸ ⟨memIx_of_stackIx h.1, h.2⟩
theorem retrainingTimeout (x0) (x1) : Statement (.retrainingTimeout x0 x1) := fun h => h
theorem hostRetire (x0) (x1) : Statement (.hostRetire x0 x1) := fun h => by
  simp only [Instr.wf, Bool.and_eq_true] at h
  exact Bool.and_eq_true _ _ ▸ ⟨memIx_of_stackIx h.1, h.2⟩
theorem resowGo (x0) : Statement (.resowGo x0) := fun h => memIx_of_stackIx h
theorem resowMove (x0) : Statement (.resowMove x0) := fun h => memIx_of_stackIx h
theorem patrolScrub (x0) (x1) (x2) : Statement (.patrolScrub x0 x1 x2) := fun h => h
theorem stackTempReading (x0) (x1) : Statement (.stackTempReading x0 x1) := fun h => memIx_of_stackIx (left_of_and h)
theorem hotDelayRestate (x0) : Statement (.hotDelayRestate x0) := fun h => memIx_of_stackIx h
theorem portEnable (x0) : Statement (.portEnable x0) := fun _ => rfl
theorem linkControlReceive (x0) (x1) : Statement (.linkControlReceive x0 x1) := fun h => h
theorem flitReceive (x0) (x1) : Statement (.flitReceive x0 x1) := fun h => h
theorem ackTimeoutResend (x0) : Statement (.ackTimeoutResend x0) := fun h => h
theorem packetTransmit (x0) : Statement (.packetTransmit x0) := fun h => h
theorem linkSilenceTimeout (x0) : Statement (.linkSilenceTimeout x0) := fun h => h
theorem pcsLockLoss (x0) : Statement (.pcsLockLoss x0) := fun h => h
theorem fecLimitExceeded (x0) (x1) (x2) : Statement (.fecLimitExceeded x0 x1 x2) := fun h => h
theorem portRetrainRetry (x0) : Statement (.portRetrainRetry x0) := fun h => h
theorem portRetrain (x0) : Statement (.portRetrain x0) := fun h => h
theorem clearQuarantine (x0) : Statement (.clearQuarantine x0) := fun h => h
theorem replayBufferRelease (x0) : Statement (.replayBufferRelease x0) := fun h => h
theorem stallTimeout (x0) : Statement (.stallTimeout x0) := fun _ => rfl
theorem abandonTimeout (x0) : Statement (.abandonTimeout x0) := fun _ => rfl
theorem fabNodeIdWrite (x0) : Statement (.fabNodeIdWrite x0) := fun _ => rfl
theorem write (x0) : Statement (.write x0) := fun h => h
theorem readReq (x0) : Statement (.readReq x0) := fun h => h
theorem readResp (x0) : Statement (.readResp x0) := fun h => h
theorem writeAck (x0) : Statement (.writeAck x0) := fun h => h
theorem signal (x0) : Statement (.signal x0) := fun h => h
theorem bareSignal (x0) : Statement (.bareSignal x0) := fun h => h
theorem coll (x0) : Statement (.coll x0) := fun h => h
theorem sealReport (x0) : Statement (.sealReport x0) := fun h => h
theorem mirror (x0) : Statement (.mirror x0) := fun h => h
theorem recovery (x0) : Statement (.recovery x0) := fun h => h
theorem cancelNotice (x0) : Statement (.cancelNotice x0) := fun h => h
theorem cancelAck (x0) : Statement (.cancelAck x0) := fun h => h
theorem holdoff (x0) : Statement (.holdoff x0) := fun h => h
theorem abandon (x0) : Statement (.abandon x0) := fun h => h
theorem nakPkt (x0) : Statement (.nakPkt x0) := fun h => h
theorem claim (x0) : Statement (.claim x0) := fun h => h
theorem claimRefuse (x0) : Statement (.claimRefuse x0) := fun h => h
theorem collGroupEnable (x0) : Statement (.collGroupEnable x0) := fun h => h
theorem collGroupDisable (x0) : Statement (.collGroupDisable x0) := fun h => h
theorem collCommandStart (x0) : Statement (.collCommandStart x0) := fun h => h
theorem collCommandDone (x0) : Statement (.collCommandDone x0) := fun h => h
theorem collGroupTimeout (x0) : Statement (.collGroupTimeout x0) := fun h => h
theorem tilMtalCountWrite (x0) : Statement (.tilMtalCountWrite x0) := fun _ => rfl
theorem tilMtalCfgWrite (x0) : Statement (.tilMtalCfgWrite x0) := fun _ => rfl
theorem stpJobStart : Statement (.stpJobStart) := fun _ => rfl
theorem stpJobEnd : Statement (.stpJobEnd) := fun _ => rfl
theorem stpRollback : Statement (.stpRollback) := fun _ => rfl
theorem stpVerdictWrite (x0) : Statement (.stpVerdictWrite x0) := fun _ => rfl
theorem stepEnterCheck (x0) : Statement (.stepEnterCheck x0) := fun _ => rfl
theorem sealEvaluate (x0) : Statement (.sealEvaluate x0) := fun _ => rfl
theorem mirrorSendEntry : Statement (.mirrorSendEntry) := fun _ => rfl
theorem digestExchange : Statement (.digestExchange) := fun _ => rfl
theorem titheSampleTest : Statement (.titheSampleTest) := fun _ => rfl
theorem hrvRemirror : Statement (.hrvRemirror) := fun _ => rfl
theorem harvestBlockCopy (x0) : Statement (.harvestBlockCopy x0) := fun _ => rfl
theorem powerOn (x0) : Statement (.powerOn x0) := fun _ => rfl
theorem powerOff : Statement (.powerOff) := fun _ => rfl
theorem mainRailsOff : Statement (.mainRailsOff) := fun _ => rfl
theorem moduleReset (x0) : Statement (.moduleReset x0) := fun _ => rfl
theorem perstDeassert : Statement (.perstDeassert) := fun _ => rfl
theorem pmD3hotEntry : Statement (.pmD3hotEntry) := fun _ => rfl
theorem pmD0Return : Statement (.pmD0Return) := fun _ => rfl
theorem throttlePinAssert : Statement (.throttlePinAssert) := fun _ => rfl
theorem throttlePinRelease : Statement (.throttlePinRelease) := fun _ => rfl
theorem undervoltageThrottle : Statement (.undervoltageThrottle) := fun _ => rfl
theorem undervoltageRelease : Statement (.undervoltageRelease) := fun _ => rfl
theorem powerCapStep (x0) : Statement (.powerCapStep x0) := fun _ => rfl
theorem dieTempThrottle (x0) (x1) : Statement (.dieTempThrottle x0 x1) := fun h => by
  simp only [Instr.wf, Bool.and_eq_true] at h
  exact h.1
theorem throttleLevelStep : Statement (.throttleLevelStep) := fun _ => rfl
theorem moduleFaultDeclare (x0) : Statement (.moduleFaultDeclare x0) := fun _ => rfl
theorem energySample (x0) (x1) : Statement (.energySample x0 x1) := fun _ => rfl
theorem pllLock (x0) : Statement (.pllLock x0) := fun h => h
theorem wakeWalkStep (x0) : Statement (.wakeWalkStep x0) := fun h => h
theorem pllStop (x0) : Statement (.pllStop x0) := fun h => h
theorem tileGate (x0) : Statement (.tileGate x0) := fun h => h
theorem idleTestSlice (x0) (x1) : Statement (.idleTestSlice x0 x1) := fun h => h
theorem tileRetirementApply : Statement (.tileRetirementApply) := fun _ => rfl
theorem mboxWriteSlot (x0) : Statement (.mboxWriteSlot x0) := fun _ => rfl
theorem mboxVerifySlot : Statement (.mboxVerifySlot) := fun _ => rfl
theorem mboxSetPreferred : Statement (.mboxSetPreferred) := fun _ => rfl
theorem mboxCommit : Statement (.mboxCommit) := fun _ => rfl
theorem mboxReadRecord (x0) : Statement (.mboxReadRecord x0) := fun _ => rfl
theorem mboxCommandComplete : Statement (.mboxCommandComplete) := fun _ => rfl
theorem getVersion : Statement (.getVersion) := fun _ => rfl
theorem getCapabilities : Statement (.getCapabilities) := fun _ => rfl
theorem negotiateAlgorithms : Statement (.negotiateAlgorithms) := fun _ => rfl
theorem getDigests : Statement (.getDigests) := fun _ => rfl
theorem getCertificate (x0) (x1) (x2) : Statement (.getCertificate x0 x1 x2) := fun _ => rfl
theorem challenge (x0) (x1) : Statement (.challenge x0 x1) := fun _ => rfl
theorem getMeasurements (x0) : Statement (.getMeasurements x0) := fun _ => rfl
theorem entdaa (x0) : Statement (.entdaa x0) := fun _ => rfl
theorem setdasa (x0) (x1) : Statement (.setdasa x0 x1) := fun _ => rfl
theorem evtEnable (x0) : Statement (.evtEnable x0) := fun _ => rfl
theorem evtHeadWrite (x0) : Statement (.evtHeadWrite x0) := fun _ => rfl
theorem eventModerationTimeout : Statement (.eventModerationTimeout) := fun _ => rfl
theorem msixUnmask (x0) : Statement (.msixUnmask x0) := fun _ => rfl
theorem ringEnable (x0) (x1) : Statement (.ringEnable x0 x1) := fun h => h
theorem ringEngineEnable : Statement (.ringEngineEnable) := fun _ => rfl
theorem gathererEnable (x0) : Statement (.gathererEnable x0) := fun _ => rfl
theorem tileEnable (x0) (x1) : Statement (.tileEnable x0 x1) := fun _ => rfl
theorem deviceEnable (x0) : Statement (.deviceEnable x0) := fun _ => rfl
theorem harvestEngineEnable : Statement (.harvestEngineEnable) := fun _ => rfl
theorem barSplitLowWrite (x0) (x1) : Statement (.barSplitLowWrite x0 x1) := fun h => by
  simp only [Instr.wf, Bool.and_eq_true] at h
  exact h.1
theorem registerWrite (x0) (x1) (x2) (x3) : Statement (.registerWrite x0 x1 x2 x3) := fun h => by
  simp only [Instr.wf, Bool.and_eq_true] at h
  exact h.1.1
theorem retrainingSuccess (x0) (x1) : Statement (.retrainingSuccess x0 x1) := fun h => h
theorem pcsFecLock (x0) : Statement (.pcsFecLock x0) := fun h => h
theorem descriptorReadError (x0) : Statement (.descriptorReadError x0) := fun h => h
theorem linkControlSend (x0) : Statement (.linkControlSend x0) := fun h => h

end Sys2Proof.Laws.Addressed
end

