-- ==== Sys2Proof/Laws/State.lean ====
section
/-! SUPPORT. One lemma per field per update of the state: what each named update leaves as it was. -/

namespace Sys2Proof.Laws

set_option Elab.async false

open Sys2Proof.Machine

/-! ### emit -/

@[simp] theorem emit_cyc (s : State) (e : Emit) : (s.emit e).cyc = s.cyc := rfl
@[simp] theorem emit_edge (s : State) (e : Emit) : (s.emit e).edge = s.edge := rfl
@[simp] theorem emit_regs (s : State) (e : Emit) : (s.emit e).regs = s.regs := rfl
@[simp] theorem emit_host (s : State) (e : Emit) : (s.emit e).host = s.host := rfl
@[simp] theorem emit_tiles (s : State) (e : Emit) : (s.emit e).tiles = s.tiles := rfl
@[simp] theorem emit_passes (s : State) (e : Emit) : (s.emit e).passes = s.passes := rfl
@[simp] theorem emit_nextPass (s : State) (e : Emit) : (s.emit e).nextPass = s.nextPass := rfl
@[simp] theorem emit_gath (s : State) (e : Emit) : (s.emit e).gath = s.gath := rfl
@[simp] theorem emit_memory (s : State) (e : Emit) : (s.emit e).memory = s.memory := rfl
@[simp] theorem emit_sync (s : State) (e : Emit) : (s.emit e).sync = s.sync := rfl
@[simp] theorem emit_coll (s : State) (e : Emit) : (s.emit e).coll = s.coll := rfl
@[simp] theorem emit_fab (s : State) (e : Emit) : (s.emit e).fab = s.fab := rfl
@[simp] theorem emit_steps (s : State) (e : Emit) : (s.emit e).steps = s.steps := rfl
@[simp] theorem emit_hrv (s : State) (e : Emit) : (s.emit e).hrv = s.hrv := rfl
@[simp] theorem emit_evt (s : State) (e : Emit) : (s.emit e).evt = s.evt := rfl
@[simp] theorem emit_stw (s : State) (e : Emit) : (s.emit e).stw = s.stw := rfl
@[simp] theorem emit_pending (s : State) (e : Emit) : (s.emit e).pending = s.pending := rfl

/-! ### setMsix -/

@[simp] theorem setMsix_cyc (s : State) (v : Nat) (e : MsixEntry) : (s.setMsix v e).cyc = s.cyc := rfl
@[simp] theorem setMsix_edge (s : State) (v : Nat) (e : MsixEntry) : (s.setMsix v e).edge = s.edge := rfl
@[simp] theorem setMsix_regs (s : State) (v : Nat) (e : MsixEntry) : (s.setMsix v e).regs = s.regs := rfl
@[simp] theorem setMsix_tiles (s : State) (v : Nat) (e : MsixEntry) : (s.setMsix v e).tiles = s.tiles := rfl
@[simp] theorem setMsix_passes (s : State) (v : Nat) (e : MsixEntry) : (s.setMsix v e).passes = s.passes := rfl
@[simp] theorem setMsix_nextPass (s : State) (v : Nat) (e : MsixEntry) : (s.setMsix v e).nextPass = s.nextPass := rfl
@[simp] theorem setMsix_gath (s : State) (v : Nat) (e : MsixEntry) : (s.setMsix v e).gath = s.gath := rfl
@[simp] theorem setMsix_memory (s : State) (v : Nat) (e : MsixEntry) : (s.setMsix v e).memory = s.memory := rfl
@[simp] theorem setMsix_sync (s : State) (v : Nat) (e : MsixEntry) : (s.setMsix v e).sync = s.sync := rfl
@[simp] theorem setMsix_coll (s : State) (v : Nat) (e : MsixEntry) : (s.setMsix v e).coll = s.coll := rfl
@[simp] theorem setMsix_fab (s : State) (v : Nat) (e : MsixEntry) : (s.setMsix v e).fab = s.fab := rfl
@[simp] theorem setMsix_steps (s : State) (v : Nat) (e : MsixEntry) : (s.setMsix v e).steps = s.steps := rfl
@[simp] theorem setMsix_hrv (s : State) (v : Nat) (e : MsixEntry) : (s.setMsix v e).hrv = s.hrv := rfl
@[simp] theorem setMsix_evt (s : State) (v : Nat) (e : MsixEntry) : (s.setMsix v e).evt = s.evt := rfl
@[simp] theorem setMsix_stw (s : State) (v : Nat) (e : MsixEntry) : (s.setMsix v e).stw = s.stw := rfl
@[simp] theorem setMsix_emitted (s : State) (v : Nat) (e : MsixEntry) : (s.setMsix v e).emitted = s.emitted := rfl
@[simp] theorem setMsix_pending (s : State) (v : Nat) (e : MsixEntry) : (s.setMsix v e).pending = s.pending := rfl

/-! ### setRing -/

@[simp] theorem setRing_cyc (s : State) (r : Nat) (c : RingCtx) : (s.setRing r c).cyc = s.cyc := rfl
@[simp] theorem setRing_edge (s : State) (r : Nat) (c : RingCtx) : (s.setRing r c).edge = s.edge := rfl
@[simp] theorem setRing_regs (s : State) (r : Nat) (c : RingCtx) : (s.setRing r c).regs = s.regs := rfl
@[simp] theorem setRing_tiles (s : State) (r : Nat) (c : RingCtx) : (s.setRing r c).tiles = s.tiles := rfl
@[simp] theorem setRing_passes (s : State) (r : Nat) (c : RingCtx) : (s.setRing r c).passes = s.passes := rfl
@[simp] theorem setRing_nextPass (s : State) (r : Nat) (c : RingCtx) : (s.setRing r c).nextPass = s.nextPass := rfl
@[simp] theorem setRing_gath (s : State) (r : Nat) (c : RingCtx) : (s.setRing r c).gath = s.gath := rfl
@[simp] theorem setRing_memory (s : State) (r : Nat) (c : RingCtx) : (s.setRing r c).memory = s.memory := rfl
@[simp] theorem setRing_sync (s : State) (r : Nat) (c : RingCtx) : (s.setRing r c).sync = s.sync := rfl
@[simp] theorem setRing_coll (s : State) (r : Nat) (c : RingCtx) : (s.setRing r c).coll = s.coll := rfl
@[simp] theorem setRing_fab (s : State) (r : Nat) (c : RingCtx) : (s.setRing r c).fab = s.fab := rfl
@[simp] theorem setRing_steps (s : State) (r : Nat) (c : RingCtx) : (s.setRing r c).steps = s.steps := rfl
@[simp] theorem setRing_hrv (s : State) (r : Nat) (c : RingCtx) : (s.setRing r c).hrv = s.hrv := rfl
@[simp] theorem setRing_evt (s : State) (r : Nat) (c : RingCtx) : (s.setRing r c).evt = s.evt := rfl
@[simp] theorem setRing_stw (s : State) (r : Nat) (c : RingCtx) : (s.setRing r c).stw = s.stw := rfl
@[simp] theorem setRing_emitted (s : State) (r : Nat) (c : RingCtx) : (s.setRing r c).emitted = s.emitted := rfl
@[simp] theorem setRing_pending (s : State) (r : Nat) (c : RingCtx) : (s.setRing r c).pending = s.pending := rfl

/-! ### setTile -/

@[simp] theorem setTile_cyc (s : State) (t : Nat) (v : Tile) : (s.setTile t v).cyc = s.cyc := rfl
@[simp] theorem setTile_edge (s : State) (t : Nat) (v : Tile) : (s.setTile t v).edge = s.edge := rfl
@[simp] theorem setTile_regs (s : State) (t : Nat) (v : Tile) : (s.setTile t v).regs = s.regs := rfl
@[simp] theorem setTile_host (s : State) (t : Nat) (v : Tile) : (s.setTile t v).host = s.host := rfl
@[simp] theorem setTile_passes (s : State) (t : Nat) (v : Tile) : (s.setTile t v).passes = s.passes := rfl
@[simp] theorem setTile_nextPass (s : State) (t : Nat) (v : Tile) : (s.setTile t v).nextPass = s.nextPass := rfl
@[simp] theorem setTile_gath (s : State) (t : Nat) (v : Tile) : (s.setTile t v).gath = s.gath := rfl
@[simp] theorem setTile_memory (s : State) (t : Nat) (v : Tile) : (s.setTile t v).memory = s.memory := rfl
@[simp] theorem setTile_sync (s : State) (t : Nat) (v : Tile) : (s.setTile t v).sync = s.sync := rfl
@[simp] theorem setTile_coll (s : State) (t : Nat) (v : Tile) : (s.setTile t v).coll = s.coll := rfl
@[simp] theorem setTile_fab (s : State) (t : Nat) (v : Tile) : (s.setTile t v).fab = s.fab := rfl
@[simp] theorem setTile_steps (s : State) (t : Nat) (v : Tile) : (s.setTile t v).steps = s.steps := rfl
@[simp] theorem setTile_hrv (s : State) (t : Nat) (v : Tile) : (s.setTile t v).hrv = s.hrv := rfl
@[simp] theorem setTile_evt (s : State) (t : Nat) (v : Tile) : (s.setTile t v).evt = s.evt := rfl
@[simp] theorem setTile_stw (s : State) (t : Nat) (v : Tile) : (s.setTile t v).stw = s.stw := rfl
@[simp] theorem setTile_emitted (s : State) (t : Nat) (v : Tile) : (s.setTile t v).emitted = s.emitted := rfl
@[simp] theorem setTile_pending (s : State) (t : Nat) (v : Tile) : (s.setTile t v).pending = s.pending := rfl

/-! ### updTile -/

@[simp] theorem updTile_cyc (s : State) (t : Nat) (f : Tile → Tile) : (s.updTile t f).cyc = s.cyc := rfl
@[simp] theorem updTile_edge (s : State) (t : Nat) (f : Tile → Tile) : (s.updTile t f).edge = s.edge := rfl
@[simp] theorem updTile_regs (s : State) (t : Nat) (f : Tile → Tile) : (s.updTile t f).regs = s.regs := rfl
@[simp] theorem updTile_host (s : State) (t : Nat) (f : Tile → Tile) : (s.updTile t f).host = s.host := rfl
@[simp] theorem updTile_passes (s : State) (t : Nat) (f : Tile → Tile) : (s.updTile t f).passes = s.passes := rfl
@[simp] theorem updTile_nextPass (s : State) (t : Nat) (f : Tile → Tile) : (s.updTile t f).nextPass = s.nextPass := rfl
@[simp] theorem updTile_gath (s : State) (t : Nat) (f : Tile → Tile) : (s.updTile t f).gath = s.gath := rfl
@[simp] theorem updTile_memory (s : State) (t : Nat) (f : Tile → Tile) : (s.updTile t f).memory = s.memory := rfl
@[simp] theorem updTile_sync (s : State) (t : Nat) (f : Tile → Tile) : (s.updTile t f).sync = s.sync := rfl
@[simp] theorem updTile_coll (s : State) (t : Nat) (f : Tile → Tile) : (s.updTile t f).coll = s.coll := rfl
@[simp] theorem updTile_fab (s : State) (t : Nat) (f : Tile → Tile) : (s.updTile t f).fab = s.fab := rfl
@[simp] theorem updTile_steps (s : State) (t : Nat) (f : Tile → Tile) : (s.updTile t f).steps = s.steps := rfl
@[simp] theorem updTile_hrv (s : State) (t : Nat) (f : Tile → Tile) : (s.updTile t f).hrv = s.hrv := rfl
@[simp] theorem updTile_evt (s : State) (t : Nat) (f : Tile → Tile) : (s.updTile t f).evt = s.evt := rfl
@[simp] theorem updTile_stw (s : State) (t : Nat) (f : Tile → Tile) : (s.updTile t f).stw = s.stw := rfl
@[simp] theorem updTile_emitted (s : State) (t : Nat) (f : Tile → Tile) : (s.updTile t f).emitted = s.emitted := rfl
@[simp] theorem updTile_pending (s : State) (t : Nat) (f : Tile → Tile) : (s.updTile t f).pending = s.pending := rfl

/-! ### updSeq -/

@[simp] theorem updSeq_cyc (s : State) (t q : Nat) (f : SeqState → SeqState) : (s.updSeq t q f).cyc = s.cyc := rfl
@[simp] theorem updSeq_edge (s : State) (t q : Nat) (f : SeqState → SeqState) : (s.updSeq t q f).edge = s.edge := rfl
@[simp] theorem updSeq_regs (s : State) (t q : Nat) (f : SeqState → SeqState) : (s.updSeq t q f).regs = s.regs := rfl
@[simp] theorem updSeq_host (s : State) (t q : Nat) (f : SeqState → SeqState) : (s.updSeq t q f).host = s.host := rfl
@[simp] theorem updSeq_passes (s : State) (t q : Nat) (f : SeqState → SeqState) : (s.updSeq t q f).passes = s.passes := rfl
@[simp] theorem updSeq_nextPass (s : State) (t q : Nat) (f : SeqState → SeqState) : (s.updSeq t q f).nextPass = s.nextPass := rfl
@[simp] theorem updSeq_gath (s : State) (t q : Nat) (f : SeqState → SeqState) : (s.updSeq t q f).gath = s.gath := rfl
@[simp] theorem updSeq_memory (s : State) (t q : Nat) (f : SeqState → SeqState) : (s.updSeq t q f).memory = s.memory := rfl
@[simp] theorem updSeq_sync (s : State) (t q : Nat) (f : SeqState → SeqState) : (s.updSeq t q f).sync = s.sync := rfl
@[simp] theorem updSeq_coll (s : State) (t q : Nat) (f : SeqState → SeqState) : (s.updSeq t q f).coll = s.coll := rfl
@[simp] theorem updSeq_fab (s : State) (t q : Nat) (f : SeqState → SeqState) : (s.updSeq t q f).fab = s.fab := rfl
@[simp] theorem updSeq_steps (s : State) (t q : Nat) (f : SeqState → SeqState) : (s.updSeq t q f).steps = s.steps := rfl
@[simp] theorem updSeq_hrv (s : State) (t q : Nat) (f : SeqState → SeqState) : (s.updSeq t q f).hrv = s.hrv := rfl
@[simp] theorem updSeq_evt (s : State) (t q : Nat) (f : SeqState → SeqState) : (s.updSeq t q f).evt = s.evt := rfl
@[simp] theorem updSeq_stw (s : State) (t q : Nat) (f : SeqState → SeqState) : (s.updSeq t q f).stw = s.stw := rfl
@[simp] theorem updSeq_emitted (s : State) (t q : Nat) (f : SeqState → SeqState) : (s.updSeq t q f).emitted = s.emitted := rfl
@[simp] theorem updSeq_pending (s : State) (t q : Nat) (f : SeqState → SeqState) : (s.updSeq t q f).pending = s.pending := rfl

/-! ### updPass -/

@[simp] theorem updPass_cyc (s : State) (q : Nat) (f : Pass → Pass) : (s.updPass q f).cyc = s.cyc := rfl
@[simp] theorem updPass_edge (s : State) (q : Nat) (f : Pass → Pass) : (s.updPass q f).edge = s.edge := rfl
@[simp] theorem updPass_regs (s : State) (q : Nat) (f : Pass → Pass) : (s.updPass q f).regs = s.regs := rfl
@[simp] theorem updPass_host (s : State) (q : Nat) (f : Pass → Pass) : (s.updPass q f).host = s.host := rfl
@[simp] theorem updPass_tiles (s : State) (q : Nat) (f : Pass → Pass) : (s.updPass q f).tiles = s.tiles := rfl
@[simp] theorem updPass_nextPass (s : State) (q : Nat) (f : Pass → Pass) : (s.updPass q f).nextPass = s.nextPass := rfl
@[simp] theorem updPass_gath (s : State) (q : Nat) (f : Pass → Pass) : (s.updPass q f).gath = s.gath := rfl
@[simp] theorem updPass_memory (s : State) (q : Nat) (f : Pass → Pass) : (s.updPass q f).memory = s.memory := rfl
@[simp] theorem updPass_sync (s : State) (q : Nat) (f : Pass → Pass) : (s.updPass q f).sync = s.sync := rfl
@[simp] theorem updPass_coll (s : State) (q : Nat) (f : Pass → Pass) : (s.updPass q f).coll = s.coll := rfl
@[simp] theorem updPass_fab (s : State) (q : Nat) (f : Pass → Pass) : (s.updPass q f).fab = s.fab := rfl
@[simp] theorem updPass_steps (s : State) (q : Nat) (f : Pass → Pass) : (s.updPass q f).steps = s.steps := rfl
@[simp] theorem updPass_hrv (s : State) (q : Nat) (f : Pass → Pass) : (s.updPass q f).hrv = s.hrv := rfl
@[simp] theorem updPass_evt (s : State) (q : Nat) (f : Pass → Pass) : (s.updPass q f).evt = s.evt := rfl
@[simp] theorem updPass_stw (s : State) (q : Nat) (f : Pass → Pass) : (s.updPass q f).stw = s.stw := rfl
@[simp] theorem updPass_emitted (s : State) (q : Nat) (f : Pass → Pass) : (s.updPass q f).emitted = s.emitted := rfl
@[simp] theorem updPass_pending (s : State) (q : Nat) (f : Pass → Pass) : (s.updPass q f).pending = s.pending := rfl

/-! ### updInflight -/

@[simp] theorem updInflight_cyc (s : State) (d : Nat) (f : Inflight → Inflight) : (s.updInflight d f).cyc = s.cyc := rfl
@[simp] theorem updInflight_edge (s : State) (d : Nat) (f : Inflight → Inflight) : (s.updInflight d f).edge = s.edge := rfl
@[simp] theorem updInflight_regs (s : State) (d : Nat) (f : Inflight → Inflight) : (s.updInflight d f).regs = s.regs := rfl
@[simp] theorem updInflight_tiles (s : State) (d : Nat) (f : Inflight → Inflight) : (s.updInflight d f).tiles = s.tiles := rfl
@[simp] theorem updInflight_passes (s : State) (d : Nat) (f : Inflight → Inflight) : (s.updInflight d f).passes = s.passes := rfl
@[simp] theorem updInflight_nextPass (s : State) (d : Nat) (f : Inflight → Inflight) : (s.updInflight d f).nextPass = s.nextPass := rfl
@[simp] theorem updInflight_gath (s : State) (d : Nat) (f : Inflight → Inflight) : (s.updInflight d f).gath = s.gath := rfl
@[simp] theorem updInflight_memory (s : State) (d : Nat) (f : Inflight → Inflight) : (s.updInflight d f).memory = s.memory := rfl
@[simp] theorem updInflight_sync (s : State) (d : Nat) (f : Inflight → Inflight) : (s.updInflight d f).sync = s.sync := rfl
@[simp] theorem updInflight_coll (s : State) (d : Nat) (f : Inflight → Inflight) : (s.updInflight d f).coll = s.coll := rfl
@[simp] theorem updInflight_fab (s : State) (d : Nat) (f : Inflight → Inflight) : (s.updInflight d f).fab = s.fab := rfl
@[simp] theorem updInflight_steps (s : State) (d : Nat) (f : Inflight → Inflight) : (s.updInflight d f).steps = s.steps := rfl
@[simp] theorem updInflight_hrv (s : State) (d : Nat) (f : Inflight → Inflight) : (s.updInflight d f).hrv = s.hrv := rfl
@[simp] theorem updInflight_evt (s : State) (d : Nat) (f : Inflight → Inflight) : (s.updInflight d f).evt = s.evt := rfl
@[simp] theorem updInflight_stw (s : State) (d : Nat) (f : Inflight → Inflight) : (s.updInflight d f).stw = s.stw := rfl
@[simp] theorem updInflight_emitted (s : State) (d : Nat) (f : Inflight → Inflight) : (s.updInflight d f).emitted = s.emitted := rfl
@[simp] theorem updInflight_pending (s : State) (d : Nat) (f : Inflight → Inflight) : (s.updInflight d f).pending = s.pending := rfl

/-! ### dropInflight -/

@[simp] theorem dropInflight_cyc (s : State) (d : Nat) : (s.dropInflight d).cyc = s.cyc := rfl
@[simp] theorem dropInflight_edge (s : State) (d : Nat) : (s.dropInflight d).edge = s.edge := rfl
@[simp] theorem dropInflight_regs (s : State) (d : Nat) : (s.dropInflight d).regs = s.regs := rfl
@[simp] theorem dropInflight_tiles (s : State) (d : Nat) : (s.dropInflight d).tiles = s.tiles := rfl
@[simp] theorem dropInflight_passes (s : State) (d : Nat) : (s.dropInflight d).passes = s.passes := rfl
@[simp] theorem dropInflight_nextPass (s : State) (d : Nat) : (s.dropInflight d).nextPass = s.nextPass := rfl
@[simp] theorem dropInflight_gath (s : State) (d : Nat) : (s.dropInflight d).gath = s.gath := rfl
@[simp] theorem dropInflight_memory (s : State) (d : Nat) : (s.dropInflight d).memory = s.memory := rfl
@[simp] theorem dropInflight_sync (s : State) (d : Nat) : (s.dropInflight d).sync = s.sync := rfl
@[simp] theorem dropInflight_coll (s : State) (d : Nat) : (s.dropInflight d).coll = s.coll := rfl
@[simp] theorem dropInflight_fab (s : State) (d : Nat) : (s.dropInflight d).fab = s.fab := rfl
@[simp] theorem dropInflight_steps (s : State) (d : Nat) : (s.dropInflight d).steps = s.steps := rfl
@[simp] theorem dropInflight_hrv (s : State) (d : Nat) : (s.dropInflight d).hrv = s.hrv := rfl
@[simp] theorem dropInflight_evt (s : State) (d : Nat) : (s.dropInflight d).evt = s.evt := rfl
@[simp] theorem dropInflight_stw (s : State) (d : Nat) : (s.dropInflight d).stw = s.stw := rfl
@[simp] theorem dropInflight_emitted (s : State) (d : Nat) : (s.dropInflight d).emitted = s.emitted := rfl
@[simp] theorem dropInflight_pending (s : State) (d : Nat) : (s.dropInflight d).pending = s.pending := rfl

/-! ### setDev -/

@[simp] theorem setDev_cyc (s : State) (p : Nat) (d : Device) : (s.setDev p d).cyc = s.cyc := rfl
@[simp] theorem setDev_edge (s : State) (p : Nat) (d : Device) : (s.setDev p d).edge = s.edge := rfl
@[simp] theorem setDev_regs (s : State) (p : Nat) (d : Device) : (s.setDev p d).regs = s.regs := rfl
@[simp] theorem setDev_host (s : State) (p : Nat) (d : Device) : (s.setDev p d).host = s.host := rfl
@[simp] theorem setDev_tiles (s : State) (p : Nat) (d : Device) : (s.setDev p d).tiles = s.tiles := rfl
@[simp] theorem setDev_passes (s : State) (p : Nat) (d : Device) : (s.setDev p d).passes = s.passes := rfl
@[simp] theorem setDev_nextPass (s : State) (p : Nat) (d : Device) : (s.setDev p d).nextPass = s.nextPass := rfl
@[simp] theorem setDev_gath (s : State) (p : Nat) (d : Device) : (s.setDev p d).gath = s.gath := rfl
@[simp] theorem setDev_sync (s : State) (p : Nat) (d : Device) : (s.setDev p d).sync = s.sync := rfl
@[simp] theorem setDev_coll (s : State) (p : Nat) (d : Device) : (s.setDev p d).coll = s.coll := rfl
@[simp] theorem setDev_fab (s : State) (p : Nat) (d : Device) : (s.setDev p d).fab = s.fab := rfl
@[simp] theorem setDev_steps (s : State) (p : Nat) (d : Device) : (s.setDev p d).steps = s.steps := rfl
@[simp] theorem setDev_hrv (s : State) (p : Nat) (d : Device) : (s.setDev p d).hrv = s.hrv := rfl
@[simp] theorem setDev_evt (s : State) (p : Nat) (d : Device) : (s.setDev p d).evt = s.evt := rfl
@[simp] theorem setDev_stw (s : State) (p : Nat) (d : Device) : (s.setDev p d).stw = s.stw := rfl
@[simp] theorem setDev_emitted (s : State) (p : Nat) (d : Device) : (s.setDev p d).emitted = s.emitted := rfl
@[simp] theorem setDev_pending (s : State) (p : Nat) (d : Device) : (s.setDev p d).pending = s.pending := rfl

/-! ### updDev -/

@[simp] theorem updDev_cyc (s : State) (p : Nat) (f : Device → Device) : (s.updDev p f).cyc = s.cyc := rfl
@[simp] theorem updDev_edge (s : State) (p : Nat) (f : Device → Device) : (s.updDev p f).edge = s.edge := rfl
@[simp] theorem updDev_regs (s : State) (p : Nat) (f : Device → Device) : (s.updDev p f).regs = s.regs := rfl
@[simp] theorem updDev_host (s : State) (p : Nat) (f : Device → Device) : (s.updDev p f).host = s.host := rfl
@[simp] theorem updDev_tiles (s : State) (p : Nat) (f : Device → Device) : (s.updDev p f).tiles = s.tiles := rfl
@[simp] theorem updDev_passes (s : State) (p : Nat) (f : Device → Device) : (s.updDev p f).passes = s.passes := rfl
@[simp] theorem updDev_nextPass (s : State) (p : Nat) (f : Device → Device) : (s.updDev p f).nextPass = s.nextPass := rfl
@[simp] theorem updDev_gath (s : State) (p : Nat) (f : Device → Device) : (s.updDev p f).gath = s.gath := rfl
@[simp] theorem updDev_sync (s : State) (p : Nat) (f : Device → Device) : (s.updDev p f).sync = s.sync := rfl
@[simp] theorem updDev_coll (s : State) (p : Nat) (f : Device → Device) : (s.updDev p f).coll = s.coll := rfl
@[simp] theorem updDev_fab (s : State) (p : Nat) (f : Device → Device) : (s.updDev p f).fab = s.fab := rfl
@[simp] theorem updDev_steps (s : State) (p : Nat) (f : Device → Device) : (s.updDev p f).steps = s.steps := rfl
@[simp] theorem updDev_hrv (s : State) (p : Nat) (f : Device → Device) : (s.updDev p f).hrv = s.hrv := rfl
@[simp] theorem updDev_evt (s : State) (p : Nat) (f : Device → Device) : (s.updDev p f).evt = s.evt := rfl
@[simp] theorem updDev_stw (s : State) (p : Nat) (f : Device → Device) : (s.updDev p f).stw = s.stw := rfl
@[simp] theorem updDev_emitted (s : State) (p : Nat) (f : Device → Device) : (s.updDev p f).emitted = s.emitted := rfl
@[simp] theorem updDev_pending (s : State) (p : Nat) (f : Device → Device) : (s.updDev p f).pending = s.pending := rfl

/-! ### setPort -/

@[simp] theorem setPort_cyc (s : State) (p : Nat) (v : Port) : (s.setPort p v).cyc = s.cyc := rfl
@[simp] theorem setPort_edge (s : State) (p : Nat) (v : Port) : (s.setPort p v).edge = s.edge := rfl
@[simp] theorem setPort_regs (s : State) (p : Nat) (v : Port) : (s.setPort p v).regs = s.regs := rfl
@[simp] theorem setPort_host (s : State) (p : Nat) (v : Port) : (s.setPort p v).host = s.host := rfl
@[simp] theorem setPort_tiles (s : State) (p : Nat) (v : Port) : (s.setPort p v).tiles = s.tiles := rfl
@[simp] theorem setPort_passes (s : State) (p : Nat) (v : Port) : (s.setPort p v).passes = s.passes := rfl
@[simp] theorem setPort_nextPass (s : State) (p : Nat) (v : Port) : (s.setPort p v).nextPass = s.nextPass := rfl
@[simp] theorem setPort_gath (s : State) (p : Nat) (v : Port) : (s.setPort p v).gath = s.gath := rfl
@[simp] theorem setPort_memory (s : State) (p : Nat) (v : Port) : (s.setPort p v).memory = s.memory := rfl
@[simp] theorem setPort_sync (s : State) (p : Nat) (v : Port) : (s.setPort p v).sync = s.sync := rfl
@[simp] theorem setPort_coll (s : State) (p : Nat) (v : Port) : (s.setPort p v).coll = s.coll := rfl
@[simp] theorem setPort_steps (s : State) (p : Nat) (v : Port) : (s.setPort p v).steps = s.steps := rfl
@[simp] theorem setPort_hrv (s : State) (p : Nat) (v : Port) : (s.setPort p v).hrv = s.hrv := rfl
@[simp] theorem setPort_evt (s : State) (p : Nat) (v : Port) : (s.setPort p v).evt = s.evt := rfl
@[simp] theorem setPort_stw (s : State) (p : Nat) (v : Port) : (s.setPort p v).stw = s.stw := rfl
@[simp] theorem setPort_emitted (s : State) (p : Nat) (v : Port) : (s.setPort p v).emitted = s.emitted := rfl
@[simp] theorem setPort_pending (s : State) (p : Nat) (v : Port) : (s.setPort p v).pending = s.pending := rfl

/-! ### updPort -/

@[simp] theorem updPort_cyc (s : State) (p : Nat) (f : Port → Port) : (s.updPort p f).cyc = s.cyc := rfl
@[simp] theorem updPort_edge (s : State) (p : Nat) (f : Port → Port) : (s.updPort p f).edge = s.edge := rfl
@[simp] theorem updPort_regs (s : State) (p : Nat) (f : Port → Port) : (s.updPort p f).regs = s.regs := rfl
@[simp] theorem updPort_host (s : State) (p : Nat) (f : Port → Port) : (s.updPort p f).host = s.host := rfl
@[simp] theorem updPort_tiles (s : State) (p : Nat) (f : Port → Port) : (s.updPort p f).tiles = s.tiles := rfl
@[simp] theorem updPort_passes (s : State) (p : Nat) (f : Port → Port) : (s.updPort p f).passes = s.passes := rfl
@[simp] theorem updPort_nextPass (s : State) (p : Nat) (f : Port → Port) : (s.updPort p f).nextPass = s.nextPass := rfl
@[simp] theorem updPort_gath (s : State) (p : Nat) (f : Port → Port) : (s.updPort p f).gath = s.gath := rfl
@[simp] theorem updPort_memory (s : State) (p : Nat) (f : Port → Port) : (s.updPort p f).memory = s.memory := rfl
@[simp] theorem updPort_sync (s : State) (p : Nat) (f : Port → Port) : (s.updPort p f).sync = s.sync := rfl
@[simp] theorem updPort_coll (s : State) (p : Nat) (f : Port → Port) : (s.updPort p f).coll = s.coll := rfl
@[simp] theorem updPort_steps (s : State) (p : Nat) (f : Port → Port) : (s.updPort p f).steps = s.steps := rfl
@[simp] theorem updPort_hrv (s : State) (p : Nat) (f : Port → Port) : (s.updPort p f).hrv = s.hrv := rfl
@[simp] theorem updPort_evt (s : State) (p : Nat) (f : Port → Port) : (s.updPort p f).evt = s.evt := rfl
@[simp] theorem updPort_stw (s : State) (p : Nat) (f : Port → Port) : (s.updPort p f).stw = s.stw := rfl
@[simp] theorem updPort_emitted (s : State) (p : Nat) (f : Port → Port) : (s.updPort p f).emitted = s.emitted := rfl
@[simp] theorem updPort_pending (s : State) (p : Nat) (f : Port → Port) : (s.updPort p f).pending = s.pending := rfl

/-! ### setGroup -/

@[simp] theorem setGroup_cyc (s : State) (g : Nat) (v : Group) : (s.setGroup g v).cyc = s.cyc := rfl
@[simp] theorem setGroup_edge (s : State) (g : Nat) (v : Group) : (s.setGroup g v).edge = s.edge := rfl
@[simp] theorem setGroup_regs (s : State) (g : Nat) (v : Group) : (s.setGroup g v).regs = s.regs := rfl
@[simp] theorem setGroup_host (s : State) (g : Nat) (v : Group) : (s.setGroup g v).host = s.host := rfl
@[simp] theorem setGroup_tiles (s : State) (g : Nat) (v : Group) : (s.setGroup g v).tiles = s.tiles := rfl
@[simp] theorem setGroup_passes (s : State) (g : Nat) (v : Group) : (s.setGroup g v).passes = s.passes := rfl
@[simp] theorem setGroup_nextPass (s : State) (g : Nat) (v : Group) : (s.setGroup g v).nextPass = s.nextPass := rfl
@[simp] theorem setGroup_gath (s : State) (g : Nat) (v : Group) : (s.setGroup g v).gath = s.gath := rfl
@[simp] theorem setGroup_memory (s : State) (g : Nat) (v : Group) : (s.setGroup g v).memory = s.memory := rfl
@[simp] theorem setGroup_sync (s : State) (g : Nat) (v : Group) : (s.setGroup g v).sync = s.sync := rfl
@[simp] theorem setGroup_fab (s : State) (g : Nat) (v : Group) : (s.setGroup g v).fab = s.fab := rfl
@[simp] theorem setGroup_steps (s : State) (g : Nat) (v : Group) : (s.setGroup g v).steps = s.steps := rfl
@[simp] theorem setGroup_hrv (s : State) (g : Nat) (v : Group) : (s.setGroup g v).hrv = s.hrv := rfl
@[simp] theorem setGroup_evt (s : State) (g : Nat) (v : Group) : (s.setGroup g v).evt = s.evt := rfl
@[simp] theorem setGroup_stw (s : State) (g : Nat) (v : Group) : (s.setGroup g v).stw = s.stw := rfl
@[simp] theorem setGroup_emitted (s : State) (g : Nat) (v : Group) : (s.setGroup g v).emitted = s.emitted := rfl
@[simp] theorem setGroup_pending (s : State) (g : Nat) (v : Group) : (s.setGroup g v).pending = s.pending := rfl

/-! ### updAttempt -/

@[simp] theorem updAttempt_cyc (s : State) (k : Nat) (f : Attempt → Attempt) : (s.updAttempt k f).cyc = s.cyc := rfl
@[simp] theorem updAttempt_edge (s : State) (k : Nat) (f : Attempt → Attempt) : (s.updAttempt k f).edge = s.edge := rfl
@[simp] theorem updAttempt_regs (s : State) (k : Nat) (f : Attempt → Attempt) : (s.updAttempt k f).regs = s.regs := rfl
@[simp] theorem updAttempt_host (s : State) (k : Nat) (f : Attempt → Attempt) : (s.updAttempt k f).host = s.host := rfl
@[simp] theorem updAttempt_tiles (s : State) (k : Nat) (f : Attempt → Attempt) : (s.updAttempt k f).tiles = s.tiles := rfl
@[simp] theorem updAttempt_passes (s : State) (k : Nat) (f : Attempt → Attempt) : (s.updAttempt k f).passes = s.passes := rfl
@[simp] theorem updAttempt_nextPass (s : State) (k : Nat) (f : Attempt → Attempt) : (s.updAttempt k f).nextPass = s.nextPass := rfl
@[simp] theorem updAttempt_gath (s : State) (k : Nat) (f : Attempt → Attempt) : (s.updAttempt k f).gath = s.gath := rfl
@[simp] theorem updAttempt_memory (s : State) (k : Nat) (f : Attempt → Attempt) : (s.updAttempt k f).memory = s.memory := rfl
@[simp] theorem updAttempt_sync (s : State) (k : Nat) (f : Attempt → Attempt) : (s.updAttempt k f).sync = s.sync := rfl
@[simp] theorem updAttempt_coll (s : State) (k : Nat) (f : Attempt → Attempt) : (s.updAttempt k f).coll = s.coll := rfl
@[simp] theorem updAttempt_fab (s : State) (k : Nat) (f : Attempt → Attempt) : (s.updAttempt k f).fab = s.fab := rfl
@[simp] theorem updAttempt_hrv (s : State) (k : Nat) (f : Attempt → Attempt) : (s.updAttempt k f).hrv = s.hrv := rfl
@[simp] theorem updAttempt_evt (s : State) (k : Nat) (f : Attempt → Attempt) : (s.updAttempt k f).evt = s.evt := rfl
@[simp] theorem updAttempt_stw (s : State) (k : Nat) (f : Attempt → Attempt) : (s.updAttempt k f).stw = s.stw := rfl
@[simp] theorem updAttempt_emitted (s : State) (k : Nat) (f : Attempt → Attempt) : (s.updAttempt k f).emitted = s.emitted := rfl
@[simp] theorem updAttempt_pending (s : State) (k : Nat) (f : Attempt → Attempt) : (s.updAttempt k f).pending = s.pending := rfl

/-! ### setMtally -/

@[simp] theorem setMtally_cyc (s : State) (k : Nat) (v : Tally) : (s.setMtally k v).cyc = s.cyc := rfl
@[simp] theorem setMtally_edge (s : State) (k : Nat) (v : Tally) : (s.setMtally k v).edge = s.edge := rfl
@[simp] theorem setMtally_regs (s : State) (k : Nat) (v : Tally) : (s.setMtally k v).regs = s.regs := rfl
@[simp] theorem setMtally_host (s : State) (k : Nat) (v : Tally) : (s.setMtally k v).host = s.host := rfl
@[simp] theorem setMtally_tiles (s : State) (k : Nat) (v : Tally) : (s.setMtally k v).tiles = s.tiles := rfl
@[simp] theorem setMtally_passes (s : State) (k : Nat) (v : Tally) : (s.setMtally k v).passes = s.passes := rfl
@[simp] theorem setMtally_nextPass (s : State) (k : Nat) (v : Tally) : (s.setMtally k v).nextPass = s.nextPass := rfl
@[simp] theorem setMtally_gath (s : State) (k : Nat) (v : Tally) : (s.setMtally k v).gath = s.gath := rfl
@[simp] theorem setMtally_memory (s : State) (k : Nat) (v : Tally) : (s.setMtally k v).memory = s.memory := rfl
@[simp] theorem setMtally_coll (s : State) (k : Nat) (v : Tally) : (s.setMtally k v).coll = s.coll := rfl
@[simp] theorem setMtally_fab (s : State) (k : Nat) (v : Tally) : (s.setMtally k v).fab = s.fab := rfl
@[simp] theorem setMtally_steps (s : State) (k : Nat) (v : Tally) : (s.setMtally k v).steps = s.steps := rfl
@[simp] theorem setMtally_hrv (s : State) (k : Nat) (v : Tally) : (s.setMtally k v).hrv = s.hrv := rfl
@[simp] theorem setMtally_evt (s : State) (k : Nat) (v : Tally) : (s.setMtally k v).evt = s.evt := rfl
@[simp] theorem setMtally_stw (s : State) (k : Nat) (v : Tally) : (s.setMtally k v).stw = s.stw := rfl
@[simp] theorem setMtally_emitted (s : State) (k : Nat) (v : Tally) : (s.setMtally k v).emitted = s.emitted := rfl
@[simp] theorem setMtally_pending (s : State) (k : Nat) (v : Tally) : (s.setMtally k v).pending = s.pending := rfl

/-! ### setRgQ -/

@[simp] theorem setRgQ_cyc (s : State) (r : Reg) (v : Quad) : (s.setRgQ r v).cyc = s.cyc := rfl
@[simp] theorem setRgQ_edge (s : State) (r : Reg) (v : Quad) : (s.setRgQ r v).edge = s.edge := rfl
@[simp] theorem setRgQ_host (s : State) (r : Reg) (v : Quad) : (s.setRgQ r v).host = s.host := rfl
@[simp] theorem setRgQ_tiles (s : State) (r : Reg) (v : Quad) : (s.setRgQ r v).tiles = s.tiles := rfl
@[simp] theorem setRgQ_passes (s : State) (r : Reg) (v : Quad) : (s.setRgQ r v).passes = s.passes := rfl
@[simp] theorem setRgQ_nextPass (s : State) (r : Reg) (v : Quad) : (s.setRgQ r v).nextPass = s.nextPass := rfl
@[simp] theorem setRgQ_gath (s : State) (r : Reg) (v : Quad) : (s.setRgQ r v).gath = s.gath := rfl
@[simp] theorem setRgQ_memory (s : State) (r : Reg) (v : Quad) : (s.setRgQ r v).memory = s.memory := rfl
@[simp] theorem setRgQ_sync (s : State) (r : Reg) (v : Quad) : (s.setRgQ r v).sync = s.sync := rfl
@[simp] theorem setRgQ_coll (s : State) (r : Reg) (v : Quad) : (s.setRgQ r v).coll = s.coll := rfl
@[simp] theorem setRgQ_fab (s : State) (r : Reg) (v : Quad) : (s.setRgQ r v).fab = s.fab := rfl
@[simp] theorem setRgQ_steps (s : State) (r : Reg) (v : Quad) : (s.setRgQ r v).steps = s.steps := rfl
@[simp] theorem setRgQ_hrv (s : State) (r : Reg) (v : Quad) : (s.setRgQ r v).hrv = s.hrv := rfl
@[simp] theorem setRgQ_evt (s : State) (r : Reg) (v : Quad) : (s.setRgQ r v).evt = s.evt := rfl
@[simp] theorem setRgQ_stw (s : State) (r : Reg) (v : Quad) : (s.setRgQ r v).stw = s.stw := rfl
@[simp] theorem setRgQ_emitted (s : State) (r : Reg) (v : Quad) : (s.setRgQ r v).emitted = s.emitted := rfl
@[simp] theorem setRgQ_pending (s : State) (r : Reg) (v : Quad) : (s.setRgQ r v).pending = s.pending := rfl

/-! ### setRg -/

@[simp] theorem setRg_cyc (s : State) (n : RegName) (v i j : Nat) : (s.setRg n v i j).cyc = s.cyc := rfl
@[simp] theorem setRg_edge (s : State) (n : RegName) (v i j : Nat) : (s.setRg n v i j).edge = s.edge := rfl
@[simp] theorem setRg_host (s : State) (n : RegName) (v i j : Nat) : (s.setRg n v i j).host = s.host := rfl
@[simp] theorem setRg_tiles (s : State) (n : RegName) (v i j : Nat) : (s.setRg n v i j).tiles = s.tiles := rfl
@[simp] theorem setRg_passes (s : State) (n : RegName) (v i j : Nat) : (s.setRg n v i j).passes = s.passes := rfl
@[simp] theorem setRg_nextPass (s : State) (n : RegName) (v i j : Nat) : (s.setRg n v i j).nextPass = s.nextPass := rfl
@[simp] theorem setRg_gath (s : State) (n : RegName) (v i j : Nat) : (s.setRg n v i j).gath = s.gath := rfl
@[simp] theorem setRg_memory (s : State) (n : RegName) (v i j : Nat) : (s.setRg n v i j).memory = s.memory := rfl
@[simp] theorem setRg_sync (s : State) (n : RegName) (v i j : Nat) : (s.setRg n v i j).sync = s.sync := rfl
@[simp] theorem setRg_coll (s : State) (n : RegName) (v i j : Nat) : (s.setRg n v i j).coll = s.coll := rfl
@[simp] theorem setRg_fab (s : State) (n : RegName) (v i j : Nat) : (s.setRg n v i j).fab = s.fab := rfl
@[simp] theorem setRg_steps (s : State) (n : RegName) (v i j : Nat) : (s.setRg n v i j).steps = s.steps := rfl
@[simp] theorem setRg_hrv (s : State) (n : RegName) (v i j : Nat) : (s.setRg n v i j).hrv = s.hrv := rfl
@[simp] theorem setRg_evt (s : State) (n : RegName) (v i j : Nat) : (s.setRg n v i j).evt = s.evt := rfl
@[simp] theorem setRg_stw (s : State) (n : RegName) (v i j : Nat) : (s.setRg n v i j).stw = s.stw := rfl
@[simp] theorem setRg_emitted (s : State) (n : RegName) (v i j : Nat) : (s.setRg n v i j).emitted = s.emitted := rfl
@[simp] theorem setRg_pending (s : State) (n : RegName) (v i j : Nat) : (s.setRg n v i j).pending = s.pending := rfl

/-! ### setRgBits -/

@[simp] theorem setRgBits_cyc (s : State) (n : RegName) (lo w x i j : Nat) : (s.setRgBits n lo w x i j).cyc = s.cyc := rfl
@[simp] theorem setRgBits_edge (s : State) (n : RegName) (lo w x i j : Nat) : (s.setRgBits n lo w x i j).edge = s.edge := rfl
@[simp] theorem setRgBits_host (s : State) (n : RegName) (lo w x i j : Nat) : (s.setRgBits n lo w x i j).host = s.host := rfl
@[simp] theorem setRgBits_tiles (s : State) (n : RegName) (lo w x i j : Nat) : (s.setRgBits n lo w x i j).tiles = s.tiles := rfl
@[simp] theorem setRgBits_passes (s : State) (n : RegName) (lo w x i j : Nat) : (s.setRgBits n lo w x i j).passes = s.passes := rfl
@[simp] theorem setRgBits_nextPass (s : State) (n : RegName) (lo w x i j : Nat) : (s.setRgBits n lo w x i j).nextPass = s.nextPass := rfl
@[simp] theorem setRgBits_gath (s : State) (n : RegName) (lo w x i j : Nat) : (s.setRgBits n lo w x i j).gath = s.gath := rfl
@[simp] theorem setRgBits_memory (s : State) (n : RegName) (lo w x i j : Nat) : (s.setRgBits n lo w x i j).memory = s.memory := rfl
@[simp] theorem setRgBits_sync (s : State) (n : RegName) (lo w x i j : Nat) : (s.setRgBits n lo w x i j).sync = s.sync := rfl
@[simp] theorem setRgBits_coll (s : State) (n : RegName) (lo w x i j : Nat) : (s.setRgBits n lo w x i j).coll = s.coll := rfl
@[simp] theorem setRgBits_fab (s : State) (n : RegName) (lo w x i j : Nat) : (s.setRgBits n lo w x i j).fab = s.fab := rfl
@[simp] theorem setRgBits_steps (s : State) (n : RegName) (lo w x i j : Nat) : (s.setRgBits n lo w x i j).steps = s.steps := rfl
@[simp] theorem setRgBits_hrv (s : State) (n : RegName) (lo w x i j : Nat) : (s.setRgBits n lo w x i j).hrv = s.hrv := rfl
@[simp] theorem setRgBits_evt (s : State) (n : RegName) (lo w x i j : Nat) : (s.setRgBits n lo w x i j).evt = s.evt := rfl
@[simp] theorem setRgBits_stw (s : State) (n : RegName) (lo w x i j : Nat) : (s.setRgBits n lo w x i j).stw = s.stw := rfl
@[simp] theorem setRgBits_emitted (s : State) (n : RegName) (lo w x i j : Nat) : (s.setRgBits n lo w x i j).emitted = s.emitted := rfl
@[simp] theorem setRgBits_pending (s : State) (n : RegName) (lo w x i j : Nat) : (s.setRgBits n lo w x i j).pending = s.pending := rfl

/-! ### flag -/

@[simp] theorem flag_cyc (s : State) (n : RegName) (b i j : Nat) : (s.flag n b i j).cyc = s.cyc := rfl
@[simp] theorem flag_edge (s : State) (n : RegName) (b i j : Nat) : (s.flag n b i j).edge = s.edge := rfl
@[simp] theorem flag_host (s : State) (n : RegName) (b i j : Nat) : (s.flag n b i j).host = s.host := rfl
@[simp] theorem flag_tiles (s : State) (n : RegName) (b i j : Nat) : (s.flag n b i j).tiles = s.tiles := rfl
@[simp] theorem flag_passes (s : State) (n : RegName) (b i j : Nat) : (s.flag n b i j).passes = s.passes := rfl
@[simp] theorem flag_nextPass (s : State) (n : RegName) (b i j : Nat) : (s.flag n b i j).nextPass = s.nextPass := rfl
@[simp] theorem flag_gath (s : State) (n : RegName) (b i j : Nat) : (s.flag n b i j).gath = s.gath := rfl
@[simp] theorem flag_memory (s : State) (n : RegName) (b i j : Nat) : (s.flag n b i j).memory = s.memory := rfl
@[simp] theorem flag_sync (s : State) (n : RegName) (b i j : Nat) : (s.flag n b i j).sync = s.sync := rfl
@[simp] theorem flag_coll (s : State) (n : RegName) (b i j : Nat) : (s.flag n b i j).coll = s.coll := rfl
@[simp] theorem flag_fab (s : State) (n : RegName) (b i j : Nat) : (s.flag n b i j).fab = s.fab := rfl
@[simp] theorem flag_steps (s : State) (n : RegName) (b i j : Nat) : (s.flag n b i j).steps = s.steps := rfl
@[simp] theorem flag_hrv (s : State) (n : RegName) (b i j : Nat) : (s.flag n b i j).hrv = s.hrv := rfl
@[simp] theorem flag_evt (s : State) (n : RegName) (b i j : Nat) : (s.flag n b i j).evt = s.evt := rfl
@[simp] theorem flag_stw (s : State) (n : RegName) (b i j : Nat) : (s.flag n b i j).stw = s.stw := rfl
@[simp] theorem flag_emitted (s : State) (n : RegName) (b i j : Nat) : (s.flag n b i j).emitted = s.emitted := rfl
@[simp] theorem flag_pending (s : State) (n : RegName) (b i j : Nat) : (s.flag n b i j).pending = s.pending := rfl

/-! ### inc -/

@[simp] theorem inc_cyc (s : State) (n : RegName) (k i j : Nat) : (s.inc n k i j).cyc = s.cyc := rfl
@[simp] theorem inc_edge (s : State) (n : RegName) (k i j : Nat) : (s.inc n k i j).edge = s.edge := rfl
@[simp] theorem inc_host (s : State) (n : RegName) (k i j : Nat) : (s.inc n k i j).host = s.host := rfl
@[simp] theorem inc_tiles (s : State) (n : RegName) (k i j : Nat) : (s.inc n k i j).tiles = s.tiles := rfl
@[simp] theorem inc_passes (s : State) (n : RegName) (k i j : Nat) : (s.inc n k i j).passes = s.passes := rfl
@[simp] theorem inc_nextPass (s : State) (n : RegName) (k i j : Nat) : (s.inc n k i j).nextPass = s.nextPass := rfl
@[simp] theorem inc_gath (s : State) (n : RegName) (k i j : Nat) : (s.inc n k i j).gath = s.gath := rfl
@[simp] theorem inc_memory (s : State) (n : RegName) (k i j : Nat) : (s.inc n k i j).memory = s.memory := rfl
@[simp] theorem inc_sync (s : State) (n : RegName) (k i j : Nat) : (s.inc n k i j).sync = s.sync := rfl
@[simp] theorem inc_coll (s : State) (n : RegName) (k i j : Nat) : (s.inc n k i j).coll = s.coll := rfl
@[simp] theorem inc_fab (s : State) (n : RegName) (k i j : Nat) : (s.inc n k i j).fab = s.fab := rfl
@[simp] theorem inc_steps (s : State) (n : RegName) (k i j : Nat) : (s.inc n k i j).steps = s.steps := rfl
@[simp] theorem inc_hrv (s : State) (n : RegName) (k i j : Nat) : (s.inc n k i j).hrv = s.hrv := rfl
@[simp] theorem inc_evt (s : State) (n : RegName) (k i j : Nat) : (s.inc n k i j).evt = s.evt := rfl
@[simp] theorem inc_stw (s : State) (n : RegName) (k i j : Nat) : (s.inc n k i j).stw = s.stw := rfl
@[simp] theorem inc_emitted (s : State) (n : RegName) (k i j : Nat) : (s.inc n k i j).emitted = s.emitted := rfl
@[simp] theorem inc_pending (s : State) (n : RegName) (k i j : Nat) : (s.inc n k i j).pending = s.pending := rfl

/-! ### memPut -/

@[simp] theorem memPut_cyc (s : State) (a : Nat) (b : List Byte) : (s.memPut a b).cyc = s.cyc := rfl
@[simp] theorem memPut_edge (s : State) (a : Nat) (b : List Byte) : (s.memPut a b).edge = s.edge := rfl
@[simp] theorem memPut_regs (s : State) (a : Nat) (b : List Byte) : (s.memPut a b).regs = s.regs := rfl
@[simp] theorem memPut_host (s : State) (a : Nat) (b : List Byte) : (s.memPut a b).host = s.host := rfl
@[simp] theorem memPut_tiles (s : State) (a : Nat) (b : List Byte) : (s.memPut a b).tiles = s.tiles := rfl
@[simp] theorem memPut_passes (s : State) (a : Nat) (b : List Byte) : (s.memPut a b).passes = s.passes := rfl
@[simp] theorem memPut_nextPass (s : State) (a : Nat) (b : List Byte) : (s.memPut a b).nextPass = s.nextPass := rfl
@[simp] theorem memPut_gath (s : State) (a : Nat) (b : List Byte) : (s.memPut a b).gath = s.gath := rfl
@[simp] theorem memPut_sync (s : State) (a : Nat) (b : List Byte) : (s.memPut a b).sync = s.sync := rfl
@[simp] theorem memPut_coll (s : State) (a : Nat) (b : List Byte) : (s.memPut a b).coll = s.coll := rfl
@[simp] theorem memPut_fab (s : State) (a : Nat) (b : List Byte) : (s.memPut a b).fab = s.fab := rfl
@[simp] theorem memPut_steps (s : State) (a : Nat) (b : List Byte) : (s.memPut a b).steps = s.steps := rfl
@[simp] theorem memPut_hrv (s : State) (a : Nat) (b : List Byte) : (s.memPut a b).hrv = s.hrv := rfl
@[simp] theorem memPut_evt (s : State) (a : Nat) (b : List Byte) : (s.memPut a b).evt = s.evt := rfl
@[simp] theorem memPut_stw (s : State) (a : Nat) (b : List Byte) : (s.memPut a b).stw = s.stw := rfl
@[simp] theorem memPut_emitted (s : State) (a : Nat) (b : List Byte) : (s.memPut a b).emitted = s.emitted := rfl
@[simp] theorem memPut_pending (s : State) (a : Nat) (b : List Byte) : (s.memPut a b).pending = s.pending := rfl

/-! ### updXfer -/

@[simp] theorem updXfer_cyc (s : State) (x : Nat) (f : Xfer → Xfer) : (s.updXfer x f).cyc = s.cyc := rfl
@[simp] theorem updXfer_edge (s : State) (x : Nat) (f : Xfer → Xfer) : (s.updXfer x f).edge = s.edge := rfl
@[simp] theorem updXfer_regs (s : State) (x : Nat) (f : Xfer → Xfer) : (s.updXfer x f).regs = s.regs := rfl
@[simp] theorem updXfer_host (s : State) (x : Nat) (f : Xfer → Xfer) : (s.updXfer x f).host = s.host := rfl
@[simp] theorem updXfer_tiles (s : State) (x : Nat) (f : Xfer → Xfer) : (s.updXfer x f).tiles = s.tiles := rfl
@[simp] theorem updXfer_passes (s : State) (x : Nat) (f : Xfer → Xfer) : (s.updXfer x f).passes = s.passes := rfl
@[simp] theorem updXfer_nextPass (s : State) (x : Nat) (f : Xfer → Xfer) : (s.updXfer x f).nextPass = s.nextPass := rfl
@[simp] theorem updXfer_memory (s : State) (x : Nat) (f : Xfer → Xfer) : (s.updXfer x f).memory = s.memory := rfl
@[simp] theorem updXfer_sync (s : State) (x : Nat) (f : Xfer → Xfer) : (s.updXfer x f).sync = s.sync := rfl
@[simp] theorem updXfer_coll (s : State) (x : Nat) (f : Xfer → Xfer) : (s.updXfer x f).coll = s.coll := rfl
@[simp] theorem updXfer_fab (s : State) (x : Nat) (f : Xfer → Xfer) : (s.updXfer x f).fab = s.fab := rfl
@[simp] theorem updXfer_steps (s : State) (x : Nat) (f : Xfer → Xfer) : (s.updXfer x f).steps = s.steps := rfl
@[simp] theorem updXfer_hrv (s : State) (x : Nat) (f : Xfer → Xfer) : (s.updXfer x f).hrv = s.hrv := rfl
@[simp] theorem updXfer_evt (s : State) (x : Nat) (f : Xfer → Xfer) : (s.updXfer x f).evt = s.evt := rfl
@[simp] theorem updXfer_stw (s : State) (x : Nat) (f : Xfer → Xfer) : (s.updXfer x f).stw = s.stw := rfl
@[simp] theorem updXfer_emitted (s : State) (x : Nat) (f : Xfer → Xfer) : (s.updXfer x f).emitted = s.emitted := rfl
@[simp] theorem updXfer_pending (s : State) (x : Nat) (f : Xfer → Xfer) : (s.updXfer x f).pending = s.pending := rfl

/-! ### withPending -/

@[simp] theorem withPending_cyc (s : State) (q : List Instr) : (s.withPending q).cyc = s.cyc := rfl
@[simp] theorem withPending_edge (s : State) (q : List Instr) : (s.withPending q).edge = s.edge := rfl
@[simp] theorem withPending_regs (s : State) (q : List Instr) : (s.withPending q).regs = s.regs := rfl
@[simp] theorem withPending_host (s : State) (q : List Instr) : (s.withPending q).host = s.host := rfl
@[simp] theorem withPending_tiles (s : State) (q : List Instr) : (s.withPending q).tiles = s.tiles := rfl
@[simp] theorem withPending_passes (s : State) (q : List Instr) : (s.withPending q).passes = s.passes := rfl
@[simp] theorem withPending_nextPass (s : State) (q : List Instr) : (s.withPending q).nextPass = s.nextPass := rfl
@[simp] theorem withPending_gath (s : State) (q : List Instr) : (s.withPending q).gath = s.gath := rfl
@[simp] theorem withPending_memory (s : State) (q : List Instr) : (s.withPending q).memory = s.memory := rfl
@[simp] theorem withPending_sync (s : State) (q : List Instr) : (s.withPending q).sync = s.sync := rfl
@[simp] theorem withPending_coll (s : State) (q : List Instr) : (s.withPending q).coll = s.coll := rfl
@[simp] theorem withPending_fab (s : State) (q : List Instr) : (s.withPending q).fab = s.fab := rfl
@[simp] theorem withPending_steps (s : State) (q : List Instr) : (s.withPending q).steps = s.steps := rfl
@[simp] theorem withPending_hrv (s : State) (q : List Instr) : (s.withPending q).hrv = s.hrv := rfl
@[simp] theorem withPending_evt (s : State) (q : List Instr) : (s.withPending q).evt = s.evt := rfl
@[simp] theorem withPending_stw (s : State) (q : List Instr) : (s.withPending q).stw = s.stw := rfl
@[simp] theorem withPending_emitted (s : State) (q : List Instr) : (s.withPending q).emitted = s.emitted := rfl

/-! ## A read after a write -/

@[simp] theorem tile_setTile (s : State) (t j : Nat) (v : Tile) :
    (s.setTile t v).tile j = if j = t then v else s.tile j := sget_sput _ _ _ _ _

@[simp] theorem tile_updTile (s : State) (t j : Nat) (f : Tile → Tile) :
    (s.updTile t f).tile j = if j = t then f (s.tile t) else s.tile j := tile_setTile _ _ _ _

@[simp] theorem dev_setDev (s : State) (p j : Nat) (d : Device) :
    (s.setDev p d).dev j = if j = p then d else s.dev j := sget_sput _ _ _ _ _

@[simp] theorem dev_updDev (s : State) (p j : Nat) (f : Device → Device) :
    (s.updDev p f).dev j = if j = p then f (s.dev p) else s.dev j := dev_setDev _ _ _ _

@[simp] theorem port_setPort (s : State) (p j : Nat) (v : Port) :
    (s.setPort p v).port j = if j = p then v else s.port j := sget_sput _ _ _ _ _

@[simp] theorem port_updPort (s : State) (p j : Nat) (f : Port → Port) :
    (s.updPort p f).port j = if j = p then f (s.port p) else s.port j := port_setPort _ _ _ _

@[simp] theorem ring_setRing (s : State) (r j : Nat) (c : RingCtx) :
    (s.setRing r c).ring j = if j = r then c else s.ring j := sget_sput _ _ _ _ _

@[simp] theorem group_setGroup (s : State) (g j : Nat) (v : Group) :
    (s.setGroup g v).group j = if j = g then v else s.group j := sget_sput _ _ _ _ _

@[simp] theorem mtally_setMtally (s : State) (k j : Nat) (v : Tally) :
    (s.setMtally k v).mtally j = if j = k then v else s.mtally j := sget_sput _ _ _ _ _

@[simp] theorem msixOf_setMsix (s : State) (v j : Nat) (e : MsixEntry) :
    (s.setMsix v e).msixOf j = if j = v then e else s.msixOf j := sget_sput _ _ _ _ _

/-- A register after a write: every other register reads as before. -/
theorem rgQ_setRgQ_other (s : State) (r r' : Reg) (v : Quad) (h : r'.offset ≠ r.offset) :
    (s.setRgQ r v).rgQ r' = s.rgQ r' := by
  unfold State.rgQ State.setRgQ sput
  split <;> simp [sfind_serase, sfind_sinsert, h]

/-- A register after a write reads the value. -/
@[simp] theorem rgQ_setRgQ (s : State) (r : Reg) (v : Quad) : (s.setRgQ r v).rgQ r = v := by
  unfold State.rgQ State.setRgQ sput
  split
  · rename_i h; simp [sfind_serase, h]
  · simp [sfind_sinsert]

end Sys2Proof.Laws
end

