-- ==== Sys2Proof/Laws/Registers.lean ====
section
/-! SUPPORT. What the operations over registers, BAR0 writes and events do, each said once. -/

namespace Sys2Proof.Laws

set_option Elab.async false

open Sys2Proof.Machine Sys2Proof.Safety

/-! ## Registers -/

/-- Every register has 4 or 8 bytes. -/
theorem row_bytes (n : RegName) : n.row.bytes = 4 ∨ n.row.bytes = 8 := by cases n <;> decide

/-- A register set reads as the value at its width. -/
theorem rg_setRg (s : State) (n : RegName) (v i j : Nat) : (s.setRg n v i j).rg n i j = v % 256 ^ n.row.bytes := by
  have hb : 256 ^ n.row.bytes ≤ 2 ^ 64 := by rcases row_bytes n with h | h <;> rw [h] <;> norm_num
  have hv : v % 256 ^ n.row.bytes < 2 ^ 64 := lt_of_lt_of_le (Nat.mod_lt _ (by positivity)) hb
  have := sget_sput_self (BitVec.ofNat 64 n.row.reset) s.regs (Reg.offset ⟨n, i, j⟩) (BitVec.ofNat 64 (v % 256 ^ n.row.bytes))
  simp only [sget] at this
  simp only [State.rg, State.rgQ, State.setRg, State.setRgQ, this, BitVec.toNat_ofNat]
  exact Nat.mod_eq_of_lt hv

/-- Setting a register leaves what is stored at every other offset. -/
theorem regs_setRg (s : State) (n : RegName) (v i j o : Nat) (h : o ≠ Reg.offset ⟨n, i, j⟩) :
    sfind (s.setRg n v i j).regs o = sfind s.regs o := by
  simp only [State.setRg, State.setRgQ, sput]
  split
  · rw [sfind_serase, if_neg h]
  · rw [sfind_sinsert, if_neg h]

/-- Setting a register keeps the others. -/
theorem regsKept_setRg (s : State) (n : RegName) (v i j : Nat) : RegsKept s (s.setRg n v i j) [⟨n, i, j⟩] := by
  intro o ho
  exact regs_setRg _ _ _ _ _ _ (by simpa using ho)

/-- A register at another offset reads as before. -/
theorem rg_setRg_other (s : State) (n m : RegName) (v i j k l : Nat) (h : Reg.offset ⟨m, k, l⟩ ≠ Reg.offset ⟨n, i, j⟩) :
    (s.setRg n v i j).rg m k l = s.rg m k l := by
  simp only [State.rg, State.rgQ, regs_setRg _ _ _ _ _ _ h]

/-- Setting a register changes registers only. -/
theorem setRg_frame (s : State) (n : RegName) (v i j : Nat) : s.setRg n v i j = { s with regs := (s.setRg n v i j).regs } := rfl

/-- A counter counts by what is added, at its width. -/
theorem rg_inc (s : State) (n : RegName) (k i j : Nat) : (s.inc n k i j).rg n i j = (s.rg n i j + k) % 256 ^ n.row.bytes :=
  rg_setRg _ _ _ _ _

/-- A saturating counter stops at its greatest value. -/
theorem rg_incSat (s : State) (n : RegName) (k i j : Nat) :
    (s.incSat n k i j).rg n i j = min (s.rg n i j + k) (256 ^ n.row.bytes - 1) := by
  have hp : 0 < 256 ^ n.row.bytes := by positivity
  exact (rg_setRg _ _ _ _ _).trans (Nat.mod_eq_of_lt (by omega))

/-! ## BAR0 writes -/

/-- An ignored access changes HST_BAR_ERR only. -/
theorem barErr_frame (f o : Nat) (s : State) : barErr f o s = { s with regs := (barErr f o s).regs } := by
  unfold barErr
  split <;> rfl

/-- Discarding a held low half changes HST_BAR_ERR and the half only. -/
theorem dropSplit_frame (s : State) :
    dropSplit s = { s with host := { s.host with splitHeld := none }, regs := (dropSplit s).regs } := by
  unfold dropSplit
  split
  · rw [barErr_frame]
  · rename_i h
    rw [← h]

/-- With no half held nothing is discarded. -/
theorem dropSplit_none (s : State) (h : s.host.splitHeld = none) : dropSplit s = s := by
  unfold dropSplit
  rw [h]

/-- A write that the module takes acts once a held half is discarded. -/
theorem barWrite_taken (o : Nat) (act : State → State) (s : State) (h : HostWrite s) : barWrite o act s = act (dropSplit s) := by
  have hf : (dropSplit s).stw = s.stw := by rw [dropSplit_frame]
  simp [barWrite, faultGate, h.1, hf, h.2]

/-- Without the link or the main domain a write does nothing. -/
theorem barWrite_unreached (o : Nat) (act : State → State) (s : State) (h : s.hostWrites = false) : barWrite o act s = s := by
  simp [barWrite, h]

/-- In the fault state a write is recorded and does nothing else. -/
theorem barWrite_fault (o : Nat) (act : State → State) (s : State) (h : s.hostWrites = true) (hf : s.stw.fault ≠ none) :
    barWrite o act s = barErr 35 o (dropSplit s) := by
  have hd : (dropSplit s).stw = s.stw := by rw [dropSplit_frame]
  simp [barWrite, faultGate, h, hd, Option.isSome_iff_ne_none, hf]

/-- A Steward write acts while the module is powered. -/
theorem stwWrite_powered (act : State → State) (s : State) (h : s.stw.powered = true) : stwWrite act s = act (dropSplit s) := by
  simp [stwWrite, h]

/-! ## Messages and events -/

/-- What messages and events may change: registers, the event log, the output and the messages' state. -/
def EventFrame (s u : State) : Prop :=
  u = { s with regs := u.regs, evt := u.evt, emitted := u.emitted, host := { s.host with msix := u.host.msix, msixHeld := u.host.msixHeld } }

theorem EventFrame.refl (s : State) : EventFrame s s := rfl

theorem EventFrame.trans {s u v : State} (h : EventFrame s u) (k : EventFrame u v) : EventFrame s v := by
  unfold EventFrame at *
  rw [k]
  rw [h]

/-- A message is sent, kept as pending, or waits for the link. -/
theorem sendMsix_cases (v : Nat) (s : State) :
    ((s.msixOf v).masked = true ∧ sendMsix v s = s.setMsix v { s.msixOf v with pending := true }) ∨
    ((s.msixOf v).masked = false ∧ s.hostUp = true ∧ sendMsix v s = s.emit (.msix v (s.msixOf v).addr (s.msixOf v).data)) ∨
    ((s.msixOf v).masked = false ∧ s.hostUp = false ∧
      sendMsix v s = { s with host := { s.host with msixHeld := s.host.msixHeld ++ [v] } }) := by
  unfold sendMsix
  cases hm : (s.msixOf v).masked <;> cases hu : s.hostUp <;> simp [hm]

theorem sendMsix_frame (v : Nat) (s : State) : EventFrame s (sendMsix v s) := by
  obtain ⟨_, h⟩ | ⟨_, _, h⟩ | ⟨_, _, h⟩ := sendMsix_cases v s <;> rw [h] <;> rfl

theorem evtSignal_frame (s : State) : EventFrame s (evtSignal s) := by
  refine EventFrame.trans (u := { s with evt := { s.evt with unsignalled := 0, oldest := none } }) rfl ?_
  exact sendMsix_frame _ _

theorem writeRecord_frame (r : EventRec) (s : State) : EventFrame s (writeRecord r s) := by
  unfold writeRecord
  simp only
  split
  · refine EventFrame.trans ?_ (evtSignal_frame _)
    rfl
  · rfl

theorem drainHold_frame (n : Nat) (s : State) : EventFrame s (drainHold n s) := by
  induction n generalizing s with
  | zero => rfl
  | succ n ih =>
    unfold drainHold
    split
    · rfl
    · split
      · refine EventFrame.trans (EventFrame.trans ?_ (writeRecord_frame _ _)) (ih _)
        rfl
      · rfl

theorem keepRecord_frame (r : EventRec) (s : State) : EventFrame s (keepRecord r s) := by
  unfold keepRecord
  split
  · refine EventFrame.trans ?_ (drainHold_frame _ _)
    rfl
  · rfl

theorem flushEvents_frame (s : State) : EventFrame s (flushEvents s) := by
  unfold flushEvents
  split
  · exact each_keeps (EventFrame s) _ _ _ rfl (fun r u hu => hu.trans (keepRecord_frame r u))
  · rfl

/-- Raising an event changes what EventFrame names, and no more. -/
theorem raiseEvent_frame (c : EventCode) (i : Nat) (d : BitVec 128) (s : State) : EventFrame s (raiseEvent c i d s) := by
  unfold raiseEvent
  simp only
  exact EventFrame.trans (EventFrame.trans (u := s.inc .evtRaised 1) rfl (flushEvents_frame _)) rfl

/-! ## Completions -/

/-- What posting a completion may change: the rings, the messages' state and the output. -/
def RingFrame (s u : State) : Prop :=
  u = { s with emitted := u.emitted, host := { s.host with rings := u.host.rings, msix := u.host.msix, msixHeld := u.host.msixHeld } }

theorem RingFrame.trans {s u v : State} (h : RingFrame s u) (k : RingFrame u v) : RingFrame s v := by
  unfold RingFrame at *
  rw [k]
  rw [h]

theorem sendMsix_ringFrame (v : Nat) (s : State) : RingFrame s (sendMsix v s) := by
  obtain ⟨_, h⟩ | ⟨_, _, h⟩ | ⟨_, _, h⟩ := sendMsix_cases v s <;> rw [h] <;> rfl

theorem writeCompletion_frame (r : Nat) (e : Completion) (s : State) : RingFrame s (writeCompletion r e s) := by
  unfold writeCompletion cqSignal
  simp only
  split
  · refine RingFrame.trans ?_ (sendMsix_ringFrame _ _)
    rfl
  · rfl

theorem drainCq_frame (n r : Nat) (s : State) : RingFrame s (drainCq n r s) := by
  induction n generalizing s with
  | zero => rfl
  | succ n ih =>
    unfold drainCq
    simp only
    split
    · rfl
    · split
      · refine RingFrame.trans (RingFrame.trans ?_ (writeCompletion_frame _ _ _)) (ih _)
        rfl
      · rfl

/-- Posting a completion changes what RingFrame names, and no more. -/
theorem pushCompletion_frame (r : Nat) (e : Completion) (s : State) : RingFrame s (pushCompletion r e s) :=
  RingFrame.trans (u := s.setRing r _) rfl (drainCq_frame _ _ _)

/-- What completing a descriptor may change: the rings, registers, events, the messages' state and the output. -/
def FinishFrame (s u : State) : Prop :=
  u = { s with regs := u.regs, evt := u.evt, emitted := u.emitted,
               host := { s.host with rings := u.host.rings, msix := u.host.msix, msixHeld := u.host.msixHeld } }

theorem FinishFrame.trans {s u v : State} (h : FinishFrame s u) (k : FinishFrame u v) : FinishFrame s v := by
  unfold FinishFrame at *
  rw [k]
  rw [h]

theorem RingFrame.finish {s u : State} (h : RingFrame s u) : FinishFrame s u := by
  unfold RingFrame at h
  unfold FinishFrame
  rw [h]

theorem EventFrame.finish {s u : State} (h : EventFrame s u) : FinishFrame s u := by
  unfold EventFrame at h
  unfold FinishFrame
  rw [h]

theorem inc_frame (s : State) (n : RegName) (k : Nat) : FinishFrame s (s.inc n k) := rfl

/-- Completing a descriptor changes what FinishFrame names, and no more. -/
theorem finish_frame (i : Inflight) (st : Status) (k : Nat) (b p : List Byte) (s : State) : FinishFrame s (finish i st k b p s) := by
  have ite : ∀ (c : Prop) [Decidable c] (x y : State), FinishFrame s x → FinishFrame s y → FinishFrame s (if c then x else y) := by
    intro c _ x y hx hy
    split <;> assumption
  unfold Machine.finish
  refine ite _ _ _ (pushCompletion_frame _ _ _).finish
    (FinishFrame.trans (FinishFrame.trans (pushCompletion_frame _ _ _).finish (inc_frame _ _ _)) (raiseEvent_frame _ _ _ _).finish)

/-- Refusing a descriptor likewise. -/
theorem refuse_frame (i : Inflight) (k : Nat) (s : State) : FinishFrame s (refuse i k s) := by
  unfold refuse
  refine FinishFrame.trans ?_ (finish_frame _ _ _ _ _ _)
  rfl

end Sys2Proof.Laws
end

