-- ==== Sys2Proof/Laws/Tiles.lean ====
section
/-! SUPPORT. The laws of tiles: accumulator banks, sequencer states, and what running one instruction does. -/

namespace Sys2Proof.Laws

set_option Elab.async false

open Sys2Proof.Machine Sys2Proof.Safety

/-! ## Sequencer states -/

theorem find_map_upd {α : Type} (l : List α) (key : α → Nat) (q r : Nat) (f : α → α) (hf : ∀ x, key (f x) = key x) :
    (l.map (fun x => if key x = q then f x else x)).find? (fun x => key x == r) =
      (l.find? (fun x => key x == r)).map (fun x => if r = q then f x else x) := by
  induction l with
  | nil => rfl
  | cons a l ih =>
    by_cases ha : key a = r
    · by_cases hq : key a = q
      · simp [ha, hf, ← hq]
      · have : ¬ r = q := fun h => hq (ha.trans h)
        simp [ha, this]
    · by_cases hq : key a = q
      · have : key (f a) ≠ r := by rw [hf]; exact ha
        simp only [List.map_cons, hq, if_true, List.find?_cons, beq_eq_false_iff_ne.mpr this, ih,
          show (q == r) = false from beq_eq_false_iff_ne.mpr (hq ▸ ha)]
      · simp [ha, hq, ih]

theorem seq_updSeq (s : State) (t q t' r : Nat) (f : SeqState → SeqState) (hf : ∀ x, (f x).pass = x.pass) :
    (s.updSeq t q f).seq? t' r =
      if t' = t then (s.seq? t r).map (fun x => if r = q then f x else x) else s.seq? t' r := by
  unfold State.seq? State.updSeq
  by_cases h : t' = t
  · subst h
    simp only [tile_updTile, if_true]
    exact find_map_upd _ SeqState.pass q r f hf
  · simp [tile_updTile, h]

@[simp] theorem tile_updSeq (s : State) (t q j : Nat) (f : SeqState → SeqState) :
    (s.updSeq t q f).tile j =
      if j = t then { s.tile t with seqs := (s.tile t).seqs.map (fun x => if x.pass = q then f x else x) } else s.tile j :=
  tile_updTile _ _ _ _

@[simp] theorem next_pass (q : SeqState) : q.next.pass = q.pass := rfl

/-- A tile update that leaves the sequencer states alone. -/
theorem seq_updTile (s : State) (t t' r : Nat) (f : Tile → Tile) (hf : (f (s.tile t)).seqs = (s.tile t).seqs) :
    (s.updTile t f).seq? t' r = s.seq? t' r := by
  unfold State.seq?
  by_cases h : t' = t
  · subst h; simp [hf]
  · simp [tile_updTile, h]

/-! ## What a sequencer presents -/

/-- The running pass that runningOn gives. -/
theorem runningOn_eq {s : State} {t : Nat} {p : Pass} {q : SeqState} (h : runningOn s t = some (p, q)) :
    s.seq? t q.pass = some q ∧ p.seq = q.pass ∧ s.pass? p.seq = some p := by
  unfold runningOn at h
  simp only at h
  split at h
  · simp at h
  · split at h
    · rename_i p' q' hp hq
      split at h
      · simp only [Option.some.injEq, Prod.mk.injEq] at h
        obtain ⟨rfl, rfl⟩ := h
        rcases hr : (s.tile t).running with _ | r
        · simp [hr] at hp
        · simp only [hr, Option.bind_some] at hp hq
          have h1 : q'.pass = r := by
            have := List.find?_some hq; simpa using this
          have h2 : p'.seq = r := by
            have := List.find?_some hp; simpa using this
          simp only [h1, h2, hp, hq, and_self]
      · simp at h
    · simp at h

/-- What the context of an instruction presented says: its tile, its pass and the sequencer state. -/
theorem present_ctx {s : State} {t : Nat} {i : Instr} {c : Ctx} (h : present s t i = some c) :
    c.t = t ∧ s.seq? t c.q.pass = some c.q ∧ c.p.seq = c.q.pass ∧ s.pass? c.p.seq = some c.p ∧ c.w = s.watch c.p := by
  unfold present at h
  split at h
  · simp at h
  · rename_i p q hr
    obtain ⟨h1, h2, h3⟩ := runningOn_eq hr
    simp only at h
    split at h
    · split at h
      · simp only [Option.some.injEq] at h
        subst h
        exact ⟨rfl, h1, h2, h3, rfl⟩
      · simp at h
    · split at h
      · simp only [Option.some.injEq] at h
        subst h
        exact ⟨rfl, h1, h2, h3, rfl⟩
      · simp at h

/-! ## Running one instruction -/

/-- An instruction that issues takes its effect, and its pass moves past it. -/
theorem runOp_issues {s : State} {t : Nat} {i : Instr} {c : Ctx} {rd wr : List Nat} {eff : Ctx → State → State}
    {ahead : Ctx → State → State} (h : Issues s t i c rd wr) (ht : touchOf i c s = some (rd, wr)) :
    runWith ahead t i eff s = advance c i (eff c s) := by
  obtain ⟨h1, h2, h3, h4⟩ := h
  unfold runWith
  simp only [h1, ht, h2, h3, h4, Bool.false_eq_true, if_false, Bool.not_true, Bool.or_self]

/-! ## Advancing -/

@[simp] theorem step_pass (c : Ctx) (i : Instr) (q : SeqState) : (c.step i q).pass = q.pass := by
  unfold Ctx.step
  split <;> rfl

@[simp] theorem noteDispatch_tile (i : Instr) (s : State) (j : Nat) : (noteDispatch i s).tile j = s.tile j := by
  unfold noteDispatch
  split <;> rfl

@[simp] theorem tile_advance (c : Ctx) (i : Instr) (s : State) (j : Nat) :
    (advance c i s).tile j =
      if j = c.t then { s.tile c.t with seqs := (s.tile c.t).seqs.map (fun x => if x.pass = c.q.pass then c.step i x else x),
                                        clocked := true } else s.tile j := by
  unfold advance
  by_cases hq : c.queued = true
  · simp only [hq, if_true, tile_updTile, tile_updSeq]; by_cases h : j = c.t <;> simp [h]
  · simp only [hq, if_false, tile_updTile, tile_updSeq, noteDispatch_tile, Bool.false_eq_true]; by_cases h : j = c.t <;> simp [h]

/-- Only the tiles differ after a pass has moved on, and for a move the count of dispatched moves. -/
theorem advance_frame (c : Ctx) (i : Instr) (s : State) :
    advance c i s = { s with tiles := (advance c i s).tiles,
                             gath := { s.gath with dispatches := (advance c i s).gath.dispatches } } := by
  unfold advance noteDispatch
  split
  · rfl
  · split <;> rfl

/-- An instruction that is no move leaves the count of dispatched moves. -/
theorem advance_gath (c : Ctx) (i : Instr) (s : State) (h : isMove i = false) : (advance c i s).gath = s.gath := by
  unfold advance noteDispatch
  simp only [h, Bool.false_eq_true, if_false]
  split <;> rfl

/-- The sequencer states after a pass has moved on. -/
theorem seq_advance (c : Ctx) (i : Instr) (s : State) (t r : Nat) :
    (advance c i s).seq? t r =
      if t = c.t then (s.seq? t r).map (fun x => if r = c.q.pass then c.step i x else x) else s.seq? t r := by
  have hn : ∀ r t, (noteDispatch i s).seq? t r = s.seq? t r := fun r t => by unfold State.seq?; rw [noteDispatch_tile]
  unfold advance
  simp only
  split
  · rw [seq_updTile, seq_updSeq]
    · by_cases h : t = c.t
      · subst h; simp
      · simp [h]
    · intro x; exact step_pass _ _ _
    · rfl
  · rw [seq_updTile, seq_updSeq]
    · by_cases h : t = c.t
      · subst h; simp [hn]
      · simp [h, hn]
    · intro x; exact step_pass _ _ _
    · rfl

/-- The pass of an instruction that has advanced is past it, and every other pass of the tile is where it was. -/
theorem passAt_advance {c : Ctx} {i : Instr} {s u : State} (h : u.seq? c.t c.q.pass = some c.q)
    (ho : ∀ r, r ≠ c.q.pass → u.seq? c.t r = s.seq? c.t r) : PassAt c i s (advance c i u) := by
  refine ⟨by simp [seq_advance, h], fun r hr => ?_⟩
  rw [seq_advance]
  simp [hr, ho r hr]

/-! ## Banks -/

theorem sfind_append {α : Type} (a b : List (Nat × α)) (k : Nat) :
    sfind (a ++ b) k = (sfind a k).or (sfind b k) := by
  induction a with
  | nil => simp
  | cons e m ih =>
    obtain ⟨k', v'⟩ := e
    by_cases h : k' = k <;> simp [sfind, h, ih]

theorem sfind_range {α : Type} (f : Nat → Option α) (base n k : Nat) :
    sfind ((List.range n).filterMap (fun i => (f i).map (fun v => (base + i, v)))) k =
      if base ≤ k ∧ k < base + n then f (k - base) else none := by
  induction n with
  | zero => simp
  | succ n ih =>
    rw [List.range_succ, List.filterMap_append, sfind_append, ih]
    by_cases h1 : base ≤ k ∧ k < base + n
    · have h2 : base ≤ k ∧ k < base + (n + 1) := by omega
      simp only [h1, h2, and_self, if_true]
      cases hf : f (k - base) with
      | some v => rfl
      | none =>
        cases hn : f n with
        | none => simp [hn]
        | some v =>
          have : base + n ≠ k := by omega
          simp [hn, sfind, this]
    · simp only [h1, if_false, Option.none_or]
      by_cases h3 : k = base + n
      · subst h3
        cases hn : f n <;> simp [hn, sfind]
      · have h4 : ¬ (base ≤ k ∧ k < base + (n + 1)) := by omega
        have h5 : base + n ≠ k := fun h => h3 h.symm
        cases hn : f n <;> simp [hn, sfind, h4, h5]

/-- A bank after it is set: its elements are the new ones, and every other bank's are as before. -/
theorem accAt_setBank (tl : Tile) (bank b r c : Nat) (f : Nat → Nat → Word) (hr : r < 16) (hc : c < 64) :
    (tl.setBank bank f).accAt b r c = if b = bank then f r c else tl.accAt b r c := by
  unfold Tile.accAt Tile.setBank sget
  have hdiv : (b * 1024 + r * 64 + c) / 1024 = b := by omega
  have e : (List.range 1024).filterMap (fun i => let v := f (i / 64) (i % 64)
            if v = 0 then none else some (bank * 1024 + i, v)) =
      (List.range 1024).filterMap (fun i => (if f (i / 64) (i % 64) = 0 then none else some (f (i / 64) (i % 64))).map
        (fun v => (bank * 1024 + i, v))) := by
    apply List.filterMap_congr; intro i _
    by_cases h : f (i / 64) (i % 64) = 0
    · simp only [if_pos h, Option.map_none]
    · simp only [if_neg h, Option.map_some]
  simp only
  rw [e, sfind_append, sfind_append, sfind_range (fun i => if f (i / 64) (i % 64) = 0 then none else some (f (i / 64) (i % 64))),
    sfind_filter (fun k => decide (k / 1024 < bank)), sfind_filter (fun k => decide (bank < k / 1024)), hdiv]
  by_cases hb : b = bank
  · subst hb
    have h1 : b * 1024 ≤ b * 1024 + r * 64 + c ∧ b * 1024 + r * 64 + c < b * 1024 + 1024 := by omega
    have h2 : b * 1024 + r * 64 + c - b * 1024 = r * 64 + c := by omega
    have h3 : (r * 64 + c) / 64 = r := by omega
    have h4 : (r * 64 + c) % 64 = c := by omega
    simp only [lt_irrefl, decide_false, Bool.false_eq_true, if_false, h1, and_self, if_true, h2, h3, h4, Option.none_or,
      Option.or_none]
    by_cases h0 : f r c = 0
    · simp only [if_pos h0, Option.getD_none]; exact h0.symm
    · simp only [if_neg h0, Option.getD_some]
  · have h1 : ¬ (bank * 1024 ≤ b * 1024 + r * 64 + c ∧ b * 1024 + r * 64 + c < bank * 1024 + 1024) := by omega
    simp only [h1, if_false, hb]
    rcases Nat.lt_or_gt_of_ne hb with h | h
    · have : ¬ bank < b := by omega
      simp [h, this]
    · have : ¬ b < bank := by omega
      simp [h, this]

/-- A sweep: each element of its bank folds the cycles, and every other bank is as before. -/
theorem accAt_sweepInto (tl : Tile) (bank b r c : Nat) (cycles : List (List OpStep)) (hr : r < 16) (hc : c < 64) :
    (sweepInto tl bank cycles).accAt b r c = if b = bank then sweptElem tl bank r c cycles else tl.accAt b r c :=
  accAt_setBank tl bank b r c _ hr hc

end Sys2Proof.Laws
end

