-- ==== Sys2Proof/Machine/Pins.lean ====
section
/-! DEFINITION. What crosses the module's boundary beside the PCI Express link and the fabric: the sideband outputs, the straps, the
contacts of J2 and J3, the ranges of the 50 V input, and the register accesses over I3C (R373, R384, R401 to R403, R406, R409 to
R415). No command of the table is one of them; they are read off the state and off numbers. -/

namespace Sys2Proof.Machine

set_option Elab.async false

/-! ## Sideband outputs (R372, R373, R382 to R384) -/

/-- The sideband outputs, true when asserted. -/
structure SideOut where
  good        : Bool
  alert       : Bool
  fault       : Bool
  throttleOut : Bool
  deriving DecidableEq, Repr

/-- The sideband outputs of a state; without the Steward domain none is driven. -/
def State.sideOut (s : State) : SideOut :=
  if s.stw.powered then
    { good := s.stw.good, alert := s.alertPin, fault := s.stw.faultPin, throttleOut := s.stw.thr.out }
  else { good := false, alert := false, fault := false, throttleOut := false }

/-! ## Straps (R9, R412) -/

/-- SHEAF_SLOT from which of its contacts the tray grounds: a bit reads 1 when its contact is open. -/
def sheafSlot (grounded : BitVec 6) : BitVec 6 := ~~~grounded

/-- What the Steward samples: FALLOW pulled to 3.3 V is asserted, PRESENT# grounded is present. -/
def strapsOf (grounded : BitVec 6) (fallowHigh presentLow : Bool) : PowerOnF :=
  { present := presentLow, sheafSlot := sheafSlot grounded, fallow := fallowHigh }

/-! ## Contacts (R401, R406, R409) -/

/-- The contacts of a pair of a J2 wafer: positive and negative. -/
def pairContacts (k : Nat) : Nat × Nat := (3 * k + 2, 3 * k + 3)

/-- Whether a contact of a J2 wafer is ground. -/
def groundContact (c : Nat) : Bool := 1 ≤ c && c ≤ 25 && c % 3 = 1

/-- What a pair of J2 carries, named from the module. -/
inductive PairSignal where
  | fabric (transmit : Bool) (port lane : Nat)
  | pcie (transmit : Bool) (lane : Nat)
  | refclk
  | reserved
  deriving DecidableEq, Repr

/-- The signal of pair k of wafer w. -/
def pairSignal (w k : Nat) : PairSignal :=
  if w < 18 then .fabric (k < 4) w (k % 4)
  else if w = 18 then .pcie (k < 4) (k % 4)
  else if k = 0 then .refclk
  else .reserved

/-- The signals of J3. -/
inductive Sideband where
  | gnd | scl | sda | perst | good | alert | fault | throttle | throttleOut | sheafSlot (bit : Nat) | fallow | present
  deriving DecidableEq, Repr

/-- The signal of a contact of J3. -/
def sidebandAt (c : Nat) : Option Sideband :=
  match c with
  | 1 => some .gnd | 2 => some .scl | 3 => some .sda | 4 => some .gnd | 5 => some .perst | 6 => some .good | 7 => some .alert
  | 8 => some .fault | 9 => some .throttle | 10 => some .throttleOut | 11 => some .gnd | 18 => some .fallow | 19 => some .gnd
  | 20 => some .present
  | _ => if 12 ≤ c && c ≤ 17 then some (.sheafSlot (c - 12)) else none

/-- Whether the module drives a signal of J3, and whether it reads it. -/
def Sideband.direction : Sideband → Bool × Bool
  | .gnd => (false, false)
  | .sda => (true, true)
  | .good => (true, false) | .alert => (true, false) | .fault => (true, false) | .throttleOut => (true, false)
  | _ => (false, true)

/-- The contacts of J1: VIN_50V, VIN_RETURN, CHASSIS, with the rating of each contact in A (R401). -/
def j1Contacts : List (List Nat × Nat) := [([1, 2], 30), ([3, 4], 30), ([5], 1)]

/-! ## The 50 V input (R402, R403) -/

/-- What an input voltage calls for. -/
inductive InputRange where
  /-- Below 30 V: the Steward domain stops. -/
  | off
  /-- Below 36 V: the main rails turn off. -/
  | railsOff
  /-- Below 40 V for 1 ms, or above 57 V for 100 µs: a module fault. -/
  | fault
  /-- Below 44 V: the alert, and after 50 µs a divisor of 2. -/
  | under
  /-- Above 56 V: the alert. -/
  | over
  /-- 44 to 56 V. -/
  | normal
  deriving DecidableEq, Repr

/-- The range of an input voltage in mV. -/
def inputRange (mV : Nat) : InputRange :=
  if mV < 30000 then .off
  else if mV < 36000 then .railsOff
  else if mV < 40000 || 57000 < mV then .fault
  else if mV < 44000 then .under
  else if 56000 < mV then .over
  else .normal

/-- How long the input must stay in a range before it acts, in µs (R402). -/
def InputRange.after (r : InputRange) (mV : Nat) : Nat :=
  match r with
  | .fault => if mV < 40000 then 1000 else 100
  | .under => 50
  | .railsOff => 10
  | _ => 0

/-! ## Registers over I3C (R384, R398, R413, R414) -/

/-- The offsets that I3C reaches: BAR0 offsets less 0x10000. -/
def i3cSpan : Nat := 0x2000

/-- Whether the module answers at an address: its dynamic address, or its static address as an I2C target (R413). -/
def State.answersAt (s : State) (a : BitVec 7) : Bool := s.stw.powered && (s.stw.i3c = some a || a = staticAddress)

/-- What begins at an I3C offset and lies whole in a transfer up to an end: a register, or a dword of STW_MBOX_DATA.
DESIGN CHOICE, log entry 109. -/
inductive I3cUnit where
  | reg (r : Reg)
  | mbox (k : Nat)
  deriving DecidableEq, Repr

/-- The unit that begins at an I3C offset. -/
def i3cUnitAt (o : Nat) : Option I3cUnit :=
  if i3cSpan ≤ o then none
  else if 0x1000 ≤ o then (if o % 4 = 0 then some (.mbox (o - 0x1000)) else none)
  else ((regAt (0x10000 + o)).filter (fun r => r.offset = 0x10000 + o)).map .reg

/-- Bytes of a unit. -/
def I3cUnit.bytes : I3cUnit → Nat
  | .reg r => r.name.row.bytes
  | .mbox _ => 4

/-- A private write of bytes from an offset: each register is written when its last byte arrives, a partial write is discarded, and
bytes outside the range are ignored. -/
def i3cWrite (off : Nat) (b : List Byte) (s : State) : State :=
  each (List.range b.length) (fun j s =>
    match i3cUnitAt (off + j) with
    | none => s
    | some u =>
      if j + u.bytes ≤ b.length then
        let v := leNat ((b.drop j).take u.bytes)
        stwWrite (match u with
          | .reg r => wholeWrite r v
          | .mbox k => mboxDataWrite k 4 v) s
      else s) s

/-- The byte at an I3C offset as it reads: 0xFF outside the range, and zero where no register stands. -/
def State.i3cByte (s : State) (o : Nat) : Byte :=
  if i3cSpan ≤ o then 0xFF
  else if 0x1000 ≤ o then s.mboxByte (o - 0x1000)
  else match regAt (0x10000 + o) with
    | some r => BitVec.ofNat 8 (s.show r / 256 ^ (0x10000 + o - r.offset))
    | none => 0

/-- A private read of n bytes from an offset, from one snapshot. -/
def State.i3cRead (s : State) (off n : Nat) : List Byte := (upFrom off n).map s.i3cByte

/-! ## Power at full rate (R415, R416) -/

/-- The consumers of R415 with their power in W, and the input power they add up to with the conversion loss. -/
def powerTable : List (String × Nat) :=
  [("tiles", 743), ("HBM tier", 412), ("bulk tier", 60), ("fabric", 90), ("die-to-die", 40), ("Steward and housekeeping", 15),
   ("conversion loss", 95)]

/-- The power at J1 that the table gives, in W. -/
def fullRatePower : Nat := (powerTable.map (·.2)).sum

end Sys2Proof.Machine
end

