-- ==== Sys2Proof/Tests/Slice0.lean ====
section
/-! SUPPORT. The model's own tests: a refused term for each check of well-formedness, states that meet the hypotheses of each
clause of each statement, and single steps against the manual's own numbers. -/

namespace Sys2Proof.Tests


set_option Elab.async false

open Sys2Proof Sys2Proof.Machine Sys2Proof.Safety

/-! ## Small states -/

/-- A module that is good, its clocks and its host link running. -/
def live : State :=
  { State.reset with
    host := { HostIf.init with running := true, linkUp := true },
    stw := { Steward.init with powered := true, mainOn := true, good := true, perst := false,
                               pll := [.running, .running, .running, .running] } }

/-- A single buffer of 64 lines. -/
def buf1 (k fmt : Nat) : BufEntry :=
  { h0 := k * 0x1000, h1 := k * 0x1000, double := false, fmt := fmt, width := 1, depth := 64, index := 0, stride := 0,
    scale := 0x20000, gauge := 0 }

/-- An image with the buffers that the tests' instructions name. -/
def image : Image :=
  { nInstr := 4, banks := 0xF, wires := 0xFFFF, tBase := 0, tCount := 8, layer := 3, role := 1, timeout := 100, fpBase := 0,
    fpSize := 0x30000, save := 0x21000,
    bufs := [buf1 0 0, buf1 1 0, buf1 2 0, buf1 3 0, buf1 4 0, { buf1 5 0 with width := 2 }, buf1 6 7, buf1 7 7, buf1 8 7,
      buf1 9 7, { buf1 10 0 with double := true, h1 := 0xB000 }],
    gauges := [],
    streams := [{ base := 0x1000, node := 0, gatherer := 2, compress := false, floor := 0, prio := 1, run := 4, pitch := 0x400,
                  st0 := 0, st1 := 0, st2 := 0 },
                { base := 0x2000, node := 9, gatherer := 2, compress := false, floor := 0, prio := 1, run := 4, pitch := 0x400,
                  st0 := 0, st1 := 0, st2 := 0 },
                { base := 0x100000, node := 0, gatherer := 2, compress := true, floor := 0, prio := 1, run := 64, pitch := 0x1000,
                  st0 := 0, st1 := 0, st2 := 0 }],
    codeOff := 64 }

/-- A pass on tile 5 with that image. -/
def pass0 : Pass :=
  { seq := 0, desc := 0, passId := 0, jobTag := 0, ring := 0, deadline := false, tiles := [5], addr := 0x22000, img := image,
    budget := 1000, mb := 0, role := 0, origin := 0, demand := [], step := none, stepNum := 0, done := [], losses := 0,
    lossLayer := 0, ending := none, dropped := [], moved := [] }

/-- Its sequencer state at the first instruction. -/
def seq0 : SeqState :=
  { pass := 0, slot := 0, pc := 0, loops := [], queue := [], swapped := [], budget := 0, sinceYield := 0, moves := 0, preempt := false,
    suspended := false, pended := false, parts := [], hold := none }

/-- A module whose tile 5 runs a pass at a place, the instruction there being a word. -/
def running (q : SeqState) (w : Nat) : State :=
  { live with
    passes := [pass0], nextPass := 1,
    tiles := [(5, { Tile.init with bin := putBytes [] (0x22040 + 8 * q.pc) (leBytes 8 w), seqs := [q], running := some 0 })] }

/-- The same at the first instruction. -/
def furrow (w : Nat) : State := running seq0 w

/-- Whether a tile presents an instruction that takes its operands' lines freely, and more holds where it stands. -/
def issues (s : State) (t : Nat) (i : Instr) (touch : Ctx → State → Option (List Nat × List Nat))
    (more : Ctx → List Nat → List Nat → Bool := fun _ _ _ => true) : Bool :=
  (present s t i).any (fun c => (touch c s).any (fun x =>
    !s.behindGet t c.earlier (x.1 ++ x.2) && c.free i x.1 x.2 s && !s.putPending t x.2 && more c x.1 x.2))

/-- Whether a machine answers a next state for which a test holds. -/
def gives (c : Instr) (s : State) (f : State → Bool) : Bool :=
  match exec c s with
  | .next u => f u
  | _ => false

/-! ## Tile instructions -/

/-- A reference to the first line of a buffer. -/
def ref0 (b : Nat) : Ref := { buf := b, off := 0 }
/-- A tile operand there. -/
def tileOp (b : Nat) : VOp := { ref := ref0 b, shape := .tile }

def opxW : OpxF := { bank := 1, a := ref0 0, b := ref0 1, k := 2, sa := 0, sb := 0 }
def altW : AltF := { dxBank := 0, dwBank := 3, dy := ref0 2, w := ref0 3, x := ref0 4 }
def shxW : ShxF := { bank := 2, a := ref0 0, b := ref0 5, rows := 1, taps := 2, str := 1 }
def drnW : DrnF := { bank := 1, dst := ref0 6, sr := false, srSeq := 0, gref := 31, measure := false, tithe := false, wide := false }
def v2W : V2F := { d := tileOp 6, a := tileOp 7, b := { ref := ref0 8, shape := .one } }
def v3W : V3F := { d := { ref := ref0 6, shape := .row }, a := { ref := ref0 7, shape := .row },
                   b := { ref := ref0 8, shape := .one }, c := { ref := ref0 9, shape := .row } }
def cvtW (form : CvtForm) (dst : Nat) : VcvtF :=
  { d := { ref := ref0 6, shape := .row }, a := { ref := ref0 7, shape := .row }, form := form, srcFmt := 7, dstFmt := dst,
    sr := false, srSeq := 0, gref := 31, measure := false }
def vrdcW : VrdcF := { d := { ref := ref0 6, shape := .col }, a := tileOp 7, op := .add, column := false, accum := true }
def vposW : VposF := { d := { ref := ref0 6, shape := .row }, addend := { ref := { buf := 31, off := 0 }, shape := .tile },
                       o := -5, sr := 1, sc := -1 }
def vrndW : VrndF := { d := { ref := ref0 6, shape := .row }, pos := { ref := ref0 7, shape := .row }, ctrl := ref0 9 }

/-- The words of R118, written out from their fields, decode to what they stand for. -/
theorem test_words_array : [0x40000100000100, 0x144000300020000, 0x280000500000008, 0x3c0000000000000, 0x44c000000f80000].map
    (decodeFurrow 5) = [some (.opx 5 opxW), some (.alt 5 altW), some (.shx 5 shxW), some (.aclr 5 3), some (.drn 5 drnW)] := by
  decide +kernel

/-- The words of R120. -/
theorem test_words_vector : [0x403003804000c000, 0x433003804000d000, 0x423003804004805d, 0x473003806780007c, 0x4830038081000000,
    0x49300f804ffb01ff, 0x4a30038048050000].map (decodeFurrow 5) =
    [some (.vadd 5 v2W), some (.vcmp 5 { ops := v2W, pred := .lt }), some (.vfma 5 v3W), some (.vcvt 5 (cvtW .code 8)),
     some (.vrdc 5 vrdcW), some (.vpos 5 vposW), some (.vrnd 5 vrndW)] := by decide +kernel

/-- A word with a reserved bit set is refused (R113). -/
theorem test_words_reserved : decodeFurrow 5 0x40000100000101 = none := by decide +kernel

theorem witness_opx : issues (furrow 0x40000100000100) 5 (.opx 5 opxW) (opxTouch opxW)
    (fun c _ wr => wr == [] && (opxSides opxW c).isSome) = true := by decide +kernel

theorem witness_alt : issues (furrow 0x144000300020000) 5 (.alt 5 altW) (altTouch altW)
    (fun c _ wr => wr == [] && (altSides altW c).isSome && altW.dxBank != altW.dwBank) = true := by
  decide +kernel

theorem witness_shx : issues (furrow 0x280000500000008) 5 (.shx 5 shxW) (shxTouch shxW)
    (fun c _ wr => wr == [] && (shxSides shxW c).isSome) = true := by decide +kernel

theorem witness_aclr : issues (furrow 0x3c0000000000000) 5 (.aclr 5 3) noTouch = true := by decide +kernel

theorem witness_drn : issues (furrow 0x44c000000f80000) 5 (.drn 5 drnW) (drnTouch drnW)
    (fun c rd _ => rd == [] && (operand c drnW.dst true).isSome) = true := by decide +kernel

/-- Two-source and three-source instructions and their words. -/
def vecCases : List (Instr × Nat × List VOp) :=
  [(.vadd 5 v2W, 0x403003804000c000, [v2W.a, v2W.b]), (.vmul 5 v2W, 0x413003804000c000, [v2W.a, v2W.b]),
   (.vmin 5 v2W, 0x453003804000c000, [v2W.a, v2W.b]), (.vmax 5 v2W, 0x463003804000c000, [v2W.a, v2W.b]),
   (.vcmp 5 { ops := v2W, pred := .lt }, 0x433003804000d000, [v2W.a, v2W.b]),
   (.vfma 5 v3W, 0x423003804004805d, [v3W.a, v3W.b, v3W.c]), (.vsel 5 v3W, 0x443003804004805d, [v3W.a, v3W.b, v3W.c])]

theorem witness_vector : vecCases.all (fun x =>
    issues (furrow x.2.1) 5 x.1 (vecTouch (if x.2.2.length = 2 then v2W.d else v3W.d) 7 (x.2.2.map (·, 7)) (fun _ => some []))) =
    true := by decide +kernel

theorem witness_vcvt : [((CvtForm.plain, 7), 0x473003804770007c), ((.field, 7), 0x473003805770007c), ((.code, 8), 0x473003806780007c)].all
    (fun x => let f := cvtW x.1.1 x.1.2
      issues (furrow x.2) 5 (.vcvt 5 f) (touchOf (.vcvt 5 f)) (fun c _ _ => (vplace c f.d true (vcvtFmts f).2).isSome)) = true := by
  decide +kernel

theorem witness_vrdc : issues (furrow 0x4830038081000000) 5 (.vrdc 5 vrdcW) (touchOf (.vrdc 5 vrdcW))
    (fun c _ _ => (vplace c vrdcW.d true 7).isSome) = true := by decide +kernel

theorem witness_vpos : issues (furrow 0x49300f804ffb01ff) 5 (.vpos 5 vposW) (touchOf (.vpos 5 vposW)) = true := by decide +kernel

theorem witness_vrnd : issues (furrow 0x4a30038048050000) 5 (.vrnd 5 vrndW) (vrndTouch vrndW)
    (fun c _ _ => (vrndCtl c vrndW).isSome) = true := by decide +kernel

/-! ### Single steps -/

/-- ACLR clears bank 3 and no other (R28). -/
theorem test_aclr : gives (.aclr 5 3) ((furrow 0x3c0000000000000).updTile 5 (fun tl => { tl with acc := [(1024, 7#32), (3072, 9#32)] }))
    (fun u => (u.tile 5).accAt 3 0 0 == 0#32 && (u.tile 5).accAt 1 0 0 == 7#32) = true := by decide +kernel

/-! ## Moves, tags and the mesh -/

/-- A GET or PUT of two lines of buffer 6 on a stream. -/
def moveW (stream : Nat) : MoveF := { stream := stream, ref := ref0 6, lines := 2, off := 0 }

def getW : Nat := 0x8000c00000200000
def putW : Nat := 0x8100c00000200000
/-- The same on stream 2, which compresses: 64 lines of buffer 7. -/
def getC : Nat := 0x8008e00007e00000
def putC : Nat := 0x8108e00007e00000
def moveC : MoveF := { stream := 2, ref := ref0 7, lines := 64, off := 0 }

/-- A machine whose package 0 and stack 0 are ready. -/
def withMem (s : State) : State :=
  { s with memory := { s.memory with dev := [(0, { Device.init with st := .ready }), (12, { Device.init with st := .ready })] } }

theorem test_words_moves : [getW, putW, getC, putC, 0x8238001800008000, 0x8350000000000000].map (decodeFurrow 5) =
    [some (.get 5 (moveW 0)), some (.put 5 (moveW 0)), some (.get 5 moveC), some (.put 5 moveC),
     some (.xfer 5 { src := ref0 7, dst := ref0 6, dx := 1, dy := 0, lines := 1 }), some (.swap 5 10)] := by decide +kernel

/-- Whether a move's lines lie in its half, may be moved, and its node has a route. -/
def moves (s : State) (i : Instr) (f : MoveF) (write : Bool) : Bool :=
  (present s 5 i).any (fun c => (moveAt c f (!write)).any (fun m => m.bins.any (fun bins =>
    !s.behindGet 5 c.earlier bins && c.free i (if write then bins else []) (if write then [] else bins) s &&
    (write || !s.putPending 5 bins) && !s.noRoute m.x.node && !(goodLines c s f m).2 &&
    (write || (s.dispatched c).isEmpty))))

theorem witness_get : moves (withMem (furrow getW)) (.get 5 (moveW 0)) (moveW 0) false = true ∧
    moves (withMem (furrow getC)) (.get 5 moveC) moveC false = true := by decide +kernel
theorem witness_put : moves (withMem (furrow putW)) (.put 5 (moveW 0)) (moveW 0) true = true ∧
    moves (withMem (furrow putC)) (.put 5 moveC) moveC true = true := by decide +kernel

/-- A transfer of one line of tile 5 at gatherer 2. -/
def xfer0 : Xfer :=
  { id := 0, gath := 2, tile := 5, pass := 0, stream := 0, prio := 1, deadline := false, move := 0, write := false, node := 0,
    mpa := 0x1000, lines := 1, bins := [0x9000], fmt := 7, reserve := none, issued := true, st := .waiting, data := [],
    detected := [], discard := false, refetch := false, block := none, since := 0 }

/-- A state with transfers at its gatherers, all enabled. -/
def withXfers (xs : List Xfer) (s : State) : State :=
  withMem { s with gath := { s.gath with enable := 0xFFFFFFFFFFFF#48, xfers := xs, nextId := 10 } }

theorem witness_get_dispatched :
    let s := withXfers [{ xfer0 with issued := false, bins := [0x6000] }] (furrow getW)
    issues s 5 (.get 5 (moveW 0)) (touchOf (.get 5 (moveW 0))) (fun c _ _ => s.dispatched c != []) = true := by decide +kernel

/-- A GET that waits for the lines of an earlier one is dispatched. -/
theorem witness_get_ahead :
    let s := withXfers [{ xfer0 with issued := true, bins := [0x6000] }] (running { seq0 with moves := 1 } getW)
    (present s 5 (.get 5 (moveW 0))).any (fun c => !c.queued && (moveAt c (moveW 0) true).any (fun m => m.bins.any (fun bins =>
      s.behindGet 5 c.earlier bins && !s.noRoute m.x.node && !(goodLines c s (moveW 0) m).2))) = true := by decide +kernel

theorem witness_xfer :
    let f : XferF := { src := ref0 7, dst := ref0 6, dx := 1, dy := 0, lines := 1 }
    let s := furrow 0x8238001800008000
    issues s 5 (.xfer 5 f) (xferTouch f) (fun c _ wr => wr == [] && (xferSource c f).isSome && (xferLine c f).isSome) = true := by
  decide +kernel

/-- A line on the mesh for tile 5. -/
def mesh0 (line : Int) : MeshLine := { id := 3, src := 4, dst := 5, pass := 0, buf := 6, line := line, data := List.replicate 64 7 }

/-- Where a mesh line arrives. -/
def meshState (line : Int) : State := let s := furrow 0; { s with gath := { s.gath with mesh := [mesh0 line] } }

theorem witness_mesh_line : [(63, true), (64, false)].all (fun x =>
    let s := meshState x.1
    (s.gath.mesh.find? (fun m => m.src == 4 && m.dst == 5)).any (fun m => (s.pass? m.pass).any (fun p =>
      p.ending == none && (p.img.bufs[m.buf]?).any (fun b =>
        ({ buf := b, half := arriveHalf b (s.seq? 5 m.pass) m.buf, fmt := 0, line := m.line } : Place).has 0 64 == x.2)))) = true := by
  decide +kernel

/-- An arriving line is written into the bin (R220). -/
theorem test_mesh_line : gives (.xferLineArrive 4 5) (meshState 1) (fun u =>
    byteAt (u.tile 5).bin 0x6040 == 7#8 && byteAt (u.tile 5).bin 0x6000 == 0#8 && u.gath.mesh == []) = true := by decide +kernel

theorem witness_tag_grant : [false, true].all (fun w =>
    let x := { xfer0 with write := w }
    let s := withXfers [x] (furrow 0)
    s.alive && s.gath.enable.getLsbD 2 && s.pllOf (2 / 12) = .running && s.nextGrant 2 = some x && (s.tagFor x).isSome &&
    x.node = 0) = true := by decide +kernel

/-- The same with one transfer requested of stack 0. -/
def queued (x : Xfer) : State :=
  let s := withXfers [x] (furrow 0)
  { s with memory := { s.memory with dev := [(0, { Device.init with st := .ready, queue := [x.id] })] } }

/-- Devices that a short list gives. -/
theorem dev_of (s : State) (f : Device → Bool) (hi : f Device.init = true) (h : s.memory.dev.all (fun e => f e.2) = true) (p : Nat) :
    f (s.dev p) = true := by
  unfold State.dev sget
  generalize s.memory.dev = m at h
  induction m with
  | nil => simpa [sfind] using hi
  | cons e m ih =>
    simp only [List.all_cons, Bool.and_eq_true] at h
    by_cases he : e.1 = p
    · simpa [sfind, he] using h.1
    · simpa [sfind, he] using ih h.2

/-- No register of a range of offsets is stored. -/
theorem sfind_outside {α : Type} (lo hi k : Nat) (m : List (Nat × α)) (h : m.all (fun e => e.1 < lo || hi < e.1) = true)
    (hl : lo ≤ k) (hh : k ≤ hi) : sfind m k = none := by
  induction m with
  | nil => rfl
  | cons e m ih =>
    simp only [List.all_cons, Bool.and_eq_true, Bool.or_eq_true, decide_eq_true_eq] at h
    have : e.1 ≠ k := by omega
    simpa [sfind, this] using ih h.2

/-- A memory without transposing windows, failed pseudo-channels, harvest or mirroring, as a test. -/
def plainB (s : State) : Bool :=
  s.regs.all (fun e => e.1 < 0x260000 || 0x26FFFF < e.1) && s.memory.dev.all (fun e => !e.2.retiredFailed) && s.hrv.op == none &&
  !s.mirrorOn && s.memory.asm == [] && s.memory.errs == []

/-- Such a memory is plain. -/
theorem plain_of (s : State) (h : plainB s = true) : PlainMemory s := by
  simp only [plainB, Bool.and_eq_true, beq_iff_eq, Bool.not_eq_true'] at h
  obtain ⟨⟨⟨⟨⟨hr, hd⟩, ho⟩, hm⟩, ha⟩, he⟩ := h
  refine ⟨fun a => ?_, fun a => ?_, ho, hm, ha, he⟩
  · unfold State.windowAt
    split
    · split
      · rfl
      · rename_i k _ _ hk
        have : ∀ w ∈ List.range 64, (s.xwin k w).on = false := by
          intro w hw
          have hw := List.mem_range.mp hw
          have : sfind s.regs (Reg.offset ⟨.memXpwCtl, k, w⟩) = none :=
            sfind_outside 0x260000 0x26FFFF _ _ hr (by simp [Reg.offset, RegName.row, row2]; omega)
              (by simp [Reg.offset, RegName.row, row2]; omega)
          simp [State.xwin, State.rgBit, State.rg, State.rgQ, this, RegName.row, row2, bit]
        rw [List.find?_eq_none.mpr]
        · rfl
        · intro w hw; simp [this w hw]
    · rfl
  · unfold State.onFailedPc
    split
    · rename_i p _ _
      have := dev_of s (fun d => !d.retiredFailed) rfl hd p
      simp only [Bool.not_eq_true'] at this
      simp [this]
    · rfl

theorem witness_request_serve : [false, true].all (fun w =>
    let x := { xfer0 with write := w, st := .requested, reserve := some false, data := if w then List.replicate 64 9 else [] }
    let s := queued x
    s.alive && (s.dev 0).st = .ready && (List.range 32).any (fun pc => s.nextServe 0 pc = some x)) = true := by decide +kernel

theorem witness_plain_memory : PlainMemory (queued xfer0) := plain_of _ (by decide +kernel)

theorem witness_read_land : [(XSt.arrived, true, none), (.landed, false, none), (.arrived, true, some (0, 1))].all (fun x =>
    let y := { xfer0 with st := x.1, issued := x.2.1, block := x.2.2, reserve := some false, data := List.replicate 64 1,
                          detected := [false] }
    let s := queued y
    s.alive && s.xfer? 0 = some y && !y.write && !y.discard && y.node = 0 && 0 < s.gath.nextId) = true := by decide +kernel

theorem witness_memory_write_ack :
    let y := { xfer0 with write := true, st := .written, reserve := some false, data := List.replicate 64 1 }
    let s := queued y
    (s.alive && s.xfer? 0 = some y && !s.ackHeld 0) = true := by decide +kernel

/-- A served read carries its line's bytes, and lands in the bin (R206). -/
theorem test_read_land : gives (.readLand 0)
    (queued { xfer0 with st := .arrived, reserve := some false, data := List.replicate 64 5, detected := [false] })
    (fun u => byteAt (u.tile 5).bin 0x9000 == 5#8 && u.gath.xfers == []) = true := by decide +kernel

theorem witness_tag_grant_remote : [false, true].all (fun w =>
    let x := { xfer0 with write := w, node := 9, block := some (4, 0), data := if w then List.replicate 64 9 else [] }
    let o : OutXfer := { xid := 4, node := 9, vl := 0, port := 0, packets := 0, acked := 0, lo := 0x1000, hi := 0x1040, ordered := true,
                         purpose := .moves [0], since := 0, extend := 0 }
    let s := let s := withXfers [x] (furrow 0); { s with fab := { s.fab with out := if w then [o] else [] } }
    s.alive && s.gath.enable.getLsbD 2 && s.pllOf 0 = .running && s.nextGrant 2 = some x && (s.tagFor x).isSome && x.node ≠ 0 &&
    s.gath.xfers.find? (fun y => y.st = .waiting && y.block == some (4, 0) && y.node != 0) = some x &&
    gives (.tagGrant 2) s (fun u => u.fab.ports != [])) = true := by decide +kernel

/-- A gatherer whose tags are all reserved or held by a GET that may not issue, for 4,096 cycles. -/
def cycleState : State :=
  let wide : Stream := { base := 0, node := 0, gatherer := 2, compress := false, floor := 512, prio := 1, run := 1, pitch := 0,
                         st0 := 0, st1 := 0, st2 := 0 }
  let img := { image with streams := image.streams ++ [wide] }
  let s := withXfers [{ xfer0 with st := .landed, issued := false, reserve := some false },
    { xfer0 with id := 1, move := 1, issued := false }] (furrow 0)
  { s with passes := [{ pass0 with img := img }], cyc := 5000, gath := { s.gath with window := [(2, 5)] } }

theorem witness_buffer_cycle : (gathIx 2 && cycleState.alive && sfind cycleState.gath.window 2 = some 5 && 5 + 4096 ≤ cycleState.cyc &&
    cycleState.cycleNow 2 && cycleState.sharedTagged 2 != []) = true := by decide +kernel

/-- The cancelled GET waits again without its tag (R209). -/
theorem test_buffer_cycle : gives (.bufferCycle 2) cycleState (fun u => (u.xfer? 0).any (fun x => x.st = .waiting && x.refetch)) = true := by
  decide +kernel

/-! ## Control instructions, tallies and wires -/

theorem test_words_control : [0xc00000c000400000, 0xc0c0af000080000c, 0xc10000c000000002, 0xc20000c000400000, 0xc320000000000000,
    0xc400040000080000, 0xc500000800000000, 0xc600000000000000, 0xc700000000000000].map (decodeFurrow 5) =
    [some (.sig 5 { kind := 0, tally := 3, inc := 1, dx := 0, dy := 0, stream := 0, bare := false }),
     some (.sig 5 { kind := 3, tally := 700, inc := 2, dx := 0, dy := 0, stream := 1, bare := true }),
     some (.wait 5 { kind := 0, tally := 3, index := 0, step := 0, base := 1, timeout := false }),
     some (.take 5 { kind := 0, tally := 3, amount := 1 }), some (.bind 5 { wire := 2, timeout := false }),
     some (.loop 5 { depth := 0, body := 1, count := 2 }), some (.brc 5 { cond := 0, n := 0, disp := 1 }), some (.yield 5),
     some (.pend 5)] := by decide +kernel

theorem witness_swap : issues (furrow 0x8350000000000000) 5 (.swap 5 10) (swapTouch 10) (fun _ rd _ => rd == []) = true := by
  decide +kernel
theorem witness_loop : issues (furrow 0xc400040000080000) 5 (.loop 5 { depth := 0, body := 1, count := 2 }) noTouch = true := by
  decide +kernel
theorem witness_brc : (present (furrow 0xc500000800000000) 5 (.brc 5 { cond := 0, n := 0, disp := 1 })).isSome = true := by
  decide +kernel

/-- The three ways of going on after an instruction inside a loop of one instruction with two turns. -/
theorem test_loop_turns :
    let l : LoopCtr := { start := 1, body := 1, count := 2, cur := 0 }
    (({ seq0 with loops := [l] } : SeqState).next.pc, ({ seq0 with pc := 1, loops := [l] } : SeqState).next.loops,
     ({ seq0 with pc := 1, loops := [{ l with cur := 1 }] } : SeqState).next.loops) = (1, [{ l with cur := 1 }], []) := by
  decide +kernel

theorem witness_sig : [(0xc00000c000400000, ({ kind := 0, tally := 3, inc := 1, dx := 0, dy := 0, stream := 0, bare := false } : SigF), 0),
    (0xc0c0af000080000c, { kind := 3, tally := 700, inc := 2, dx := 0, dy := 0, stream := 1, bare := true }, 9)].all (fun x =>
    let s := (furrow x.1).setRg .fabRoute 1 9
    issues s 5 (.sig 5 x.2.1) noTouch (fun c _ _ => sigNode c x.2.1 == x.2.2 && sigOk s c x.2.1)) = true := by decide +kernel

/-- A SIG of kind 1 from tile 5 to the column 43 to its right leaves the grid (R10). -/
theorem witness_sig_off_grid : [(42, true), (43, false)].all (fun x =>
    sigOnGrid 5 { kind := 1, tally := 3, inc := 1, dx := x.1, dy := 0, stream := 0, bare := false } == x.2) = true := by decide +kernel

/-- A signal to tile 5's tally 3. -/
def sig0 (inc : Nat) (desc : Option Nat) : PendSig :=
  { source := .tile 5, pass := some 0, dest := some 5, node := 0, tally := 3, inc := inc, fence := [], lines := [], desc := desc, bare := false }

/-- A signal that waits, with its tally. -/
def sigState (y : Tally) (inc : Nat) (desc : Option Nat) : State :=
  { (furrow 0).setTally (some 5) 3 y with sync := { Sync.init with signals := [sig0 inc desc] } }

theorem witness_signal_apply : [(Tally.init, false), ({ Tally.init with count := 0x7FFFFFFF }, true), ({ Tally.init with gate := true }, false),
    ({ Tally.init with gate := true, count := 1 }, false)].all (fun x =>
    let s := sigState x.1 1 none
    s.ownSignals[0]? = some (sig0 1 none) && s.alive && s.fenceMet (sig0 1 none) && !s.signalsFirst (sig0 1 none) &&
    (x.1.gate || ((s.tally (some 5) 3).count + 1#32 - (s.tally (some 5) 3).ref).msb == x.2)) = true := by decide +kernel

/-- R226: a signal that would pass the window is refused, and one below it applied. -/
theorem test_signal_window : gives (.tallySignalApply 0) (sigState { Tally.init with count := 0x7FFFFFFF } 1 none) (fun u =>
    (u.tally (some 5) 3).count == 0x7FFFFFFF#32 && u.rgBit .tilSyncStatus 1) = true ∧
  gives (.tallySignalApply 0) (sigState { Tally.init with count := 0x7FFFFFFE } 1 none) (fun u =>
    (u.tally (some 5) 3).count == 0x7FFFFFFF#32) = true := by decide +kernel

theorem witness_wait : (present (furrow 0xc10000c000000002) 5
    (.wait 5 { kind := 0, tally := 3, index := 0, step := 0, base := 1, timeout := false })).any
    (fun c => c.q.hold == none && c.earlier.isEmpty) = true := by decide +kernel

/-- A pass that waits for a target of 1 on a tally of a count. -/
def waitState (n : Nat) : State :=
  (running { seq0 with hold := some (.wait 0 3 1 0 none) } 0).setTally (some 5) 3 { Tally.init with count := BitVec.ofNat 32 n }

theorem witness_wait_evaluated : [(0, true), (1, false)].all (fun x =>
    ((waitState x.1).seq? 5 0).any (fun q => q.hold == some (.wait 0 3 1 0 none)) &&
    (((waitState x.1).tally (waitDest 5 0) 3).count - 1#32).msb == x.2) = true := by decide +kernel

/-- R227: a WAIT that completes sets the reference to a later target and keeps the count. -/
theorem test_wait : (let u := evalWait 5 0 (waitState 2)
    (u.tally (some 5) 3).count == 2#32 && (u.tally (some 5) 3).ref == 1#32) = true := by decide +kernel

theorem witness_take : issues (furrow 0xc20000c000400000) 5 (.take 5 { kind := 0, tally := 3, amount := 1 }) noTouch = true := by
  decide +kernel

/-- R229: the TAKE of a cycle follows its signals. -/
theorem test_takes : (let s := sigState { Tally.init with count := 1 } 2 none
    gives (.tallySignalApply 0) (queueTake (some 5) 3 2 s) (fun u =>
      ((applyTakes u).tally (some 5) 3).count == 1#32 && u.sync.takes != [])) = true := by decide +kernel

theorem witness_bind : (present (furrow 0xc320000000000000) 5 (.bind 5 { wire := 2, timeout := false })).any
    (fun c => c.q.hold == none && c.earlier.isEmpty) = true := by decide +kernel

/-- A wire of two tiles with some inputs high. -/
def wireState (high : List Nat) : State :=
  { furrow 0 with sync := { Sync.init with wires := [(2, { owner := 0, mask := [5, 6], high := high, count := 0 })] } }

theorem witness_wire_release : [([5, 6], true), ([6], false)].all (fun x =>
    (sfind (wireState x.1).sync.wires 2).any (fun w => (wireState x.1).alive && w.high != [] &&
      w.mask.all ((wireState x.1).wireHigh w).contains == x.2)) = true := by decide +kernel

theorem witness_yield : [([1], false), ([], true), ([], false)].all (fun x =>
    (present (running { seq0 with parts := x.1, preempt := x.2 } 0xc600000000000000) 5 (.yield 5)).any (·.earlier.isEmpty)) = true := by decide +kernel

theorem witness_pend : [[], [xfer0]].all (fun xs =>
    let s := withXfers xs (furrow 0xc700000000000000)
    (present s 5 (.pend 5)).any (fun c => !c.q.pended && c.earlier.isEmpty && s.pendDone 5 c.q.pass == xs.isEmpty)) = true := by decide +kernel

/-- Two passes on tile 5, the running one held. -/
def twoPasses (q0 q1 : SeqState) : State :=
  let s := running q0 0
  { s with passes := [pass0, { pass0 with seq := 1 }],
           tiles := [(5, { s.tile 5 with seqs := [q0, { q1 with pass := 1 }], running := some 0 })] }

theorem witness_pass_switch :
    let s := twoPasses { seq0 with hold := some (.wait 0 3 1 0 none) } { seq0 with slot := 1 }
    (s.tileWorks 5 && s.runningHeld 5 && s.nextPassOn 5 (s.tile 5).running == some 1) = true := by decide +kernel

theorem witness_pass_resume :
    let s := twoPasses seq0 { seq0 with slot := 4, suspended := true }
    (s.tileWorks 5 && (s.tile 5).freeSlot != 4 && s.nextSuspended 5 == some 1 && (s.seq? 5 1).isSome) = true := by decide +kernel

theorem witness_pass_retire :
    let p := { pass0 with done := [5] }
    let s := { furrow 0 with passes := [p] }
    (s.pass? 0 = some p && s.alive && p.ending = none && p.tiles.all p.done.contains) = true := by decide +kernel

/-- The bounds of R141, R142 and R238 are met, and just not. -/
theorem witness_bounds :
    let ok : SeqState → (State → Pass → SeqState → Bool) → Bool := fun q f =>
      let s := { running q 0 with cyc := 7000 }
      (s.pass? 0).any (fun p => (s.seq? 5 0).any (fun x => s.alive && p.ending == none && f s p x))
    (ok { seq0 with budget := 1001 } (fun _ p x => p.budget < x.budget) && ok { seq0 with budget := 1000 } (fun _ p x => x.budget ≤ p.budget) &&
     ok { seq0 with preempt := true, sinceYield := 16385 } (fun _ _ x => x.preempt && !x.pended && 16384 < x.sinceYield) &&
     ok { seq0 with preempt := true, sinceYield := 16384 } (fun _ _ x => x.sinceYield ≤ 16384) &&
     ok { seq0 with hold := some (.wait 0 3 1 0 (some 100)) } (fun s _ _ => 100 ≤ s.aon) &&
     ok { seq0 with hold := some (.bind 2 0 (some 100)) } (fun s _ _ => 100 ≤ s.aon) &&
     ok { seq0 with hold := some (.wait 0 3 1 0 (some 101)) } (fun s _ _ => s.aon < 101) &&
     ok { seq0 with hold := some (.bind 2 0 (some 101)) } (fun s _ _ => s.aon < 101)) = true := by decide +kernel

/-! ## Descriptors -/

/-- A submission ring and its completion ring. -/
def subRing : RingCtx := { RingCtx.init with k := 6, enable := true, companion := 2, tail := 10 }
def comRing : RingCtx := { RingCtx.init with k := 6, enable := true, completion := true }

/-- A machine with both rings, its first stack and package ready, and a watch table of 16 layers. -/
def hosted : State :=
  let s := (withMem live).setRg .numWatchCtl (2 ^ 31 + 16)
  { s with host := { s.host with rings := [(1, subRing), (2, comRing)], nextId := 40 },
           gath := { s.gath with enable := 0xFFFFFFFFFFFF#48 } }

/-- A descriptor of ring 1: opcode, payload slots, fields as (byte offset, value), payload. -/
def desc (op slots : Nat) (fs : List (Nat × Nat)) (payload : List Byte := []) : HostDesc :=
  { ring := 1, hdr := BitVec.ofNat 512 ((op + slots * 256) + (fs.map (fun f => f.2 * 256 ^ f.1)).sum), payload := payload }

/-- The smallest image: one PEND, tallies 0 to 3, layer 3, all of 4 KiB from bin address 0 as its footprint. -/
def pendImage : List Byte :=
  leBytes 4 1 ++ leBytes 2 1 ++ [0xF, 0] ++ [0, 0, 0, 4] ++ leBytes 4 3 ++ leBytes 4 0 ++ leBytes 4 0 ++ leBytes 4 0x1000 ++
  leBytes 4 0x800 ++ leBytes 32 0 ++ leBytes 8 0xC700000000000000

/-- Memory that holds the image at 0x4000. -/
def withImage (s : State) : State := { s with memory := { s.memory with mem := putBytes s.memory.mem 0x4000 pendImage } }

/-- Tile 5's bin holds the image. -/
def loaded (s : State) : State := s.updTile 5 (fun tl => { tl with bin := putBytes tl.bin 0 pendImage })

/-- The tile set of tile 5 alone: x0 = 5. -/
def set5 : Nat := 5 * 4

def loadD : HostDesc := desc 0x01 0 [(0x10, 0x4000), (0x18, 72), (0x1C, 0), (0x20, set5)]
def passD : HostDesc := desc 0x02 0 [(0x10, 0), (0x14, 77), (0x18, set5), (0x20, 100)]
def dataD : HostDesc := desc 0x03 1 [(0x10, 0x5000), (0x18, 3)] [1, 2, 3]
def replayD : HostDesc := desc 0x03 0 [(3, 1), (8, 7), (0x1C, 0), (0x20, 1)]
def outD : HostDesc := desc 0x04 0 [(0x10, 0x5000), (0x18, 64)]
def openD : HostDesc := desc 0x05 0 [(0x10, 7)]
def closeD : HostDesc := desc 0x06 0 [(0x10, 7)]
def harvestD : HostDesc := desc 0x07 0 []
def recoveryD : HostDesc := desc 0x07 0 [(0x10, 6), (0x12, 9)]
def restoreD : HostDesc := desc 0x08 1 [(0x10, 99), (0x18, 1)] (leBytes 8 3 ++ leBytes 8 0x6000 ++ leBytes 8 2048 ++ leBytes 8 0)
def claimD : HostDesc := desc 0x09 0 [(0x10, 9), (0x12, 1)]
def cancelD : HostDesc := desc 0x0A 0 [(0x14, 77)]
def dumpD : HostDesc := desc 0x0B 0 []
def signalD : HostDesc := desc 0x0C 0 [(0x10, 700), (0x12, 1)]
def fenceD : HostDesc := desc 0x0D 0 []
def disableD (object abort index : Nat) : HostDesc := desc 0x0E 0 [(0x10, object), (0x11, abort), (0x12, index)]

/-- An attempt of step 7. -/
def attempt7 : Attempt :=
  { step := 7, num := 0, seq := 0, st := .openSt, closed := false, replay := false, first := true, overlap := false, poisoned := false,
    latched := [], layers := 16, wbase := 0, policy := 0, mac4 := 0, mac8 := 0, mac16 := 0, bindings := [], samples := [], diverged := 0,
    divLayers := [], lossSeen := false, report := none, sent := false, groupFailed := false, mirrorPos := 0, mirrorBusy := false,
    initial := false, remirror := false, digestSent := false, blocksSent := false, digestDone := false, mirrorOk := false, mismatch := [],
    used := [], seeding := [], gauges := [], openAon := 0 }

/-- A job runs, its logs and records where memory is served: packages are class W throughout. -/
def jobState : State :=
  let s := ((((hosted.setRg .stpRecBase 0x8000000000).setRg .stpLogBase 0x8010000000).setRg .stpLogSize 0x8000000).setRg
    .numWatchBase 0x8020000000).setRg .hrvAreaSize 0x1000000
  { s with steps := { s.steps with job := true, firstStep := some 7 } }

/-- The same with step 7 open. -/
def openState : State := { jobState with steps := { jobState.steps with attempts := [attempt7] } }

/-- A replay of step 7 with an entry in the glean log, its payload as logged or not. -/
def logState (good : Bool) : State :=
  let e : LogEnt := { off := 0, size := 128, kind := 0, num := 0, step := 7, idx := 0, target := 0x5000, len := 3 }
  let m := putBytes [] 0x8010000020 (leBytes 4 (crc32 [1, 2, 3]).toNat ++ List.replicate 28 0 ++ [1, 2, if good then 3 else 4])
  { openState with
    memory := { openState.memory with mem := m },
    steps := { openState.steps with attempts := [{ attempt7 with replay := true }], log := { ents := [e], tail := 128, high := false } } }

/-- The mirror holds the current version. -/
def mirrored (s : State) : State := { s with hrv := { s.hrv with mirrorVer := some 0 } }

/-- A port to node 9 is there. -/
def routed9 (s : State) : State := (s.setRg .fabRoute 1 9).setPort 0 { s.port 0 with st := .up }

/-- Every channel of stack 0 is paused. -/
def pausedMem (s : State) : State := s.setDev 0 { s.dev 0 with paused := List.range 32 }

/-- HostInv as a test. -/
def hostInvB (s : State) : Bool :=
  let n := s.host.nextId
  s.host.inflight.all (fun i => i.id < n && (match i.work with | .disable op => disableNames op | _ => true)) &&
  s.passes.all (fun p => p.desc < n) && s.hrv.op.all (fun h => h.desc < n) && s.hrv.restore.all (fun r => r.desc < n) &&
  (s.hrv.recovery ≠ .sending || s.hrv.recDesc < n) && s.fab.claim.all (fun c => c.desc < n) &&
  s.sync.signals.all (fun x => x.desc.all (· < n)) &&
  s.fab.out.all (fun o => match o.purpose with | .logCopy (some d) _ => d < n | _ => true)

/-- The test says what it tests. -/
theorem hostInv_of (s : State) (h : hostInvB s = true) : HostInv s := by
  simp only [hostInvB, Bool.and_eq_true, List.all_eq_true, decide_eq_true_eq, Bool.or_eq_true] at h
  obtain ⟨⟨⟨⟨⟨⟨⟨h1, h2⟩, h3⟩, h4⟩, h5⟩, h6⟩, h7⟩, h8⟩ := h
  refine ⟨fun i hi => ⟨(h1 i hi).1, fun op ho => ?_⟩, h2, fun x hx => ?_, fun x hx => ?_, fun hx => ?_, fun x hx => ?_,
    fun x hx d hd => ?_, fun o ho d a hp => ?_⟩
  · have := (h1 i hi).2; rw [ho] at this; exact this
  · rw [hx] at h3; simpa using h3
  · rw [hx] at h4; simpa using h4
  · rcases h5 with h5 | h5
    · exact absurd hx h5
    · exact h5
  · rw [hx] at h6; simpa using h6
  · have := h7 x hx; rw [hd] at this; simpa using this
  · have := h8 o ho; rw [hp] at this; simpa using this

/-- Whether a ring can give its head descriptor to the command of an opcode. -/
def atHeadB (op : Nat) (d : HostDesc) (s : State) : Bool :=
  s.mayTake d.ring (descSlots d) && (s.ring d.ring).held.all (· == d) && descOp d == op

theorem atHead_of (op : Nat) (d : HostDesc) (s : State) (h : atHeadB op d s = true) : AtHead op d s := by
  simp only [atHeadB, Bool.and_eq_true, beq_iff_eq] at h
  exact ⟨h.1.1, fun e he => by have := h.1.2; rw [he] at this; simpa using this, h.2⟩

/-- A descriptor that its command accepts. -/
def acceptedB (op : Nat) (d : HostDesc) (judge : State → Answer) (s : State) : Bool :=
  atHeadB op d s && layoutOk d && judge s == .accept && (!s.dataUnseen d && hostInvB s)

theorem accepted_of (op : Nat) (d : HostDesc) (judge : State → Answer) (s : State) (h : acceptedB op d judge s = true) :
    Accepted op d judge s := by
  simp only [acceptedB, Bool.and_eq_true, beq_iff_eq, Bool.not_eq_true'] at h
  exact ⟨atHead_of _ _ _ h.1.1.1, h.1.1.2, h.1.2, h.2.1, hostInv_of _ h.2.2⟩

/-- One descriptor of each opcode that its command accepts. -/
theorem witness_accepted :
    (acceptedB 0x01 loadD (judgeLoad loadD) (withImage hosted) && acceptedB 0x02 passD (judgePass passD) (loaded hosted) &&
     acceptedB 0x03 dataD (judgeData dataD) hosted && acceptedB 0x03 replayD (judgeReplay replayD) (logState true) &&
     acceptedB 0x04 outD (judgeOut outD) hosted && acceptedB 0x05 openD (judgeOpen openD) jobState &&
     acceptedB 0x06 closeD (judgeClose closeD) openState && acceptedB 0x07 harvestD (judgeHarvest harvestD) jobState &&
     acceptedB 0x07 recoveryD (judgeRecovery recoveryD) (routed9 (mirrored jobState)) && acceptedB 0x08 restoreD (judgeRestore restoreD) hosted &&
     acceptedB 0x09 claimD (judgeClaim claimD) hosted && acceptedB 0x0A cancelD (judgeBare cancelD) hosted &&
     acceptedB 0x0B dumpD (judgeBare dumpD) hosted && acceptedB 0x0C signalD (judgeSignal signalD) hosted &&
     acceptedB 0x0D fenceD (judgeBare fenceD) hosted && acceptedB 0x0E (disableD 1 0 5) (judgeDisable (disableD 1 0 5)) hosted) = true := by
  decide +kernel

/-- One descriptor of each opcode that breaks its layout. -/
theorem witness_layout : ((List.range 14).map (fun k => desc (k + 1) 0 [(0x3F, 1)])).all (fun d =>
    atHeadB (descOp d) d hosted && !layoutOk d) = true := by decide +kernel

/-- Whether a judge, at the head of its ring and with its layout kept, answers as said. -/
def judged (op : Nat) (d : HostDesc) (judge : State → Answer) (s : State) (a : Answer) : Bool :=
  atHeadB op d s && layoutOk d && judge s == a

/-- A tag that names no open step. -/
def tagged (d : HostDesc) : HostDesc := { d with hdr := d.hdr ||| BitVec.ofNat 512 (256 ^ 3 + 7 * 256 ^ 8) }

/-- The descriptors that fail. -/
theorem witness_failed :
    ([judged 0x01 (desc 0x01 0 []) (judgeLoad (desc 0x01 0 [])) hosted (.fail .malformed),
      judged 0x02 (desc 0x02 0 [(0x18, 3)]) (judgePass (desc 0x02 0 [(0x18, 3)])) hosted (.fail .malformed),
      (let d := desc 0x02 0 [(0x18, set5), (0x24, 2 ^ 20 + 1)]; judged 0x02 d (judgePass d) (loaded hosted) (.fail .limit)),
      judged 0x03 (desc 0x03 0 []) (judgeData (desc 0x03 0 [])) hosted (.fail .malformed),
      (let d := desc 0x03 0 [(0x20, 1)]; judged 0x03 d (judgeReplay d) hosted (.fail .malformed)),
      judged 0x04 (desc 0x04 0 []) (judgeOut (desc 0x04 0 [])) hosted (.fail .malformed),
      judged 0x05 openD (judgeOpen openD) hosted (.fail .notEnabled),
      (let d := desc 0x05 0 [(0x10, 2 ^ 40 - 1)]; judged 0x05 d (judgeOpen d) jobState (.fail .stepExhausted)),
      (let d := desc 0x05 0 [(0x10, 8)]; judged 0x05 d (judgeOpen d) jobState (.fail .malformed)),
      judged 0x06 closeD (judgeClose closeD) jobState (.fail .malformed),
      judged 0x07 harvestD (judgeHarvest harvestD) hosted (.fail .notEnabled),
      (let d := desc 0x07 0 [(0x10, 6), (0x15, 5)]; judged 0x07 d (judgeRecovery d) hosted (.fail .malformed)),
      judged 0x08 (desc 0x08 0 []) (judgeRestore (desc 0x08 0 [])) hosted (.fail .malformed),
      judged 0x09 (desc 0x09 0 []) (judgeClaim (desc 0x09 0 [])) hosted (.fail .malformed),
      judged 0x0A (desc 0x0A 1 []) (judgeBare (desc 0x0A 1 [])) hosted (.fail .malformed),
      judged 0x0C (desc 0x0C 0 []) (judgeSignal (desc 0x0C 0 [])) hosted (.fail .malformed),
      judged 0x0E (disableD 6 0 0) (judgeDisable (disableD 6 0 0)) hosted (.fail .malformed)].all id) = true := by decide +kernel

/-- The descriptors that are refused. -/
theorem witness_refused :
    ([judged 0x01 loadD (judgeLoad loadD) ((withImage hosted).setRg .tilEnable 0 0) (.refuse 2),
      judged 0x02 passD (judgePass passD) ((loaded hosted).setRg .tilEnable 0 0) (.refuse 2),
      judged 0x02 (tagged passD) (judgePass (tagged passD)) (loaded hosted) (.refuse 0),
      judged 0x03 (tagged dataD) (judgeData (tagged dataD)) hosted (.refuse 0),
      judged 0x03 replayD (judgeReplay replayD) hosted (.refuse 0),
      judged 0x04 (tagged outD) (judgeOut (tagged outD)) hosted (.refuse 0),
      judged 0x07 harvestD (judgeHarvest harvestD) (jobState.setRg .hrvEnable 0) (.refuse 11),
      judged 0x07 recoveryD (judgeRecovery recoveryD) (routed9 jobState) (.refuse 12),
      judged 0x08 restoreD (judgeRestore restoreD) jobState (.refuse 12),
      (let d := desc 0x09 0 [(0x10, 9)]; judged 0x09 d (judgeClaim d) hosted (.refuse 12)),
      judged 0x0E (disableD 0 0 2) (judgeDisable (disableD 0 0 2)) hosted (.refuse 13)].all id) = true := by decide +kernel

/-- The descriptors that are held. -/
theorem witness_held :
    ([judged 0x01 loadD (judgeLoad loadD) (pausedMem (withImage hosted)) .hold,
      (let d := desc 0x02 0 [(0x18, set5), (0x2B, 3)]
       judged 0x02 d (judgePass d) { hosted with steps := { hosted.steps with area0 := .held } } .hold),
      judged 0x03 dataD (judgeData dataD) (pausedMem hosted) .hold, judged 0x03 replayD (judgeReplay replayD) (pausedMem (logState true)) .hold,
      judged 0x04 outD (judgeOut outD) (pausedMem hosted) .hold,
      (let d := desc 0x05 0 [(0x10, 7)]; judged 0x05 d (judgeOpen d) openState .hold),
      judged 0x07 harvestD (judgeHarvest harvestD)
        { jobState with steps := { jobState.steps with attempts := [{ attempt7 with st := .check }] } } .hold].all id) = true := by
  decide +kernel

/-- The ring of a descriptor turned away moves on, one slot for the descriptor (R349). -/
theorem test_turned_away : gives (.fence (desc 0x0D 0 [(0x3F, 1)])) hosted (fun u =>
    (u.ring 1).head == 1 && u.host.nextId == 41 && (u.emitted.length == 1)) = true := by decide +kernel

/-- Where an image's line in a package is marked as detected, a LOAD_FURROW names bad lines. -/
theorem witness_load_detected :
    let s := { hosted with memory := { hosted.memory with mem := putBytes [] 0x8000000000 pendImage, marks := [0x8000000000] } }
    let d := desc 0x01 0 [(0x10, 0x8000000000), (0x18, 72), (0x1C, 0), (0x20, set5)]
    (acceptedB 0x01 d (judgeLoad d) s && (s.loadBytes d).1.bad != [] && (s.loadBytes d).1.data.length == 72 &&
     ((withImage hosted).loadBytes loadD).1.bad == [] && loadTiles loadD == some [5] && ((loaded hosted).passOf passD).isSome) = true := by
  decide +kernel

theorem witness_data : (!isLogReplay dataD && !hosted.logsData dataD && acceptedB 0x03 dataD (judgeData dataD) openState &&
    openState.logsData dataD && isLogReplay replayD && ((logState true).replayEntry replayD).any (fun e =>
      ((logState true).entryPayload e).isSome && ((logState false).entryPayload e).isNone) &&
    acceptedB 0x03 replayD (judgeReplay replayD) (logState false)) = true := by decide +kernel

/-- A DATA_IN stores its payload (R353). -/
theorem test_data_in : gives (.dataIn dataD) hosted (fun u => bytesAt u.memory.mem 0x4FFF 5 == [0, 1, 2, 3, 0]) = true := by
  decide +kernel

theorem witness_step_open : (!(jobState.tried 7).isSome && (let s := { jobState with steps := { jobState.steps with tried := [(7, 0, 0)] } }
    acceptedB 0x05 openD (judgeOpen openD) s && (s.tried 7).isSome)) = true := by decide +kernel

/-- A STEP_OPEN opens attempt 0 of its step (R283). -/
theorem test_step_open : gives (.stepOpen openD) jobState (fun u =>
    u.steps.attempts.map (fun a => (a.step, a.num, a.st)) == [(7, 0, .openSt)]) = true := by decide +kernel

theorem witness_fence : (hosted.fenceWaits fenceD == [] &&
    (let i : Inflight := { hosted.entryOf outD with id := 39, work := .signal }
     let s := { hosted with host := { hosted.host with inflight := [i] } }
     acceptedB 0x0D fenceD (judgeBare fenceD) s && s.fenceWaits fenceD == [39])) = true := by decide +kernel

theorem witness_cancel :
    let s := { loaded hosted with passes := [{ pass0 with passId := 77 }] }
    (acceptedB 0x0A cancelD (judgeBare cancelD) s && (s.cancels cancelD).length == 1) = true := by decide +kernel

theorem witness_disable : ((List.range 6).all (fun k => let d := disableD k 0 (if k = 0 then 3 else 0)
    acceptedB 0x0E d (judgeDisable d) hosted && !(disableOf d).abort && !hosted.busy (disableOf d)) &&
    (let s := { loaded hosted with passes := [pass0] }
     acceptedB 0x0E (disableD 1 1 5) (judgeDisable (disableD 1 1 5)) s && (disableOf (disableD 1 1 5)).abort)) = true := by decide +kernel

/-! ### Rings -/

theorem witness_doorbells :
    (hosted.stw.good && 1 < Config.numRings && (hosted.ring 1).enable && !(hosted.ring 1).completion && !(hosted.ring 1).stale (2 ^ 20) &&
     (hosted.ring 1).stale (2 ^ 20 + 1) && (hosted.ring 2).completion && !(hosted.ring 2).stale 0 && (hosted.ring 2).stale 1 &&
     (hosted.ring 1).head < 2 ^ 7 && (hosted.ring 1).tail < 2 ^ 7) = true := by decide +kernel

/-- R349: a doorbell that fills the ring of 64 moves the tail, and one slot more is stale and counted. -/
theorem test_doorbell : gives (.submissionDoorbell 1 (2 ^ 20) 8) hosted (fun u => (u.ring 1).tail == 64) = true ∧
    gives (.submissionDoorbell 1 (2 ^ 20 + 1) 8) hosted (fun u =>
      (u.ring 1).tail == 10 && (u.ring 1).staleDb && u.rg .hstDoorbellStale == 1) = true := by decide +kernel

theorem witness_split :
    let s := { hosted with cyc := 1750000, host := { hosted.host with rings := [(1, { subRing with tail := 1, splitTo := 1, splitSince := some 0 }),
                                                                                (2, comRing)] } }
    s.splitDue (desc 0x03 1 []) = true := by decide +kernel

theorem witness_held_release :
    let s := hosted.setRing 1 { hosted.ring 1 with held := some outD }
    ((s.ring 1).held == some outD && outD.ring == 1 && acceptedB 0x04 outD (judgeOut outD) s &&
     (releaseRows outD).any (fun x => x.1 == 0x04 && x.2 s == .accept)) = true := by decide +kernel

theorem witness_read_error : (hosted.mayServe 1 0 && (hosted.ring 1).held.isNone) = true := by decide +kernel

theorem witness_moderation :
    let c := { comRing with modTime := 10, unsignalled := 1, oldest := some 0, vector := 7 }
    let s := { hosted with cyc := 17500, host := { hosted.host with rings := [(2, c)] } }
    (s.stw.mainOn && (s.ring 2).completion && (s.ring 2).enable && (s.ring 2).modTime ≠ 0 && (s.ring 2).unsignalled ≠ 0 &&
     (s.ring 2).oldest == some 0 && 0 + usCycles 10 ≤ s.cyc) = true := by decide +kernel

/-! ### Claims, harvests and restores -/

theorem witness_claim_settle :
    let c : ClaimOp := { prev := 0, record := 0, node := 9, inc := 1, since := 0, desc := 39 }
    let s := { hosted with cyc := 10000000, fab := { hosted.fab with claim := some c } }
    (s.alive && c.since + s.settleTime ≤ s.cyc && harvestDest harvestD ≠ 3 && harvestDest recoveryD == 3) = true := by decide +kernel

/-- A harvest of one source block, copied or not. -/
def harvestState (failed : Bool) (dest : Nat) (copied : Bool) : State :=
  let h : HarvestOp := { desc := 39, version := 0, mirror := false, dest := dest, node := 0, addr := 0, rates := [],
                         segs := [{ kind := 0, mode := 0, base := 0x100000, blocks := 1, imgOff := 0x10000 }], stage2 := false, next := 0,
                         crcs := [], failed := failed, ovf := 0, udf := 0, nonf := 0, start := 0, key := 5, nodeId := 9, inc := 0 }
  { hosted with hrv := { hosted.hrv with op := some h },
                memory := { hosted.memory with mem := if copied then [] else [(0, 1)] } }

theorem witness_block_copy :
    let s := harvestState false 0 false
    let x := { xfer0 with write := true, st := .requested, mpa := 0x100000 }
    let w := { s with gath := { s.gath with xfers := [x] } }
    (s.alive && s.hrv.op.any (fun h => !h.stage2 && s.nextBlock h == some 0 && (segAt h.segs 0).isSome && !s.blockHeld h 0) &&
      w.alive && w.uncopied 0 && w.hrv.op.any (fun h => 0 < sourceBlocks h.segs && (segAt h.segs 0).isSome && !w.blockHeld h 0 &&
        w.waitingWrites.any (fun y => (h.touched y.2.1 y.2.2).contains 0))) = true := by decide +kernel

theorem witness_copied : [(true, 0), (false, 0), (false, 1)].all (fun x =>
    let s := harvestState x.1 x.2 true
    s.alive && s.hrv.op.any (fun h => h.failed == x.1 && h.dest == x.2 && !h.stage2 && s.nextBlock h == none &&
      !s.engineHeld (s.rg .hrvAreaBase) (dataOffset (segsBlocks h.segs)))) = true := by
  decide +kernel

/-- A restore with one candidate, in host memory or in a package. -/
def restoreState (ok : Bool) (group : Option Nat := none) (host : Bool := true) : State :=
  let c : Cand := { step := 3, host := host, addr := if host then 0 else 0x8030000000, len := 2048, ok := ok }
  { hosted with hrv := { hosted.hrv with restore := some { desc := 39, key := 5, cands := [c], group := group, target := 0 } },
                coll := { hosted.coll with groups := [(0, { Group.init with st := .idle })] } }

/-- A harvest of one block in its second stage, at a part of its image. -/
def exportState (phase next : Nat) : State :=
  let s := harvestState false 1 true
  { s with hrv := { s.hrv with op := s.hrv.op.map (fun h => { h with stage2 := true, phase := phase, next := next, crcs := [(0, 0)] }) } }

/-- A part not yet written; the CRC table read back as written, and not; the header with the host failing, and as written. -/
theorem witness_export :
    let ok : State → (HarvestOp → Bool) → Bool := fun s f =>
      s.alive && s.hostUp && s.hrv.op.any (fun h => h.stage2 && h.dest == 1 && !h.failed && f h)
    let back : Nat → List (Nat × Byte) → HarvestOp → Option (List Byte) := fun n host h =>
      if h.part.2 = n then hostBytes host (h.addr + h.part.1) h.part.2 else none
    (ok (exportState 0 1) (fun h => h.phase == 0 && !(exportState 0 1).engineHeld h.part.1 h.part.2) &&
     [(0, true), (1, false)].all (fun x => let s := exportState 1 1
       ok s (fun h => h.phase == 1 && !h.again && !h.atHeader &&
         (back 8 ((1024, x.1) :: (upFrom 1025 7).map (fun a => (a, 0))) h).any (fun b => (crc64 b == s.partCrc h) == x.2))) &&
     ok (exportState 1 2) (fun h => h.phase == 1 && h.atHeader && hostBytes [] (h.addr + h.part.1) h.part.2 == none)) = true := by
  decide +kernel

theorem witness_export_header :
    let s := exportState 1 2
    ∃ h, s.hrv.op = some h ∧ h.atHeader = true ∧ ∀ b, b = s.partBytes h → crc64 b = s.partCrc h := by
  refine ⟨_, rfl, by decide, fun b hb => ?_⟩
  rw [hb]; rfl

/-- Whether a restore can commit its candidate. -/
def commits (s : State) (bad : Bool) (f : RestoreOp → Cand → Bool) : Bool :=
  s.alive && s.hostUp && s.hrv.restore.any (fun r => !s.agreementFailed r && s.agreementDone r && r.cands.all (fun c => !c.ok) == bad &&
    (bad || (s.commonStep r).any (fun c => !s.stageHeld c && f r c)))

/-- A candidate in a package whose manifest names the blocks that the bytes say. -/
def imageState (bytes : List (Nat × Byte)) : State :=
  let s := restoreState true none false
  { s with memory := { s.memory with mem := bytes } }

/-- What the staging of a candidate ends with. -/
def staged (s : State) (c : Cand) : Option (State × Option Bool) :=
  (s.candManifest [] c).map (fun m =>
    let n := segsBlocks m.2.1
    let s0 := s.setRg .hrvProgress (n * 2 ^ 32)
    stageBlocks [] c m.2.2 m.2.1 (List.range n) (enginePut (s0.rg .hrvStageBase) (m.1 ++ m.2.2) s0))

theorem witness_restore_commit : (commits (restoreState false) true (fun _ _ => true) &&
    commits (restoreState true) false (fun _ c => ((restoreState true).candManifest [] c).isNone)) = true := by decide +kernel

theorem witness_restore_staged : (commits (imageState []) false (fun _ c => (staged (imageState []) c).any (fun y =>
    y.2 == some true && ({ y.1 with hrv := { y.1.hrv with restore := none } } : State).mayStart))) = true := by decide +kernel

/-- The same while a job runs. -/
theorem witness_restore_not_started :
    let s := { imageState [] with steps := { (imageState []).steps with job := true } }
    (commits s false (fun _ c => (staged s c).any (fun y => y.2 == some true &&
      !({ y.1 with hrv := { y.1.hrv with restore := none } } : State).mayStart))) = true := by decide +kernel

/-- A candidate in host memory that can be read no further than its manifest. -/
theorem witness_restore_stage_fails :
    let c : Cand := { step := 3, host := true, addr := 0, len := 2048, ok := true }
    let g : HSeg := { kind := 0, mode := 2, base := 0, blocks := 1, imgOff := 2048 }
    (hosted.hostUp && (stageBlocks [(0, 1)] c [] [g] [0] hosted).2 == none) = true := by decide +kernel

/-- A RESTORE whose candidate can be read, and one whose host memory cannot. -/
theorem witness_restore_reads :
    let cs := (restoreCands (desc 0x08 1 [(0x10, 99), (0x18, 1)]
      (leBytes 8 (3 + 2 ^ 40) ++ leBytes 8 0x8030000000 ++ leBytes 8 2048 ++ leBytes 8 0))).filterMap id
    ((restoreCands restoreD).filterMap id).any (fun c => c.host && (hosted.verifies 99 [] c).isNone) = true ∧
    cs.any (fun c => !c.host && (hosted.verifies 99 [] c).isSome) = true := by decide +kernel

theorem witness_restore_unstaged :
    let s := imageState [(0x8030000006, 1), (0x8030000100, 1), (0x8030000104, 2)]
    commits s false (fun _ c => (staged s c).any (fun y => y.2 == some false)) = true := by decide +kernel

/-- A restore of a group no slot of whose agreement is 1.0. -/
theorem witness_no_common_step :
    let s := restoreState true (some 0)
    (s.alive && s.hrv.restore.any (fun r => !s.agreementFailed r && s.agreementDone r && !r.cands.all (fun c => !c.ok) &&
      s.commonStep r == none)) = true := by decide +kernel

theorem witness_host_inv : HostInv openState := hostInv_of _ (by decide +kernel)

/-! ## Memories -/

/-- A live module with one memory in a state. -/
def memState (p : Nat) (d : Device) : State := { live with memory := { live.memory with dev := [(p, d)] } }

theorem witness_host_write : HostWrite live := by decide +kernel

theorem witness_training :
    let ok : Nat → Device → Option Nat → (State → Bool) → Bool := fun p d r f =>
      let s := memState p d
      let s := { s with stw := { s.stw with nv := { s.stw.nv with pcRetired := (r.map (fun c => (p, c))).toList } } }
      s.alive && p < 28 && f s
    (ok 0 { Device.init with st := .training } none (fun s => (s.dev 0).st = .training && sfind s.stw.nv.pcRetired 0 == none) &&
     ok 11 { Device.init with st := .training } (some 4) (fun s => !(s.dev 11).kept && sfind s.stw.nv.pcRetired 11 == some 4) &&
     ok 27 { Device.init with st := .training, kept := true } none (fun s => (s.dev 27).kept) &&
     ok 12 { Device.init with st := .training } none (fun s => (s.dev 12).st = .training && !(s.dev 12).kept) &&
     ok 12 { Device.init with st := .initialising } none (fun s => (s.dev 12).st = .initialising)) = true := by decide +kernel

theorem witness_self_refresh :
    let s := { memState 3 { Device.init with st := .ready, quietAt := some 0 } with cyc := 175000 }
    (s.alive && (s.dev 3).quietAt == some 0 && 0 + usCycles 100 ≤ s.cyc && (s.dev 3).st = .ready && (s.dev 3).queue == [] && (s.dev 3).paused == [] && !s.demanded 3 && s.memory.asm == [] &&
     (s.dev 3).resow ≠ .running && (List.range 64).all (fun e => !(s.range 3 e).busy)) = true := by decide +kernel

/-- Training starts on the untrained stacks of the mask alone (R202). -/
theorem test_train : gives (.memTrainStacks 0x003) (memState 1 { Device.init with st := .ready }) (fun u =>
    (u.dev 0).st = .training && (u.dev 1).st = .ready && (u.dev 2).st = .untrained) = true := by decide +kernel

/-- Entry e of stack 0's range table: 64 MiB from base, class W. -/
def rangeState (word : Nat) : State := (memState 0 { Device.init with st := .ready }).setRg .memRangeCfg word 0 63

theorem witness_ranges : (!((rangeState 0).range 0 63).on && !(rangeState 0).rangeOk 0 63 &&
    !((rangeState (2 ^ 16 + 2 ^ 33)).range 0 63).on && (rangeState (2 ^ 16 + 2 ^ 33)).rangeOk 0 63 &&
    ((rangeState (2 ^ 16 + 2 ^ 33)).range 0 63).cls ≠ 0 && ((rangeState (2 ^ 16 + 2 ^ 40)).range 0 63).on &&
    ((rangeState 0).dev 0).serves && (dropSplit (rangeState 0)).rg .memRangeCfg 0 63 == 0) = true := by decide +kernel

/-- A protected range is enabled and initialises (R184). -/
theorem test_range_enable : gives (.rangeEnable 0 63) (rangeState (2 ^ 16 + 2 ^ 33)) (fun u =>
    (u.range 0 63).on && (u.range 0 63).busy && u.rg .memRangeCfg 0 63 == 2 ^ 16 + 2 ^ 33 + 2 ^ 40 + 2 ^ 41) = true := by decide +kernel

/-- Window 63 of stack 0, 64 by 64 elements of 2 bytes, at 0 and 0x10000. -/
def windowState (on : Bool) : State :=
  let s := memState 0 { Device.init with st := .ready }
  let s := ((s.setRg .memXpwColbase 0x10000 0 63).setRg .memXpwGeom (1 + 2 ^ 16 + 2 ^ 32) 0 63).setRg .memXpwPitch (2 + 2 * 2 ^ 32) 0 63
  s.setRg .memXpwCtl (if on then 1 else 0) 0 63

theorem witness_windows : (!((windowState false).xwin 0 63).on && (windowState false).windowOk 0 63 &&
    !((memState 0 Device.init).xwin 0 63).on && !(memState 0 Device.init).windowOk 0 63 && ((windowState true).xwin 0 63).on &&
    (dropSplit (windowState true)).memory.asm == []) = true := by decide +kernel

/-- A window with an assembly buffer in use. -/
theorem test_window_disable :
    let b : AsmBuf := { stack := 0, window := 63, i := 0, j := 0, pass := 0, elems := [], acks := [] }
    gives (.windowDisable 0 63) { windowState true with memory := { (windowState true).memory with asm := [b, { b with window := 5 }] } }
      (fun u => u.memory.asm == [{ b with window := 5 }] && !(u.xwin 0 63).on) = true := by decide +kernel

theorem witness_retraining :
    let s := memState 0 { Device.init with st := .ready }
    let w := memState 27 { Device.init with st := .ready }
    let hot := memState 0 { Device.init with st := .ready, temp := 58, trainTemp := [(31, 50)] }
    (s.mayRetrain 0 31 && w.mayRetrain 27 3 && hot.mayRetrain 0 31 && hot.drifted 0 31 && !s.drifted 0 31 && !(memState 0 Device.init).mayRetrain 0 31) = true := by decide +kernel

/-- A channel in retraining with some failures behind it, and another retired or not. -/
def retrainState (p fails : Nat) (retired : Option Nat) : State :=
  { memState p { Device.init with st := .ready, paused := [2], retrainAt := [(2, 100)], fails := [(2, fails)], retired := retired } with
    cyc := 3600 }

theorem witness_retraining_timeout : [(0, 1, none), (0, 2, none), (0, 2, some 2), (0, 2, some 3), (12, 2, none)].all
    (fun (x : Nat × Nat × Option Nat) =>
      let s := retrainState x.1 x.2.1 x.2.2
      s.alive && x.1 < 28 && (s.dev x.1).paused.contains 2 && sfind (s.dev x.1).retrainAt 2 == some 100 && 100 + 3500 ≤ s.cyc &&
      s.cyc ≤ 101 + 3500 &&
      sget 0 (s.dev x.1).fails 2 == x.2.1 && (s.dev x.1).retired == x.2.2) = true := by decide +kernel

/-- The third failure of a package's channel is a module fault (R193). -/
theorem test_retraining_timeout : gives (.retrainingTimeout 12 2) (retrainState 12 2 none) (fun u =>
    u.stw.fault == some (.failedDevice 12) && (u.dev 12).st = .failed) = true := by decide +kernel

theorem witness_host_retire : [none, some 4, some 5].all (fun r =>
    (decide (HostWrite (memState 0 { Device.init with st := .ready, retired := r }))) &&
    ((memState 0 { Device.init with st := .ready, retired := r }).dev 0).st ≠ .failed) = true := by
  decide +kernel

theorem witness_resow_go : [0, 2 ^ 16 * 384 + 2 ^ 40].all (fun w =>
    let s := (memState 0 { Device.init with st := .ready, resow := .awaiting }).setRg .memRangeCfg w 0 0
    decide (HostWrite s) && (s.dev 0).resow = .awaiting && (dropSplit s).reachesTop 0 == (w != 0)) = true ∧
    (dropSplit (memState 0 { Device.init with st := .ready })).reachesTop 0 = false ∧
    ((memState 0 { Device.init with st := .ready }).dev 0).resow ≠ .awaiting := by decide +kernel

theorem witness_resow_move : [1024, 1025].all (fun w =>
    let s := memState 0 { Device.init with st := .ready, resow := .running, wmark := w, retired := some 0, retiredFailed := true }
    s.alive && (s.dev 0).resow = .running && (s.dev 0).serves && (s.dev 0).wmark == w) = true := by decide +kernel

theorem witness_scrub : [[], [0x8000000000]].all (fun m =>
    let s := memState 12 { Device.init with st := .ready }
    let s := { s with memory := { s.memory with marks := m } }
    s.alive && s.rgBits .memScrubCfg 0 8 ≠ 0 && (mpaWindow 0x8000000000).map (·.1) == some 12 && (s.dev 12).serves &&
    !s.isHole 0x8000000000 && s.mpaClass 0x8000000000 = 2 && s.lineDetected 0x8000000000 == (m != []) &&
    (s.setRg .memRetireThr 0).rgBits .memRetireThr 0 16 == 0) = true := by decide +kernel

theorem witness_levels : [(Level.normal, 84), (.normal, 85), (.warm, 95), (.hot, 92), (.hot, 105)].all (fun x =>
    let s := memState 0 { Device.init with st := .ready, level := x.1 }
    s.alive && (s.dev 0).serves && s.aon % 2500 = 0 && (s.dev 0).level == x.1 &&
    s.coll.ending.isNone && !s.collSending) = true := by decide +kernel

/-- R199's thresholds, each from below and from above. -/
theorem test_levels : ([(Level.normal, 84), (.normal, 85), (.normal, 94), (.normal, 95), (.normal, 104), (.normal, 105), (.warm, 83), (.warm, 82),
    (.hot, 93), (.hot, 92), (.hot, 82)].map (fun x => levelAfter x.1 x.2)) =
    [.normal, .warm, .warm, .hot, .hot, .critical, .warm, .normal, .hot, .warm, .normal] := by decide +kernel

theorem witness_restate : [0, 1].all (fun h =>
    let s := { memState 0 { Device.init with st := .ready, level := .hot, holdoff := h, hotAt := 0 } with cyc := 25000 * 70 }
    s.alive && (s.dev 0).level == .hot && s.aon % 2500 == 0 && s.aon != (s.dev 0).hotAt && (s.aon / 2500 - 0) % 10 == 0 &&
    (s.hotDelay 0 * 10 ≤ (s.dev 0).holdoff * 11)) = true := by decide +kernel

/-- With requests outstanding the hot delay has grown. -/
theorem witness_restate_grown :
    let s := { memState 0 { Device.init with st := .ready, level := .hot, holdoff := 0, hotAt := 0 } with
      cyc := 25000 * 70, passes := [{ pass0 with demand := [{ p := 0, rd := 100000, wr := 0 }] }] }
    (s.alive && s.hotDelay 0 * 10 > (s.dev 0).holdoff * 11) = true := by decide +kernel

/-! ## Ports, flits and packets -/

/-- A packet of a type from node 5, incarnation 1, to node 3. -/
def pkt (type : Nat) (spec : List (Nat × Nat × Nat)) (payload : List Byte := []) : Packet :=
  { type := type, flags := (laneOf type).getD 0 + 12, dst := 3, src := 5, xid := 7, idx := 0, hop := 0, inc := 1, addr := 0x40,
    spec := specBytes spec, payload := payload, tally := 0, sigInc := 0 }

/-- The same with a signal for tally 8. -/
def withSig (p : Packet) (inc : Nat) : Packet := { p with flags := p.flags + 16, tally := 8, sigInc := inc }

/-- A port that is up. -/
def upPort : Port :=
  { Port.init with st := .up, locked := true, credits := [100, 100, 100, 100], reqCred := 1, granted := [8, 8, 8, 8], grantReq := 1 }

/-- Node 3, incarnation 1, with one port as given. -/
def portState (k : Nat) (p : Port) : State :=
  let s := (withMem live).setRg .fabNodeId (3 + 2 ^ 16)
  { s with cyc := 2000000000, gath := { s.gath with enable := 0xFFFFFFFFFFFF#48 },
           fab := { s.fab with ports := [(k, p)], incarn := [(5, 1)] } }

/-- The same with a packet at the head of its lane on port 17. -/
def arrived (p : Packet) : State :=
  portState 17 (upPort.setLane ((laneOf p.type).getD 0) (packetFlits ((laneOf p.type).getD 0) 0 p.bytes))

/-- The same where the packet's CRC-32 is left at zero: it has been checked when the packet came. -/
def arrivedRaw (p : Packet) : State :=
  let vl := (laneOf p.type).getD 0
  portState 17 (upPort.setLane vl (packetFlits vl 0 (p.header ++ p.payload ++ List.replicate 16 0)))

/-- A state whose fabric holds transfers. -/
def withFab (f : Fabric → Fabric) (s : State) : State := { s with fab := f s.fab }

/-- Whether a port has received a packet of a type of which more holds, with the state that has taken it. -/
def recv (s : State) (port type : Nat) (f : Packet → State → Bool := fun _ _ => true) : Bool :=
  (s.headPacket port type).any (fun x =>
    let v := takePacket port x.1 x.2 s
    !(isNode x.2.src && newer (s.incOf x.2.src) x.2.inc) && !(isNode x.2.src && newer x.2.inc (v.incOf x.2.src)) && v.alive && f x.2 v)

theorem received_of (s : State) (port type : Nat) (f : Packet → State → Bool) (h : recv s port type f = true) :
    ∃ p v, Received s port type p v ∧ f p v = true := by
  simp only [recv, Option.any_eq_true, Bool.and_eq_true, Bool.not_eq_true'] at h
  obtain ⟨⟨n, p⟩, hh, ⟨⟨h1, h2⟩, h3⟩, h4⟩ := h
  exact ⟨p, _, ⟨n, hh, h1, rfl, h2, h3⟩, h4⟩

/-- The bytes of a packet whose every field is at its largest, and of one with no payload. -/
theorem witness_packet_fits :
    Fits { type := 255, flags := 255, dst := 65535, src := 65535, xid := 4294967295, idx := 65535, hop := 255, inc := 255,
           addr := 2 ^ 48 - 1, spec := List.replicate 10 255, payload := List.replicate 8 255, tally := 65535, sigInc := 65535 } ∧
    Fits (pkt 0x30 []) := by unfold Fits; decide +kernel

theorem witness_packet_whole : headOf (packetFlits 2 (2 ^ 24 - 1) (pkt 0x30 []).bytes) = .whole 1 (pkt 0x30 []) ∧
    headOf (packetFlits 0 5 (pkt 0x01 [] (List.replicate 10 7)).bytes) = .whole 2 (pkt 0x01 [] (List.replicate 10 7)) := by decide +kernel

/-- The manual's flit counts: 128 payload bytes make 4 flits, 4,096 make 74 (R257). -/
theorem test_flit_counts : flitCount 64 = 2 ∧ flitCount 128 = 4 ∧ flitCount 4096 = 74 := by decide

theorem witness_lock : [(0, PortSt.training), (17, .downHeld), (17, .downReleased)].all (fun x =>
    let s := portState x.1 { Port.init with st := x.2 }
    s.alive && (s.port x.1).st ≠ .disabled && (s.port x.1).st ≠ .up) = true := by decide +kernel

/-- A link-control flit: flags, NAK number, credits, request credits, node, incarnation. -/
def control (ack flags nak : Nat) (cr : List Nat) (node inc : Nat) : BitVec 512 :=
  mkFlit 0 0 ack (leBytes 1 flags ++ leBytes 3 nak ++ cr.flatMap (leBytes 2) ++ leBytes 2 9 ++ leBytes 2 node ++ leBytes 1 inc)

def replay0 (seq type : Nat) : ReplayFlit := { seq := seq, flit := 77, type := type, xid := 7, node := 5 }

theorem witness_control :
    let t := portState 17 { Port.init with st := .training, locked := true }
    let u := portState 0 { upPort with replay := [replay0 3 1, replay0 4 1] }
    let hello := control 0xFFFFFF 12 0 [1024, 512, 256, 512] 5 1
    let nak := control 3 1 4 [1, 2, 3, 4] 0 0
    (t.alive && u.alive && (t.port 17).locked && flitOk hello && flitKind hello = 0 && !(numIn (flitBytes hello) 8 1).testBit 1 &&
     (numIn (flitBytes hello) 8 1).testBit 2 && !(isNode 5 && newer 1 (t.incOf 5)) && t.host.inflight == [] &&
     flitOk nak && !(numIn (flitBytes nak) 8 1).testBit 2 && (numIn (flitBytes nak) 8 1).testBit 0 &&
     !flitOk (nak ^^^ 1) && unacked 3 (u.port 0).replay == [replay0 4 1]) = true := by decide +kernel

/-- A hello brings a training port up with its partner and credits (R252, R254, R268). -/
theorem test_hello : gives (.linkControlReceive 17 (control 0xFFFFFF 12 0 [1024, 512, 256, 512] 5 1))
    (portState 17 { Port.init with st := .training, locked := true })
    (fun u => (u.port 17).st = .up && (u.port 17).partner = 5 && (u.port 17).credits == [1024, 512, 256, 512]) = true := by decide +kernel

theorem witness_flits :
    let s := portState 17 { upPort with expected := 5 }
    let f : Nat → BitVec 512 := fun seq => mkFlit 1 2 seq (pkt 0x30 []).bytes
    (s.alive && (s.port 17).st = .up && (s.port 17).rx.length == 4 && flitOk (f 5) && flitKind (f 5) = 1 && flitSeq (f 5) = 5 &&
     flitRsvOk (f 5) && nth (s.port 17).granted 2 ≠ 0 && (s.port 17).rxCount + 1 < 64 && headOf [f 5] == .whole 1 (pkt 0x30 []) && (s.packetFault 2 (flitBodies [f 5]) (pkt 0x30 [])).isNone &&
     headOf [mkFlit 1 0 5 (pkt 0x01 [] (List.replicate 10 7)).bytes] == .partial_ && !flitOk (f 5 ^^^ 1) &&
     [(6, 1), (5 + 2 ^ 23 - 1, 2 ^ 23 - 1), (5 + 2 ^ 23, 2 ^ 23), (4, 2 ^ 24 - 1)].all (fun x =>
       flitOk (f x.1) && flitKind (f x.1) = 1 && (flitSeq (f x.1) + 2 ^ 24 - 5) % 2 ^ 24 = x.2)) = true := by decide +kernel

/-- A read request of one flit, and the 64th flit since the last acknowledgement, in its place or not. -/
theorem witness_flit_request :
    let p := pkt 0x02 [(22, 2, 64)]
    let f := mkFlit 1 2 5 p.bytes
    let s := portState 17 { upPort with expected := 5 }
    let late := portState 17 { upPort with expected := 5, rxCount := 63 }
    (headOf [f] == .whole 1 p && (s.packetFault 2 (flitBodies [f]) p).isNone && flitOk f && (s.port 17).grantReq ≠ 0 &&
     (s.port 17).rx.length == 4 && nth (s.port 17).granted 2 ≠ 0 && flitRsvOk f && late.alive && (late.port 17).st = .up &&
     (late.port 17).locked && 64 ≤ (late.port 17).rxCount + 1) = true := by decide +kernel

/-- The 64th packet flit is acknowledged at once (R255). -/
theorem test_flit_acked : gives (.flitReceive 17 (mkFlit 1 2 5 (pkt 0x30 []).bytes))
    (portState 17 { upPort with expected := 5, rxCount := 63 }) (fun u => (u.port 17).rxCount == 0 && u.emitted.length == 1) = true := by
  decide +kernel

/-- A flit in its place is taken; the one before it is a duplicate (R255). -/
theorem test_flit_place : [(5, 1, 0), (4, 0, 1)].all (fun x =>
    gives (.flitReceive 17 (mkFlit 1 2 x.1 (pkt 0x30 []).bytes)) (portState 17 { upPort with expected := 5 }) (fun u =>
      u.rg .fabPortFlitsRx 17 == x.2.1 && u.rg .fabPortDups 17 == x.2.2 && ((u.port 17).lane 2).length == x.2.1)) = true := by
  decide +kernel

/-- A queued packet. -/
def outp (p : Packet) (req : Bool) : OutPacket :=
  { bytes := p.bytes, vl := (laneOf p.type).getD 0, req := req, xid := p.xid, node := p.dst, after := [] }

theorem witness_transmit :
    let o := outp (pkt 0x02 [(22, 2, 64)]) true
    let s := portState 0 { upPort with credits := [0, 0, 1, 0], txq := [o], replay := List.replicate 3 (replay0 1 1) }
    let none := portState 0 { upPort with credits := [0, 0, 0, 0], txq := [o] }
    let part := portState 0 { upPort with rest := some (o, [replay0 2 2]) }
    (s.alive && (s.port 0).st = .up && s.fab.acks == [] && (releaseAcks s).nextPacket 0 == some o && ((releaseAcks s).port 0).rest.isNone &&
     s.nodeId ≠ 0 && (s.port 0).replay.length < 4096 && s.coll.ending.isNone &&
     none.nextPacket 0 == none.nextPacket 1 && ((releaseAcks none).nextPacket 0).isNone && (none.port 0).rest.isNone &&
     (part.port 0).rest.isSome && part.alive && part.nodeId ≠ 0 && (part.port 0).replay.length < 4096) = true := by
  decide +kernel

/-- A packet of two flits of which the replay buffer takes one goes on when there is room again (R255). -/
theorem test_transmit_part :
    let o := outp (pkt 0x01 [] (List.replicate 10 7)) false
    let s := portState 0 { upPort with txq := [o], replay := List.replicate 4095 (replay0 1 1) }
    gives (.packetTransmit 0) s (fun u => (u.port 0).rest.any (fun x => x.2.length == 1) && u.emitted.length == 1) = true := by
  decide +kernel

theorem witness_resend :
    let s := portState 0 { upPort with replay := [replay0 3 1], lastAck := 2000000000 - 17500 }
    (s.alive && (s.port 0).st = .up && (s.port 0).replay ≠ [] && (s.port 0).lastAck + 17500 ≤ s.cyc) = true := by decide +kernel

theorem witness_down : [(PortSt.up, 0), (.training, 17)].all (fun x =>
    let s := portState x.2 { Port.init with st := x.1, lastRx := 2000000000 - 1750000 }
    s.alive && (s.port x.2).st = x.1 && (s.port x.2).lastRx + 1750000 ≤ s.cyc && s.hostWrites && s.stw.fault.isNone) = true ∧
    max 1 ((portState 0 upPort).rgBits .fabCfg 8 8) < 33 ∧ 1 ≤ max 1 ((portState 0 upPort).rgBits .fabCfg 8 8) := by decide +kernel

/-- A lock lost takes the port down and counts a retraining (R267). -/
theorem test_lock_loss : gives (.pcsLockLoss 17) (portState 17 upPort) (fun u => (u.port 17).st = .downHeld && (u.port 17).cause = 1 &&
    u.rg .fabPortRetrains 17 == 1) = true := by decide +kernel

theorem witness_retry : [PortSt.downHeld, .downReleased].all (fun x =>
    let s := portState 17 { Port.init with st := x, downAt := 2000000000 - 1750000000 }
    s.alive && (s.port 17).st = x && (s.port 17).downAt + 1750000000 ≤ s.cyc) = true := by decide +kernel

/-- A transfer of this module to node 5, and one of node 5 to it. -/
def out0 : OutXfer :=
  { xid := 7, node := 5, vl := 0, port := 17, packets := 1, acked := 0, lo := 0, hi := 64, ordered := true, purpose := .sig,
    since := 0, extend := 0 }
def in0 (read : Bool) : InXfer :=
  { src := 5, xid := 7, vl := 0, port := 17, next := 1, got := 0, last := 0, extend := 0, stalled := false, tracked := true,
    reads := if read then [0] else [] }

theorem witness_release :
    let s := withFab (fun f => { f with out := [out0], inn := [in0 true] })
      (portState 17 { Port.init with st := .downHeld, downAt := 2000000000 - 437500000, replay := [replay0 1 1, replay0 2 2] })
    (s.alive && (s.port 17).st = .downHeld && (s.port 17).downAt + 437500000 ≤ s.cyc && s.host.inflight == [] &&
     s.replayed 17 == [out0] && s.replayedReads 17 == [in0 true]) = true := by decide +kernel

theorem witness_timeouts :
    let s := { withFab (fun f => { f with inn := [in0 false], out := [out0] }) (portState 17 upPort) with cyc := 10 ^ 11 }
    let now : State → State := fun s => { s with cyc := s.abandonTime - 1 }
    let routeless := withFab (fun f => { f with inn := [] }) s
    (s.alive && s.fab.inn[0]? == some (in0 false) && 0 + s.stallTime ≤ s.cyc && 0 + s.abandonTime ≤ s.cyc &&
     0 < (now s).cyc && (now s).cyc < 0 + (now s).abandonTime + usCycles 0 && s.fab.inn[1]?.isNone && s.fab.out[1 - 1]? == some out0 &&
     routeless.routeLost 5 0 && !(now routeless).routeLost 5 0 && out0.waits == [] &&
     (let o := { out0 with waits := [(0, 0)] }; o.waits.any (fun w => w.2 + s.abandonTime + usCycles 0 ≤ s.cyc)) &&
     (in0 true).isRead && !({ in0 true with opened := false } : InXfer).opened) = true := by
  decide +kernel

theorem witness_node_id : (portState 17 upPort).anyPort = true ∧ (portState 17 Port.init).anyPort = false ∧
    HostWrite (portState 17 upPort) ∧ HostWrite (portState 17 Port.init) := by decide +kernel

/-! ## Packets received -/

/-- One packet of each type of the commands that receive packets, and of an older incarnation the same. -/
theorem witness_packet_rows : packetRows.all (fun row =>
    let n := { pkt row.2 [] with idx := 0 }
    let s := arrived n
    recv s 17 row.2 && (live.headPacket 17 row.2).isNone &&
    ((withFab (fun f => { f with incarn := [(5, 2)] }) s).headPacket 17 row.2).any (fun x =>
      isNode x.2.src && newer 2 x.2.inc) &&
    ((s.port 17).lane ((laneOf row.2).getD 0)).drop (packetFlits 0 0 n.bytes).length == [] && (s.port 17).rx.length == 4) = true := by
  decide +kernel

theorem witness_signal_new : ((arrived { pkt 0x05 [] with inc := 2 }).headPacket 17 0x05).any (fun x =>
    let s := arrived { pkt 0x05 [] with inc := 2 }
    !(isNode x.2.src && newer (s.incOf x.2.src) x.2.inc) && newer x.2.inc ((takePacket 17 x.1 x.2 s).incOf 5)) = true := by decide +kernel

/-- A WRITE of 10 bytes with one line detected. -/
def writeP (addr mask : Nat) : Packet := { pkt 0x01 [(23, 8, mask)] (List.replicate 10 7) with addr := addr }

theorem witness_write : [(0x40, 0, true), (0x8000000040, 1, true), (0x700000000000, 0, false)].all (fun x =>
    recv (arrived (writeP x.1 x.2.1)) 17 0x01 (fun p v => !writeHold p (arrived (writeP x.1 x.2.1)) &&
      (match trackIn 17 p v with
       | .ok w => w.mpaOk p.addr p.payload.length == x.2.2 && !w.logsWrite p && (p.mask = 0 || w.mpaClass p.addr ≠ 0) && p.mask == x.2.1 &&
         plainB w
       | _ => false))) = true := by decide +kernel

/-- The write lands with its detected line marked, and its acknowledgement waits for a port (R261). -/
theorem test_write : gives (.write 17) (arrived (writeP 0x8000000040 1)) (fun u => byteAt u.memory.mem 0x8000000049 == 7#8 && u.memory.marks == [0x8000000040] &&
    (List.range 19).any (fun q => (u.port q).txq.any (fun o => o.type == 0x04 && o.xid == 7))) = true := by decide +kernel

/-- A read request in an entry of port 17, of a length. -/
def requested (n : Nat) : State :=
  let p := { pkt 0x02 [(22, 2, n)] with addr := 0x40 }
  portState 17 { upPort with reqs := [p.bytes] }

theorem witness_read_req : [(64, true), (4096, true), (63, false)].all (fun x =>
    let s := requested x.1
    (s.nextRequest 17 (s.port 17).reqs []).any (fun b =>
      let p := parsePacket b
      let v := s.updPort 17 (fun q => { q with reqs := q.reqs.erase b })
      !(isNode p.src && newer (s.incOf p.src) p.inc) && !(isNode p.src && newer p.inc (s.incOf p.src)) && readLenOk p.readLen == x.2 &&
      (payRemote p.addr p.readLen (noteRead p.addr p.readLen 3 v.oldestStep v)).stw.fault.isNone) && s.alive &&
    ((portState 17 upPort).nextRequest 17 ((portState 17 upPort).port 17).reqs []).isNone &&
    (let y := withFab (fun f => { f with incarn := [(5, 2)] }) s
     (y.nextRequest 17 (y.port 17).reqs []).any (fun b => isNode (parsePacket b).src && newer 2 (parsePacket b).inc))) = true := by
  decide +kernel

/-- The request leaves its entry and its credit goes back with the response (R256, R261). -/
theorem test_read_req : gives (.readReq 17) (requested 64) (fun u => (u.port 17).reqs == [] &&
    (List.range 19).any (fun q => (u.port q).txq.any (fun o => o.type == 0x03 && o.credit == some 17))) = true := by decide +kernel

/-- A read of node 5 that a tile awaits. -/
def readState (p : Packet) (pending : Bool) : State :=
  let s := arrived p
  let x := { xfer0 with node := 5, st := .requested, block := some (7, 0) }
  if pending then { s with passes := [pass0], nextPass := 1, gath := { s.gath with xfers := [x], nextId := 10 },
                           tiles := [(5, { Tile.init with seqs := [seq0], running := some 0 })],
                           fab := { s.fab with inn := [in0 true] } } else s

theorem witness_read_resp : [0, 2].all (fun st =>
    let p := pkt 0x03 [(22, 1, st)] (List.replicate 8 9)
    recv (readState p true) 17 0x03 (fun q v => !v.fab.cancelled.contains (5, 7) && v.readOf 5 7 == some (in0 true) && q.idx = 0 &&
      (v.readParts 5 7 0).length = 1 && q.specNum 22 1 = st && q.last && (v.pass? 0).any (fun q => q.ending.isNone)) &&
    recv (readState p false) 17 0x03 (fun _ v => !v.fab.cancelled.contains (5, 7) && (v.readOf 5 7).isNone)) = true := by decide +kernel

/-- A part of an export that is read back. -/
theorem witness_read_back :
    let s := readState (pkt 0x03 [] (List.replicate 8 9)) true
    let s := { withFab (fun f => { f with inn := [{ in0 true with back := true }] }) s with hrv := (exportState 1 1).hrv }
    recv s 17 0x03 (fun q v => !v.fab.cancelled.contains (5, 7) && (v.readOf 5 7).any (fun i => i.back && q.idx = i.got) &&
      q.specNum 22 1 ≠ 2 && v.hrv.op.isSome) = true := by decide +kernel

theorem witness_write_ack : [1, 2].all (fun n =>
    let s := arrived (pkt 0x04 [])
    let o := { out0 with packets := n }
    recv (withFab (fun f => { f with out := [o] }) s) 17 0x04 (fun p v =>
      v.fab.out.find? (fun o => o.node == p.src && o.xid == p.xid) == some o && p.specNum 22 1 ≠ 2 &&
      decide (o.packets ≤ o.acked + 1) == decide (n = 1) && !v.waitsFor o.node o.xid && o.purpose ≠ .export_) &&
    recv s 17 0x04 (fun p v => (v.fab.out.find? (fun o => o.node == p.src && o.xid == p.xid)).isNone)) = true := by decide +kernel

theorem witness_signals : [0x05, 0x06].all (fun t =>
    let s := withFab (fun f => { f with inn := [in0 false] }) (arrived (withSig (pkt t []) 0xFFFF))
    recv s 17 t (fun p v => p.hasSig && !(v.mtally 8).gate && !((v.mtally 8).count + 0xFFFF - (v.mtally 8).ref).msb)) = true ∧
    recv { arrived (withSig (pkt 0x06 []) 1) with sync := { live.sync with mtal := [(8, { Tally.init with count := 0x7FFFFFFF })] } } 17 0x06
      (fun p v => ((v.mtally p.tally).count + BitVec.ofNat 32 p.sigInc - (v.mtally p.tally).ref).msb) = true ∧
    recv { arrived (withSig (pkt 0x06 []) 1) with sync := { live.sync with mtal := [(8, { Tally.init with gate := true })] } } 17 0x06
      (fun p v => (v.mtally p.tally).gate && (v.mtally p.tally).count == 0) = true := by decide +kernel

theorem witness_cancel_packets :
    let o := { outp { pkt 0x03 [] with dst := 5 } false with credit := some 0 }
    let s := arrived (pkt 0x30 [])
    recv (s.updPort 17 (fun q => { q with txq := [o] })) 17 0x30 (fun _ v => (v.port 17).txq.all (fun o => o.answers 5 7)) = true ∧
    recv (readState (pkt 0x31 []) true) 17 0x31 (fun _ v => (v.readParts 5 7 0).length = 1) = true := by decide +kernel

theorem witness_holdoff :
    let s := withFab (fun f => { f with inn := [in0 false], out := [out0], holdoffs := [{ node := 5, stack := 2, episode := 3, delay := 10 }] })
      (arrived (pkt 0x32 [(22, 4, 10), (26, 1, 2), (27, 1, 3)]))
    recv s 17 0x32 (fun p v => p.specNum 22 4 ≤ v.lastDelay 5 (p.specNum 26 1) (p.specNum 27 1)) = true ∧
    recv (arrived (pkt 0x32 [(22, 4, 11), (26, 1, 2), (27, 1, 3)])) 17 0x32
      (fun p v => v.lastDelay 5 (p.specNum 26 1) (p.specNum 27 1) < p.specNum 22 4) = true := by decide +kernel

/-- The increase of a HOLDOFF moves the timeouts of transfers with its source (R270, R277). -/
theorem test_holdoff : gives (.holdoff 17)
    (withFab (fun f => { f with out := [out0], holdoffs := [{ node := 5, stack := 2, episode := 3, delay := 10 }] })
      (arrived (pkt 0x32 [(22, 4, 25), (26, 1, 2), (27, 1, 3)])))
    (fun u => u.fab.out.map (·.extend) == [15]) = true := by decide +kernel

theorem witness_abandons : [0x35, 0x34].all (fun t =>
    recv (withFab (fun f => { f with out := [out0] }) (arrived (pkt t []))) 17 t
      (fun p v => v.fab.out.find? (fun o => o.node == p.src && o.xid == p.xid) == some out0)) = true ∧
    recv (withFab (fun f => { f with inn := [in0 false] }) (arrived (pkt 0x34 []))) 17 0x34 (fun p v =>
      v.fab.out == [] && (v.readOf p.src p.xid).isNone && (v.openOf p).isSome) = true ∧
    recv ((arrived (pkt 0x34 [])).updPort 17 (fun q => { q with txq := [{ outp { pkt 0x03 [] with dst := 5 } false with credit := some 0 }] }))
      17 0x34 (fun p v => v.fab.out == [] && (v.readOf p.src p.xid).isNone && (v.openOf p).isNone && v.serves p.src p.xid) = true := by
  decide +kernel

theorem witness_claims : [(1, true), (0, false), (255, false)].all (fun x =>
    let s := arrived (pkt 0x38 [(22, 2, 9), (24, 1, x.1)])
    recv s 17 0x38 (fun p v => isNode (p.specNum 22 2) && newer (p.specNum 24 1) (v.incOf 9) == x.2 &&
      (x.2 || v.incOf 9 = p.specNum 24 1 || newer (v.incOf 9) (p.specNum 24 1)))) = true ∧
    (let c : ClaimOp := { prev := 3, record := 4, node := 9, inc := 1, since := 0, desc := 0 }
     recv (withFab (fun f => { f with claim := some c }) (arrived (pkt 0x39 [(22, 2, 9), (24, 1, 1)]))) 17 0x39
       (fun p v => v.fab.claim == some c && c.node = p.specNum 22 2 && c.inc = p.specNum 24 1 && c.record < 256 &&
         v.host.inflight == [])) = true := by decide +kernel

/-! ## Module tallies and collectives -/

theorem witness_module_tally : HostWrite live ∧ (dropSplit live).tallyInUse 0 = false ∧
    (running { seq0 with hold := some (.wait 2 65535 1 0 none) } 0).tallyInUse 65535 = true := by decide +kernel

/-- The group table at 0x8000100000 with an entry for a group: members 3 and 5, one command. -/
def collImage (g op elems : Nat) : List Host.Cell :=
  let m := putBytes [] (0x8000100000 + 64 * g)
    (leBytes 2 2 ++ leBytes 2 0 ++ leBytes 4 100 ++ leBytes 8 0x8000200000 ++ leBytes 8 0x8000200100 ++ leBytes 2 1)
  let m := putBytes m 0x8000200000 (leBytes 2 3 ++ leBytes 2 5)
  putBytes m 0x8000200100 ([BitVec.ofNat 8 op, 0, 0x10, 0] ++ leBytes 4 elems ++ leBytes 6 0x8000300000 ++ leBytes 2 0 ++ leBytes 6 0x8000400000
    ++ leBytes 2 3 ++ leBytes 2 8 ++ leBytes 2 1 ++ leBytes 2 9 ++ leBytes 2 1)

/-- A machine that holds it, the group as given. -/
def collState (g op elems : Nat) (y : Group) (s : State) : State :=
  let s := (s.setRg .fabCollBase 0x8000100000).setRg .fabRoute 1 5
  { s with memory := { s.memory with mem := collImage g op elems }, coll := { s.coll with groups := sput .init [] g y } }

def idle : Group := { Group.init with st := .idle }

theorem witness_groups : [0, 4095].all (fun g =>
    (dropSplit (collState g 4 64 .init (portState 17 upPort))).collValid g && !(dropSplit (portState 17 upPort)).collValid g &&
    ((collState g 4 64 idle (portState 17 upPort)).group g).st ≠ .disabled && (portState 17 upPort).hostWrites) = true := by decide +kernel

/-- A state whose trigger tally holds its need. -/
def triggered (s : State) : State := { s with sync := { s.sync with mtal := [(8, { Tally.init with count := 1 })] } }

theorem witness_coll_start : [0, 64].all (fun n =>
    let s := collState 4095 4 n idle (portState 17 upPort)
    let c := s.collCmd (s.collEntry 4095) 0
    s.alive && (s.group 4095).st = .idle && 0 < (s.collEntry 4095).count && !s.triggerMet c.trigger c.need &&
    (triggered s).triggerMet c.trigger c.need && !(triggered s).inputHeld (s.collEntry 4095) c && !(triggered s).outputHeld (s.collEntry 4095) c &&
    c.op = 4 && c.elems = n && !(s.mtally c.trigger).gate && (s.group 4095).chunks == [] &&
    s.mpaOk (c.output + (s.collEntry 4095).own * c.partBytes 2) (c.partBytes 2)) = true := by decide +kernel

theorem witness_coll_plain : PlainMemory (triggered (collState 4095 4 64 idle (portState 17 upPort))) := plain_of _ (by decide +kernel)

theorem witness_coll_packet : [idle, { idle with st := .running }].all (fun y =>
    let p := pkt 0x10 [(22, 2, 4095), (24, 2, 0), (26, 4, 0), (30, 2, 1)] []
    recv (collState 4095 4 0 y (arrived p)) 17 0x10 (fun p v => v.collAgrees p && !collHold p (collState 4095 4 0 y (arrived p))) &&
    recv (collState 4095 4 64 y (arrived p)) 17 0x10 (fun p v => !v.collAgrees p)) = true := by decide +kernel

theorem witness_coll_done :
    let y := { idle with st := .running, deadline := some 5, chunks := [{ member := 1, chunk := 0, data := [] }] }
    let s := { collState 4095 4 0 y (portState 17 upPort) with cyc := 2000000000 }
    let c := s.collCmd (s.collEntry 4095) 0
    let w := collState 4095 4 64 { y with chunks := [] } (portState 17 upPort)
    (s.alive && (s.group 4095).st = .running && (s.group 4095).complete (s.collEntry 4095) c && c.role ≤ 4 &&
     !(w.group 4095).complete (w.collEntry 4095) (w.collCmd (w.collEntry 4095) 0) && 5 < s.aon && s.rg .tilDumpBase = 0) = true := by
  decide +kernel

/-! ## Steps and twins -/

/-- A machine with a job and attempts, node 3. -/
def stepState (as : List Attempt) : State :=
  let s := jobState.setRg .fabNodeId (3 + 2 ^ 16)
  { s with cyc := 2000000000, steps := { s.steps with attempts := as } }

/-- The same with partner 9. -/
def twinned (s : State) : State := s.setRg .stpMirrorCfg (9 + 2 ^ 16)

theorem witness_jobs :
    (HostWrite hosted ∧ (dropSplit hosted).mayStart = true ∧ (dropSplit jobState).mayStart = false) ∧
    ((dropSplit jobState).steps.attempts = [] ∧ (dropSplit jobState).steps.job = true ∧ (dropSplit hosted).steps.job = false ∧
      (dropSplit openState).steps.attempts ≠ []) ∧
    ((dropSplit openState).checking = none ∧ (dropSplit openState).openAttempts ≠ [] ∧
      (dropSplit (stepState [{ attempt7 with st := .check }])).checking.isSome = true) ∧
    (hosted.steps.remirror = false ∧ HostWrite openState) := by decide +kernel

/-- A rollback ends the open attempt (R296). -/
theorem test_rollback : gives .stpRollback openState (fun u => u.openAttempts == [] && u.steps.job) = true := by decide +kernel

def closed7 : Attempt := { attempt7 with closed := true, mac8 := 2 ^ 64 + 5 }
def check7 : Attempt := { closed7 with st := .check }

theorem witness_check : (stepState [attempt7]).mayCheck attempt7 = false ∧ (stepState [closed7]).mayCheck closed7 = true ∧
    (stepState [closed7]).attempt? 7 = some closed7 ∧ (stepState [closed7]).mpaOk ((stepState [closed7]).recAddr closed7) 0x1000 = true ∧
    PlainMemory (stepState [closed7]) := by
  refine ⟨by decide +kernel, by decide +kernel, by decide +kernel, by decide +kernel, plain_of _ (by decide +kernel)⟩

theorem witness_evaluate :
    let s := stepState [check7]
    let bad := stepState [{ check7 with poisoned := true }]
    let child := s.setRg .stpSealTree 4
    (s.mayEvaluate check7 && s.sealKids == [] && !check7.sent && s.sealParent = 0 && (s.ownReport check7).ready &&
     (s.ownReport check7).sum ≤ check7.policy && !(bad.ownReport { check7 with poisoned := true }).ready &&
     bad.mayEvaluate { check7 with poisoned := true } && child.sealParent = 4 && child.sealKids == [] && child.mayEvaluate check7 &&
     !(stepState [closed7]).mayEvaluate closed7) = true := by decide +kernel

/-- A ready attempt of a root is sealed: the version is one past its step (R289, R294). -/
theorem test_seal : gives (.sealEvaluate 7) (stepState [check7]) (fun u => u.steps.version = 8 && u.steps.attempts == [] &&
    u.lastSealed == some 7) = true := by decide +kernel

/-- A poisoned one is refused (R295). -/
theorem test_refuse : gives (.sealEvaluate 7) (stepState [{ check7 with poisoned := true }]) (fun u => u.steps.version = 0 &&
    u.openAttempts == []) = true := by decide +kernel

theorem witness_verdict : HostWrite (stepState [check7]) ∧ (dropSplit (stepState [check7])).checkingAs 7 0 = some check7 ∧
    (dropSplit (stepState [check7])).checkingAs 7 1 = none ∧ (dropSplit (stepState [check7])).checkingAs (2 ^ 40 - 1) 0 = none := by
  decide +kernel

/-- An attempt with samples still to be tested, to which a verdict comes and waits. -/
theorem witness_verdict_waits :
    let a := { check7 with samples := [{ layer := 2, row := 3, nblk := 0, col := 0, mb := 0, ver := 0, scale := 0, opBits := 8, elems := [] }] }
    (dropSplit (stepState [a])).checkingAs 7 0 = some a ∧ a.samples ≠ [] := by decide +kernel

/-- A SEAL packet of node 5: kind, attempt number, step, flags. -/
def sealP (kind num step fl : Nat) : Packet := pkt 0x11 [(22, 1, kind), (23, 1, num), (24, 5, step), (29, 1, fl)] (List.replicate 16 0)

theorem witness_seal_packets : [0, 1].all (fun fl =>
    let at_ (as : List Attempt) (p : Packet) : State := { arrived p with steps := (stepState as).steps }
    recv (at_ [check7] (sealP 1 0 7 fl)) 17 0x11 (fun p v => p.payload.length = 16 && p.specNum 22 1 = 1 &&
      v.checkingAs (p.specNum 24 5) (p.specNum 23 1) == some check7 && bit (p.specNum 29 1) 0 == decide (fl = 1)) &&
    recv (at_ [check7] (sealP 1 1 7 fl)) 17 0x11 (fun p v => p.specNum 22 1 = 1 && (v.checkingAs (p.specNum 24 5) (p.specNum 23 1)).isNone) &&
    recv (at_ [] (sealP 0 0 7 fl)) 17 0x11 (fun p v => p.payload.length = 16 && p.specNum 22 1 = 0 && v.steps.job &&
      v.lastSealed.all (· < 7) && p.specNum 23 1 = v.numberOf 7 && (v.attempt? 7).isNone)) = true := by decide +kernel

/-- A send list of one entry: 64 bytes, or none. -/
def listed (len : Nat) (s : State) : State :=
  let s := ((s.setRg .stpMsendBase 0x8000500000).setRg .stpMsendCnt 1).setRg .fabRoute 1 9
  let e := leBytes 8 0x8000600000 ++ leBytes 8 0x8000700000 ++ leBytes 4 len ++ leBytes 2 8 ++ leBytes 2 1 ++ leBytes 2 9 ++ leBytes 2 1
  { s with memory := { s.memory with mem := putBytes [] 0x8000500000 e },
           sync := { s.sync with mtal := [(8, { Tally.init with count := 1 })] } }

theorem witness_send_entry : [(false, 64), (true, 0), (true, 64)].all (fun x =>
    let s := listed x.2 (stepState [attempt7])
    let s := if x.1 then twinned s else s
    s.alive && s.openAttempts.find? s.sendReady == some attempt7 && s.attempt? 7 == some attempt7 && !s.openAttempts.any (·.mirrorBusy) &&
    s.twin attempt7 == x.1 && (s.sendEntry attempt7).len = x.2 && !(s.mtally (s.sendEntry attempt7).tally).gate) = true := by decide +kernel

theorem witness_digests : [true, false].all (fun tw =>
    let s := if tw then (twinned (stepState [check7])).setRg .stpShardSegBlocks 1 15 else stepState [check7]
    s.alive && s.checking == some check7 && s.twin check7 == tw && !check7.digestSent &&
    (mapBlocks (s.mapSegs false) ≠ 0) == tw) = true := by decide +kernel

/-- A tithe sample of layer 2 whose elements are the given word. -/
def sample0 (w : Word) : TitheSample :=
  { layer := 2, row := 3, nblk := 0, col := 0, mb := 0, ver := 0, scale := 0, opBits := 8, elems := List.replicate 128 w }

theorem witness_tithe : [0x3F800000#32, 0x7FC00000#32].all (fun w =>
    let a := { attempt7 with samples := [sample0 w, sample0 0] }
    let s := stepState [a]
    let held := pausedMem { s with memory := { s.memory with mem := putBytes [] ((watchOf a).shared 2 + 0x338) (leBytes 4 8) } }
    s.alive && s.openAttempts.find? (fun b => b.samples != []) == some a && s.attempt? 7 == some a && a.verdict.isNone &&
    !(titheReads s (watchOf a) (sample0 w)).any (fun r => s.engineHeld r.1 r.2) && s.memory.errs == [] &&
    (titheReads held (watchOf a) (sample0 w)).any (fun r => held.engineHeld r.1 r.2)) = true := by decide +kernel

/-- The last sample of an attempt whose verdict waits. -/
theorem witness_tithe_verdict : [true, false].all (fun pass =>
    let a := { check7 with samples := [sample0 0], verdict := some { pass := pass, host := true, sum := 0, count := 0, causes := 0 } }
    let s := stepState [a]
    s.openAttempts.find? (fun b => b.samples != []) == some a && a.samples.tail == [] &&
    !(titheReads s (watchOf a) (sample0 0)).any (fun r => s.engineHeld r.1 r.2) && ((testSample a (sample0 0) s).attempt? 7).isSome) = true := by
  decide +kernel

/-- A MIRROR or RECOVERY packet of node 5: kind, step byte, address. -/
def twinP (type kind step addr n : Nat) : Packet :=
  { pkt type [(22, 1, kind), (31, 1, step)] (List.replicate n 7) with addr := addr }

theorem witness_mirror_data : [(0, 0x8000000000, true), (0, 0x700000000000, false), (1, 0, true), (6, 0x10000, false), (7, 0, true)].all (fun x =>
    let p := twinP 0x20 x.1 0 x.2.1 8
    let s := (((arrived p).setRg .stpMlogBase 0x8010000000).setRg .stpMlogSize 0x100000).setRg .stpMirrorSegBlocks 1 0
    let s := (s.setRg .stpMirrorSegA0 0x8020000000 0).setRg .stpMirrorSegA1 0x8030000000 0
    recv s 17 0x20 (fun p v => !mirrorHold p s && p.kind = x.1 && (match trackIn 17 p v with
      | .ok w => ((mirrorTarget p w).filter (fun a => w.mpaOk a p.payload.length)).isSome == x.2.2 && plainB w
      | _ => false))) = true := by decide +kernel

/-- The block of the current version is written in the mirror's area of its step's parity (R306). -/
theorem test_mirror_block :
    let s := ((arrived (twinP 0x20 7 1 0x40 8)).setRg .stpMirrorSegBlocks 1 0).setRg .stpMirrorSegA1 0x8030000000 0
    gives (.mirror 17) s (fun u => byteAt u.memory.mem 0x8030000047 == 7#8) = true := by decide +kernel

theorem witness_mirror_digests : [2, 3, 4, 5].all (fun k => [7, 8].all (fun step =>
    let s := { arrived (twinP 0x20 k step 0 8) with steps := (stepState [check7]).steps }
    recv s 17 0x20 (fun p v => p.kind = k && v.checking.any (fun a => a.step % 256 == p.specNum 31 1) == decide (step = 7) && (match trackIn 17 p v with
      | .ok _ => true
      | _ => false)))) = true := by decide +kernel

/-- The end packet of a stream: blocks, entries and side bytes sent. -/
def endP (blocks logs side : Nat) : Packet :=
  { pkt 0x21 [(22, 1, 3)] (List.replicate 20 0 ++ leBytes 4 blocks ++ leBytes 4 logs ++ leBytes 8 side ++ List.replicate 28 0) with addr := 0 }

/-- A machine that may receive a stream, its shard of one block. -/
def receiver (s : State) : State :=
  ((s.setRg .hrvRecvCfg (2 ^ 16)).setRg .stpShardSegBlocks 1 0).setRg .stpShardSegA0 0x8020000000 0

theorem witness_recovery_data : [(0, 0), (2, 0x8000000000)].all (fun x =>
    let s := arrived (twinP 0x21 x.1 0 x.2 8)
    recv (receiver s) 17 0x21 (fun p v => !recoveryHold p (receiver s) && v.recvOk && p.kind = x.1 &&
      (match trackIn 17 p (beginStream v) with
       | .ok w => (recoveryTarget p w).any (fun a => w.mpaOk a p.payload.length) && plainB w
       | _ => false)) &&
    recv s 17 0x21 (fun p v => !recoveryHold p s && !v.recvOk && (match trackIn 17 p v with
       | .ok _ => true
       | _ => false))) = true := by decide +kernel

theorem witness_recovery_end :
    let p : Packet := { endP 1 1 8 with flags := (endP 1 1 8).flags + 16, tally := 0, sigInc := 1 }
    let s := receiver (arrivedRaw p)
    recv s 17 0x21 (fun p v => p.kind = 3 && p.payload.length = 64 && p.hasSig && (match trackIn 17 p v with
      | .ok w => w.recvOk
      | _ => false)) = true := by decide +kernel

/-- The signal of a stream's end packet, whose counts agree with what has arrived, or do not. -/
theorem witness_stream_signal : [(1, true), (2, false)].all (fun b =>
    let x : PendSig := { source := .remote 5, pass := none, dest := none, node := 0, tally := 8, inc := 1, fence := [], lines := [],
                         desc := none, bare := false, stream := some (endP b.1 1 8).payload }
    let s := { live with sync := { live.sync with signals := [x] },
                         hrv := { live.hrv with recovery := .receiving, gotBlocks := blockSize, gotLogs := 1, gotSide := 8 } }
    s.alive && s.ownSignals[0]? == some x && s.fenceMet x && !s.signalsFirst x && x.stream.isSome &&
    decide (s.hrv.gotBlocks = numIn (endP b.1 1 8).payload 20 4 * blockSize ∧ s.hrv.gotLogs = numIn (endP b.1 1 8).payload 24 4 ∧
      s.hrv.gotSide = numIn (endP b.1 1 8).payload 28 8) == b.2) = true := by decide +kernel

/-! ## The Steward -/

/-- A module without power, the first bytes of both firmware slots erased. -/
def unpowered : State :=
  { State.reset with stw := { Steward.init with flash := ((List.range 4).map (fun k => (k, 0xFF))) ++ ((List.range 4).map (fun k => (0x800000 + k, 0xFF))) } }

theorem witness_power : unpowered.stw.powered = false ∧ live.stw.powered = true ∧ live.stw.mainOn = true ∧ live.stw.faultPin = false ∧
    unpowered.bootResult.slot = none ∧ live.hostWrites = true ∧
    ({ live with host := { live.host with d3hot := true, msixHeld := [2047] } } : State).host.d3hot = true := by decide +kernel

/-- A delivered module boots slot A, and its link comes up when PERST# is released (R371, R387; log entry 9). -/
theorem test_boot : State.reset.bootResult.slot = some 0 ∧ gives (.powerOn { present := true, sheafSlot := 63, fallow := false }) State.reset
    (fun u => u.stw.good && u.stw.mainOn && u.stw.bootSlot == 0 && gives .perstDeassert u (fun v => v.hostWrites)) = true := by
  decide +kernel

/-- A module whose slots hold no image stays off, and the failure is recorded (R386, R387). -/
theorem test_no_image : gives (.powerOn { present := true, sheafSlot := 63, fallow := false }) unpowered (fun u =>
    !u.stw.good && !u.stw.mainOn && u.stw.nv.authFail && u.stw.slotId == 63) = true := by decide +kernel

theorem witness_resets : ([ResetCause.hotReset, .flr].all (fun _ => live.hostWrites) && live.stw.good && live.stw.mainOn) = true ∧
    regAt 0 = some ⟨.stwIdMagic, 0, 0⟩ ∧ mpaWindow 0x8000000000 = some (12, 0) ∧
    (({ Device.init with st := .selfRefresh } : Device).keeps = true ∧ Device.init.keeps = false) := by decide +kernel

/-- A module reset keeps a bin's bytes and a trained memory's (R369). -/
theorem test_reset_keeps : gives (.moduleReset .perst)
    { withMem (running seq0 1) with memory := { (withMem live).memory with mem := [(0x800000000, 6), (0x8000000000, 5)] } }
    (fun u => byteAt (u.tile 5).bin 0x22040 == 1#8 && byteAt u.memory.mem 0x8000000000 == 5#8 && byteAt u.memory.mem 0x800000000 == 0#8 &&
      u.passes == [] && u.stw.perst) = true := by decide +kernel

/-- A live module with a throttle. -/
def throttled (f : Throttle → Throttle) : State := { live with stw := { live.stw with thr := f live.stw.thr } }

/-- A module that has been cool for 1 ms, at a divisor. -/
def cooling (thermal : Nat) : State :=
  let s := throttled (fun t => { t with thermal := thermal })
  { s with cyc := 1750000, stw := { s.stw with coolSince := some 0 } }

theorem witness_throttle :
    let c := fun n => throttled (fun t => { t with cap := n })
    let th := fun n => throttled (fun t => { t with thermal := n })
    (c 1).powerCap < (c 1).powerCap + 1 ∧ (c 1).stw.thr.cap < 2 ∧ (c 1).capMay 1 = true ∧
    2 ≤ (c 2).stw.thr.cap ∧ (c 2).capMay 10 = true ∧ 100 * 0 < 45 * (c 1).powerCap ∧ (c 1).stw.thr.cap ≠ 0 ∧
    (c 0).powerCap ≤ (c 0).powerCap ∧ 45 * (c 0).powerCap ≤ 100 * (c 0).powerCap ∧
    (th 0).stw.thr.thermal < thermalUp ((lput (th 0).stw.temps 3 98).foldl max 0) ∧
    thermalUp ((lput (th 2).stw.temps 3 95).foldl max 0) ≤ (th 2).stw.thr.thermal ∧
    thermalDown ((lput (th 2).stw.temps 3 95).foldl max 0) < (th 2).stw.thr.thermal ∧
    ({ live with stw := { live.stw with capAt := some 0 } } : State).capMay 1 = false ∧ (cooling 0).stw.coolSince = some 0 ∧
    0 + msCycles 1 ≤ (cooling 0).cyc ∧ (th 2).stw.coolSince = none := by decide +kernel

/-- Above 103 °C the thermal request reaches a divisor of 4 a level at a time (R381). -/
theorem test_thermal : [(0, 97, 0), (0, 98, 1), (1, 103, 2)].all (fun x =>
    gives (.dieTempThrottle 3 x.2.1) (throttled (fun t => { t with thermal := x.1 })) (fun u => u.stw.thr.thermal = x.2.2)) = true ∧
    [(2, 100, 1), (1, 95, 0), (2, 101, 2)].all (fun x =>
      gives (.dieTempThrottle 3 x.2.1) (if x.2.1 = 101 then throttled (fun t => { t with thermal := x.1 }) else cooling x.1)
        (fun u => u.stw.thr.thermal = x.2.2)) = true := by
  decide +kernel

theorem witness_level : [(16, 3, 4, true), (16, 4, 3, true), (15, 3, 4, false), (16, 4, 4, false)].all (fun x =>
    let t := (throttled (fun t => { t with edges := x.1, level := x.2.1, target := x.2.2.1 })).stw.thr
    decide (16 ≤ t.edges ∧ t.level ≠ t.target) == x.2.2.2) = true := by decide +kernel

/-- A state with an accepted descriptor on ring 1. -/
def accepted0 (w : Work) : State :=
  { hosted with host := { hosted.host with inflight := [{ hosted.entryOf outD with id := 39, work := w }] } }

theorem witness_fault : (accepted0 .signal).stw.powered = true ∧ (accepted0 .signal).stw.fault = none ∧ (accepted0 .signal).stw.faultPin = false ∧
    ((accepted0 .signal).inflight? 39).isSome = true ∧ live.sampleDue = true ∧
    ({ live with cyc := 17500, stw := { live.stw with sampleAt := some 0 } } : State).sampleDue = true := by decide +kernel

/-- The faulted module of which a further cause changes nothing. -/
theorem witness_further_fault :
    let s : State := { live with stw := { live.stw with fault := some .dieTemperature, faultPin := true } }
    s.stw.powered = true ∧ s.stw.fault ≠ none ∧ s.stw.faultPin = true := by decide +kernel

/-- A fault completes the accepted descriptor with ABORTED (R383). -/
theorem test_fault : gives (.moduleFaultDeclare .dieTemperature) (accepted0 .signal) (fun u => u.host.inflight == [] &&
    u.emitted.any (fun e => match e with
      | .completion _ _ c _ => c.status = .aborted
      | _ => false)) = true := by decide +kernel

/-- A port that sends a collective packet when a fault is declared, beside one that sends none. -/
def sendingColl : State :=
  let s := portState 0 { upPort with credits := [0, 9, 9, 9], txq := [outp (pkt 0x30 []) false, outp (pkt 0x10 []) false] }
  { s with fab := { s.fab with ports := sinsert 1 upPort s.fab.ports } }

theorem witness_fault_ports : (sendingColl.passes == [] && sendingColl.host.inflight == [] && sendingColl.stw.powered &&
    sendingColl.stw.fault.isNone && !sendingColl.stw.faultPin && (sendingColl.port 0).collSending &&
    !(sendingColl.port 1).collSending) = true := by decide +kernel

/-- A port with a collective packet in flight sends it after the fault, and is idle then (R383). -/
theorem test_fault_rests : gives (.moduleFaultDeclare .dieTemperature) sendingColl (fun u =>
    (u.port 0).st = .up && (u.port 0).txq.length = 1 && (u.port 1).st = .disabled &&
    gives (.packetTransmit 0) u (fun v => (v.port 0).st = .disabled && v.emitted.length ≠ u.emitted.length)) = true := by decide +kernel

theorem witness_clocks :
    let s : State := { live with edge := 16, stw := { live.stw with pll := [.locking, .running, .running, .running], walks := [(3, (95, 16))] } }
    let w := s.setRg .stwClkCfg (2 ^ 16)
    (s.alive && s.pllOf 0 = .locking && sfind s.stw.walks 3 = some (95, 16) && 16 ≤ s.edge && w.pllOf 1 = .running && w.stopDelay ≠ 0 &&
     w.unused 1 && (let y := { w with cyc := 1750, stw := { w.stw with unused := [(1, 0)] } }
       y.alive && y.pllOf 1 = .running && y.unused 1 && sfind y.stw.unused 1 == some 0 && 0 + usCycles y.stopDelay ≤ y.cyc)) = true := by
  decide +kernel

theorem witness_gate :
    let s : State := { live with tiles := [(1535, { Tile.init with clocked := true })] }
    let s := { s with cyc := 10000000 }
    (s.alive && (s.tile 1535).clocked && !s.hasWork 1535 && !s.inFlight 1535 && (s.tile 1535).issuedAt + s.gateDelay ≤ s.cyc) = true := by decide +kernel

/-- A module whose self test and retirement are enabled, a tile of which has failed. -/
def testing (failed : List Nat) (retired : List (Nat × Nat)) : State :=
  { live with cyc := 1000000, stw := { live.stw with nv := { live.stw.nv with failed := failed, retired := retired } } }

theorem witness_slices : [0, 1535, 1536, 1599].all (fun t => (testing [] []).mayTest t) = true := by decide +kernel

theorem witness_retirement :
    let a := testing [0] []
    let b := testing [1535] [(failedRow 1535, 4)]
    let c := testing [1599] []
    (a.alive && a.boundary && a.rgBit .stwTestCfg 1 && (sfind a.stw.nv.retired (failedRow 0)).isNone && b.boundary &&
     (sfind b.stw.nv.retired (failedRow 1535)).isSome && (sfind c.stw.nv.retired (failedRow 1599)).isNone) = true := by decide +kernel

/-- A slice leaves the banks of its tile at +0.0 and its bin as it was (R394). -/
theorem test_slice : gives (.idleTestSlice 7 none)
    { live with cyc := 1000000, tiles := [(7, { Tile.init with acc := [(3, 5)], bin := [(9, 1)] })] }
    (fun u => (u.tile 7).acc == [] && byteAt (u.tile 7).bin 9 == 1#8) = true := by decide +kernel

theorem witness_mailbox :
    (live.stw.powered = true ∧ live.stw.good = true ∧ live.stw.mboxBusy = none) ∧ ((2047 + 1) * 4096 ≤ 0x800000 ∧ 0x800000 < (2048 + 1) * 4096) ∧
    (let s : State := { live with stw := { live.stw with mboxBusy := some (5, 255) } }
     s.stw.powered = true ∧ s.stw.good = true ∧ s.stw.mboxBusy.isSome = true ∧ (s.msixOf 0).masked = true ∧ s.hostUp = true ∧
     ((s.setMsix 0 { MsixEntry.init with masked := false }).msixOf 0).masked = false) := by decide +kernel

/-- A commit with the counter at the running version results in 3 (R388). -/
theorem test_commit : gives .mboxCommit live (fun u => u.stw.mboxBusy == some (4, 3)) = true := by decide +kernel

theorem witness_spdm :
    (live.hostWrites = true ∧ live.stw.spdm.stage < 1) ∧
    (let s : State := { live with stw := { live.stw with spdm := { live.stw.spdm with stage := 3 } } }
     3 ≤ s.stw.spdm.stage ∧ (s.measurement 1).isSome = true ∧ (s.measurement 5).isSome = true ∧ 0 ≤ Config.certChain.length) ∧
    (live.stw.i3c = none ∧ (0x2B#7 : BitVec 7) ≠ 0x2A#7) := by
  refine ⟨by decide +kernel, ⟨by decide +kernel, rfl, rfl, Nat.zero_le _⟩, by decide +kernel⟩

/-! ## The queue, events, enables and BAR0 -/

theorem witness_step_runs_front : (State.reset.withPending [.stpRollback]).pending = .stpRollback :: [] := rfl

theorem witness_empty_queue : live.pending = [] ∧ live.stw.powered = true ∧ unpowered.stw.powered = false := by decide +kernel

/-- The empty queue passes a cycle (log entry 2). -/
theorem test_tick : (match step live with
    | .next u => u.cyc == 1
    | _ => false) = true := by decide +kernel

theorem witness_memory_canonical : MemInv { live with memory := { live.memory with mem := [(0, 1), (7, 255)] } } := by
  unfold MemInv; decide +kernel

/-- An event ring of 64 records that is enabled, with what it holds. -/
def evtState (ctl : Nat) (ev : Events) : State := { live.setRg .evtCtl ctl with evt := ev, cyc := 1750 }

def rec0 : EventRec := { code := .throttle, index := 0, lost := 0, aon := 0, detail := 0 }

theorem witness_evt_enable :
    HostWrite live ∧ (dropSplit live).evtOn = false ∧ (dropSplit (evtState 0x26 .init)).evtOn = true ∧
    ([6, 20].all (fun k => 6 ≤ k && k ≤ 20) ∧ 2047 < 2048) ∧
    (dropSplit { live with evt := { Events.init with hold := List.replicate 64 rec0 } }).evt.hold.length ≤ 64 ∧ (dropSplit live).hostUp = true := by
  decide +kernel

theorem witness_evt_head :
    let s := evtState 0x26 { Events.init with tail := 64, hold := [rec0] }
    (dropSplit s).evtOn = true ∧ (dropSplit s).evtStale 64 = true ∧ (dropSplit s).evtStale (2 ^ 20) = false ∧
    (dropSplit s).evtStale (2 ^ 20 + 1) = true ∧ (dropSplit s).evtStale 63 = false := by decide +kernel

/-- Reading all 64 records of a full ring lets the held one follow (R425, R426). -/
theorem test_evt_head : gives (.evtHeadWrite (BitVec.ofNat 32 (2 ^ 20))) (evtState 0x26 { Events.init with tail := 64, hold := [rec0] })
    (fun u => u.evt.hold == [] && u.evt.tail = 65 && u.evt.head = 64) = true := by decide +kernel

theorem witness_evt_age :
    let s := (evtState 0x26 { Events.init with tail := 1, unsignalled := 1, oldest := some 0 }).setRg .evtMod 0x101
    let u := s.setMsix 0 { MsixEntry.init with masked := false }
    (s.stw.mainOn && s.evtOn && s.rgBits .evtMod 8 16 = 1 && s.evt.unsignalled ≠ 0 && 0 + usCycles 1 ≤ s.cyc && (s.msixOf 0).masked &&
     !(u.msixOf 0).masked && u.hostUp && !({ u with host := { u.host with d3hot := true } } : State).hostUp) = true := by decide +kernel

/-- A machine in which an object is being disabled. -/
def disabling0 (object index : Nat) : State := accepted0 (.disable { object := object, abort := false, index := index })

/-- The second qword of a ring context: k, a completion ring or not, enable, companion, vector. -/
def ctx (k com companion vector : Nat) : Quad := BitVec.ofNat 64 (k + com * 32 + 128 + companion * 256 + vector * 2 ^ 24)

theorem witness_ring_enable :
    let w := dropSplit hosted
    HostWrite hosted ∧ w.disabling 0 32767 = none ∧ (w.ring 1).enable = true ∧ (w.ring 32767).enable = false ∧
    (w.ring 2).enable = true ∧ (w.ring 2).completion = true ∧ w.deadlineRings < 256 ∧
    [ctx 6 1 0 2047, ctx 20 0 2 0, ctx 5 1 0 0, ctx 21 0 2 0].all (fun v => bit v.toNat 7) = true := by decide +kernel

/-- A ring with k of 5 or 21, or a vector of 2,048 taken modulo its field, is refused or not by k alone (R347). -/
theorem test_ring_enable : [(ctx 6 1 0 2047, true), (ctx 20 0 2 0, true), (ctx 5 1 0 0, false), (ctx 21 0 2 0, false), (ctx 6 0 1 0, false)].all (fun x =>
    gives (.ringEnable 32767 x.1) hosted (fun u => (u.ring 32767).enable == x.2 && (u.ring 32767).enableErr == !x.2)) = true := by decide +kernel

theorem witness_enables : HostWrite (disabling0 4 47) ∧ (disabling0 4 47).disabling 4 47 = some false ∧ (disabling0 4 47).disabling 4 0 = none ∧
    (dropSplit hosted).disabling 5 0 = none ∧ (disabling0 3 27).disabling 3 27 = some false ∧ (disabling0 0 1).disabling 0 1 = some false ∧
    (disabling0 1 1535).disabling 1 1535 = some false ∧ (disabling0 5 0).disabling 5 0 = some false := by decide +kernel

/-- Of a mask of gatherers those are enabled that no DISABLE holds (R444). -/
theorem test_gatherer_enable : gives (.gathererEnable (2 ^ 47 + 1))
    { disabling0 4 47 with gath := { hosted.gath with enable := 0 } } (fun u => u.gath.enable == 1) = true := by decide +kernel

theorem witness_wide : Wide ⟨.stpVerdict, 0, 0⟩ (Reg.offset ⟨.stpVerdict, 0, 0⟩) ∧ Wide ⟨.hstBarErr, 0, 0⟩ 0x100038 ∧
    Wide ⟨.stpShardSegA0, 15, 0⟩ (Reg.offset ⟨.stpShardSegA0, 15, 0⟩) := by unfold Wide; decide +kernel

theorem witness_halves :
    let o := Reg.offset ⟨.stpShardSegA0, 15, 0⟩
    let s : State := { live with host := { live.host with snapshot := some (o, 5), splitHeld := some (o, 7) } }
    live.reaches o = true ∧ live.reaches (o + 4) = true ∧ (0xFF#8).toNat % 16 = 15 ∧ s.host.snapshot = some (o, 5) ∧
    s.host.splitHeld = some (o, 7) ∧ live.host.snapshot = none ∧ live.host.splitHeld = none ∧ lowHalf (o + 4) = false ∧
    lowHalf o = true ∧ o + 8 ≠ o + 4 := by decide +kernel

/-- Both halves of a register written one after the other leave the whole value (R435). -/
theorem test_halves :
    let o := Reg.offset ⟨.stpShardSegA0, 15, 0⟩
    gives (.registerWrite (o + 4) 4 0x89ABCDEF 0xF) { live with host := { live.host with splitHeld := some (o, 0x1234567) } }
      (fun u => u.rg .stpShardSegA0 15 == 0x89ABCDEF01234567 && u.host.splitHeld == none) = true := by decide +kernel

theorem witness_stored : [(RegName.stpShardSegA0, 15), (.hrvAreaBase, 0), (.numWatchCtl, 0)].all (fun n =>
    !ownBehaviour.contains n.1 && !(jobLocked n.1 && live.steps.job) && !live.harvestLocked n.1) = true ∧
    live.stw.fault = none ∧ jobLocked .stpShardSegA0 = true ∧ jobState.steps.job = true ∧
    (RegName.hrvAreaBase ∉ ownBehaviour ∧ jobLocked .hrvAreaBase = false) := by decide +kernel

theorem witness_harvest_locked :
    let s : State := { live with hrv := { live.hrv with recovery := .receiving } }
    s.harvestLocked .hrvRecvCfg = true ∧ jobLocked .hrvRecvCfg = false ∧ RegName.hrvRecvCfg ∉ ownBehaviour := by decide +kernel

theorem witness_unmapped : 0x3FFFFFC < barSize ∧ 0x3FFFFFC % 4 = 0 ∧ areaAt 0x3FFFFFC = none ∧ regAt 0x3FFFFFC = none ∧
    live.reaches 0x3FFFFFC = true ∧ live.host.splitHeld = none ∧ (0x8F#8).toNat % 16 = 15 ∧ (0x0E#8).toNat % 16 ≠ 15 := by decide +kernel

/-- The first ignored access since every flag was zero gives the offset, and a later one leaves it (R446). -/
theorem test_bar_err : gives (.registerWrite 0x3FFFFFC 4 1 0xF) live (fun u => u.rg .hstBarErr == 2 ^ 32 + 0x3FFFFFC &&
    gives (.registerWrite 0x500008 4 1 0x7) u (fun u => u.rg .hstBarErr == 3 * 2 ^ 32 + 0x3FFFFFC)) = true := by decide +kernel

theorem witness_split_dropped :
    let o := Reg.offset ⟨.stpShardSegA0, 15, 0⟩
    let s : State := { live with host := { live.host with splitHeld := some (o, 7) } }
    s.host.splitHeld = some (o, 7) ∧ o < 2 ^ 26 ∧ s.reaches 0x100038 = true := by decide +kernel

theorem witness_fault_writes :
    let s : State := { live with stw := { live.stw with fault := some .dieTemperature } }
    let r : Reg := ⟨.numGaugeDecay, 0, 0⟩
    s.stw.fault ≠ none ∧ s.hostWrites = true ∧ s.host.splitHeld = none ∧ s.reaches r.offset = true ∧ r.offset < barSize ∧
    areaAt r.offset = none ∧ regAt r.offset = some r ∧ r.name.row.bytes = 4 ∧ r.name.isStw = false ∧ r.name.reserved = false ∧
    r.name.row.w1c = 0 ∧ s.rg r.name r.i r.j < 2 ^ 32 := by decide +kernel

/-- A mask all of whose objects are being disabled. -/
theorem witness_held_enables : (bit (ctx 6 1 0 0).toNat 7 = true ∧ (disabling0 0 1).disabling 0 1 ≠ none ∧ (disabling0 0 1).hostWrites = true) ∧
    ((1#32 <<< 31) ≠ 0 ∧ ∀ j, j < 32 → (1#32 <<< 31).getLsbD j = true → (disabling0 1 1535).disabling 1 (32 * 47 + j) ≠ none) ∧
    (∀ j, j < 48 → (1#48 <<< 47).getLsbD j = true → (disabling0 4 47).disabling 4 j ≠ none) ∧
    (∀ j, j < 28 → (1#28 <<< 27).getLsbD j = true → (disabling0 3 27).disabling 3 j ≠ none) ∧
    (disabling0 5 0).disabling 5 0 ≠ none := by decide +kernel

/-- Rings for doorbells: 64 slots, the tail at a place past the head. -/
def bell (completion : Bool) (head tail : Nat) : State :=
  { live with host := { live.host with rings := [(32767, { RingCtx.init with k := 6, enable := true, completion := completion, head := head, tail := tail })] } }

theorem witness_doorbell :
    let s := bell false 100 127
    let u := bell true 100 127
    (s.stw.good && (s.ring 32767).enable && !(s.ring 32767).completion && (u.ring 32767).completion && (s.ring 32767).head < 2 ^ 7 &&
     (s.ring 32767).tail < 2 ^ 7 && 2 ^ 6 ≤ 64 % 2 ^ 20 && 2 ^ 20 + 36 < 2 ^ 21 &&
     -- the doorbell of a ring filled whole stands 64 past the head: 164 modulo 128
     (36 : Nat) < 2 ^ 6 && (36 + 128 - 100) % 128 = 64 && (36 + 128 - 127) % 128 + 27 = 64) = true := by decide +kernel

/-- A submission ring filled whole is not stale; one slot further is, and one behind the tail is (R349). -/
theorem test_doorbell_stale : [(36, false), (37, true), (2 ^ 20 + 62, true), (64, true), (2 ^ 20 + 63, false)].all (fun x =>
    gives (.submissionDoorbell 32767 (BitVec.ofNat 64 x.1) 8) (bell false 100 127) (fun u => (u.ring 32767).staleDb == x.2)) = true := by
  decide +kernel

/-- A completion ring's head may reach its tail and no further (R349). -/
theorem test_completion_doorbell : [(2 ^ 20 + 63, false), (0, true), (2 ^ 20 + 36, false), (2 ^ 20 + 35, true)].all (fun x =>
    gives (.completionDoorbell 32767 (BitVec.ofNat 64 x.1) 8) (bell true 100 127) (fun u => (u.ring 32767).staleDb == x.2)) = true := by
  decide +kernel

/-! ## Well-formedness: an ill-formed term for each check -/

def d0 : HostDesc := desc 0x0A 0 []
def badRing : HostDesc := { d0 with ring := 32768 }
def bigRef : Ref := { ref0 6 with buf := 32 }
def farRef : Ref := { ref0 6 with off := 4096 }
def nearRef : Ref := { ref0 6 with off := 128 }

/-- Ill-formed commands by ring, tile, port, gatherer, memory, channel, entry, group, quadrant, wire, number and offset. -/
theorem test_wf_indices : [Instr.loadFurrow badRing, .runPass badRing, .dataIn badRing, .dataInLogReplay badRing, .dataOut badRing,
    .stepOpen badRing, .stepClose badRing, .harvestBegin badRing, .harvestRecovery badRing, .restore badRing [],
    .standinClaim badRing, .cancel badRing, .syncDump badRing, .tallySignal badRing, .fence badRing, .disable badRing,
    .splitDescriptorTimeout badRing, .submissionDoorbell 32768 0 8, .submissionDoorbell 0 0 2, .completionDoorbell 32768 0 8,
    .heldDescriptorRelease 32768, .completionModerationTimeout 32768, .descriptorReadError 32768, .ringEnable 32768 0,
    .yield 1536, .pend 1536, .passSwitch 1536, .passResume 1536, .tileGate 1536, .budgetExceeded 1536 0, .preemptionBoundExceeded 1536 0,
    .waitTimeout 1536 0, .xferLineArrive 1536 0, .xferLineArrive 0 1536, .idleTestSlice 1600 none, .tagGrant 48, .bufferCycle 48,
    .memoryRequestServe 28 0 [], .memoryRequestServe 0 32 [], .memoryTrainingDone 28, .rangeEnable 12 0, .rangeDisable 0 64, .rangeInitDone 12 0,
    .windowEnable 0 64, .windowDisable 12 0, .copyAhead 65536, .selfRefreshEntry 12, .retrainingStart 28 0 false, .hostRetrain 12 0,
    .retrainingTimeout 0 32, .hostRetire 0 32, .resowGo 12, .resowMove 12, .patrolScrub 28 0 [], .stackTempReading 0 256,
    .hotDelayRestate 12, .retrainingSuccess 28 0].all (fun i => !i.wf) = true := by decide +kernel

theorem test_wf_ports : [Instr.linkControlReceive 18 0, .flitReceive 18 0, .ackTimeoutResend 18, .packetTransmit 18, .linkSilenceTimeout 18,
    .pcsLockLoss 18, .fecLimitExceeded 18 0 0, .portRetrainRetry 18, .portRetrain 18, .clearQuarantine 18, .replayBufferRelease 18, .write 18,
    .readReq 18, .readResp 18, .writeAck 18, .signal 18, .bareSignal 18, .coll 18, .sealReport 18, .mirror 18, .recovery 18, .cancelNotice 18,
    .cancelAck 18, .holdoff 18, .abandon 18, .nakPkt 18, .claim 18, .claimRefuse 18, .pcsFecLock 18, .linkControlSend 18,
    .collGroupEnable 4096, .collGroupDisable 4096, .collCommandStart 4096, .collCommandDone 4096, .collGroupTimeout 4096,
    .stepEnterCheck (2 ^ 40), .sealEvaluate (2 ^ 40), .dieTempThrottle 4 0, .dieTempThrottle 0 256, .pllLock 4, .wakeWalkStep 4, .pllStop 4,
    .binderWireRelease 16, .moduleFaultDeclare (.criticalStack 12), .moduleFaultDeclare (.failedDevice 28),
    .moduleFaultDeclare (.nodeIdLost 65536), .mboxWriteSlot 16777216, .mboxReadRecord 16777216, .getCertificate 256 0 0,
    .getCertificate 0 65536 0, .getCertificate 0 0 65536, .challenge 256 0, .getMeasurements 256, .msixUnmask 2048, .tileEnable 48 0,
    .barSplitLowWrite 0x4000000 0, .barSplitLowWrite 4 0, .registerWrite 0x4000000 4 0 0, .registerWrite 0 2 0 0,
    .registerWrite 4 8 0 0].all (fun i => !i.wf) = true := by decide +kernel

def badV : VOp := { ref := nearRef, shape := .tile }
def sig9 : SigF := { kind := 2, tally := 8, inc := 1, dx := 0, dy := 0, stream := 0, bare := false }
def wait9 : WaitF := { kind := 2, tally := 8, index := 0, step := 0, base := 1, timeout := false }
def take9 : TakeF := { kind := 2, tally := 8, amount := 1 }
def xfer9 : XferF := { src := ref0 7, dst := ref0 6, dx := 1, dy := 0, lines := 1 }

/-- The well-formed instructions that the ill-formed ones below differ from in one field. -/
theorem test_wf_good : ([.opx 1535 opxW, .alt 1535 altW, .shx 1535 shxW, .aclr 1535 3, .drn 1535 drnW, .vadd 1535 v2W, .vfma 1535 v3W,
    .vcvt 1535 (cvtW .plain 5), .vrdc 1535 vrdcW, .vpos 1535 vposW, .vrnd 1535 vrndW, .get 1535 (moveW 63), .xfer 1535 xfer9,
    .swap 1535 31, .sig 1535 sig9, .wait 1535 wait9, .take 1535 take9, .bind 1535 { wire := 15, timeout := false },
    .loop 1535 { depth := 2, body := 4095, count := 16777215 }, .brc 1535 { cond := 6, n := 3, disp := -32768 }] : List Instr).all Instr.wf = true := by
  decide +kernel

theorem test_wf_array : [Instr.opx 1536 opxW, .opx 0 { opxW with bank := 4 }, .opx 0 { opxW with a := bigRef }, .opx 0 { opxW with b := farRef },
    .opx 0 { opxW with k := 0 }, .opx 0 { opxW with k := 4097 }, .opx 0 { opxW with sa := 4 }, .opx 0 { opxW with sb := 4 },
    .alt 1536 altW, .alt 0 { altW with dxBank := 2 }, .alt 0 { altW with dwBank := 1 }, .alt 0 { altW with dwBank := 4 },
    .alt 0 { altW with dy := farRef }, .alt 0 { altW with w := bigRef }, .alt 0 { altW with x := farRef },
    .shx 1536 shxW, .shx 0 { shxW with bank := 4 }, .shx 0 { shxW with a := farRef }, .shx 0 { shxW with b := bigRef },
    .shx 0 { shxW with rows := 0 }, .shx 0 { shxW with rows := 4097 }, .shx 0 { shxW with taps := 0 }, .shx 0 { shxW with taps := 18 },
    .shx 0 { shxW with str := 0 }, .shx 0 { shxW with str := 5 }, .aclr 1536 0, .aclr 0 4,
    .drn 1536 drnW, .drn 0 { drnW with bank := 4 }, .drn 0 { drnW with dst := farRef }, .drn 0 { drnW with srSeq := 4096 },
    .drn 0 { drnW with gref := 32 }].all (fun i => !i.wf) = true := by decide +kernel

theorem test_wf_vector : [Instr.vadd 1536 v2W, .vmul 1536 v2W, .vmin 1536 v2W, .vmax 1536 v2W, .vfma 1536 v3W, .vsel 1536 v3W,
    .vcmp 1536 { ops := v2W, pred := .eq }, .vcvt 1536 (cvtW .plain 5), .vrdc 1536 vrdcW, .vpos 1536 vposW, .vrnd 1536 vrndW,
    .vadd 0 { v2W with d := badV }, .vmul 0 { v2W with a := badV }, .vmin 0 { v2W with b := badV }, .vfma 0 { v3W with c := badV },
    .vsel 0 { v3W with b := badV }, .vsel 0 { v3W with a := badV }, .vfma 0 { v3W with d := badV },
    .vcvt 0 { cvtW .plain 5 with d := badV }, .vcvt 0 { cvtW .plain 5 with a := badV }, .vcvt 0 { cvtW .plain 5 with srcFmt := 9 },
    .vcvt 0 (cvtW .plain 9), .vcvt 0 { cvtW .plain 5 with srSeq := 4096 }, .vcvt 0 { cvtW .plain 5 with gref := 32 },
    .vrdc 0 { vrdcW with d := badV }, .vrdc 0 { vrdcW with a := badV }, .vpos 0 { vposW with d := badV }, .vpos 0 { vposW with addend := badV },
    .vpos 0 { vposW with o := 2048 }, .vpos 0 { vposW with sr := -129 }, .vpos 0 { vposW with sc := 128 },
    .vrnd 0 { vrndW with d := badV }, .vrnd 0 { vrndW with pos := badV }, .vrnd 0 { vrndW with ctrl := nearRef }].all (fun i => !i.wf) = true := by
  decide +kernel

theorem test_wf_moves_and_control : [Instr.get 1536 (moveW 0), .put 1536 (moveW 0), .get 0 (moveW 64), .put 0 { moveW 0 with ref := bigRef },
    .get 0 { moveW 0 with lines := 0 }, .get 0 { moveW 0 with lines := 4097 }, .put 0 { moveW 0 with off := 2097152 },
    .xfer 1536 xfer9, .xfer 0 { xfer9 with src := farRef }, .xfer 0 { xfer9 with dst := bigRef }, .xfer 0 { xfer9 with dx := 64 },
    .xfer 0 { xfer9 with dy := -33 }, .xfer 0 { xfer9 with lines := 0 }, .xfer 0 { xfer9 with lines := 513 }, .swap 1536 0, .swap 0 32,
    .sig 1536 sig9, .sig 0 { sig9 with kind := 4 }, .sig 0 { sig9 with tally := 65536 }, .sig 0 { sig9 with kind := 1, tally := 64 },
    .sig 0 { sig9 with inc := 0 }, .sig 0 { sig9 with inc := 65536 }, .sig 0 { sig9 with dx := -65 }, .sig 0 { sig9 with dy := 32 },
    .sig 0 { sig9 with stream := 64 }, .wait 1536 wait9, .wait 0 { wait9 with kind := 1 }, .wait 0 { wait9 with kind := 0, tally := 64 },
    .wait 0 { wait9 with tally := 65536 }, .wait 0 { wait9 with index := 4 }, .wait 0 { wait9 with step := 65536 },
    .wait 0 { wait9 with base := 524288 }, .take 1536 take9, .take 0 { take9 with kind := 3 }, .take 0 { take9 with kind := 0, tally := 64 },
    .take 0 { take9 with tally := 65536 }, .take 0 { take9 with amount := 0 }, .take 0 { take9 with amount := 65536 },
    .bind 1536 { wire := 0, timeout := false }, .bind 0 { wire := 16, timeout := false },
    .loop 1536 { depth := 0, body := 1, count := 1 }, .loop 0 { depth := 3, body := 1, count := 1 }, .loop 0 { depth := 0, body := 0, count := 1 },
    .loop 0 { depth := 0, body := 4096, count := 1 }, .loop 0 { depth := 0, body := 1, count := 0 },
    .loop 0 { depth := 0, body := 1, count := 16777216 }, .brc 1536 { cond := 0, n := 0, disp := 1 }, .brc 0 { cond := 7, n := 0, disp := 1 },
    .brc 0 { cond := 0, n := 4, disp := 1 }, .brc 0 { cond := 0, n := 0, disp := 32768 }, .brc 0 { cond := 0, n := 0, disp := 0 }].all
      (fun i => !i.wf) = true := by decide +kernel

end Sys2Proof.Tests
end

section
/-! SUPPORT. The bytes of memory, and every function on the way from a step to its next state that stores none: one rule per
function, in the order of the model's files, each proved from the rules of the functions it calls. -/

namespace Sys2Proof.Laws

set_option Elab.async false

open Sys2Proof Sys2Proof.Machine Sys2Proof.Safety

/-- The bytes of memory that a state lists. The rules speak of them under this name, so that simp meets a function of the
model before it looks into the state that the function makes. -/
def cells (s : State) : List Host.Cell := s.memory.mem

theorem cells_congr {s u : State} (h : u.memory.mem = s.memory.mem) : cells u = cells s := h

@[simp] theorem cells_mk (c e : Nat) (r h t p n g) (m : Memory) (sy co fa st hr ev sw em pe) :
    cells ⟨c, e, r, h, t, p, n, g, m, sy, co, fa, st, hr, ev, sw, em, pe⟩ = m.mem := id rfl

@[simp] theorem memory_mem (s : State) : s.memory.mem = cells s := id rfl

@[simp] theorem cells_ite {c : Prop} [Decidable c] (s u : State) :
    cells (if c then s else u) = if c then cells s else cells u := by split <;> rfl

@[simp] theorem cells_each {β : Type} (l : List β) (f : β → State → State) (s : State)
    (hf : ∀ x u, cells (f x u) = cells u) : cells (each l f s) = cells s :=
  each_keeps (fun u => cells u = cells s) l f s rfl (fun x u h => (hf x u).trans h)

/-! ### Machine/Regs -/

@[simp] theorem cells_setRg (s : State) (n : RegName) (v i j : Nat) : cells (State.setRg s n v i j) = cells s :=
  cells_congr rfl
@[simp] theorem cells_setRgBits (s : State) (n : RegName) (lo w x i j : Nat) :
    cells (State.setRgBits s n lo w x i j) = cells s := cells_congr rfl
@[simp] theorem cells_flag (s : State) (n : RegName) (b i j : Nat) : cells (State.flag s n b i j) = cells s :=
  cells_congr rfl
@[simp] theorem cells_inc (s : State) (n : RegName) (k i j : Nat) : cells (State.inc s n k i j) = cells s :=
  cells_congr rfl
@[simp] theorem cells_incSat (s : State) (n : RegName) (k i j : Nat) :
    cells (State.incSat s n k i j) = cells s := by simp [State.incSat]
@[simp] theorem cells_raise (s : State) (n : RegName) (v i j : Nat) :
    cells (State.raise s n v i j) = cells s := by simp [State.raise]
@[simp] theorem cells_writeRg (s : State) (r : Reg) (v : Nat) :
    cells (State.writeRg s r v) = cells s := by simp [State.writeRg]

/-! ### Machine/Ops -/

@[simp] theorem cells_emit (s : State) (e : Emit) : cells (State.emit s e) = cells s := cells_congr rfl
@[simp] theorem cells_setMsix (s : State) (v : Nat) (e : MsixEntry) : cells (State.setMsix s v e) = cells s :=
  cells_congr rfl
@[simp] theorem cells_sendMsix (v : Nat) (s : State) : cells (sendMsix v s) = cells s := by simp [sendMsix]
@[simp] theorem cells_evtSignal (s : State) : cells (evtSignal s) = cells s := by simp [evtSignal]
@[simp] theorem cells_writeRecord (r : EventRec) (s : State) :
    cells (writeRecord r s) = cells s := by simp [writeRecord]
@[simp] theorem cells_drainHold (n : Nat) (s : State) : cells (drainHold n s) = cells s := by
  fun_induction drainHold <;> simp [*]
@[simp] theorem cells_keepRecord (r : EventRec) (s : State) : cells (keepRecord r s) = cells s := by simp [keepRecord]
@[simp] theorem cells_flushEvents (s : State) : cells (flushEvents s) = cells s := by simp [flushEvents]
@[simp] theorem cells_raiseEvent (code : EventCode) (index : Nat) (d : BitVec 128) (s : State) :
    cells (raiseEvent code index d s) = cells s := by simp [raiseEvent]
@[simp] theorem cells_setRing (s : State) (r : Nat) (c : RingCtx) : cells (State.setRing s r c) = cells s :=
  cells_congr rfl
@[simp] theorem cells_cqSignal (r : Nat) (s : State) : cells (cqSignal r s) = cells s := by simp [cqSignal]
@[simp] theorem cells_writeCompletion (r : Nat) (e : Completion) (s : State) :
    cells (writeCompletion r e s) = cells s := by simp [writeCompletion]
@[simp] theorem cells_drainCq (n r : Nat) (s : State) : cells (drainCq n r s) = cells s := by
  fun_induction drainCq <;> simp [*]
@[simp] theorem cells_pushCompletion (r : Nat) (e : Completion) (s : State) :
    cells (pushCompletion r e s) = cells s := by simp [pushCompletion]
@[simp] theorem cells_finish (i : Inflight) (st : Status) (reason : Nat) (result payload : List Byte) (s : State) :
    cells (finish i st reason result payload s) = cells s := by simp [finish]
@[simp] theorem cells_refuse (i : Inflight) (reason : Nat) (s : State) :
    cells (refuse i reason s) = cells s := by simp [refuse]
@[simp] theorem cells_updTile (s : State) (t : Nat) (f : Tile → Tile) : cells (State.updTile s t f) = cells s :=
  cells_congr rfl
@[simp] theorem cells_updPass (s : State) (q : Nat) (f : Pass → Pass) : cells (State.updPass s q f) = cells s :=
  cells_congr rfl
@[simp] theorem cells_updInflight (s : State) (d : Nat) (f : Inflight → Inflight) :
    cells (State.updInflight s d f) = cells s := cells_congr rfl
@[simp] theorem cells_dropInflight (s : State) (d : Nat) : cells (State.dropInflight s d) = cells s := cells_congr rfl
@[simp] theorem cells_setDev (s : State) (p : Nat) (d : Device) :
    cells (State.setDev s p d) = cells s := by simp [State.setDev]
@[simp] theorem cells_updDev (s : State) (p : Nat) (f : Device → Device) :
    cells (State.updDev s p f) = cells s := by simp [State.updDev]
@[simp] theorem cells_setPort (s : State) (p : Nat) (v : Port) : cells (State.setPort s p v) = cells s :=
  cells_congr rfl
@[simp] theorem cells_updPort (s : State) (p : Nat) (f : Port → Port) : cells (State.updPort s p f) = cells s :=
  cells_congr rfl
@[simp] theorem cells_setGroup (s : State) (g : Nat) (v : Group) : cells (State.setGroup s g v) = cells s :=
  cells_congr rfl
@[simp] theorem cells_updAttempt (s : State) (step : Nat) (f : Attempt → Attempt) :
    cells (State.updAttempt s step f) = cells s := cells_congr rfl
@[simp] theorem cells_setMtally (s : State) (k : Nat) (v : Tally) : cells (State.setMtally s k v) = cells s :=
  cells_congr rfl
@[simp] theorem cells_barErr (flag offset : Nat) (s : State) :
    cells (barErr flag offset s) = cells s := by simp [barErr]
@[simp] theorem cells_dropSplit (s : State) : cells (dropSplit s) = cells s := by
  unfold dropSplit; split <;> simp

/-! ### Machine/Image -/

@[simp] theorem cells_updHarvest (f : HarvestOp → HarvestOp) (s : State) :
    cells (updHarvest f s) = cells s := by simp [updHarvest]

/-! ### Machine/Memory -/

@[simp] theorem cells_reportDetected (l reader step : Nat) (s : State) :
    cells (reportDetected l reader step s) = cells s := by
  simp only [reportDetected]; (repeat' split) <;> simp
@[simp] theorem cells_latchFault (c : FaultCause) (s : State) :
    cells (latchFault c s) = cells s := by simp [latchFault]
@[simp] theorem cells_retirePc (k pc cause : Nat) (failed : Bool) (s : State) :
    cells (retirePc k pc cause failed s) = cells s := by
  simp only [retirePc]; (repeat' split) <;> simp
@[simp] theorem cells_reportCorrected (p l : Nat) (s : State) :
    cells (reportCorrected p l s) = cells s := by simp [reportCorrected]
@[simp] theorem cells_countPcCorr (k pc : Nat) (s : State) :
    cells (countPcCorr k pc s) = cells s := by simp [countPcCorr]
@[simp] theorem cells_countCorrected (l : Nat) (s : State) : cells (countCorrected l s) = cells s := by
  simp only [countCorrected]; (repeat' split) <;> simp
@[simp] theorem cells_reportFinding (f : Finding) (s : State) : cells (reportFinding f s) = cells s := by
  simp only [reportFinding]; (repeat' split) <;> simp
@[simp] theorem cells_markDetected (l : Nat) (s : State) :
    cells (markDetected l s) = cells s := by simp [markDetected]
@[simp] theorem cells_wakeDev (a n : Nat) (s : State) : cells (wakeDev a n s) = cells s := by
  unfold wakeDev; split <;> simp
@[simp] theorem cells_verifyFailed (dest op i : Nat) (got : Quad) (s : State) :
    cells (verifyFailed dest op i got s) = cells s := by simp [verifyFailed]
@[simp] theorem cells_setAsm (s : State) (l : List AsmBuf) :
    cells (State.setAsm s l) = cells s := by simp [State.setAsm]

/-! ### Machine/Packet -/

@[simp] theorem cells_enqueue (port : Nat) (ps : List OutPacket) (s : State) :
    cells (enqueue port ps s) = cells s := by simp [enqueue]
@[simp] theorem cells_sendXfer (type node vl : Nat) (ordered req : Bool) (purpose : Purpose) (ps : List Piece)
    (sig : Option (Nat × Nat)) (s : State) :
    cells (sendXfer type node vl ordered req purpose ps sig s).1 = cells s := by simp [sendXfer]
@[simp] theorem cells_sendPacketOf (pass : Option Nat) (type node xid idx : Nat) (port : Option Nat) (x : Piece)
    (sig : Option (Nat × Nat)) (s : State) :
    cells (sendPacketOf pass type node xid idx port x sig s) = cells s := by simp [sendPacketOf]
@[simp] theorem cells_sendPacket (type node xid idx : Nat) (port : Option Nat) (x : Piece)
    (sig : Option (Nat × Nat)) (s : State) :
    cells (sendPacket type node xid idx port x sig s) = cells s := by simp [sendPacket]
@[simp] theorem cells_sendMessage (type node : Nat) (x : Piece) (s : State) :
    cells (sendMessage type node x s) = cells s := by simp [sendMessage]

/-! ### Machine/Gather -/

@[simp] theorem cells_updXfer (s : State) (x : Nat) (f : Xfer → Xfer) : cells (State.updXfer s x f) = cells s :=
  cells_congr rfl
@[simp] theorem cells_dropXfer (s : State) (x : Nat) :
    cells (State.dropXfer s x) = cells s := by simp [State.dropXfer]
@[simp] theorem cells_addXfer (c : MoveCtx) (mpa : Nat) (bins : List Nat) (lines : Nat) (data : List Byte)
    (block : Option (Nat × Nat)) (s : State) :
    cells (addXfer c mpa bins lines data block s) = cells s := by simp [addXfer]
@[simp] theorem cells_fetchCancelled (q g : Nat) (s : State) : cells (fetchCancelled q g s) = cells s := by
  simp only [fetchCancelled]; (repeat' split) <;> simp
@[simp] theorem cells_returnTag (x : Xfer) (s : State) : cells (returnTag x s) = cells s := by simp [returnTag]
@[simp] theorem cells_noteDropped (q g bytes n : Nat) (s : State) :
    cells (noteDropped q g bytes n s) = cells s := by simp [noteDropped]
@[simp] theorem cells_discardXfer (x : Xfer) (s : State) : cells (discardXfer x s) = cells s := by simp [discardXfer]
@[simp] theorem cells_endXfer (x : Xfer) (s : State) : cells (endXfer x s) = cells s := by
  simp only [endXfer]; (repeat' split) <;> simp
@[simp] theorem cells_endXfers (q : Nat) (s : State) : cells (endXfers q s) = cells s := by simp [endXfers]

/-! ### Machine/Sync -/

@[simp] theorem cells_updSeq (s : State) (t q : Nat) (f : SeqState → SeqState) :
    cells (State.updSeq s t q f) = cells s := cells_congr rfl
@[simp] theorem cells_dropSeq (s : State) (t q : Nat) :
    cells (State.dropSeq s t q) = cells s := by simp [State.dropSeq]
@[simp] theorem cells_setTally (s : State) (dest : Option Nat) (k : Nat) (y : Tally) :
    cells (State.setTally s dest k y) = cells s := by
  unfold State.setTally; split <;> simp
@[simp] theorem cells_tallyDoubled (dest : Option Nat) (k : Nat) (y : Tally) (s : State) :
    cells (tallyDoubled dest k y s) = cells s := by simp [tallyDoubled]
@[simp] theorem cells_tallyOverrun (src : SigSource) (dest : Option Nat) (k : Nat) (y : Tally) (i : Nat) (s : State) :
    cells (tallyOverrun src dest k y i s) = cells s := by simp [tallyOverrun]
@[simp] theorem cells_evalWait (t q : Nat) (s : State) : cells (evalWait t q s) = cells s := by
  unfold evalWait; split <;> simp
@[simp] theorem cells_applyTakes (s : State) : cells (applyTakes s) = cells s := by simp [applyTakes]
@[simp] theorem cells_tallyCycle (s : State) : cells (tallyCycle s) = cells s := by simp [tallyCycle]
@[simp] theorem cells_applySignal (src : SigSource) (dest : Option Nat) (k i : Nat) (s : State) :
    cells (applySignal src dest k i s).1 = cells s := by
  simp only [applySignal]; (repeat' split) <;> simp
@[simp] theorem cells_queueTake (dest : Option Nat) (k a : Nat) (s : State) :
    cells (queueTake dest k a s) = cells s := by simp [queueTake]
@[simp] theorem cells_takeNeed (k need : Nat) (s : State) : cells (takeNeed k need s) = cells s := by simp [takeNeed]
@[simp] theorem cells_addSignal (x : PendSig) (s : State) : cells (addSignal x s) = cells s := by simp [addSignal]
@[simp] theorem cells_sendRemoteSignal (x : PendSig) (s : State) : cells (sendRemoteSignal x s) = cells s := by
  unfold sendRemoteSignal; split <;> simp
@[simp] theorem cells_sendRemoteSignals (s : State) :
    cells (sendRemoteSignals s) = cells s := by simp [sendRemoteSignals]
@[simp] theorem cells_dropSignals (q : Nat) (s : State) : cells (dropSignals q s) = cells s := by simp [dropSignals]
@[simp] theorem cells_bindWires (q : Nat) (ws : BitVec 16) (tiles : List Nat) (s : State) :
    cells (bindWires q ws tiles s) = cells s := by simp [bindWires]
@[simp] theorem cells_freeWires (q : Nat) (s : State) : cells (freeWires q s) = cells s := by simp [freeWires]

/-! ### Machine/Settle -/

@[simp] theorem cells_complete (d : Nat) (st : Status) (reason : Nat) (result payload : List Byte) (s : State) :
    cells (complete d st reason result payload s) = cells s := by
  unfold complete; split <;> simp
@[simp] theorem cells_completeWaited (d : Nat) (st : Status) (result : List Byte) (s : State) :
    cells (completeWaited d st result s) = cells s := by simp [completeWaited]
@[simp] theorem cells_applyDisabled (op : DisableOp) (s : State) : cells (applyDisabled op s) = cells s := by
  unfold applyDisabled; split <;> simp
@[simp] theorem cells_settleOne (d : Nat) (s : State) : cells (settleOne d s) = cells s := by
  simp only [settleOne]; (repeat' split) <;> simp
@[simp] theorem cells_settle (s : State) : cells (settle s) = cells s := by simp [settle]

/-! ### Machine/Pass -/

@[simp] theorem cells_dispatchNext (t : Nat) (s : State) :
    cells (dispatchNext t s) = cells s := by simp [dispatchNext]
@[simp] theorem cells_noteDispatch (i : Instr) (s : State) :
    cells (noteDispatch i s) = cells s := by simp [noteDispatch]
@[simp] theorem cells_advance (c : Ctx) (i : Instr) (s : State) : cells (advance c i s) = cells s := by simp [advance]
@[simp] theorem cells_setHold (c : Ctx) (h : Hold) (s : State) : cells (setHold c h s) = cells s := by simp [setHold]
@[simp] theorem cells_setArea (s : State) (a : Nat) (v : AreaSt) :
    cells (State.setArea s a v) = cells s := by simp [State.setArea]
@[simp] theorem cells_freeHeld (a : Nat) (s : State) : cells (freeHeld a s) = cells s := by simp [freeHeld]
@[simp] theorem cells_unbind (mb : Nat) (s : State) : cells (unbind mb s) = cells s := by simp [unbind]
@[simp] theorem cells_completePass (p : Pass) (st : Status) (t : Nat) (s : State) :
    cells (completePass p st t s) = cells s := by simp [completePass]
@[simp] theorem cells_settlePass (q : Nat) (s : State) : cells (settlePass q s) = cells s := by
  simp only [settlePass]; (repeat' split) <;> simp
@[simp] theorem cells_abandonOn (p : Pass) (t : Nat) (s : State) :
    cells (abandonOn p t s) = cells s := by simp [abandonOn]

/-! ### Machine/Lanes -/

@[simp] theorem cells_setBin (s : State) (t : Nat) (bin : SMap Byte) :
    cells (State.setBin s t bin) = cells s := by simp [State.setBin]

/-! ### Machine/Coll -/

@[simp] theorem cells_addGroupCounts (g : Nat) (k : StepCounts) (s : State) :
    cells (addGroupCounts g k s) = cells s := by simp [addGroupCounts]
@[simp] theorem cells_sendChunk (g : Nat) (e : CollEntry) (cmd m j : Nat) (data : List Byte) (s : State) :
    cells (sendChunk g e cmd m j data s) = cells s := by simp [sendChunk]
@[simp] theorem cells_sendChunks (g : Nat) (e : CollEntry) (cmd m j0 : Nat) (cs : List (List Byte)) (s : State) :
    cells (sendChunks g e cmd m j0 cs s) = cells s := by simp [sendChunks]
@[simp] theorem cells_sendInputs (g : Nat) (e : CollEntry) (k : Nat) (c : CollCmd) (s : State) :
    cells (sendInputs g e k c s) = cells s := by
  simp only [sendInputs]; (repeat' split) <;> simp

/-! ### Machine/Fault -/

@[simp] theorem cells_abortAll (s : State) : cells (abortAll s) = cells s := by simp [abortAll]
@[simp] theorem cells_idlePorts (s : State) : cells (idlePorts s) = cells s := by simp [idlePorts]
@[simp] theorem cells_restPorts (s : State) : cells (restPorts s) = cells s := by simp [restPorts]

/-! ### Machine/Ports -/

@[simp] theorem cells_popFlits (port vl n : Nat) (s : State) :
    cells (popFlits port vl n s) = cells s := by simp [popFlits]
@[simp] theorem cells_linkEvent (port state downUs resent viol : Nat) (s : State) :
    cells (linkEvent port state downUs resent viol s) = cells s := by simp [linkEvent]
@[simp] theorem cells_portDown (port cause : Nat) (s : State) :
    cells (portDown port cause s) = cells s := by simp [portDown]
@[simp] theorem cells_countViolation (port reason src type : Nat) (s : State) :
    cells (countViolation port reason src type s) = cells s := by simp [countViolation]
@[simp] theorem cells_violation (port reason : Nat) (p : Packet) (s : State) :
    cells (violation port reason p s) = cells s := by simp [violation]
@[simp] theorem cells_latePacket (port cause : Nat) (p : Packet) (s : State) :
    cells (latePacket port cause p s) = cells s := by simp [latePacket]
@[simp] theorem cells_sendAck (port node xid idx status : Nat) (s : State) :
    cells (sendAck port node xid idx status s) = cells s := by simp [sendAck]
@[simp] theorem cells_releaseAcks (s : State) : cells (releaseAcks s) = cells s := by simp [releaseAcks]

/-! ### Machine/Twin -/

@[simp] theorem cells_mapAttempts (s : State) (f : Attempt → Attempt) :
    cells (State.mapAttempts s f) = cells s := by simp [State.mapAttempts]
@[simp] theorem cells_logHigh (s : State) : cells (logHigh s) = cells s := by simp [logHigh]
@[simp] theorem cells_relaxLog (s : State) : cells (State.relaxLog s) = cells s := by simp [State.relaxLog]
@[simp] theorem cells_newOp (s : State) : cells (newOp s).2 = cells s := by simp [newOp]
@[simp] theorem cells_sendParts (type node vl : Nat) (purpose : Purpose) (ps : List Piece)
    (sig : Option (Nat × Nat)) (s : State) :
    cells (sendParts type node vl purpose ps sig s) = cells s := by simp [sendParts]
@[simp] theorem cells_sendCopy (off step : Nat) (bytes : List Byte) (purpose : Purpose) (s : State) :
    cells (sendCopy off step bytes purpose s).1 = cells s := by simp [sendCopy]
@[simp] theorem cells_releaseCopy (desc ack : Option Nat) (s : State) : cells (releaseCopy desc ack s) = cells s := by
  simp only [releaseCopy]; (repeat' split) <;> simp
@[simp] theorem cells_releaseCopies (s : State) : cells (releaseCopies s) = cells s := by simp [releaseCopies]
@[simp] theorem cells_unprotectedEvent (cause direction : Nat) (s : State) :
    cells (unprotectedEvent cause direction s) = cells s := by simp [unprotectedEvent]
@[simp] theorem cells_partnerLost (cause : Nat) (s : State) :
    cells (partnerLost cause s) = cells s := by simp [partnerLost]
@[simp] theorem cells_sendDigests (a : Attempt) (kind lo : Nat) (ds : List Quad) (s : State) :
    cells (sendDigests a kind lo ds s) = cells s := by simp [sendDigests]
@[simp] theorem cells_sendBlockDigests (a : Attempt) (mirror : Bool) (kind : Nat) (groups : List Nat) (s : State) :
    cells (sendBlockDigests a mirror kind groups s) = cells s := by simp [sendBlockDigests]
@[simp] theorem cells_endCompare (a : Attempt) (own mir : List Nat) (mirrorOk : Bool) (s : State) :
    cells (endCompare a own mir mirrorOk s) = cells s := by simp [endCompare]
@[simp] theorem cells_compareDigests (s : State) : cells (compareDigests s) = cells s := by
  simp only [compareDigests]; (repeat' split) <;> simp
@[simp] theorem cells_endStream (b : List Byte) (s : State) : cells (endStream b s) = cells s := by simp [endStream]

/-! ### Machine/Abandon -/

@[simp] theorem cells_mirrorDone (s : State) : cells (mirrorDone s) = cells s := by simp [mirrorDone]
@[simp] theorem cells_initialDone (s : State) : cells (initialDone s) = cells s := by simp [initialDone]
@[simp] theorem cells_repairDone (s : State) : cells (repairDone s) = cells s := by simp [repairDone]
@[simp] theorem cells_endRecovery (st : Status) (s : State) :
    cells (endRecovery st s) = cells s := by simp [endRecovery]
@[simp] theorem cells_recoveryDone (s : State) : cells (recoveryDone s) = cells s := by simp [recoveryDone]
@[simp] theorem cells_removeOut (o : OutXfer) (s : State) : cells (removeOut o s) = cells s := by simp [removeOut]
@[simp] theorem cells_sendAbandon (node xid reason : Nat) (port : Option Nat) (s : State) :
    cells (sendAbandon node xid reason port s) = cells s := by simp [sendAbandon]
@[simp] theorem cells_endOut (reason : Nat) (tell : Bool) (o : OutXfer) (s : State) :
    cells (endOut reason tell o s) = cells s := by simp [endOut]
@[simp] theorem cells_returnRequest (p : OutPacket) (s : State) : cells (returnRequest p s) = cells s := by
  unfold returnRequest; split <;> simp
@[simp] theorem cells_dropResponses (node xid : Nat) (s : State) :
    cells (dropResponses node xid s).1 = cells s := by simp [dropResponses]
@[simp] theorem cells_abandonLoose (port reason : Nat) (tell : Bool) (x : Nat × Nat × Nat) (s : State) :
    cells (abandonLoose port reason tell x s) = cells s := by simp [abandonLoose]
@[simp] theorem cells_abandonServed (port reason node xid : Nat) (s : State) :
    cells (abandonServed port reason node xid s) = cells s := by simp [abandonServed]
@[simp] theorem cells_streamAbandoned (i : InXfer) (s : State) :
    cells (streamAbandoned i s) = cells s := by simp [streamAbandoned]
@[simp] theorem cells_dropFenced (i : InXfer) (s : State) : cells (dropFenced i s) = cells s := by simp [dropFenced]
@[simp] theorem cells_setInc (node j : Nat) (s : State) : cells (setInc node j s) = cells s := by simp [setInc]

/-! ### Machine/Link -/

@[simp] theorem cells_retarget (old new : Nat) (p : OutPacket) (s : State) :
    cells (retarget old new p s) = cells s := by simp [retarget]
@[simp] theorem cells_moveQueue (port : Nat) (s : State) : cells (moveQueue port s) = cells s := by simp [moveQueue]
@[simp] theorem cells_sendControl (port : Nat) (s : State) :
    cells (sendControl port s) = cells s := by simp -implicitDefEqProofs [sendControl]
@[simp] theorem cells_linkControlSendOp (port : Nat) (s : State) :
    cells (linkControlSendOp port s) = cells s := by simp [linkControlSendOp]
@[simp] theorem cells_sendFlits (port : Nat) (fs : List (BitVec 512)) (s : State) :
    cells (sendFlits port fs s) = cells s := by simp [sendFlits]
@[simp] theorem cells_resendFrom (port : Nat) (keep : ReplayFlit → Bool) (s : State) :
    cells (resendFrom port keep s) = cells s := by simp [resendFrom]
@[simp] theorem cells_enablePort (p : Nat) (s : State) : cells (enablePort p s) = cells s := by simp [enablePort]
@[simp] theorem cells_pcsFecLockOp (port : Nat) (s : State) :
    cells (pcsFecLockOp port s) = cells s := by simp [pcsFecLockOp]
@[simp] theorem cells_upNow (port : Nat) (f : Port → Port) (s : State) :
    cells (upNow port f s) = cells s := by simp [upNow]
@[simp] theorem cells_upSame (port ack : Nat) (s : State) : cells (upSame port ack s) = cells s := by simp [upSame]
@[simp] theorem cells_onAck (port ack : Nat) (s : State) : cells (onAck port ack s) = cells s := by simp [onAck]
@[simp] theorem cells_onCredits (port : Nat) (abs : Bool) (c : List Nat) (r : Nat) (s : State) :
    cells (onCredits port abs c r s) = cells s := by simp [onCredits]
@[simp] theorem cells_returnDropped (port : Nat) (p : Packet) (s : State) :
    cells (returnDropped port p s) = cells s := by simp [returnDropped]
@[simp] theorem cells_noteFlit (port : Nat) (s : State) : cells (noteFlit port s) = cells s := by simp [noteFlit]
@[simp] theorem cells_noteSent (p : OutPacket) (s : State) : cells (noteSent p s) = cells s := by simp [noteSent]
@[simp] theorem cells_notePacket (p : OutPacket) (s : State) :
    cells (notePacket p s) = cells s := by simp [notePacket]
@[simp] theorem cells_sendPart (port : Nat) (p : OutPacket) (fs : List ReplayFlit) (s : State) :
    cells (sendPart port p fs s) = cells s := by simp [sendPart]
@[simp] theorem cells_transmit (port : Nat) (p : OutPacket) (s : State) :
    cells (transmit port p s) = cells s := by simp [transmit]
@[simp] theorem cells_ackTimeoutResendOp (port : Nat) (s : State) :
    cells (ackTimeoutResendOp port s) = cells s := by simp [ackTimeoutResendOp]
@[simp] theorem cells_linkSilenceTimeoutOp (port : Nat) (s : State) :
    cells (linkSilenceTimeoutOp port s) = cells s := by simp [linkSilenceTimeoutOp]
@[simp] theorem cells_pcsLockLossOp (port : Nat) (s : State) :
    cells (pcsLockLossOp port s) = cells s := by simp [pcsLockLossOp]
@[simp] theorem cells_fecLimitExceededOp (port codewords corrected : Nat) (s : State) :
    cells (fecLimitExceededOp port codewords corrected s) = cells s := by simp [fecLimitExceededOp]
@[simp] theorem cells_portRetrainRetryOp (port : Nat) (s : State) :
    cells (portRetrainRetryOp port s) = cells s := by simp [portRetrainRetryOp]
@[simp] theorem cells_portRetrainOp (port : Nat) (s : State) :
    cells (portRetrainOp port s) = cells s := by simp [portRetrainOp]
@[simp] theorem cells_clearQuarantineOp (port : Nat) (s : State) :
    cells (clearQuarantineOp port s) = cells s := by simp [clearQuarantineOp]
@[simp] theorem cells_stallTimeoutOp (x : Nat) (s : State) : cells (stallTimeoutOp x s) = cells s := by
  unfold stallTimeoutOp; split <;> simp
@[simp] theorem cells_fabNodeIdWriteOp (v : Word) (s : State) :
    cells (fabNodeIdWriteOp v s) = cells s := by simp [fabNodeIdWriteOp]

/-! ### Machine/Power -/

@[simp] theorem cells_setPll (s : State) (q : Nat) (v : PllSt) :
    cells (State.setPll s q v) = cells s := by simp [State.setPll]
@[simp] theorem cells_startPll (q : Nat) (s : State) : cells (startPll q s) = cells s := by simp [startPll]
@[simp] theorem cells_wakeTile (t : Nat) (s : State) : cells (wakeTile t s) = cells s := by simp [wakeTile]
@[simp] theorem cells_endSlice (t : Nat) (s : State) : cells (endSlice t s) = cells s := by simp [endSlice]
@[simp] theorem cells_latchBoundary (s : State) : cells (latchBoundary s) = cells s := by simp [latchBoundary]
@[simp] theorem cells_retiredEvent (t col outcome : Nat) (s : State) :
    cells (retiredEvent t col outcome s) = cells s := by simp [retiredEvent]
@[simp] theorem cells_setNv (s : State) (v : Nv) : cells (State.setNv s v) = cells s := by simp [State.setNv]
@[simp] theorem cells_retireTile (t col : Nat) (s : State) :
    cells (retireTile t col s) = cells s := by simp [retireTile]
@[simp] theorem cells_tileRetirementApplyOp (s : State) :
    cells (tileRetirementApplyOp s) = cells s := by simp [tileRetirementApplyOp]

/-! ### Machine/Service -/

@[simp] theorem cells_payTurn (p n : Nat) (s : State) : cells (payTurn p n s) = cells s := by simp [payTurn]
@[simp] theorem cells_payRemote (a n : Nat) (s : State) : cells (payRemote a n s) = cells s := by
  unfold payRemote; split <;> simp

/-! ### Machine/MemRows -/

@[simp] theorem cells_startTraining (p : Nat) (s : State) :
    cells (startTraining p s) = cells s := by simp [startTraining]
@[simp] theorem cells_memTrainStacksOp (mask : BitVec 12) (s : State) :
    cells (memTrainStacksOp mask s) = cells s := by simp [memTrainStacksOp]
@[simp] theorem cells_memTrainPackagesOp (mask : BitVec 16) (s : State) :
    cells (memTrainPackagesOp mask s) = cells s := by simp [memTrainPackagesOp]
@[simp] theorem cells_trainRetired (k : Nat) (s : State) : cells (trainRetired k s) = cells s := by
  unfold trainRetired; split <;> simp
@[simp] theorem cells_rangeInitDoneOp (k e : Nat) (s : State) :
    cells (rangeInitDoneOp k e s) = cells s := by simp [rangeInitDoneOp]
@[simp] theorem cells_windowEnableOp (k w : Nat) (s : State) :
    cells (windowEnableOp k w s) = cells s := by simp [windowEnableOp]
@[simp] theorem cells_noteQuiet (k : Nat) (s : State) : cells (noteQuiet k s) = cells s := by simp [noteQuiet]
@[simp] theorem cells_selfRefreshEntryOp (k : Nat) (s : State) :
    cells (selfRefreshEntryOp k s) = cells s := by simp [selfRefreshEntryOp]
@[simp] theorem cells_startRetrain (p pc : Nat) (s : State) :
    cells (startRetrain p pc s) = cells s := by simp [startRetrain]
@[simp] theorem cells_retrainingStartOp (p pc : Nat) (phy : Bool) (s : State) :
    cells (retrainingStartOp p pc phy s) = cells s := by simp [retrainingStartOp]
@[simp] theorem cells_hostRetrainOp (k pc : Nat) (s : State) :
    cells (hostRetrainOp k pc s) = cells s := by simp [hostRetrainOp]
@[simp] theorem cells_retrainEvent (p pc result : Nat) (s : State) :
    cells (retrainEvent p pc result s) = cells s := by simp [retrainEvent]
@[simp] theorem cells_retrainingSuccessOp (p pc : Nat) (s : State) :
    cells (retrainingSuccessOp p pc s) = cells s := by simp [retrainingSuccessOp]
@[simp] theorem cells_resowGoOp (k : Nat) (s : State) : cells (resowGoOp k s) = cells s := by simp [resowGoOp]
@[simp] theorem cells_sendHoldoff (k delay episode : Nat) (s : State) :
    cells (sendHoldoff k delay episode s) = cells s := by simp [sendHoldoff]
@[simp] theorem cells_extendPasses (f : Pass → Bool) (us : Nat) (s : State) :
    cells (extendPasses f us s) = cells s := by simp [extendPasses]
@[simp] theorem cells_extendGroups (f : Nat → Bool) (us : Nat) (s : State) :
    cells (extendGroups f us s) = cells s := by simp [extendGroups]
@[simp] theorem cells_stateDelay (k d : Nat) (s : State) : cells (stateDelay k d s) = cells s := by simp [stateDelay]
@[simp] theorem cells_levelEvent (code : EventCode) (k dir : Nat) (s : State) :
    cells (levelEvent code k dir s) = cells s := by simp [levelEvent]
@[simp] theorem cells_settleRemote (k : Nat) (s : State) :
    cells (settleRemote k s) = cells s := by simp [settleRemote]
@[simp] theorem cells_enterHot (k : Nat) (s : State) : cells (enterHot k s) = cells s := by simp [enterHot]
@[simp] theorem cells_levelDown (k : Nat) (s : State) : cells (levelDown k s) = cells s := by
  simp only [levelDown]; (repeat' split) <;> simp
@[simp] theorem cells_hotDelayRestateOp (k : Nat) (s : State) :
    cells (hotDelayRestateOp k s) = cells s := by simp [hotDelayRestateOp]

/-! ### Machine/Receive -/

@[simp] theorem cells_progress (i : InXfer) (last : Bool) (s : State) :
    cells (progress i last s) = cells s := by simp [progress]
@[simp] theorem cells_openIn (port : Nat) (p : Packet) (s : State) :
    cells (openIn port p s) = cells s := by simp [openIn]
@[simp] theorem cells_packetSignalOf (stream : Option (List Byte)) (p : Packet) (s : State) :
    cells (packetSignalOf stream p s) = cells s := by simp [packetSignalOf]
@[simp] theorem cells_packetSignal (p : Packet) (s : State) :
    cells (packetSignal p s) = cells s := by simp [packetSignal]
@[simp] theorem cells_newAck (s : State) : cells (newAck s).2 = cells s := by simp [newAck]
@[simp] theorem cells_keepAck (id port : Nat) (copy : Bool) (p : Packet) (s : State) :
    cells (keepAck id port copy p s) = cells s := by simp [keepAck]

/-! ### Machine/Gauge -/

@[simp] theorem cells_gradOverflow (a : Attempt) (w : Watch) (s : State) : cells (gradOverflow a w s) = cells s := by
  simp only [gradOverflow]; (repeat' split) <;> simp

/-! ### Machine/Rings -/

@[simp] theorem cells_noteTurn (r : Nat) (s : State) : cells (noteTurn r s) = cells s := by simp [noteTurn]
@[simp] theorem cells_noteShort (r n : Nat) (s : State) : cells (noteShort r n s) = cells s := by simp [noteShort]
@[simp] theorem cells_takeSlots (r n : Nat) (s : State) : cells (takeSlots r n s) = cells s := by simp [takeSlots]
@[simp] theorem cells_addInflight (i : Inflight) (s : State) :
    cells (addInflight i s) = cells s := by simp [addInflight]
@[simp] theorem cells_abortHeld (step : Nat) (s : State) : cells (abortHeld step s) = cells s := by simp [abortHeld]

/-! ### Machine/Seal -/

@[simp] theorem cells_stpErr (s : State) : cells (stpErr s) = cells s := by simp [stpErr]
@[simp] theorem cells_startJob (key : Quad) (restored : Option Nat) (s : State) :
    cells (startJob key restored s) = cells s := by simp -implicitDefEqProofs [startJob]
@[simp] theorem cells_endJob (s : State) : cells (endJob s) = cells s := by simp [endJob]
@[simp] theorem cells_flipAreas (s : State) : cells (flipAreas s) = cells s := by simp [flipAreas]
@[simp] theorem cells_finishClose (step : Nat) (st : Status) (s : State) :
    cells (finishClose step st s) = cells s := by simp [finishClose]
@[simp] theorem cells_zeroTallies (s : State) : cells (zeroTallies s) = cells s := by simp [zeroTallies]
@[simp] theorem cells_setTried (step num cause : Nat) (s : State) :
    cells (setTried step num cause s) = cells s := by simp [setTried]
@[simp] theorem cells_refusedEvent (causes sum : Nat) (a : Attempt) (s : State) :
    cells (refusedEvent causes sum a s) = cells s := by simp [refusedEvent]
@[simp] theorem cells_sendSeal (node kind num step flags sum count causes : Nat) (s : State) :
    cells (sendSeal node kind num step flags sum count causes s) = cells s := by simp [sendSeal]

/-! ### Machine/HostSteps -/

@[simp] theorem cells_finishNow (i : Inflight) (st : Status) (s : State) :
    cells (finishNow i st s) = cells s := by simp [finishNow]
@[simp] theorem cells_bindFirst (n : Nat) (s : State) : cells (bindFirst n s) = cells s := by simp [bindFirst]
@[simp] theorem cells_resetGroups (n : Nat) (s : State) : cells (resetGroups n s) = cells s := by simp [resetGroups]
@[simp] theorem cells_actClose (d : HostDesc) (i : Inflight) (s : State) :
    cells (actClose d i s) = cells s := by simp [actClose]
@[simp] theorem cells_finishVisible (i : Inflight) (ack : Nat) (s : State) :
    cells (finishVisible i ack s) = cells s := by simp [finishVisible]

/-! ### Machine/Admit -/

@[simp] theorem cells_takeSlot (p : Pass) (t : Nat) (s : State) :
    cells (takeSlot p t s) = cells s := by simp [takeSlot]

/-! ### Machine/HostRows -/

@[simp] theorem cells_actDump (d : HostDesc) (i : Inflight) (s : State) :
    cells (actDump d i s) = cells s := by simp [actDump]
@[simp] theorem cells_actSignal (d : HostDesc) (i : Inflight) (s : State) :
    cells (actSignal d i s) = cells s := by simp [actSignal]
@[simp] theorem cells_actFence (d : HostDesc) (i : Inflight) (s : State) :
    cells (actFence d i s) = cells s := by simp [actFence]
@[simp] theorem cells_doorbellIgnored (s : State) : cells (doorbellIgnored s) = cells s := by simp [doorbellIgnored]
@[simp] theorem cells_doorbellStale (r : Nat) (s : State) :
    cells (doorbellStale r s) = cells s := by simp [doorbellStale]
@[simp] theorem cells_splitDescriptorTimeoutOp (d : HostDesc) (s : State) :
    cells (splitDescriptorTimeoutOp d s) = cells s := by simp [splitDescriptorTimeoutOp]
@[simp] theorem cells_completionModerationTimeoutOp (r : Nat) (s : State) :
    cells (completionModerationTimeoutOp r s) = cells s := by simp [completionModerationTimeoutOp]
@[simp] theorem cells_descriptorReadErrorOp (r : Nat) (s : State) :
    cells (descriptorReadErrorOp r s) = cells s := by simp [descriptorReadErrorOp]
@[simp] theorem cells_enableRing (r : Nat) (c : RingCtx) (s : State) :
    cells (enableRing r c s) = cells s := by simp [enableRing]
@[simp] theorem cells_writeRing (r q v : Nat) (s : State) : cells (writeRing r q v s) = cells s := by simp [writeRing]
@[simp] theorem cells_writeRingBus (r q v : Nat) (s : State) :
    cells (writeRingBus r q v s) = cells s := by simp [writeRingBus]
@[simp] theorem cells_ringEnableOp (r : Nat) (value : Quad) (s : State) :
    cells (ringEnableOp r value s) = cells s := by simp [ringEnableOp]
@[simp] theorem cells_ringEngineEnableOp (s : State) :
    cells (ringEngineEnableOp s) = cells s := by simp [ringEngineEnableOp]

/-! ### Machine/Move -/

@[simp] theorem cells_formBlock (k : MoveCtx) (base : Nat) (bin : SMap Byte) (b : List (Nat × Nat)) (s : State) :
    cells (formBlock k base bin b s) = cells s := by simp [formBlock]
@[simp] theorem cells_newXid (s : State) : cells (newXid s).2 = cells s := by simp [newXid]
@[simp] theorem cells_openOut (node xid : Nat) (gs : List (Nat × List Nat)) (ids : List Nat) (s : State) :
    cells (openOut node xid gs ids s) = cells s := by simp [openOut]
@[simp] theorem cells_formMove (k : MoveCtx) (x : Stream) (bin : SMap Byte) (ls : List (Nat × Nat)) (s : State) :
    cells (formMove k x bin ls s) = cells s := by simp [formMove]
@[simp] theorem cells_xferEff (f : XferF) (c : Ctx) (s : State) : cells (xferEff f c s) = cells s := by
  unfold xferEff; split <;> simp

/-! ### Machine/Serve -/

@[simp] theorem cells_grantTag (x : Xfer) (r : Bool) (s : State) :
    cells (grantTag x r s) = cells s := by simp [grantTag]
@[simp] theorem cells_requestXfer (x : Xfer) (s : State) : cells (requestXfer x s) = cells s := by simp [requestXfer]
@[simp] theorem cells_requestLocal (x : Xfer) (r : Bool) (s : State) : cells (requestLocal x r s) = cells s := by
  unfold requestLocal; split <;> simp
@[simp] theorem cells_sendWrite (node xid : Nat) (xs : List Xfer) (s : State) :
    cells (sendWrite node xid xs s) = cells s := by
  unfold sendWrite; split <;> simp
@[simp] theorem cells_sendRead (node xid : Nat) (xs : List Xfer) (s : State) :
    cells (sendRead node xid xs s) = cells s := by simp [sendRead]
@[simp] theorem cells_sendGroup (node : Nat) (b : Nat × Nat) (s : State) : cells (sendGroup node b s) = cells s := by
  simp only [sendGroup]; (repeat' split) <;> simp
@[simp] theorem cells_sendGroups (g : Nat) (s : State) : cells (sendGroups g s) = cells s := by simp [sendGroups]
@[simp] theorem cells_grants (n g : Nat) (s : State) : cells (grants n g s) = cells s := by
  fun_induction grants with
  | case3 _ _ _ _ _ _ _ ih => rw [ih]; simp
  | _ => rfl
@[simp] theorem cells_tagGrantOp (g : Nat) (s : State) : cells (tagGrantOp g s) = cells s := by simp [tagGrantOp]
@[simp] theorem cells_countMoved (x : Xfer) (s : State) : cells (countMoved x s) = cells s := by
  unfold countMoved; split <;> simp
@[simp] theorem cells_putLines (t f : Nat) (bins : List Nat) (data : List (List Byte)) (bad : List Bool) (s : State) :
    cells (putLines t f bins data bad s) = cells s := by simp [putLines]
@[simp] theorem cells_spawnGranules (x : Xfer) (i : Nat) (s : State) :
    cells (spawnGranules x i s) = cells s := by simp [spawnGranules]
@[simp] theorem cells_memoryWriteAckOp (x : Nat) (s : State) : cells (memoryWriteAckOp x s) = cells s := by
  unfold memoryWriteAckOp; split <;> simp
@[simp] theorem cells_refetchXfer (x : Xfer) (s : State) : cells (refetchXfer x s) = cells s := by
  unfold refetchXfer; split <;> simp
@[simp] theorem cells_renewRead (xs : List Xfer) (s : State) : cells (renewRead xs s) = cells s := by
  unfold renewRead; split <;> simp
@[simp] theorem cells_bufferCycleOp (g : Nat) (s : State) : cells (bufferCycleOp g s) = cells s := by
  simp only [bufferCycleOp]; (repeat' split) <;> simp

/-! ### Machine/Harvest -/

@[simp] theorem cells_countSig (s : State) : cells (countSig s) = cells s := by simp [countSig]
@[simp] theorem cells_sendBack (h : HarvestOp) (s : State) : cells (sendBack h s) = cells s := by simp [sendBack]
@[simp] theorem cells_harvestEngineEnableOp (s : State) :
    cells (harvestEngineEnableOp s) = cells s := by simp [harvestEngineEnableOp]
@[simp] theorem cells_endRestore (st : Status) (s : State) : cells (endRestore st s) = cells s := by
  unfold endRestore; split <;> simp

/-! ### Machine/Firmware -/

@[simp] theorem cells_stwErr (s : State) : cells (stwErr s) = cells s := by simp [stwErr]
@[simp] theorem cells_mboxErr (s : State) : cells (mboxErr s) = cells s := by simp [mboxErr]
@[simp] theorem cells_writeFlash (a : Nat) (b : List Byte) (s : State) :
    cells (writeFlash a b s) = cells s := by simp [writeFlash]
@[simp] theorem cells_mboxSlotAct (arg : Nat) (s : State) : cells (mboxSlotAct arg s).1 = cells s := by
  simp [mboxSlotAct, apply_ite Prod.fst]
@[simp] theorem cells_mboxVerifyAct (s : State) : cells (mboxVerifyAct s).1 = cells s := by simp [mboxVerifyAct]
@[simp] theorem cells_mboxPreferAct (s : State) : cells (mboxPreferAct s).1 = cells s := by
  unfold mboxPreferAct; split <;> simp
@[simp] theorem cells_mboxCommitAct (s : State) : cells (mboxCommitAct s).1 = cells s := by
  unfold mboxCommitAct; split <;> simp
@[simp] theorem cells_mboxRecordAct (arg : Nat) (s : State) : cells (mboxRecordAct arg s).1 = cells s := by
  unfold mboxRecordAct; split <;> simp
@[simp] theorem cells_mboxCommandCompleteOp (s : State) : cells (mboxCommandCompleteOp s) = cells s := by
  unfold mboxCommandCompleteOp; split <;> simp
@[simp] theorem cells_spdmAnswer (code : Nat) (b : List Byte) (s : State) :
    cells (spdmAnswer code b s) = cells s := by simp [spdmAnswer]
@[simp] theorem cells_spdmError (code : Nat) (s : State) : cells (spdmError code s) = cells s := by simp [spdmError]
@[simp] theorem cells_spdmStage (s : State) (n : Nat) :
    cells (State.spdmStage s n) = cells s := by simp [State.spdmStage]
@[simp] theorem cells_countNonce (s : State) : cells (countNonce s) = cells s := by simp [countNonce]
@[simp] theorem cells_measurementsAct (k : Nat) (s : State) : cells (measurementsAct k s) = cells s := by
  simp only [measurementsAct]; (repeat' split) <;> simp
@[simp] theorem cells_takeAddress (a : BitVec 7) (s : State) :
    cells (takeAddress a s) = cells s := by simp [takeAddress]
@[simp] theorem cells_entdaaOp (a : BitVec 7) (s : State) : cells (entdaaOp a s) = cells s := by simp [entdaaOp]
@[simp] theorem cells_setdasaOp (static a : BitVec 7) (s : State) :
    cells (setdasaOp static a s) = cells s := by simp [setdasaOp]

/-! ### Machine/Steward -/

@[simp] theorem cells_alert (b : Nat) (s : State) : cells (alert b s) = cells s := by simp [alert]
@[simp] theorem cells_authFail (b : BootResult) (s : State) : cells (authFail b s) = cells s := by simp [authFail]
@[simp] theorem cells_goGood (slot : Nat) (s : State) : cells (goGood slot s) = cells s := by simp [goGood]
@[simp] theorem cells_boot (s : State) : cells (boot s) = cells s := by
  simp only [boot]; split <;> simp -implicitDefEqProofs
@[simp] theorem cells_perstDeassertOp (s : State) : cells (perstDeassertOp s) = cells s := by simp [perstDeassertOp]
@[simp] theorem cells_pmD3hotEntryOp (s : State) : cells (pmD3hotEntryOp s) = cells s := by simp [pmD3hotEntryOp]
@[simp] theorem cells_drainRings (s : State) : cells (drainRings s) = cells s := by simp [drainRings]
@[simp] theorem cells_drainMsix (s : State) : cells (drainMsix s) = cells s := by simp [drainMsix]
@[simp] theorem cells_pmD0ReturnOp (s : State) : cells (pmD0ReturnOp s) = cells s := by simp [pmD0ReturnOp]
@[simp] theorem cells_setThr (s : State) (t : Throttle) : cells (State.setThr s t) = cells s := by simp [State.setThr]
@[simp] theorem cells_throttleEvent (s : State) : cells (throttleEvent s) = cells s := by simp [throttleEvent]
@[simp] theorem cells_applyThrottle (t : Throttle) (s : State) :
    cells (applyThrottle t s) = cells s := by simp [applyThrottle]
@[simp] theorem cells_throttleBy (f : Throttle → Throttle) (s : State) :
    cells (throttleBy f s) = cells s := by simp [throttleBy]
@[simp] theorem cells_throttlePinAssertOp (s : State) :
    cells (throttlePinAssertOp s) = cells s := by simp [throttlePinAssertOp]
@[simp] theorem cells_throttlePinReleaseOp (s : State) :
    cells (throttlePinReleaseOp s) = cells s := by simp [throttlePinReleaseOp]
@[simp] theorem cells_undervoltageThrottleOp (s : State) :
    cells (undervoltageThrottleOp s) = cells s := by simp [undervoltageThrottleOp]
@[simp] theorem cells_undervoltageReleaseOp (s : State) :
    cells (undervoltageReleaseOp s) = cells s := by simp [undervoltageReleaseOp]
@[simp] theorem cells_capMove (t : Throttle) (s : State) : cells (capMove t s) = cells s := by simp [capMove]
@[simp] theorem cells_powerCapStepOp (w : Nat) (s : State) :
    cells (powerCapStepOp w s) = cells s := by simp [powerCapStepOp]
@[simp] theorem cells_noteCool (low : Bool) (s : State) : cells (noteCool low s) = cells s := by simp [noteCool]
@[simp] theorem cells_thermalStep (s : State) : cells (thermalStep s) = cells s := by simp [thermalStep]
@[simp] theorem cells_throttleLevelStepOp (s : State) :
    cells (throttleLevelStepOp s) = cells s := by simp [throttleLevelStepOp]
@[simp] theorem cells_energySampleOp (mV mA : Nat) (s : State) :
    cells (energySampleOp mV mA s) = cells s := by simp [energySampleOp]

/-! ### Machine/Clocks -/

@[simp] theorem cells_setWalks (s : State) (m : SMap (Nat × Nat)) :
    cells (State.setWalks s m) = cells s := by simp [State.setWalks]
@[simp] theorem cells_pllLockOp (q : Nat) (s : State) : cells (pllLockOp q s) = cells s := by simp [pllLockOp]
@[simp] theorem cells_releaseTile (t : Nat) (s : State) : cells (releaseTile t s) = cells s := by simp [releaseTile]
@[simp] theorem cells_wakeWalkStepOp (q : Nat) (s : State) : cells (wakeWalkStepOp q s) = cells s := by
  unfold wakeWalkStepOp; split <;> simp
@[simp] theorem cells_noteUnused (q : Nat) (s : State) : cells (noteUnused q s) = cells s := by simp [noteUnused]
@[simp] theorem cells_pllStopOp (q : Nat) (s : State) : cells (pllStopOp q s) = cells s := by simp [pllStopOp]
@[simp] theorem cells_noteTile (t : Nat) (s : State) : cells (noteTile t s) = cells s := by simp [noteTile]
@[simp] theorem cells_tileGateOp (t : Nat) (s : State) : cells (tileGateOp t s) = cells s := by simp [tileGateOp]
@[simp] theorem cells_runSlice (t : Nat) (s : State) : cells (runSlice t s) = cells s := by simp [runSlice]
@[simp] theorem cells_loseLine (t a : Nat) (s : State) : cells (loseLine t a s) = cells s := by simp [loseLine]
@[simp] theorem cells_testFailed (t part : Nat) (addr : BitVec 24) (sig : Quad) (s : State) :
    cells (testFailed t part addr sig s) = cells s := by simp [testFailed]
@[simp] theorem cells_idleTestSliceOp (t : Nat) (failed : Option (Nat × BitVec 24 × Quad)) (s : State) :
    cells (idleTestSliceOp t failed s) = cells s := by
  simp only [idleTestSliceOp]; (repeat' split) <;> simp

/-! ### Machine/Packets -/

@[simp] theorem cells_servePort (port : Nat) (p : Packet) (s : State) :
    cells (servePort port p s).2 = cells s := by simp [servePort]
@[simp] theorem cells_giveData (l : List Xfer) (b : List Byte) (keep : List Bool) (s : State) :
    cells (giveData l b keep s) = cells s := by
  fun_induction giveData <;> simp [*]
@[simp] theorem cells_closeRead (src xid : Nat) (s : State) :
    cells (closeRead src xid s) = cells s := by simp [closeRead]
@[simp] theorem cells_returnCancelled (src xid idx : Nat) (s : State) :
    cells (returnCancelled src xid idx s) = cells s := by simp [returnCancelled]
@[simp] theorem cells_ownerDone (o : OutXfer) (s : State) : cells (ownerDone o s) = cells s := by
  unfold ownerDone; split <;> simp
@[simp] theorem cells_returnTags (o : OutXfer) (idx : Nat) (s : State) :
    cells (returnTags o idx s) = cells s := by simp [returnTags]
@[simp] theorem cells_extendHolds (k : Nat) (s : State) : cells (extendHolds k s) = cells s := by simp [extendHolds]
@[simp] theorem cells_applyHoldoff (node d : Nat) (s : State) :
    cells (applyHoldoff node d s) = cells s := by simp [applyHoldoff]
@[simp] theorem cells_refuseClaim (port node inc : Nat) (s : State) :
    cells (refuseClaim port node inc s) = cells s := by simp [refuseClaim]
@[simp] theorem cells_undoClaim (c : ClaimOp) (s : State) : cells (undoClaim c s) = cells s := by simp [undoClaim]

/-! ### Machine/StepRows -/

@[simp] theorem cells_stpJobStartOp (s : State) : cells (stpJobStartOp s) = cells s := by simp [stpJobStartOp]
@[simp] theorem cells_stpJobEndOp (s : State) : cells (stpJobEndOp s) = cells s := by simp [stpJobEndOp]
@[simp] theorem cells_hrvRemirrorOp (s : State) : cells (hrvRemirrorOp s) = cells s := by simp [hrvRemirrorOp]
@[simp] theorem cells_mirrorExtra (p : Packet) (s : State) :
    cells (mirrorExtra p s) = cells s := by simp [mirrorExtra]

/-! ### Machine/Recover -/

@[simp] theorem cells_actClaim (d : HostDesc) (i : Inflight) (s : State) :
    cells (actClaim d i s) = cells s := by simp [actClaim]
@[simp] theorem cells_claimSettleOp (s : State) : cells (claimSettleOp s) = cells s := by
  unfold claimSettleOp; split <;> simp
@[simp] theorem cells_beginStream (s : State) : cells (beginStream s) = cells s := by simp [beginStream]

/-! ### Machine/CopyAhead -/

@[simp] theorem cells_noteHolds (s : State) : cells (noteHolds s) = cells s := by simp [noteHolds]

/-! ### Machine/Clock -/

@[simp] theorem cells_tileCycle (edge : Bool) (t : Nat) (s : State) : cells (tileCycle edge t s) = cells s := by
  unfold tileCycle; split <;> simp
@[simp] theorem cells_tilesCycle (edge : Bool) (s : State) :
    cells (tilesCycle edge s) = cells s := by simp [tilesCycle]
@[simp] theorem cells_promisesCycle (edge : Bool) (s : State) :
    cells (promisesCycle edge s) = cells s := by simp [promisesCycle]
@[simp] theorem cells_windowsCycle (s : State) : cells (windowsCycle s) = cells s := by simp [windowsCycle]
@[simp] theorem cells_clockCycle (s : State) : cells (clockCycle s) = cells s := by simp [clockCycle]

/-! ### Machine/Array -/

@[simp] theorem cells_countMacs (p : Pass) (cls n : Nat) (s : State) : cells (countMacs p cls n s) = cells s := by
  unfold countMacs; split <;> simp
@[simp] theorem cells_markBank (c : Ctx) (bank : Nat) (fs : List Nat) (s : State) :
    cells (markBank c bank fs s) = cells s := by simp [markBank]
@[simp] theorem cells_unmarkBank (c : Ctx) (bank : Nat) (s : State) :
    cells (unmarkBank c bank s) = cells s := by simp [unmarkBank]
@[simp] theorem cells_opxEff (f : OpxF) (c : Ctx) (s : State) : cells (opxEff f c s) = cells s := by
  unfold opxEff; split <;> simp
@[simp] theorem cells_altEff (f : AltF) (c : Ctx) (s : State) : cells (altEff f c s) = cells s := by
  unfold altEff; split <;> simp
@[simp] theorem cells_shxEff (f : ShxF) (c : Ctx) (s : State) : cells (shxEff f c s) = cells s := by
  unfold shxEff; split <;> simp
@[simp] theorem cells_aclrEff (bank : Nat) (c : Ctx) (s : State) :
    cells (aclrEff bank c s) = cells s := by simp [aclrEff]
@[simp] theorem cells_titheSample (c : Ctx) (g : GaugeRef) (f : DrnF) (fmt : Nat) (sc : Scaling)
    (rows : List Converted) (s : State) :
    cells (titheSample c g f fmt sc rows s) = cells s := by
  unfold titheSample; split <;> simp

/-! ### Machine/CollRows -/

@[simp] theorem cells_tilMtalCountWriteOp (v : Word) (s : State) :
    cells (tilMtalCountWriteOp v s) = cells s := by simp [tilMtalCountWriteOp]
@[simp] theorem cells_tilMtalCfgWriteOp (v : Word) (s : State) :
    cells (tilMtalCfgWriteOp v s) = cells s := by simp [tilMtalCfgWriteOp]
@[simp] theorem cells_collGroupEnableOp (g : Nat) (s : State) :
    cells (collGroupEnableOp g s) = cells s := by simp [collGroupEnableOp]
@[simp] theorem cells_collGroupDisableOp (g : Nat) (s : State) :
    cells (collGroupDisableOp g s) = cells s := by simp [collGroupDisableOp]

/-! ### Machine/Control -/

@[simp] theorem cells_sendBare (pass node tally inc : Nat) (s : State) :
    cells (sendBare pass node tally inc s) = cells s := by simp [sendBare]
@[simp] theorem cells_sigEff (f : SigF) (c : Ctx) (s : State) : cells (sigEff f c s) = cells s := by simp [sigEff]
@[simp] theorem cells_waitOp (t : Nat) (f : WaitF) (s : State) : cells (waitOp t f s) = cells s := by
  unfold waitOp; split <;> simp
@[simp] theorem cells_raiseWire (w t : Nat) (s : State) : cells (raiseWire w t s) = cells s := by simp [raiseWire]
@[simp] theorem cells_bindOp (t : Nat) (f : BindF) (s : State) : cells (bindOp t f s) = cells s := by
  unfold bindOp; split <;> simp
@[simp] theorem cells_loopOp (t : Nat) (f : LoopF) (s : State) : cells (loopOp t f s) = cells s := by
  unfold loopOp; split <;> simp
@[simp] theorem cells_brcOp (t : Nat) (f : BrcF) (s : State) : cells (brcOp t f s) = cells s := by
  unfold brcOp; split <;> simp
@[simp] theorem cells_suspendOn (c : Ctx) (q : SeqState) (s : State) :
    cells (suspendOn c q s) = cells s := by simp [suspendOn]
@[simp] theorem cells_yieldOp (t : Nat) (s : State) : cells (yieldOp t s) = cells s := by
  simp only [yieldOp]; (repeat' split) <;> simp
@[simp] theorem cells_endOn (t q : Nat) (s : State) : cells (endOn t q s) = cells s := by
  unfold endOn; split <;> simp
@[simp] theorem cells_lossEvent (p : Pass) (s : State) : cells (lossEvent p s) = cells s := by
  unfold lossEvent; split <;> simp
@[simp] theorem cells_passRetireOp (q : Nat) (s : State) : cells (passRetireOp q s) = cells s := by
  unfold passRetireOp; split <;> simp
@[simp] theorem cells_passSwitchOp (t : Nat) (s : State) : cells (passSwitchOp t s) = cells s := by
  simp only [passSwitchOp]; (repeat' split) <;> simp
@[simp] theorem cells_passResumeOp (t : Nat) (s : State) : cells (passResumeOp t s) = cells s := by
  unfold passResumeOp; split <;> simp
@[simp] theorem cells_tallySignalApplyOp (k : Nat) (s : State) : cells (tallySignalApplyOp k s) = cells s := by
  simp only [tallySignalApplyOp]; (repeat' split) <;> simp
@[simp] theorem cells_releaseAt (w q t : Nat) (s : State) : cells (releaseAt w q t s) = cells s := by
  unfold releaseAt; split <;> simp
@[simp] theorem cells_binderWireReleaseOp (w : Nat) (s : State) : cells (binderWireReleaseOp w s) = cells s := by
  unfold binderWireReleaseOp; split <;> simp

/-! ### Machine/Disable -/

@[simp] theorem cells_turnAbort (op : DisableOp) (s : State) : cells (turnAbort op s) = cells s := by simp [turnAbort]

/-! ### Machine/EventRows -/

@[simp] theorem cells_evtErr (s : State) : cells (evtErr s) = cells s := by simp [evtErr]
@[simp] theorem cells_startEvents (s : State) : cells (startEvents s) = cells s := by simp [startEvents]
@[simp] theorem cells_writeEvtOn (v : Nat) (s : State) : cells (writeEvtOn v s) = cells s := by simp [writeEvtOn]
@[simp] theorem cells_writeEvtOff (v : Nat) (s : State) : cells (writeEvtOff v s) = cells s := by simp [writeEvtOff]
@[simp] theorem cells_evtEnableOp (value : Word) (s : State) :
    cells (evtEnableOp value s) = cells s := by simp [evtEnableOp]
@[simp] theorem cells_evtHeadWriteOp (value : Word) (s : State) :
    cells (evtHeadWriteOp value s) = cells s := by simp [evtHeadWriteOp]
@[simp] theorem cells_evtBaseWrite (v : Nat) (s : State) :
    cells (evtBaseWrite v s) = cells s := by simp [evtBaseWrite]
@[simp] theorem cells_eventModerationTimeoutOp (s : State) :
    cells (eventModerationTimeoutOp s) = cells s := by simp [eventModerationTimeoutOp]
@[simp] theorem cells_setMask (v : Nat) (masked : Bool) (s : State) :
    cells (setMask v masked s) = cells s := by simp [setMask]
@[simp] theorem cells_msixUnmaskOp (v : Nat) (s : State) :
    cells (msixUnmaskOp v s) = cells s := by simp [msixUnmaskOp]
@[simp] theorem cells_enableGatherer (g : Nat) (s : State) :
    cells (enableGatherer g s) = cells s := by simp [enableGatherer]
@[simp] theorem cells_enableTile (t : Nat) (s : State) : cells (enableTile t s) = cells s := by simp [enableTile]
@[simp] theorem cells_enableDevice (p : Nat) (s : State) :
    cells (enableDevice p s) = cells s := by simp [enableDevice]

/-! ### Machine/RegisterRows -/

@[simp] theorem cells_trainWrite (v : Nat) (s : State) : cells (trainWrite v s) = cells s := by simp [trainWrite]
@[simp] theorem cells_windowWrite (r : Reg) (v : Nat) (s : State) :
    cells (windowWrite r v s) = cells s := by simp [windowWrite]
@[simp] theorem cells_collBaseWrite (v : Nat) (s : State) :
    cells (collBaseWrite v s) = cells s := by simp [collBaseWrite]
@[simp] theorem cells_collCtlWrite (v : Nat) (s : State) :
    cells (collCtlWrite v s) = cells s := by simp [collCtlWrite]
@[simp] theorem cells_portCtlWrite (p v : Nat) (s : State) :
    cells (portCtlWrite p v s) = cells s := by simp [portCtlWrite]
@[simp] theorem cells_routeWrite (n v : Nat) (s : State) : cells (routeWrite n v s) = cells s := by simp [routeWrite]
@[simp] theorem cells_lockedWrite (r : Reg) (v : Nat) (s : State) :
    cells (lockedWrite r v s) = cells s := by simp [lockedWrite]
@[simp] theorem cells_mirrorWrite (v : Nat) (s : State) : cells (mirrorWrite v s) = cells s := by simp [mirrorWrite]
@[simp] theorem cells_fenceWrite (v : Nat) (s : State) : cells (fenceWrite v s) = cells s := by simp [fenceWrite]
@[simp] theorem cells_jobWrite (v : Nat) (s : State) : cells (jobWrite v s) = cells s := by simp [jobWrite]
@[simp] theorem cells_harvestWrite (locked : Bool) (r : Reg) (v : Nat) (s : State) :
    cells (harvestWrite locked r v s) = cells s := by simp [harvestWrite]
@[simp] theorem cells_msixWrite (v q x : Nat) (s : State) : cells (msixWrite v q x s) = cells s := by simp [msixWrite]
@[simp] theorem cells_mboxDataWrite (k n v : Nat) (s : State) :
    cells (mboxDataWrite k n v s) = cells s := by simp [mboxDataWrite]
@[simp] theorem cells_areaWrite (a : Area) (k n v : Nat) (s : State) : cells (areaWrite a k n v s) = cells s := by
  unfold areaWrite; split <;> simp
@[simp] theorem cells_faultWrite (r : Reg) (v : Nat) (s : State) :
    cells (faultWrite r v s) = cells s := by simp [faultWrite]
@[simp] theorem cells_areaBus (a : Area) (off n v : Nat) (s : State) :
    cells (areaBus a off n v s) = cells s := by simp [areaBus]
@[simp] theorem cells_holdLow (off v : Nat) (s : State) : cells (holdLow off v s) = cells s := by simp [holdLow]
@[simp] theorem cells_barSplitLowWriteOp (offset : Nat) (value : Word) (s : State) :
    cells (barSplitLowWriteOp offset value s) = cells s := by simp [barSplitLowWriteOp]

/-! ### Machine/Step -/

@[simp] theorem cells_withPending (s : State) (q : List Instr) : cells (State.withPending s q) = cells s :=
  cells_congr rfl

end Sys2Proof.Laws
end


section
/-! SUPPORT. The canonical form of memory, and every function on the way from a step to its next state that may store bytes:
one rule per function, in the order of the model's files. A function that takes an action keeps the form when its action does.

Where a function threads the state through many updates, its proof names the states between them and carries the form from one
to the next. -/

namespace Sys2Proof.Laws

set_option Elab.async false

open Sys2Proof Sys2Proof.Machine Sys2Proof.Safety

/-- The canonical form of the bytes of memory, under a name that simp does not open. -/
def Canonical (m : List Host.Cell) : Prop := memWf m

@[simp] theorem canonical_nil : Canonical [] := ⟨.nil, by simp⟩

@[simp] theorem canonical_ite {c : Prop} [Decidable c] (m n : List Host.Cell) :
    Canonical (if c then m else n) ↔ (c → Canonical m) ∧ (¬ c → Canonical n) := by split <;> simp [*]

@[simp] theorem canonical_each {β : Type} (l : List β) (f : β → State → State) (s : State) (h : Canonical (cells s))
    (hf : ∀ x u, Canonical (cells u) → Canonical (cells (f x u))) : Canonical (cells (each l f s)) :=
  each_keeps (fun u => Canonical (cells u)) l f s h hf

/-! ### The stores themselves -/

@[simp] theorem canonical_memPut (s : State) (a : Nat) (b : List Byte) (h : Canonical (cells s)) :
    Canonical (cells (s.memPut a b)) := wf_memPut s a b h
@[simp] theorem canonical_memPutNum (s : State) (a n v : Nat) (h : Canonical (cells s)) :
    Canonical (cells (s.memPutNum a n v)) := wf_memPut _ _ _ h
@[simp] theorem canonical_memAdd (s : State) (a n k : Nat) (h : Canonical (cells s)) :
    Canonical (cells (s.memAdd a n k)) := wf_memAdd _ _ _ _ h
@[simp] theorem canonical_memAddSat (s : State) (a n k : Nat) (h : Canonical (cells s)) :
    Canonical (cells (s.memAddSat a n k)) := wf_memAddSat _ _ _ _ h
@[simp] theorem canonical_alterLine (s : State) (l : Nat) (es : List (Nat × BitVec 16)) (h : Canonical (cells s)) :
    Canonical (cells (alterLine l es s)) := wf_alterLine _ _ _ h
@[simp] theorem canonical_storeChecks (s : State) (a : Nat) (r : Range) (h : Canonical (cells s)) :
    Canonical (cells (storeChecks a r s)) := wf_storeChecks _ _ _ h
@[simp] theorem canonical_zeroRange (s : State) (a n : Nat) (h : Canonical (cells s)) :
    Canonical (cells (zeroRange a n s)) := wf_zeroRange _ _ _ h
@[simp] theorem canonical_enginePut (s : State) (a : Nat) (b : List Byte) (h : Canonical (cells s)) :
    Canonical (cells (enginePut a b s)) := wf_enginePut _ _ _ h
@[simp] theorem canonical_memory_afterReset (m : Memory) (h : Canonical m.mem) : Canonical m.afterReset.mem :=
  wf_afterReset _ h

/-! ### Machine/Ops -/

@[simp] theorem canonical_stwWrite (act : State → State) (s : State)
    (hact : ∀ u, Canonical (cells u) → Canonical (cells (act u))) (h : Canonical (cells s)) :
    Canonical (cells (stwWrite act s)) := by simp [stwWrite, h, hact]
@[simp] theorem canonical_faultGate (offset : Nat) (act : State → State) (s : State)
    (hact : ∀ u, Canonical (cells u) → Canonical (cells (act u))) (h : Canonical (cells s)) :
    Canonical (cells (faultGate offset act s)) := by simp [faultGate, h, hact]
@[simp] theorem canonical_barWrite (offset : Nat) (act : State → State) (s : State)
    (hact : ∀ u, Canonical (cells u) → Canonical (cells (act u))) (h : Canonical (cells s)) :
    Canonical (cells (barWrite offset act s)) := by simp +contextual [barWrite, h, hact]
@[simp] theorem canonical_enableEach (object offset : Nat) (l : List Nat) (act : Nat → State → State) (s : State)
    (hact : ∀ x u, Canonical (cells u) → Canonical (cells (act x u))) (h : Canonical (cells s)) :
    Canonical (cells (enableEach object offset l act s)) := by simp +contextual [enableEach, h, hact]

/-! ### Machine/Flags -/

@[simp] theorem canonical_foldAmax (a : Nat) (v : Word) (s : State) (h : Canonical (cells s)) :
    Canonical (cells (foldAmax a v s)) := by simp [foldAmax, h]
@[simp] theorem canonical_addHist (a : Nat) (est : Word) (xs : List FVal) (s : State) (h : Canonical (cells s)) :
    Canonical (cells (addHist a est xs s)) := by simp +contextual [addHist, h]
@[simp] theorem canonical_addCounts (w : Watch) (layer role : Nat) (c : StepCounts) (s : State)
    (h : Canonical (cells s)) :
    Canonical (cells (addCounts w layer role c s)) := by
  simp only [addCounts]
  split
  · apply_rules [canonical_memAdd]
  · apply canonical_memPutNum
    apply_rules [canonical_memAdd]
@[simp] theorem canonical_account (w : Watch) (t : Nat) (c : Counted) (s : State) (h : Canonical (cells s)) :
    Canonical (cells (account w t c s)) := by
  unfold account
  extract_lets k e rec_ s1 s2 amax s3 est s4
  have h2 : Canonical (cells s2) := by simp [s2, s1, h]
  split
  · exact h2
  · have h4 : Canonical (cells s4) := by simp [s4, s3, h2]
    extract_lets s5 s6
    have h6 : Canonical (cells s6) := by simp [s6, s5, h4]
    split
    · split
      · simp [h6]
      · exact h6
    · simpa [s5] using h4

/-! ### Machine/Digest -/

@[simp] theorem canonical_foldWord (mirror : Bool) (area a : Nat) (s : State) (h : Canonical (cells s)) :
    Canonical (cells (foldWord mirror area a s)) := by unfold foldWord; split <;> simp +contextual [h]
@[simp] theorem canonical_foldRange (a n : Nat) (s : State) (h : Canonical (cells s)) :
    Canonical (cells (foldRange a n s)) := by
  unfold foldRange
  split
  · split
    · refine canonical_each _ _ _ h fun w u hu => ?_
      exact canonical_foldWord _ _ _ _ (canonical_foldWord _ _ _ _ hu)
    · exact h
  · exact h

/-! ### Machine/Image -/

@[simp] theorem canonical_clearBlock (i : Nat) (s : State) (h : Canonical (cells s)) :
    Canonical (cells (clearBlock i s)) := by simp [clearBlock, h]

/-! ### Machine/Memory -/

@[simp] theorem canonical_meetErrors (l : Nat) (s : State) (h : Canonical (cells s)) :
    Canonical (cells (meetErrors l s)) := by simp only [meetErrors]; (repeat' split) <;> simp +contextual [h]
@[simp] theorem canonical_meetLines (a n reader step : Nat) (s : State) (h : Canonical (cells s)) :
    Canonical (cells (meetLines a n reader step s)) := by simp +contextual [meetLines, h]
@[simp] theorem canonical_noteRead (a n reader step : Nat) (s : State) (h : Canonical (cells s)) :
    Canonical (cells (noteRead a n reader step s)) := by simp [noteRead, h]
@[simp] theorem canonical_readBy (reader step a n : Nat) (s : State) (h : Canonical (cells s)) :
    Canonical (cells (readBy reader step a n s).2) := by simp [readBy, h]
@[simp] theorem canonical_putRaw (a : Nat) (b : List Byte) (s : State) (h : Canonical (cells s)) :
    Canonical (cells (putRaw a b s)) := by simp [putRaw, h]
@[simp] theorem canonical_writeVerified (dest op i a : Nat) (b : List Byte) (s : State) (h : Canonical (cells s)) :
    Canonical (cells (writeVerified dest op i a b s)) := by simp [writeVerified, h]
@[simp] theorem canonical_copyBlock (i : Nat) (s : State) (h : Canonical (cells s)) :
    Canonical (cells (copyBlock i s)) := by
  unfold copyBlock
  split
  · exact h
  · apply canonical_clearBlock
    simp [h]
@[simp] theorem canonical_copyAheadOf (i : Nat) (s : State) (h : Canonical (cells s)) :
    Canonical (cells (copyAheadOf i s)) := by simp +contextual [copyAheadOf, h]
@[simp] theorem canonical_copyFirst (a n : Nat) (s : State) (h : Canonical (cells s)) :
    Canonical (cells (copyFirst a n s)) := by unfold copyFirst; split <;> simp +contextual [h]
@[simp] theorem canonical_rawWrite (a : Nat) (b : List Byte) (s : State) (h : Canonical (cells s)) :
    Canonical (cells (rawWrite a b s)) := by
  exact canonical_foldRange _ _ _ (canonical_putRaw _ _ _ (canonical_copyFirst _ _ _ h))
@[simp] theorem canonical_turnRow (x : Window) (b : AsmBuf) (n : Nat) (s : State) (h : Canonical (cells s)) :
    Canonical (cells (AsmBuf.turnRow x b n s)) := by simp +contextual [AsmBuf.turnRow, h]
@[simp] theorem canonical_spillBuf (b : AsmBuf) (s : State) (h : Canonical (cells s)) :
    Canonical (cells (spillBuf b s)) := by
  simp only [spillBuf, cells_mk, memory_mem]
  refine canonical_each _ _ _ ?_ fun n u hu => canonical_foldRange _ _ _ hu
  refine canonical_each _ _ _ ?_ fun n u hu => canonical_turnRow _ _ _ _ hu
  exact canonical_each _ _ _ h fun n u hu => canonical_copyFirst _ _ _ hu
@[simp] theorem canonical_flushBuf (b : AsmBuf) (s : State) (h : Canonical (cells s)) :
    Canonical (cells (flushBuf b s)) := by simp [flushBuf, h]
@[simp] theorem canonical_takeBuf (k w i j writer : Nat) (s : State) (h : Canonical (cells s)) :
    Canonical (cells (takeBuf k w i j writer s)) := by simp only [takeBuf]; (repeat' split) <;> simp +contextual [h]
@[simp] theorem canonical_addElement (k w writer : Nat) (ack : Option Nat) (el : Nat × Nat × Nat) (s : State)
    (h : Canonical (cells s)) :
    Canonical (cells (addElement k w writer ack el s)) := by
  simp only [addElement]; (repeat' split) <;> simp +contextual [h]
@[simp] theorem canonical_ctrlWriteLine (writer : Nat) (ack : Option Nat) (a : Nat) (b : List Byte) (s : State)
    (h : Canonical (cells s)) :
    Canonical (cells (ctrlWriteLine writer ack a b s)) := by
  simp only [ctrlWriteLine]; (repeat' split) <;> simp +contextual [h]
@[simp] theorem canonical_ctrlWriteFuel (writer : Nat) (ack : Option Nat) (n a : Nat) (b : List Byte) (s : State)
    (h : Canonical (cells s)) :
    Canonical (cells (ctrlWriteFuel writer ack n a b s)) := by fun_induction ctrlWriteFuel <;> simp +contextual [*]
@[simp] theorem canonical_ctrlWrite (writer : Nat) (ack : Option Nat) (a : Nat) (b : List Byte) (s : State)
    (h : Canonical (cells s)) :
    Canonical (cells (ctrlWrite writer ack a b s)) := by simp [ctrlWrite, h]
@[simp] theorem canonical_flushWriter (writer : Nat) (s : State) (h : Canonical (cells s)) :
    Canonical (cells (flushWriter writer s)) := by simp +contextual [flushWriter, h]
@[simp] theorem canonical_flushWindow (k w : Nat) (s : State) (h : Canonical (cells s)) :
    Canonical (cells (flushWindow k w s)) := by simp +contextual [flushWindow, h]

/-! ### Machine/Pass -/

@[simp] theorem canonical_dispatchAs (ahead : Ctx → State → State) (i : Instr) (held gets : List Nat) (c : Ctx)
    (s : State) (hahead : ∀ x u, Canonical (cells u) → Canonical (cells (ahead x u))) (h : Canonical (cells s)) :
    Canonical (cells (dispatchAs ahead i held gets c s)) := by simp [dispatchAs, h, hahead]
@[simp] theorem canonical_dispatchBehind (ahead : Ctx → State → State) (t : Nat) (i : Instr) (s : State)
    (hahead : ∀ x u, Canonical (cells u) → Canonical (cells (ahead x u))) (h : Canonical (cells s)) :
    Canonical (cells (dispatchBehind ahead t i s)) := by unfold dispatchBehind; split <;> simp +contextual [h, hahead]
@[simp] theorem canonical_keepBack (ahead : Ctx → State → State) (c : Ctx) (i : Instr) (held gets : List Nat)
    (s : State) (hahead : ∀ x u, Canonical (cells u) → Canonical (cells (ahead x u))) (h : Canonical (cells s)) :
    Canonical (cells (keepBack ahead c i held gets s)) := by simp +contextual [keepBack, h, hahead]
@[simp] theorem canonical_abandonPass (q : Nat) (st : Status) (t : Nat) (s : State) (h : Canonical (cells s)) :
    Canonical (cells (abandonPass q st t s)) := by unfold abandonPass; split <;> simp +contextual [h]
@[simp] theorem canonical_runWith (ahead : Ctx → State → State) (t : Nat) (i : Instr) (eff : Ctx → State → State)
    (s : State) (hahead : ∀ x u, Canonical (cells u) → Canonical (cells (ahead x u)))
    (heff : ∀ x u, Canonical (cells u) → Canonical (cells (eff x u))) (h : Canonical (cells s)) :
    Canonical (cells (runWith ahead t i eff s)) := by
  simp only [runWith]; (repeat' split) <;> simp +contextual [h, hahead, heff]
@[simp] theorem canonical_runOp (t : Nat) (i : Instr) (eff : Ctx → State → State) (s : State)
    (heff : ∀ x u, Canonical (cells u) → Canonical (cells (eff x u))) (h : Canonical (cells s)) :
    Canonical (cells (runOp t i eff s)) := by simp +contextual [runOp, h, heff]

/-! ### Machine/Lanes -/

@[simp] theorem canonical_report (c : Ctx) (n : Counted) (s : State) (h : Canonical (cells s)) :
    Canonical (cells (report c n s)) := by simp [report, h]

/-! ### Machine/Coll -/

@[simp] theorem canonical_unitWriteFor (ack : Option Nat) (a : Nat) (b : List Byte) (s : State)
    (h : Canonical (cells s)) :
    Canonical (cells (unitWriteFor ack a b s)) := by simp [unitWriteFor, h]
@[simp] theorem canonical_unitWrite (a : Nat) (b : List Byte) (s : State) (h : Canonical (cells s)) :
    Canonical (cells (unitWrite a b s)) := by simp [unitWrite, h]
@[simp] theorem canonical_putValues (g : Nat) (c : CollCmd) (b rel : Nat) (xs : List FVal) (s : State)
    (h : Canonical (cells s)) :
    Canonical (cells (putValues g c b rel xs s)) := by simp [putValues, h]
@[simp] theorem canonical_putBlock (g : Nat) (c : CollCmd) (b rel : Nat) (bytes : List Byte) (s : State)
    (h : Canonical (cells s)) :
    Canonical (cells (putBlock g c b rel bytes s)) := by simp [putBlock, h]
@[simp] theorem canonical_putBlocks (g : Nat) (c : CollCmd) (b : Nat) (bytes : List Byte) (s : State)
    (h : Canonical (cells s)) :
    Canonical (cells (putBlocks g c b bytes s)) := by simp +contextual [putBlocks, h]
@[simp] theorem canonical_placeOwn (g : Nat) (e : CollEntry) (c : CollCmd) (s : State) (h : Canonical (cells s)) :
    Canonical (cells (placeOwn g e c s)) := by unfold placeOwn; split <;> simp +contextual [h]
@[simp] theorem canonical_placeChunk (g : Nat) (e : CollEntry) (c : CollCmd) (x : CollChunk) (s : State)
    (h : Canonical (cells s)) :
    Canonical (cells (placeChunk g e c x s)) := by unfold placeChunk; split <;> simp +contextual [h]
@[simp] theorem canonical_tryFold (g : Nat) (e : CollEntry) (k : Nat) (c : CollCmd) (s : State)
    (h : Canonical (cells s)) :
    Canonical (cells (tryFold g e k c s)) := by simp +contextual [tryFold, h]

/-! ### Machine/Dump -/

@[simp] theorem canonical_autoDump (cause : Nat) (extra : List (List Byte)) (s : State) (h : Canonical (cells s)) :
    Canonical (cells (autoDump cause extra s)) := by simp [autoDump, h]
@[simp] theorem canonical_waitTimedOut (cause who what slot target : Nat) (extra : List (List Byte)) (s : State)
    (h : Canonical (cells s)) :
    Canonical (cells (waitTimedOut cause who what slot target extra s)) := by simp [waitTimedOut, h]

/-! ### Machine/Fault -/

@[simp] theorem canonical_dropWork (banks : Nat → BitVec 4) (s : State) (h : Canonical (cells s)) :
    Canonical (cells (dropWork banks s)) := by unfold dropWork; split <;> simp +contextual [h]
@[simp] theorem canonical_faultEffects (c : FaultCause) (s : State) (h : Canonical (cells s)) :
    Canonical (cells (faultEffects c s)) := by simp [faultEffects, h]
@[simp] theorem canonical_checkFault (s : State) (h : Canonical (cells s)) :
    Canonical (cells (checkFault s)) := by unfold checkFault; split <;> simp +contextual [h]
@[simp] theorem canonical_declareFault (c : FaultCause) (s : State) (h : Canonical (cells s)) :
    Canonical (cells (declareFault c s)) := by simp [declareFault, h]
@[simp] theorem canonical_finishCritical (s : State) (h : Canonical (cells s)) :
    Canonical (cells (finishCritical s)) := by unfold finishCritical; split <;> simp +contextual [h]

/-! ### Machine/Twin -/

@[simp] theorem canonical_appendEntry (e : LogEnt) (bytes : List Byte) (s : State) (h : Canonical (cells s)) :
    Canonical (cells (appendEntry e bytes s)) := by simp [appendEntry, h]
@[simp] theorem canonical_underOp (op : Nat) (f : State → State) (s : State)
    (hf : ∀ u, Canonical (cells u) → Canonical (cells (f u))) (h : Canonical (cells s)) :
    Canonical (cells (underOp op f s)) := by simp [underOp, h, hf]
@[simp] theorem canonical_sendOperation (type node vl : Nat) (purpose : Purpose) (ps : List Piece)
    (sig : Option (Nat × Nat)) (s : State) (h : Canonical (cells s)) :
    Canonical (cells (sendOperation type node vl purpose ps sig s)) := by simp [sendOperation, h]
@[simp] theorem canonical_sendBlocks (c : CopyOut) (s : State) (h : Canonical (cells s)) :
    Canonical (cells (sendBlocks c s)) := by
  unfold sendBlocks
  apply canonical_sendOperation
  exact canonical_each _ _ _ h fun b u hu => canonical_noteRead _ _ _ _ _ hu
@[simp] theorem canonical_sendCopies (s : State) (h : Canonical (cells s)) :
    Canonical (cells (sendCopies s)) := by simp +contextual [sendCopies, h]
@[simp] theorem canonical_startCopy (c : CopyOut) (s : State) (h : Canonical (cells s)) :
    Canonical (cells (startCopy c s)) := by simp [startCopy, h]
@[simp] theorem canonical_sendInitial (step : Nat) (s : State) (h : Canonical (cells s)) :
    Canonical (cells (sendInitial step s)) := by simp [sendInitial, h]
@[simp] theorem canonical_startRepair (step : Nat) (out inn : List Nat) (s : State) (h : Canonical (cells s)) :
    Canonical (cells (startRepair step out inn s)) := by simp [startRepair, h]

/-! ### Machine/Abandon -/

@[simp] theorem canonical_endHarvest (st : Status) (s : State) (h : Canonical (cells s)) :
    Canonical (cells (endHarvest st s)) := by unfold endHarvest; split <;> simp +contextual [h]
@[simp] theorem canonical_abandonFor (st : Status) (xs : List Xfer) (s : State) (h : Canonical (cells s)) :
    Canonical (cells (abandonFor st xs s)) := by simp +contextual [abandonFor, h]
@[simp] theorem canonical_abandonPasses (xs : List Xfer) (s : State) (h : Canonical (cells s)) :
    Canonical (cells (abandonPasses xs s)) := by simp [abandonPasses, h]
@[simp] theorem canonical_ownerAbandoned (o : OutXfer) (cause : Nat) (s : State) (h : Canonical (cells s)) :
    Canonical (cells (ownerAbandoned o cause s)) := by unfold ownerAbandoned; split <;> simp +contextual [h]
@[simp] theorem canonical_abandonOut (reason : Nat) (tell : Bool) (o : OutXfer) (s : State)
    (h : Canonical (cells s)) :
    Canonical (cells (abandonOut reason tell o s)) := by simp [abandonOut, h]
@[simp] theorem canonical_abandonIn (reason : Nat) (tell : Bool) (i : InXfer) (s : State) (h : Canonical (cells s)) :
    Canonical (cells (abandonIn reason tell i s)) := by simp [abandonIn, h]
@[simp] theorem canonical_abandonNode (node reason : Nat) (s : State) (h : Canonical (cells s)) :
    Canonical (cells (abandonNode node reason s)) := by
  unfold abandonNode
  refine canonical_each _ _ _ ?_ fun i u hu => canonical_abandonIn _ _ _ _ hu
  simp only [cells_each, cells_abandonLoose, implies_true]
  exact canonical_each _ _ _ h fun o u hu => canonical_abandonOut _ _ _ _ hu
@[simp] theorem canonical_loseId (s : State) (h : Canonical (cells s)) : Canonical (cells (loseId s)) := by
  simp only [loseId]
  apply canonical_declareFault
  refine canonical_each _ _ _ (by simpa using h) fun p u hu => canonical_abandonPass _ _ _ _ hu
@[simp] theorem canonical_observe (node j : Nat) (s : State) (h : Canonical (cells s)) :
    Canonical (cells (observe node j s)) := by simp [observe, h]

/-! ### Machine/Link -/

@[simp] theorem canonical_portEnableOp (mask : BitVec 18) (s : State) (h : Canonical (cells s)) :
    Canonical (cells (portEnableOp mask s)) := by simp [portEnableOp, h]
@[simp] theorem canonical_releaseBuffer (port reason : Nat) (s : State) (h : Canonical (cells s)) :
    Canonical (cells (releaseBuffer port reason s)) := by
  unfold releaseBuffer
  simp only [cells_settle, cells_moveQueue, cells_each, cells_abandonLoose, implies_true]
  refine canonical_each _ _ _ ?_ fun i u hu => canonical_abandonIn _ _ _ _ hu
  exact canonical_each _ _ _ (by simpa using h) fun o u hu => canonical_abandonOut _ _ _ _ hu
@[simp] theorem canonical_upNew (port : Nat) (h : Hello) (reason : Nat) (s : State) (hs : Canonical (cells s)) :
    Canonical (cells (upNew port h reason s)) := by simp [upNew, hs]
@[simp] theorem canonical_onHello (port ack : Nat) (h : Hello) (s : State) (hs : Canonical (cells s)) :
    Canonical (cells (onHello port ack h s)) := by simp only [onHello]; (repeat' split) <;> simp +contextual [hs]
@[simp] theorem canonical_linkControlReceiveOp (port : Nat) (flit : BitVec 512) (s : State)
    (h : Canonical (cells s)) :
    Canonical (cells (linkControlReceiveOp port flit s)) := by simp [linkControlReceiveOp, h]
@[simp] theorem canonical_dropViolation (port reason : Nat) (p : Packet) (s : State) (h : Canonical (cells s)) :
    Canonical (cells (dropViolation port reason p s)) := by
  simp only [dropViolation]; (repeat' split) <;> simp +contextual [h]
@[simp] theorem canonical_takeRequest (port : Nat) (b : List Byte) (p : Packet) (s : State)
    (h : Canonical (cells s)) :
    Canonical (cells (takeRequest port b p s)) := by simp [takeRequest, h]
@[simp] theorem canonical_scrubHead (n m k : Nat) (s : State) (h : Canonical (cells s)) :
    Canonical (cells (scrubHead n m k s)) := by
  fun_induction scrubHead with
  | case1 => exact h
  | case2 f port vl s fs n reason hb s1 p ih =>
    exact ih (canonical_dropViolation _ _ _ _ (by simp [s1, h]))
  | case3 f port vl s fs n p hb b reason _ ih =>
    exact ih (canonical_dropViolation _ _ _ _ (by simp [h]))
  | case4 f port vl s fs n p hb b _ _ ih =>
    exact ih (canonical_takeRequest _ _ _ _ (by simp [h]))
  | case5 => exact h
  | case6 => exact h
@[simp] theorem canonical_scrub (port vl : Nat) (s : State) (h : Canonical (cells s)) :
    Canonical (cells (scrub port vl s)) := by simp [scrub, h]
@[simp] theorem canonical_discardFlit (port reason : Nat) (used : Bool) (flit : BitVec 512) (s : State)
    (h : Canonical (cells s)) :
    Canonical (cells (discardFlit port reason used flit s)) := by simp [discardFlit, h]
@[simp] theorem canonical_acceptFlit (port : Nat) (flit : BitVec 512) (s : State) (h : Canonical (cells s)) :
    Canonical (cells (acceptFlit port flit s)) := by simp [acceptFlit, h]
@[simp] theorem canonical_flitReceiveOp (port : Nat) (flit : BitVec 512) (s : State) (h : Canonical (cells s)) :
    Canonical (cells (flitReceiveOp port flit s)) := by simp [flitReceiveOp, h]
@[simp] theorem canonical_packetTransmitOp (port : Nat) (s : State) (h : Canonical (cells s)) :
    Canonical (cells (packetTransmitOp port s)) := by
  simp only [packetTransmitOp]; (repeat' split) <;> simp +contextual [h]
@[simp] theorem canonical_replayBufferReleaseOp (port : Nat) (s : State) (h : Canonical (cells s)) :
    Canonical (cells (replayBufferReleaseOp port s)) := by simp [replayBufferReleaseOp, h]
@[simp] theorem canonical_abandonTimeoutOp (x : Nat) (s : State) (h : Canonical (cells s)) :
    Canonical (cells (abandonTimeoutOp x s)) := by
  simp only [abandonTimeoutOp]; (repeat' split) <;> simp +contextual [h]

/-! ### Machine/MemRows -/

@[simp] theorem canonical_memoryTrainingDoneOp (p : Nat) (s : State) (h : Canonical (cells s)) :
    Canonical (cells (memoryTrainingDoneOp p s)) := by
  simp only [memoryTrainingDoneOp]; (repeat' split) <;> simp +contextual [h]
@[simp] theorem canonical_rangeEnableOp (k e : Nat) (s : State) (h : Canonical (cells s)) :
    Canonical (cells (rangeEnableOp k e s)) := by simp [rangeEnableOp, h]
@[simp] theorem canonical_keepChecks (k e : Nat) (s : State) (h : Canonical (cells s)) :
    Canonical (cells (keepChecks k e s)) := by simp [keepChecks, h]
@[simp] theorem canonical_rangeDisableOp (k e : Nat) (s : State) (h : Canonical (cells s)) :
    Canonical (cells (rangeDisableOp k e s)) := by simp [rangeDisableOp, h]
@[simp] theorem canonical_windowDisableOp (k w : Nat) (s : State) (h : Canonical (cells s)) :
    Canonical (cells (windowDisableOp k w s)) := by simp [windowDisableOp, h]
@[simp] theorem canonical_retrainFailed (p pc : Nat) (s : State) (h : Canonical (cells s)) :
    Canonical (cells (retrainFailed p pc s)) := by simp [retrainFailed, h]
@[simp] theorem canonical_retrainingTimeoutOp (p pc : Nat) (s : State) (h : Canonical (cells s)) :
    Canonical (cells (retrainingTimeoutOp p pc s)) := by simp [retrainingTimeoutOp, h]
@[simp] theorem canonical_hostRetireOp (k pc : Nat) (s : State) (h : Canonical (cells s)) :
    Canonical (cells (hostRetireOp k pc s)) := by simp [hostRetireOp, h]
@[simp] theorem canonical_moveLost (k : Nat) (gs : List Nat) (s : State) (h : Canonical (cells s)) :
    Canonical (cells (moveLost k gs s)) := by simp +contextual [moveLost, h]
@[simp] theorem canonical_resowMoveOp (k : Nat) (s : State) (h : Canonical (cells s)) :
    Canonical (cells (resowMoveOp k s)) := by simp [resowMoveOp, h]
@[simp] theorem canonical_patrolScrubOp (p line : Nat) (found : List Finding) (s : State) (h : Canonical (cells s)) :
    Canonical (cells (patrolScrubOp p line found s)) := by
  unfold patrolScrubOp
  extract_lets l
  split
  · apply canonical_checkFault
    apply canonical_meetLines
    simp +contextual [h]
  · exact h
@[simp] theorem canonical_enterCritical (k : Nat) (s : State) (h : Canonical (cells s)) :
    Canonical (cells (enterCritical k s)) := by simp [enterCritical, h]
@[simp] theorem canonical_levelUp (k : Nat) (s : State) (h : Canonical (cells s)) :
    Canonical (cells (levelUp k s)) := by simp only [levelUp]; (repeat' split) <;> simp +contextual [h]
@[simp] theorem canonical_stackTempReadingOp (k celsius : Nat) (s : State) (h : Canonical (cells s)) :
    Canonical (cells (stackTempReadingOp k celsius s)) := by
  unfold stackTempReadingOp
  split
  · simp only [cells_levelDown]
    refine canonical_levelUp _ _ (canonical_levelUp _ _ (canonical_levelUp _ _ ?_))
    simpa using h
  · exact h

/-! ### Machine/Receive -/

@[simp] theorem canonical_takePacket (port n : Nat) (p : Packet) (s : State) (h : Canonical (cells s)) :
    Canonical (cells (takePacket port n p s)) := by simp [takePacket, h]
@[simp] theorem canonical_serve (port type : Nat) (hold : Packet → State → Bool) (act : Packet → State → State)
    (s : State) (hact : ∀ x u, Canonical (cells u) → Canonical (cells (act x u))) (h : Canonical (cells s)) :
    Canonical (cells (serve port type hold act s)) := by
  unfold serve
  split
  · exact h
  · split
    · simp [h]
    · split
      · exact h
      · simp only
        split
        · exact hact _ _ (by simp [h])
        · simp [h]
theorem canonical_trackIn (port : Nat) (p : Packet) (s u : State) (h : Canonical (cells s))
    (hu : trackIn port p s = .ok u) :
    Canonical (cells u) := by
  unfold trackIn at hu
  split at hu
  · split at hu
    · cases hu
    · cases hu; simpa using h
  · split at hu
    · cases hu
    · split at hu
      · cases hu; exact h
      · split at hu
        · cases hu
        · cases hu; simpa using h
@[simp] theorem canonical_markLine (l : Nat) (s : State) (h : Canonical (cells s)) :
    Canonical (cells (markLine l s)) := by simp [markLine, h]
@[simp] theorem canonical_landBytes (id a : Nat) (data : List Byte) (mask : Nat) (s : State)
    (h : Canonical (cells s)) :
    Canonical (cells (landBytes id a data mask s)) := by simp +contextual [landBytes, h]
@[simp] theorem canonical_receiveData (port : Nat) (target : Packet → State → Option Nat)
    (extra : Nat → Packet → State → State × Bool) (p : Packet) (s : State)
    (hextra : ∀ x y u, Canonical (cells u) → Canonical (cells (extra x y u).1)) (h : Canonical (cells s)) :
    Canonical (cells (receiveData port target extra p s)) := by
  unfold receiveData
  split
  · simp [h]
  · simp [h]
  · next u hu =>
    have hu' := canonical_trackIn port p s u h hu
    split
    · simp [hu']
    · simp [hu', hextra]

/-! ### Machine/Gauge -/

@[simp] theorem canonical_openLayer (w : Watch) (policy : Nat) (keep : Bool) (l : Nat) (s : State)
    (h : Canonical (cells s)) :
    Canonical (cells (openLayer w policy keep l s)) := by
  unfold openLayer
  extract_lets e cur unusable s1 s2 s3 s4 s5 s6
  have h1 : Canonical (cells s1) := canonical_each _ _ _ h fun r u hu =>
    canonical_memPutNum _ _ _ _ (canonical_memPutNum _ _ _ _ hu)
  have h3 : Canonical (cells s3) := canonical_memPut _ _ _ (canonical_memPut _ _ _ h1)
  have h4 : Canonical (cells s4) := canonical_memPutNum _ _ _ _ (canonical_memPutNum _ _ _ _ h3)
  have h5 : Canonical (cells s5) := canonical_memPutNum _ _ _ _ h4
  have h6 : Canonical (cells s6) := canonical_each _ _ _ h5 fun r u hu => by simp [hu]
  exact canonical_memPutNum _ _ _ _ h6
@[simp] theorem canonical_restoreLayer (w : Watch) (x l : Nat) (s : State) (h : Canonical (cells s)) :
    Canonical (cells (restoreLayer w x l s)) := by
  apply canonical_memPut
  refine canonical_each _ _ _ h fun r u hu => ?_
  exact canonical_memPut _ _ _ (canonical_memPut _ _ _ hu)
@[simp] theorem canonical_updateGauge (a : Attempt) (w : Watch) (loss : Bool) (l role : Nat) (s : State)
    (h : Canonical (cells s)) :
    Canonical (cells (updateGauge a w loss l role s)) := by simp [updateGauge, h]
@[simp] theorem canonical_gaugeUpdate (a : Attempt) (s : State) (h : Canonical (cells s)) :
    Canonical (cells (gaugeUpdate a s)) := by
  unfold gaugeUpdate
  refine canonical_each _ _ _ (by simpa using h) fun l u hu => ?_
  dsimp only
  exact canonical_each _ _ _ (canonical_memPutNum _ _ _ _ hu) fun r v hv => canonical_updateGauge _ _ _ _ _ _ hv
@[simp] theorem canonical_addTithe (e b : Nat) (s : State) (h : Canonical (cells s)) :
    Canonical (cells (addTithe e b s)) := by simp +contextual [addTithe, h]
@[simp] theorem canonical_titheDiverged (a : Attempt) (w : Watch) (x : TitheSample) (e : Word) (s : State)
    (h : Canonical (cells s)) :
    Canonical (cells (titheDiverged a w x e s)) := by simp [titheDiverged, h]
@[simp] theorem canonical_testSample (a : Attempt) (x : TitheSample) (s : State) (h : Canonical (cells s)) :
    Canonical (cells (testSample a x s)) := by
  unfold testSample
  extract_lets w s1 s2 ps e t sh s3 s4
  have h1 : Canonical (cells s1) := canonical_each _ _ _ h fun r u hu => canonical_noteRead _ _ _ _ _ hu
  have h2 : Canonical (cells s2) := by simpa [s2] using h1
  have h3 : Canonical (cells s3) := by simp [s3, canonical_titheDiverged, h2]
  split
  · exact h2
  · refine canonical_addTithe _ _ _ (canonical_memAddSat _ _ _ _ ?_)
    exact canonical_memPutNum _ _ _ _ (canonical_memPutNum _ _ _ _ h3)
@[simp] theorem canonical_sealLayer (a : Attempt) (w : Watch) (l : Nat) (s : State) (h : Canonical (cells s)) :
    Canonical (cells (sealLayer a w l s)) := by
  simp only [sealLayer]
  split
  · simp [h]
  · simp only [cells_ite, cells_raiseEvent, cells_mk, memory_mem, ite_self]
    exact canonical_memAddSat _ _ _ _ (canonical_memAddSat _ _ _ _ (canonical_memPutNum _ _ _ _ h))
@[simp] theorem canonical_sealWatch (a : Attempt) (s : State) (h : Canonical (cells s)) :
    Canonical (cells (sealWatch a s)) := by simp +contextual [sealWatch, h]

/-! ### Machine/Rings -/

@[simp] theorem canonical_consumeAs (d : HostDesc) (judge : State → Answer) (act : Inflight → State → State)
    (s : State) (hact : ∀ x u, Canonical (cells u) → Canonical (cells (act x u))) (h : Canonical (cells s)) :
    Canonical (cells (consumeAs d judge act s)) := by
  simp only [consumeAs]; (repeat' split) <;> simp +contextual [h, hact]
@[simp] theorem canonical_consume (op : Nat) (d : HostDesc) (judge : State → Answer)
    (act : Inflight → State → State) (s : State) (hact : ∀ x u, Canonical (cells u) → Canonical (cells (act x u)))
    (h : Canonical (cells s)) :
    Canonical (cells (consume op d judge act s)) := by simp +contextual [consume, h, hact]

/-! ### Machine/Seal -/

@[simp] theorem canonical_putRec (a : Attempt) (off n v : Nat) (s : State) (h : Canonical (cells s)) :
    Canonical (cells (putRec a off n v s)) := by simp [putRec, h]
@[simp] theorem canonical_writeStepRecord (a : Attempt) (cause : Nat) (s : State) (h : Canonical (cells s)) :
    Canonical (cells (writeStepRecord a cause s)) := by simp +contextual [writeStepRecord, h]
@[simp] theorem canonical_enterCheck (a : Attempt) (s : State) (h : Canonical (cells s)) :
    Canonical (cells (enterCheck a s)) := by
  simp only [enterCheck]
  apply_rules [canonical_putRec, canonical_gaugeUpdate]
@[simp] theorem canonical_applySeal (a : Attempt) (s : State) (h : Canonical (cells s)) :
    Canonical (cells (applySeal a s)) := by
  unfold applySeal
  extract_lets n twin s1 st2 s2 s3 st4 s4 s5 s6 s7 s8 back was st9 s9 hv10 s10 s11
  have h2 : Canonical (cells s2) := by simp [-Nat.reducePow, s2, s1, h]
  have h3 : Canonical (cells s3) := by simp [-Nat.reducePow, s3, h2]
  have h4 : Canonical (cells s4) := by simp [s4, h3]
  have h5 : Canonical (cells s5) := by simp [s5, h4]
  have h8 : Canonical (cells s8) := by simp [s8, s7, s6, h5]
  have h9 : Canonical (cells s9) := by simp [s9, h8]
  have h11 : Canonical (cells s11) := by simp [s11, s10, h9]
  simp [h11]
@[simp] theorem canonical_rollBack (causes : Nat) (st : Status) (restore : Bool) (a : Attempt) (s : State)
    (h : Canonical (cells s)) :
    Canonical (cells (rollBack causes st restore a s)) := by
  unfold rollBack
  extract_lets s1 s2 s3 s4 s5 s6 s7
  have h2 : Canonical (cells s2) :=
    canonical_each _ _ _ (by simpa [s1] using h) fun p u hu => canonical_abandonPass _ _ _ _ hu
  have h5 : Canonical (cells s5) :=
    canonical_putRec _ _ _ _ _ (canonical_putRec _ _ _ _ _ (by simpa [s4, s3] using h2))
  have h6 : Canonical (cells s6) := by
    unfold s6
    split
    · exact canonical_each _ _ _ h5 fun l u hu => canonical_restoreLayer _ _ _ _ hu
    · exact h5
  simpa [s7] using h6
@[simp] theorem canonical_applyRefuse (a : Attempt) (causes sum : Nat) (s : State) (h : Canonical (cells s)) :
    Canonical (cells (applyRefuse a causes sum s)) := by
  unfold applyRefuse
  simp only [cells_settle]
  split
  · simp +contextual [h]
  · apply canonical_startRepair
    simp +contextual [h]
@[simp] theorem canonical_hostRollback (s : State) (h : Canonical (cells s)) :
    Canonical (cells (hostRollback s)) := by simp +contextual [hostRollback, h]
@[simp] theorem canonical_settleVerdict (a : Attempt) (v : Verdict) (s : State) (h : Canonical (cells s)) :
    Canonical (cells (settleVerdict a v s)) := by
  have h1 : ∀ v k u, Canonical (cells u) → Canonical (cells (putRec a 0x88 8 v (putRec a 0x68 8 k u))) :=
    fun v k u hu => canonical_putRec _ _ _ _ _ (canonical_putRec _ _ _ _ _ hu)
  simp only [settleVerdict]
  split
  · exact canonical_applySeal _ _ (h1 _ _ _ (by simpa using h))
  · exact canonical_applyRefuse _ _ _ _ (h1 _ _ _ (by simpa using h))
@[simp] theorem canonical_applyVerdict (a : Attempt) (v : Verdict) (s : State) (h : Canonical (cells s)) :
    Canonical (cells (applyVerdict a v s)) := by simp [applyVerdict, h]
@[simp] theorem canonical_releaseVerdict (step : Nat) (s : State) (h : Canonical (cells s)) :
    Canonical (cells (releaseVerdict step s)) := by
  simp only [releaseVerdict]; (repeat' split) <;> simp +contextual [h]
@[simp] theorem canonical_tryReport (a : Attempt) (s : State) (h : Canonical (cells s)) :
    Canonical (cells (tryReport a s)) := by unfold tryReport; split <;> simp +contextual [h]
@[simp] theorem canonical_evaluate (a : Attempt) (s : State) (h : Canonical (cells s)) :
    Canonical (cells (evaluate a s)) := by simp [evaluate, h]
@[simp] theorem canonical_takeReport (r : Report) (s : State) (h : Canonical (cells s)) :
    Canonical (cells (takeReport r s)) := by simp only [takeReport]; (repeat' split) <;> simp +contextual [h]

/-! ### Machine/HostSteps -/

@[simp] theorem canonical_replayFabric (l : List LogEnt) (s : State) (h : Canonical (cells s)) :
    Canonical (cells (replayFabric l s).1) := by
  fun_induction replayFabric with
  | case1 => exact h
  | case2 s e es s1 b hb ih =>
    exact ih (by simp [s1, h])
  | case3 s e es s1 => simp [s1, h]
@[simp] theorem canonical_nameEntries (n num : Nat) (s : State) (h : Canonical (cells s)) :
    Canonical (cells (nameEntries n num s)) := by
  simp only [nameEntries, cells_mk, memory_mem]
  refine canonical_each _ _ _ h fun e u hu => ?_
  exact canonical_unitWrite _ _ _ (canonical_unitWrite _ _ _ hu)
@[simp] theorem canonical_clearDigests (a : Attempt) (s : State) (h : Canonical (cells s)) :
    Canonical (cells (clearDigests a s)) := by simp [clearDigests, h]
@[simp] theorem canonical_openAttempt (a : Attempt) (cause : Nat) (s : State) (h : Canonical (cells s)) :
    Canonical (cells (openAttempt a cause s)) := by
  unfold openAttempt
  extract_lets copies s1 st s2 s3 w s4 s5 s6 s7 s8 s9
  have h3 : Canonical (cells s3) := by simp [s3, s2, s1, h]
  have h4 : Canonical (cells s4) := by simp +contextual [s4, h3]
  have h7 : Canonical (cells s7) := by simp [s7, s6, s5, h4]
  have h9 : Canonical (cells s9) := by simp [s9, s8, h7]
  split
  · split <;> simp [h9]
  · exact h9
@[simp] theorem canonical_actOpen (d : HostDesc) (i : Inflight) (s : State) (h : Canonical (cells s)) :
    Canonical (cells (actOpen d i s)) := by simp [actOpen, h]
@[simp] theorem canonical_stepOpenOp (d : HostDesc) (s : State) (h : Canonical (cells s)) :
    Canonical (cells (stepOpenOp d s)) := by simp +contextual [stepOpenOp, h]
@[simp] theorem canonical_stepCloseOp (d : HostDesc) (s : State) (h : Canonical (cells s)) :
    Canonical (cells (stepCloseOp d s)) := by simp [stepCloseOp, h]
@[simp] theorem canonical_actData (d : HostDesc) (i : Inflight) (s : State) (h : Canonical (cells s)) :
    Canonical (cells (actData d i s)) := by simp [actData, h]
@[simp] theorem canonical_dataInOp (d : HostDesc) (s : State) (h : Canonical (cells s)) :
    Canonical (cells (dataInOp d s)) := by simp +contextual [dataInOp, h]
@[simp] theorem canonical_actReplay (d : HostDesc) (i : Inflight) (s : State) (h : Canonical (cells s)) :
    Canonical (cells (actReplay d i s)) := by simp only [actReplay]; (repeat' split) <;> simp +contextual [h]
@[simp] theorem canonical_dataInLogReplayOp (d : HostDesc) (s : State) (h : Canonical (cells s)) :
    Canonical (cells (dataInLogReplayOp d s)) := by simp +contextual [dataInLogReplayOp, h]

/-! ### Machine/Admit -/

@[simp] theorem canonical_loadBytes (s : State) (d : HostDesc) (h : Canonical (cells s)) :
    Canonical (cells (State.loadBytes s d).2) := by simp [State.loadBytes, h]
@[simp] theorem canonical_actLoad (d : HostDesc) (i : Inflight) (s : State) (h : Canonical (cells s)) :
    Canonical (cells (actLoad d i s)) := by simp [actLoad, h]
@[simp] theorem canonical_loadFurrowOp (d : HostDesc) (s : State) (h : Canonical (cells s)) :
    Canonical (cells (loadFurrowOp d s)) := by simp +contextual [loadFurrowOp, h]
@[simp] theorem canonical_bindBatch (a : Option Attempt) (mb : Nat) (s : State) (h : Canonical (cells s)) :
    Canonical (cells (bindBatch a mb s)) := by unfold bindBatch; split <;> simp +contextual [h]
@[simp] theorem canonical_admitPass (p : Pass) (i : Inflight) (s : State) (h : Canonical (cells s)) :
    Canonical (cells (admitPass p i s)) := by
  unfold admitPass
  extract_lets s1 p1 i1 s2 s3 s4 s5 a s6 s7 s8 s9
  have h5 : Canonical (cells s5) := by simp [s5, s4, s3, s2, s1, h]
  have h6 : Canonical (cells s6) := by simp [s6, h5]
  clear_value a s6
  have h7 : Canonical (cells s7) := by
    unfold s7
    split <;> simp [h6]
  clear_value s7
  have h8 : Canonical (cells s8) := by
    unfold s8
    split <;> simp [h7]
  simp [s9, h8]
@[simp] theorem canonical_actPass (d : HostDesc) (i : Inflight) (s : State) (h : Canonical (cells s)) :
    Canonical (cells (actPass d i s)) := by unfold actPass; split <;> simp +contextual [h]
@[simp] theorem canonical_runPassOp (d : HostDesc) (s : State) (h : Canonical (cells s)) :
    Canonical (cells (runPassOp d s)) := by simp +contextual [runPassOp, h]

/-! ### Machine/HostRows -/

@[simp] theorem canonical_actOut (d : HostDesc) (i : Inflight) (s : State) (h : Canonical (cells s)) :
    Canonical (cells (actOut d i s)) := by simp [actOut, h]
@[simp] theorem canonical_dataOutOp (d : HostDesc) (s : State) (h : Canonical (cells s)) :
    Canonical (cells (dataOutOp d s)) := by simp +contextual [dataOutOp, h]
@[simp] theorem canonical_actCancel (d : HostDesc) (i : Inflight) (s : State) (h : Canonical (cells s)) :
    Canonical (cells (actCancel d i s)) := by simp +contextual [actCancel, h]
@[simp] theorem canonical_cancelOp (d : HostDesc) (s : State) (h : Canonical (cells s)) :
    Canonical (cells (cancelOp d s)) := by simp +contextual [cancelOp, h]
@[simp] theorem canonical_syncDumpOp (d : HostDesc) (s : State) (h : Canonical (cells s)) :
    Canonical (cells (syncDumpOp d s)) := by simp [syncDumpOp, h]
@[simp] theorem canonical_tallySignalOp (d : HostDesc) (s : State) (h : Canonical (cells s)) :
    Canonical (cells (tallySignalOp d s)) := by simp [tallySignalOp, h]
@[simp] theorem canonical_fenceOp (d : HostDesc) (s : State) (h : Canonical (cells s)) :
    Canonical (cells (fenceOp d s)) := by simp [fenceOp, h]
@[simp] theorem canonical_doorbell (completion : Bool) (r : Nat) (value : Quad) (size : Nat)
    (act : Nat → State → State) (s : State) (hact : ∀ x u, Canonical (cells u) → Canonical (cells (act x u)))
    (h : Canonical (cells s)) :
    Canonical (cells (doorbell completion r value size act s)) := by simp [doorbell, h, hact]
@[simp] theorem canonical_submissionDoorbellOp (r : Nat) (value : Quad) (size : Nat) (s : State)
    (h : Canonical (cells s)) :
    Canonical (cells (submissionDoorbellOp r value size s)) := by simp [submissionDoorbellOp, h]
@[simp] theorem canonical_completionDoorbellOp (r : Nat) (value : Quad) (size : Nat) (s : State)
    (h : Canonical (cells s)) :
    Canonical (cells (completionDoorbellOp r value size s)) := by simp [completionDoorbellOp, h]

/-! ### Machine/Move -/

@[simp] theorem canonical_formGet (c : Ctx) (f : MoveF) (m : MoveAt) (issued : Bool) (s : State)
    (h : Canonical (cells s)) :
    Canonical (cells (formGet c f m issued s)) := by simp [formGet, h]
@[simp] theorem canonical_getAhead (f : MoveF) (c : Ctx) (s : State) (h : Canonical (cells s)) :
    Canonical (cells (getAhead f c s)) := by unfold getAhead; split <;> simp +contextual [h]
@[simp] theorem canonical_getEff (f : MoveF) (c : Ctx) (s : State) (h : Canonical (cells s)) :
    Canonical (cells (getEff f c s)) := by unfold getEff; split <;> simp +contextual [h]
@[simp] theorem canonical_getOp (t : Nat) (f : MoveF) (s : State) (h : Canonical (cells s)) :
    Canonical (cells (getOp t f s)) := by simp +contextual [getOp, h]
@[simp] theorem canonical_putEff (f : MoveF) (c : Ctx) (s : State) (h : Canonical (cells s)) :
    Canonical (cells (putEff f c s)) := by unfold putEff; split <;> simp +contextual [h]
@[simp] theorem canonical_putOp (t : Nat) (f : MoveF) (s : State) (h : Canonical (cells s)) :
    Canonical (cells (putOp t f s)) := by simp +contextual [putOp, h]
@[simp] theorem canonical_xferOp (t : Nat) (f : XferF) (s : State) (h : Canonical (cells s)) :
    Canonical (cells (xferOp t f s)) := by simp [xferOp, h]
@[simp] theorem canonical_xferLineArriveOp (src dst : Nat) (s : State) (h : Canonical (cells s)) :
    Canonical (cells (xferLineArriveOp src dst s)) := by
  simp only [xferLineArriveOp]; (repeat' split) <;> simp +contextual [h]
@[simp] theorem canonical_swapOp (t buf : Nat) (s : State) (h : Canonical (cells s)) :
    Canonical (cells (swapOp t buf s)) := by simp [swapOp, h]

/-! ### Machine/Serve -/

@[simp] theorem canonical_renewHeader (x : Xfer) (s : State) (h : Canonical (cells s)) :
    Canonical (cells (renewHeader x s)) := by unfold renewHeader; split <;> simp +contextual [h]
@[simp] theorem canonical_flushRest (q : Nat) (s : State) (h : Canonical (cells s)) :
    Canonical (cells (flushRest q s)) := by simp [flushRest, h]
@[simp] theorem canonical_serveXfer (x : Xfer) (s : State) (h : Canonical (cells s)) :
    Canonical (cells (serveXfer x s)) := by
  unfold serveXfer
  extract_lets s1 s2 s3
  have h1 : Canonical (cells s1) := by simpa [s1] using h
  split
  · have h2 : Canonical (cells s2) := by simp [s2, h1]
    simp [s3, h2]
  · simp [h1]
@[simp] theorem canonical_memoryRequestServeOp (p pc : Nat) (found : List Finding) (s : State)
    (h : Canonical (cells s)) :
    Canonical (cells (memoryRequestServeOp p pc found s)) := by
  unfold memoryRequestServeOp
  split
  · exact h
  · split
    · exact h
    · apply canonical_checkFault
      apply canonical_serveXfer
      simp +contextual [h]
@[simp] theorem canonical_poison (q n : Nat) (s : State) (h : Canonical (cells s)) :
    Canonical (cells (poison q n s)) := by
  unfold poison
  split
  · split
    · exact h
    · extract_lets w s1 s2
      have h2 : Canonical (cells s2) := canonical_memAdd _ _ _ _ (canonical_memAdd _ _ _ _ h)
      split
      · simp [h2]
      · exact h2
  · exact h
@[simp] theorem canonical_landXfer (x : Xfer) (s : State) (h : Canonical (cells s)) :
    Canonical (cells (landXfer x s)) := by simp [landXfer, h]
@[simp] theorem canonical_landBlock (x : Xfer) (i : Nat) (s : State) (h : Canonical (cells s)) :
    Canonical (cells (landBlock x i s)) := by simp only [landBlock]; (repeat' split) <;> simp +contextual [h]
@[simp] theorem canonical_landPart (x : Xfer) (i k : Nat) (s : State) (h : Canonical (cells s)) :
    Canonical (cells (landPart x i k s)) := by simp [landPart, h]
@[simp] theorem canonical_readLandOp (x : Nat) (s : State) (h : Canonical (cells s)) :
    Canonical (cells (readLandOp x s)) := by simp only [readLandOp]; (repeat' split) <;> simp +contextual [h]

/-! ### Machine/Harvest -/

@[simp] theorem canonical_copyWatch (k : Nat) (g : HSeg) (s : State) (h : Canonical (cells s)) :
    Canonical (cells (copyWatch k g s)) := by
  unfold copyWatch
  refine canonical_each _ _ _ h fun j u hu => ?_
  simp [hu]
@[simp] theorem canonical_actHarvest (d : HostDesc) (i : Inflight) (s : State) (h : Canonical (cells s)) :
    Canonical (cells (actHarvest d i s)) := by simp +contextual [actHarvest, h]
@[simp] theorem canonical_harvestBeginOp (d : HostDesc) (s : State) (h : Canonical (cells s)) :
    Canonical (cells (harvestBeginOp d s)) := by simp +contextual [harvestBeginOp, h]
@[simp] theorem canonical_endStage1 (h : HarvestOp) (s : State) (hs : Canonical (cells s)) :
    Canonical (cells (endStage1 h s)) := by
  unfold endStage1
  extract_lets a hdr s1 s2
  have h1 : Canonical (cells s1) := canonical_enginePut _ _ _ (canonical_enginePut _ _ _ hs)
  have h2 : Canonical (cells s2) := by simp [s2, h1]
  split
  · exact canonical_endHarvest _ _ h2
  · split
    · exact canonical_endHarvest _ _ h2
    · simp [newOp, h2]
@[simp] theorem canonical_exportPart (h : HarvestOp) (s : State) (hs : Canonical (cells s)) :
    Canonical (cells (exportPart h s)) := by simp [exportPart, hs]
@[simp] theorem canonical_nextPart (h : HarvestOp) (s : State) (hs : Canonical (cells s)) :
    Canonical (cells (nextPart h s)) := by simp [nextPart, hs]
@[simp] theorem canonical_judgePart (h : HarvestOp) (b : List Byte) (s : State) (hs : Canonical (cells s)) :
    Canonical (cells (judgePart h b s)) := by simp [judgePart, hs]
@[simp] theorem canonical_exportNext (h : HarvestOp) (host : List (Nat × Byte)) (s : State)
    (hs : Canonical (cells s)) :
    Canonical (cells (exportNext h host s)) := by simp only [exportNext]; (repeat' split) <;> simp +contextual [hs]
@[simp] theorem canonical_harvestBlockCopyOp (host : List (Nat × Byte)) (s : State) (h : Canonical (cells s)) :
    Canonical (cells (harvestBlockCopyOp host s)) := by
  simp only [harvestBlockCopyOp]; (repeat' split) <;> simp +contextual [h]
@[simp] theorem canonical_joinAgreement (g : Nat) (cs : List Cand) (s : State) (h : Canonical (cells s)) :
    Canonical (cells (joinAgreement g cs s)) := by simp [joinAgreement, h]
@[simp] theorem canonical_actRestore (d : HostDesc) (host : List (Nat × Byte)) (i : Inflight) (s : State)
    (h : Canonical (cells s)) :
    Canonical (cells (actRestore d host i s)) := by
  unfold actRestore
  extract_lets key cs s1 vs i1 found cs1 s2 goal s3 hv s4
  have h1 : Canonical (cells s1) := canonical_each _ _ _ h fun c u hu => canonical_noteRead _ _ _ _ _ hu
  have h4 : Canonical (cells s4) := by simp [s4, s3, s2, h1]
  split
  · simpa using h1
  · split
    · exact canonical_joinAgreement _ _ _ h4
    · exact h4
@[simp] theorem canonical_restoreOp (d : HostDesc) (host : List (Nat × Byte)) (s : State) (h : Canonical (cells s)) :
    Canonical (cells (restoreOp d host s)) := by simp +contextual [restoreOp, h]
@[simp] theorem canonical_stageBlock (host : List (Nat × Byte)) (c : Cand) (table : List Byte) (g : HSeg)
    (k j : Nat) (s : State) (h : Canonical (cells s)) :
    Canonical (cells (stageBlock host c table g k j s).1) := by
  unfold stageBlock
  extract_lets n a fits
  split
  · exact h
  · extract_lets put
    have hput : ∀ u, Canonical (cells u) → Canonical (cells (put u).2) := by
      intro u hu
      simp [put, hu]
    dsimp only
    split
    · exact hput s h
    · split
      · exact hput _ (hput s h)
      · simpa using hput _ (hput s h)
@[simp] theorem canonical_stageBlocks (host : List (Nat × Byte)) (c : Cand) (table : List Byte) (gs : List HSeg)
    (ks : List Nat) (s : State) (h : Canonical (cells s)) :
    Canonical (cells (stageBlocks host c table gs ks s).1) := by
  fun_induction stageBlocks with
  | case1 => exact h
  | case2 k ks s g j _ r hr ih =>
    exact ih (by simp [r, h])
  | case3 k ks s g j _ r hr => simp [r, h]
  | case4 => exact h
@[simp] theorem canonical_commitSegs (area sh ex w : Nat) (gs : List HSeg) (s : State) (h : Canonical (cells s)) :
    Canonical (cells (commitSegs area sh ex w gs s)) := by
  have hput : ∀ (c : Prop) [Decidable c] a b u, Canonical (cells u) →
      Canonical (cells (if c then unitWrite a b u else u)) := fun c _ a b u hu => by split <;> simp [hu]
  fun_induction commitSegs with
  | case1 => exact h
  | case2 sh ex w g gs s block hk bank ih =>
    exact ih (canonical_each _ _ _ h fun j u hu => canonical_unitWrite _ _ _ hu)
  | case3 sh ex w g gs s block hk m o s1 hk0 ih => exact ih (canonical_each _ _ _ h fun j u hu => hput _ _ _ _ hu)
  | case4 sh ex w g gs s block hk m o s1 hk0 ih => exact ih (canonical_each _ _ _ h fun j u hu => hput _ _ _ _ hu)
@[simp] theorem canonical_commitRestore (host : List (Nat × Byte)) (c : Cand) (s : State) (h : Canonical (cells s)) :
    Canonical (cells (commitRestore host c s)) := by
  unfold commitRestore
  extract_lets s1
  have h1 : Canonical (cells s1) := by simp [s1, h]
  split
  · simpa using h1
  · next hd gs table _ =>
    extract_lets n s2
    have h2 := canonical_stageBlocks host c table gs (List.range n) (enginePut (s2.rg .hrvStageBase) (hd ++ table) s2)
      (canonical_enginePut _ _ _ (by simpa [s2] using h1))
    split
    next s3 ok heq =>
    rw [heq] at h2
    simp [h2]
@[simp] theorem canonical_restoreCommitOp (host : List (Nat × Byte)) (s : State) (h : Canonical (cells s)) :
    Canonical (cells (restoreCommitOp host s)) := by
  simp only [restoreCommitOp]; (repeat' split) <;> simp +contextual [h]

/-! ### Machine/Firmware -/

@[simp] theorem canonical_mboxTake (op : Nat) (act : State → State × Nat) (s : State)
    (hact : ∀ u, Canonical (cells u) → Canonical (cells (act u).1)) (h : Canonical (cells s)) :
    Canonical (cells (mboxTake op act s)) := by simp [mboxTake, h, hact]
@[simp] theorem canonical_mboxWrite (op : Nat) (act : State → State × Nat) (s : State)
    (hact : ∀ u, Canonical (cells u) → Canonical (cells (act u).1)) (h : Canonical (cells s)) :
    Canonical (cells (mboxWrite op act s)) := by
  exact canonical_stwWrite _ _ (fun u hu => canonical_mboxTake op act u hact hu) h
@[simp] theorem canonical_mboxWriteSlotOp (arg : Nat) (s : State) (h : Canonical (cells s)) :
    Canonical (cells (mboxWriteSlotOp arg s)) := by simp [mboxWriteSlotOp, h]
@[simp] theorem canonical_mboxVerifySlotOp (s : State) (h : Canonical (cells s)) :
    Canonical (cells (mboxVerifySlotOp s)) := by simp [mboxVerifySlotOp, h]
@[simp] theorem canonical_mboxSetPreferredOp (s : State) (h : Canonical (cells s)) :
    Canonical (cells (mboxSetPreferredOp s)) := by simp [mboxSetPreferredOp, h]
@[simp] theorem canonical_mboxCommitOp (s : State) (h : Canonical (cells s)) :
    Canonical (cells (mboxCommitOp s)) := by simp [mboxCommitOp, h]
@[simp] theorem canonical_mboxReadRecordOp (arg : Nat) (s : State) (h : Canonical (cells s)) :
    Canonical (cells (mboxReadRecordOp arg s)) := by simp [mboxReadRecordOp, h]
@[simp] theorem canonical_mboxCommand (v : Nat) (s : State) (h : Canonical (cells s)) :
    Canonical (cells (mboxCommand v s)) := by unfold mboxCommand; split <;> simp +contextual [h]
@[simp] theorem canonical_spdmRequest (stage : Nat) (act : State → State) (s : State)
    (hact : ∀ u, Canonical (cells u) → Canonical (cells (act u))) (h : Canonical (cells s)) :
    Canonical (cells (spdmRequest stage act s)) := by simp [spdmRequest, h, hact]
@[simp] theorem canonical_getVersionOp (s : State) (h : Canonical (cells s)) :
    Canonical (cells (getVersionOp s)) := by simp [getVersionOp, h]
@[simp] theorem canonical_getCapabilitiesOp (s : State) (h : Canonical (cells s)) :
    Canonical (cells (getCapabilitiesOp s)) := by simp [getCapabilitiesOp, h]
@[simp] theorem canonical_negotiateAlgorithmsOp (s : State) (h : Canonical (cells s)) :
    Canonical (cells (negotiateAlgorithmsOp s)) := by simp [negotiateAlgorithmsOp, h]
@[simp] theorem canonical_getDigestsOp (s : State) (h : Canonical (cells s)) :
    Canonical (cells (getDigestsOp s)) := by simp [getDigestsOp, h]
@[simp] theorem canonical_getCertificateOp (slot offset length : Nat) (s : State) (h : Canonical (cells s)) :
    Canonical (cells (getCertificateOp slot offset length s)) := by simp [getCertificateOp, h]
@[simp] theorem canonical_challengeOp (slot : Nat) (nonce : BitVec 256) (s : State) (h : Canonical (cells s)) :
    Canonical (cells (challengeOp slot nonce s)) := by simp [challengeOp, h]
@[simp] theorem canonical_getMeasurementsOp (k : Nat) (s : State) (h : Canonical (cells s)) :
    Canonical (cells (getMeasurementsOp k s)) := by simp [getMeasurementsOp, h]

/-! ### Machine/Steward -/

@[simp] theorem canonical_unpowered (s : State) : Canonical (cells (State.unpowered s)) := by
  simp [State.unpowered, State.reset, Memory.init]
@[simp] theorem canonical_strapped (s : State) (f : PowerOnF) :
    Canonical (cells (State.strapped s f)) := by simp [State.strapped]
@[simp] theorem canonical_powerOnOp (f : PowerOnF) (s : State) (h : Canonical (cells s)) :
    Canonical (cells (powerOnOp f s)) := by simp [powerOnOp, h]
@[simp] theorem canonical_powerOffOp (s : State) (h : Canonical (cells s)) :
    Canonical (cells (powerOffOp s)) := by simp [powerOffOp, h]
@[simp] theorem canonical_mainRailsOffOp (s : State) (h : Canonical (cells s)) :
    Canonical (cells (mainRailsOffOp s)) := by simp [mainRailsOffOp, h]
@[simp] theorem canonical_keepAllChecks (s : State) (h : Canonical (cells s)) :
    Canonical (cells (keepAllChecks s)) := by
  refine canonical_each _ _ _ h fun k u hu => ?_
  exact canonical_each _ _ _ hu fun e v hv => canonical_keepChecks k e v hv
@[simp] theorem canonical_afterReset (s : State) (link : Bool) (h : Canonical (cells s)) :
    Canonical (cells (State.afterReset s link)) := by simp [State.afterReset, h]
@[simp] theorem canonical_moduleResetOp (c : ResetCause) (s : State) (h : Canonical (cells s)) :
    Canonical (cells (moduleResetOp c s)) := by unfold moduleResetOp; split <;> simp +contextual [h]
@[simp] theorem canonical_dieTempThrottleOp (q c : Nat) (s : State) (h : Canonical (cells s)) :
    Canonical (cells (dieTempThrottleOp q c s)) := by simp [dieTempThrottleOp, h]
@[simp] theorem canonical_moduleFaultDeclareOp (c : FaultCause) (s : State) (h : Canonical (cells s)) :
    Canonical (cells (moduleFaultDeclareOp c s)) := by simp [moduleFaultDeclareOp, h]

/-! ### Machine/Packets -/

@[simp] theorem canonical_logWrite (id : Nat) (p : Packet) (s : State) (h : Canonical (cells s)) :
    Canonical (cells (logWrite id p s).1) := by simp only [logWrite]; (repeat' split) <;> simp +contextual [h]
@[simp] theorem canonical_writeOp (port : Nat) (s : State) (h : Canonical (cells s)) :
    Canonical (cells (writeOp port s)) := by
  refine canonical_serve _ _ _ _ _ (fun p u hu => ?_) h
  exact canonical_receiveData _ _ _ _ _ canonical_logWrite (by simp [hu])
@[simp] theorem canonical_serveRead (port : Nat) (p : Packet) (s : State) (h : Canonical (cells s)) :
    Canonical (cells (serveRead port p s)) := by simp [serveRead, h]
@[simp] theorem canonical_readReqOp (port : Nat) (s : State) (h : Canonical (cells s)) :
    Canonical (cells (readReqOp port s)) := by simp only [readReqOp]; (repeat' split) <;> simp +contextual [h]
@[simp] theorem canonical_takeBack (p : Packet) (s : State) (h : Canonical (cells s)) :
    Canonical (cells (takeBack p s)) := by simp [takeBack, h]
@[simp] theorem canonical_takeResponse (port : Nat) (i : InXfer) (p : Packet) (s : State) (h : Canonical (cells s)) :
    Canonical (cells (takeResponse port i p s)) := by simp [takeResponse, h]
@[simp] theorem canonical_readRespOp (port : Nat) (s : State) (h : Canonical (cells s)) :
    Canonical (cells (readRespOp port s)) := by
  refine canonical_serve _ _ _ _ _ (fun p u hu => ?_) h
  split
  · simp [hu]
  · split <;> simp [hu]
@[simp] theorem canonical_ownerRefused (o : OutXfer) (s : State) (h : Canonical (cells s)) :
    Canonical (cells (ownerRefused o s)) := by unfold ownerRefused; split <;> simp +contextual [h]
@[simp] theorem canonical_takeAck (o : OutXfer) (p : Packet) (s : State) (h : Canonical (cells s)) :
    Canonical (cells (takeAck o p s)) := by simp [takeAck, h]
@[simp] theorem canonical_writeAckOp (port : Nat) (s : State) (h : Canonical (cells s)) :
    Canonical (cells (writeAckOp port s)) := by
  refine canonical_serve _ _ _ _ _ (fun p u hu => ?_) h
  split <;> simp [hu]
@[simp] theorem canonical_signalOp (port : Nat) (s : State) (h : Canonical (cells s)) :
    Canonical (cells (signalOp port s)) := by simp [signalOp, h]
@[simp] theorem canonical_bareSignalOp (port : Nat) (s : State) (h : Canonical (cells s)) :
    Canonical (cells (bareSignalOp port s)) := by simp [bareSignalOp, h]
@[simp] theorem canonical_cancelNoticeOp (port : Nat) (s : State) (h : Canonical (cells s)) :
    Canonical (cells (cancelNoticeOp port s)) := by simp [cancelNoticeOp, h]
@[simp] theorem canonical_cancelAckOp (port : Nat) (s : State) (h : Canonical (cells s)) :
    Canonical (cells (cancelAckOp port s)) := by simp [cancelAckOp, h]
@[simp] theorem canonical_holdoffOp (port : Nat) (s : State) (h : Canonical (cells s)) :
    Canonical (cells (holdoffOp port s)) := by simp [holdoffOp, h]
@[simp] theorem canonical_abandonNamed (port reason : Nat) (inbound : Bool) (p : Packet) (s : State)
    (h : Canonical (cells s)) :
    Canonical (cells (abandonNamed port reason inbound p s)) := by unfold abandonNamed; split <;> simp +contextual [h]
@[simp] theorem canonical_abandonOp (port : Nat) (s : State) (h : Canonical (cells s)) :
    Canonical (cells (abandonOp port s)) := by simp +contextual [abandonOp, h]
@[simp] theorem canonical_nakPktOp (port : Nat) (s : State) (h : Canonical (cells s)) :
    Canonical (cells (nakPktOp port s)) := by simp +contextual [nakPktOp, h]
@[simp] theorem canonical_claimOp (port : Nat) (s : State) (h : Canonical (cells s)) :
    Canonical (cells (claimOp port s)) := by simp +contextual [claimOp, h]
@[simp] theorem canonical_claimRefuseOp (port : Nat) (s : State) (h : Canonical (cells s)) :
    Canonical (cells (claimRefuseOp port s)) := by
  refine canonical_serve _ _ _ _ _ (fun p u hu => ?_) h
  split
  · split
    · dsimp only
      split <;> simp [hu]
    · exact hu
  · exact hu

/-! ### Machine/StepRows -/

@[simp] theorem canonical_stpRollbackOp (s : State) (h : Canonical (cells s)) :
    Canonical (cells (stpRollbackOp s)) := by simp [stpRollbackOp, h]
@[simp] theorem canonical_stpVerdictWriteOp (value : Quad) (s : State) (h : Canonical (cells s)) :
    Canonical (cells (stpVerdictWriteOp value s)) := by
  simp only [stpVerdictWriteOp]; (repeat' split) <;> simp +contextual [h]
@[simp] theorem canonical_stepEnterCheckOp (step : Nat) (s : State) (h : Canonical (cells s)) :
    Canonical (cells (stepEnterCheckOp step s)) := by unfold stepEnterCheckOp; split <;> simp +contextual [h]
@[simp] theorem canonical_sealEvaluateOp (step : Nat) (s : State) (h : Canonical (cells s)) :
    Canonical (cells (sealEvaluateOp step s)) := by unfold sealEvaluateOp; split <;> simp +contextual [h]
@[simp] theorem canonical_startSend (a : Attempt) (s : State) (h : Canonical (cells s)) :
    Canonical (cells (startSend a s)) := by simp [startSend, h]
@[simp] theorem canonical_mirrorSendEntryOp (s : State) (h : Canonical (cells s)) :
    Canonical (cells (mirrorSendEntryOp s)) := by
  simp only [mirrorSendEntryOp]; (repeat' split) <;> simp +contextual [h]
@[simp] theorem canonical_digestExchangeOp (s : State) (h : Canonical (cells s)) :
    Canonical (cells (digestExchangeOp s)) := by unfold digestExchangeOp; split <;> simp +contextual [h]
@[simp] theorem canonical_titheSampleTestOp (s : State) (h : Canonical (cells s)) :
    Canonical (cells (titheSampleTestOp s)) := by
  simp only [titheSampleTestOp]; (repeat' split) <;> simp +contextual [h]
@[simp] theorem canonical_receiveSeal (port : Nat) (p : Packet) (s : State) (h : Canonical (cells s)) :
    Canonical (cells (receiveSeal port p s)) := by simp only [receiveSeal]; (repeat' split) <;> simp +contextual [h]
@[simp] theorem canonical_sealReportOp (port : Nat) (s : State) (h : Canonical (cells s)) :
    Canonical (cells (sealReportOp port s)) := by simp +contextual [sealReportOp, h]
@[simp] theorem canonical_receiveDigests (port : Nat) (p : Packet) (s : State) (h : Canonical (cells s)) :
    Canonical (cells (receiveDigests port p s)) := by
  unfold receiveDigests
  split
  · simp [h]
  · split
    · simp [h]
    · simp [h]
    · next u hu =>
      have hu' := canonical_trackIn port p s u h hu
      simp [hu']
@[simp] theorem canonical_receiveMirror (port : Nat) (p : Packet) (s : State) (h : Canonical (cells s)) :
    Canonical (cells (receiveMirror port p s)) := by simp [receiveMirror, h]
@[simp] theorem canonical_mirrorOp (port : Nat) (s : State) (h : Canonical (cells s)) :
    Canonical (cells (mirrorOp port s)) := by simp +contextual [mirrorOp, h]

/-! ### Machine/Recover -/

@[simp] theorem canonical_standinClaimOp (d : HostDesc) (s : State) (h : Canonical (cells s)) :
    Canonical (cells (standinClaimOp d s)) := by simp [standinClaimOp, h]
@[simp] theorem canonical_sendLogCopy (node : Nat) (x : LogEnt × Nat) (s : State) (h : Canonical (cells s)) :
    Canonical (cells (sendLogCopy node x s)) := by simp [sendLogCopy, h]
@[simp] theorem canonical_sendStream (d : HostDesc) (s : State) (h : Canonical (cells s)) :
    Canonical (cells (sendStream d s)) := by
  unfold sendStream
  extract_lets node last n s1 s2 s3 s4
  have h1 : Canonical (cells s1) := canonical_each _ _ _ h fun b u hu => canonical_noteRead _ _ _ _ _ hu
  have h3 : Canonical (cells s3) := by simp +contextual [s3, s2, h1]
  have h4 : Canonical (cells s4) := by simp +contextual [s4, h3]
  simp [h4]
@[simp] theorem canonical_startStream (s : State) (h : Canonical (cells s)) :
    Canonical (cells (startStream s)) := by unfold startStream; split <;> simp +contextual [h]
@[simp] theorem canonical_actRecovery (d : HostDesc) (i : Inflight) (s : State) (h : Canonical (cells s)) :
    Canonical (cells (actRecovery d i s)) := by simp [actRecovery, h]
@[simp] theorem canonical_harvestRecoveryOp (d : HostDesc) (s : State) (h : Canonical (cells s)) :
    Canonical (cells (harvestRecoveryOp d s)) := by simp +contextual [harvestRecoveryOp, h]
@[simp] theorem canonical_noteCopy (e : LogEnt) (s : State) (h : Canonical (cells s)) :
    Canonical (cells (noteCopy e s)) := by simp [noteCopy, h]
@[simp] theorem canonical_recoveryExtra (p : Packet) (s : State) (h : Canonical (cells s)) :
    Canonical (cells (recoveryExtra p s)) := by simp [recoveryExtra, h]
@[simp] theorem canonical_receiveEnd (port : Nat) (p : Packet) (s : State) (h : Canonical (cells s)) :
    Canonical (cells (receiveEnd port p s)) := by
  unfold receiveEnd
  split
  · simp [h]
  · simp [h]
  · next u hu =>
    have hu' := canonical_trackIn port p s u h hu
    split <;> simp [hu']
@[simp] theorem canonical_receiveRecovery (port : Nat) (p : Packet) (s : State) (h : Canonical (cells s)) :
    Canonical (cells (receiveRecovery port p s)) := by
  unfold receiveRecovery
  split
  · exact canonical_dropViolation _ _ _ _ h
  · split
    · exact canonical_receiveEnd _ _ _ h
    · refine canonical_receiveData _ _ _ _ _ (fun _ q u hu => ?_) ?_
      · simp [hu]
      · simp [h]
@[simp] theorem canonical_recoveryOp (port : Nat) (s : State) (h : Canonical (cells s)) :
    Canonical (cells (recoveryOp port s)) := by simp +contextual [recoveryOp, h]

/-! ### Machine/CopyAhead -/

@[simp] theorem canonical_copyAheadOp (i : Nat) (s : State) (h : Canonical (cells s)) :
    Canonical (cells (copyAheadOp i s)) := by unfold copyAheadOp; split <;> simp +contextual [h]

/-! ### Machine/Clock -/

@[simp] theorem canonical_aliveCycle (edge : Bool) (s : State) (h : Canonical (cells s)) :
    Canonical (cells (aliveCycle edge s)) := by
  have h1 : ∀ u, Canonical (cells u) → Canonical (cells (startStream (sendCopies u))) :=
    fun u hu => canonical_startStream _ (canonical_sendCopies _ hu)
  unfold aliveCycle
  simp only
  apply canonical_finishCritical
  split
  · simp [h1, h]
  · simp [h1, h]
@[simp] theorem canonical_idleTick (s : State) (h : Canonical (cells s)) :
    Canonical (cells (idleTick s)) := by simp [idleTick, h]

/-! ### Machine/Array -/

@[simp] theorem canonical_opxOp (t : Nat) (f : OpxF) (s : State) (h : Canonical (cells s)) :
    Canonical (cells (opxOp t f s)) := by simp [opxOp, h]
@[simp] theorem canonical_altOp (t : Nat) (f : AltF) (s : State) (h : Canonical (cells s)) :
    Canonical (cells (altOp t f s)) := by simp [altOp, h]
@[simp] theorem canonical_shxOp (t : Nat) (f : ShxF) (s : State) (h : Canonical (cells s)) :
    Canonical (cells (shxOp t f s)) := by simp [shxOp, h]
@[simp] theorem canonical_aclrOp (t bank : Nat) (s : State) (h : Canonical (cells s)) :
    Canonical (cells (aclrOp t bank s)) := by simp [aclrOp, h]
@[simp] theorem canonical_titheWide (c : Ctx) (g : GaugeRef) (f : DrnF) (sc : Scaling) (s : State)
    (h : Canonical (cells s)) :
    Canonical (cells (titheWide c g f sc s)) := by
  -- The slot of a row is an address computed with large numerals, and the proof needs none of it.
  unfold titheWide
  obtain ⟨slotAt, hslot⟩ : ∃ f, ∀ n l mb r m, titheSlot n l mb r m = f n l mb r m :=
    ⟨titheSlot, fun _ _ _ _ _ => rfl⟩
  simp -zeta -iota only [hslot]
  split
  · exact h
  · split
    extract_lets rate
    split
    · split
      · refine canonical_each _ _ _ h fun r u hu => ?_
        extract_lets a row
        split
        · exact canonical_ctrlWrite _ _ _ _ _ hu
        · exact hu
      · exact h
    · exact h
@[simp] theorem canonical_drnEff (f : DrnF) (c : Ctx) (s : State) (h : Canonical (cells s)) :
    Canonical (cells (drnEff f c s)) := by
  unfold drnEff
  split
  · exact h
  · extract_lets sc rows srcs n s1 s2
    have h1 : Canonical (cells s1) := by simp [s1, h]
    have h2 : Canonical (cells s2) := by
      unfold s2
      split <;> simp [h1]
    simpa using h2
@[simp] theorem canonical_drnOp (t : Nat) (f : DrnF) (s : State) (h : Canonical (cells s)) :
    Canonical (cells (drnOp t f s)) := by simp +contextual [drnOp, h]

/-! ### Machine/CollRows -/

@[simp] theorem canonical_startCommand (g : Nat) (e : CollEntry) (k : Nat) (c : CollCmd) (s : State)
    (h : Canonical (cells s)) :
    Canonical (cells (startCommand g e k c s)) := by
  unfold startCommand
  split
  next ack s1 heq =>
  have h1 : Canonical (cells (ack, s1).2) := by
    rw [← heq]
    simpa using h
  extract_lets y s2 s3 s4 s5 s6
  have h2 : Canonical (cells s2) := h1
  have h3 : Canonical (cells s3) := by simpa [s3] using ⟨fun _ => h2, fun _ => canonical_noteRead _ _ _ _ _ h2⟩
  have h5 : Canonical (cells s5) := by simp [s5, s4, h3]
  have h6 : Canonical (cells s6) := by simp +contextual [s6, h5]
  exact canonical_tryFold _ _ _ _ _ h6
@[simp] theorem canonical_collCommandStartOp (g : Nat) (s : State) (h : Canonical (cells s)) :
    Canonical (cells (collCommandStartOp g s)) := by simp [collCommandStartOp, h]
@[simp] theorem canonical_collCommandDoneOp (g : Nat) (s : State) (h : Canonical (cells s)) :
    Canonical (cells (collCommandDoneOp g s)) := by simp [collCommandDoneOp, h]
@[simp] theorem canonical_collGroupTimeoutOp (g : Nat) (s : State) (h : Canonical (cells s)) :
    Canonical (cells (collGroupTimeoutOp g s)) := by
  simp only [collGroupTimeoutOp]; (repeat' split) <;> simp +contextual [h]
@[simp] theorem canonical_takeChunk (p : Packet) (s : State) (h : Canonical (cells s)) :
    Canonical (cells (takeChunk p s)) := by simp [takeChunk, h]
@[simp] theorem canonical_collOp (port : Nat) (s : State) (h : Canonical (cells s)) :
    Canonical (cells (collOp port s)) := by simp +contextual [collOp, h]

/-! ### Machine/Control -/

@[simp] theorem canonical_sigOp (t : Nat) (f : SigF) (s : State) (h : Canonical (cells s)) :
    Canonical (cells (sigOp t f s)) := by simp +contextual [sigOp, h]
@[simp] theorem canonical_takeOp (t : Nat) (f : TakeF) (s : State) (h : Canonical (cells s)) :
    Canonical (cells (takeOp t f s)) := by simp [takeOp, h]
@[simp] theorem canonical_markPend (c : Ctx) (s : State) (h : Canonical (cells s)) :
    Canonical (cells (markPend c s)) := by simp [markPend, h]
@[simp] theorem canonical_pendOp (t : Nat) (s : State) (h : Canonical (cells s)) :
    Canonical (cells (pendOp t s)) := by simp only [pendOp]; (repeat' split) <;> simp +contextual [h]
@[simp] theorem canonical_budgetExceededOp (t q : Nat) (s : State) (h : Canonical (cells s)) :
    Canonical (cells (budgetExceededOp t q s)) := by unfold budgetExceededOp; split <;> simp +contextual [h]
@[simp] theorem canonical_preemptionBoundExceededOp (t q : Nat) (s : State) (h : Canonical (cells s)) :
    Canonical (cells (preemptionBoundExceededOp t q s)) := by
  unfold preemptionBoundExceededOp; split <;> simp +contextual [h]
@[simp] theorem canonical_waitTimeoutOp (t q : Nat) (s : State) (h : Canonical (cells s)) :
    Canonical (cells (waitTimeoutOp t q s)) := by simp only [waitTimeoutOp]; (repeat' split) <;> simp +contextual [h]

/-! ### Machine/Disable -/

@[simp] theorem canonical_abortOne (i : Inflight) (s : State) (h : Canonical (cells s)) :
    Canonical (cells (abortOne i s)) := by simp only [abortOne]; (repeat' split) <;> simp +contextual [h]
@[simp] theorem canonical_abortPasses (f : Pass → Bool) (t : Pass → Nat) (s : State) (h : Canonical (cells s)) :
    Canonical (cells (abortPasses f t s)) := by simp +contextual [abortPasses, h]
@[simp] theorem canonical_abortObject (op : DisableOp) (s : State) (h : Canonical (cells s)) :
    Canonical (cells (abortObject op s)) := by unfold abortObject; split <;> simp +contextual [h]
@[simp] theorem canonical_actDisable (d : HostDesc) (i : Inflight) (s : State) (h : Canonical (cells s)) :
    Canonical (cells (actDisable d i s)) := by simp [actDisable, h]
@[simp] theorem canonical_disableOp (d : HostDesc) (s : State) (h : Canonical (cells s)) :
    Canonical (cells (disableOp d s)) := by simp +contextual [disableOp, h]
@[simp] theorem canonical_heldDescriptorReleaseOp (r : Nat) (s : State) (h : Canonical (cells s)) :
    Canonical (cells (heldDescriptorReleaseOp r s)) := by
  simp only [heldDescriptorReleaseOp]; (repeat' split) <;> simp +contextual [h]

/-! ### Machine/EventRows -/

@[simp] theorem canonical_gathererEnableOp (mask : BitVec 48) (s : State) (h : Canonical (cells s)) :
    Canonical (cells (gathererEnableOp mask s)) := by simp [gathererEnableOp, h]
@[simp] theorem canonical_tileEnableOp (i : Nat) (mask : Word) (s : State) (h : Canonical (cells s)) :
    Canonical (cells (tileEnableOp i mask s)) := by simp [tileEnableOp, h]
@[simp] theorem canonical_deviceEnableOp (mask : BitVec 28) (s : State) (h : Canonical (cells s)) :
    Canonical (cells (deviceEnableOp mask s)) := by simp [deviceEnableOp, h]

/-! ### Machine/RegisterRows -/

@[simp] theorem canonical_stackWrite (k v : Nat) (s : State) (h : Canonical (cells s)) :
    Canonical (cells (stackWrite k v s)) := by simp [stackWrite, h]
@[simp] theorem canonical_rangeWrite (k e v : Nat) (s : State) (h : Canonical (cells s)) :
    Canonical (cells (rangeWrite k e v s)) := by simp [rangeWrite, h]
@[simp] theorem canonical_windowCtlWrite (k w v : Nat) (s : State) (h : Canonical (cells s)) :
    Canonical (cells (windowCtlWrite k w v s)) := by simp [windowCtlWrite, h]
@[simp] theorem canonical_regWrite (r : Reg) (v : Nat) (s : State) (h : Canonical (cells s)) :
    Canonical (cells (regWrite r v s)) := by unfold regWrite; split <;> simp +contextual [h]
@[simp] theorem canonical_wholeWrite (r : Reg) (v : Nat) (s : State) (h : Canonical (cells s)) :
    Canonical (cells (wholeWrite r v s)) := by simp [wholeWrite, h]
@[simp] theorem canonical_dwordAlone (off v : Nat) (s : State) (h : Canonical (cells s)) :
    Canonical (cells (dwordAlone off v s)) := by simp only [dwordAlone]; (repeat' split) <;> simp +contextual [h]
@[simp] theorem canonical_dwordWrite (off v : Nat) (s : State) (h : Canonical (cells s)) :
    Canonical (cells (dwordWrite off v s)) := by unfold dwordWrite; split <;> simp +contextual [h]
@[simp] theorem canonical_qwordWrite (off v : Nat) (s : State) (h : Canonical (cells s)) :
    Canonical (cells (qwordWrite off v s)) := by simp only [qwordWrite]; (repeat' split) <;> simp +contextual [h]
@[simp] theorem canonical_dwordEnabled (off v be : Nat) (s : State) (h : Canonical (cells s)) :
    Canonical (cells (dwordEnabled off v be s)) := by simp [dwordEnabled, h]
@[simp] theorem canonical_registerWriteOp (offset size : Nat) (value : Quad) (be : BitVec 8) (s : State)
    (h : Canonical (cells s)) :
    Canonical (cells (registerWriteOp offset size value be s)) := by simp [registerWriteOp, h]

/-! ### Machine/Vector -/

@[simp] theorem canonical_writeElems (c : Ctx) (d : VOp) (f : Nat → Nat → Elem) (s : State)
    (h : Canonical (cells s)) :
    Canonical (cells (writeElems c d f s)) := by unfold writeElems; split <;> simp +contextual [h]
@[simp] theorem canonical_v2Op (t : Nat) (i : Instr) (f : V2F) (g : Word → Word → Elem) (s : State)
    (h : Canonical (cells s)) :
    Canonical (cells (v2Op t i f g s)) := by simp +contextual [v2Op, h]
@[simp] theorem canonical_v3Op (t : Nat) (i : Instr) (f : V3F) (g : Word → Word → Word → Elem) (s : State)
    (h : Canonical (cells s)) :
    Canonical (cells (v3Op t i f g s)) := by simp +contextual [v3Op, h]
@[simp] theorem canonical_vaddOp (t : Nat) (f : V2F) (s : State) (h : Canonical (cells s)) :
    Canonical (cells (vaddOp t f s)) := by simp [vaddOp, h]
@[simp] theorem canonical_vmulOp (t : Nat) (f : V2F) (s : State) (h : Canonical (cells s)) :
    Canonical (cells (vmulOp t f s)) := by simp [vmulOp, h]
@[simp] theorem canonical_vfmaOp (t : Nat) (f : V3F) (s : State) (h : Canonical (cells s)) :
    Canonical (cells (vfmaOp t f s)) := by simp [vfmaOp, h]
@[simp] theorem canonical_vminOp (t : Nat) (f : V2F) (s : State) (h : Canonical (cells s)) :
    Canonical (cells (vminOp t f s)) := by simp [vminOp, h]
@[simp] theorem canonical_vmaxOp (t : Nat) (f : V2F) (s : State) (h : Canonical (cells s)) :
    Canonical (cells (vmaxOp t f s)) := by simp [vmaxOp, h]
@[simp] theorem canonical_vcmpOp (t : Nat) (f : VcmpF) (s : State) (h : Canonical (cells s)) :
    Canonical (cells (vcmpOp t f s)) := by simp [vcmpOp, h]
@[simp] theorem canonical_vselOp (t : Nat) (f : V3F) (s : State) (h : Canonical (cells s)) :
    Canonical (cells (vselOp t f s)) := by simp [vselOp, h]
@[simp] theorem canonical_vcvtEff (f : VcvtF) (c : Ctx) (s : State) (h : Canonical (cells s)) :
    Canonical (cells (vcvtEff f c s)) := by unfold vcvtEff; split <;> simp +contextual [h]
@[simp] theorem canonical_vcvtOp (t : Nat) (f : VcvtF) (s : State) (h : Canonical (cells s)) :
    Canonical (cells (vcvtOp t f s)) := by simp +contextual [vcvtOp, h]
@[simp] theorem canonical_vrdcEff (f : VrdcF) (c : Ctx) (s : State) (h : Canonical (cells s)) :
    Canonical (cells (vrdcEff f c s)) := by simp [vrdcEff, h]
@[simp] theorem canonical_vrdcOp (t : Nat) (f : VrdcF) (s : State) (h : Canonical (cells s)) :
    Canonical (cells (vrdcOp t f s)) := by simp +contextual [vrdcOp, h]
@[simp] theorem canonical_vposOp (t : Nat) (f : VposF) (s : State) (h : Canonical (cells s)) :
    Canonical (cells (vposOp t f s)) := by simp +contextual [vposOp, h]
@[simp] theorem canonical_vrndEff (f : VrndF) (c : Ctx) (s : State) (h : Canonical (cells s)) :
    Canonical (cells (vrndEff f c s)) := by simp [vrndEff, h]
@[simp] theorem canonical_vrndOp (t : Nat) (f : VrndF) (s : State) (h : Canonical (cells s)) :
    Canonical (cells (vrndOp t f s)) := by simp +contextual [vrndOp, h]

end Sys2Proof.Laws
end


section
/-! The memory stays in its canonical form: by the command at the front of the queue, and by the cycle on an empty queue. -/

namespace Sys2Proof.Laws

set_option Elab.async false

open Sys2Proof Sys2Proof.Machine Sys2Proof.Safety

/-- Every command answers a next state, and keeps the canonical form: the command's own rule says why. -/
theorem answers_canonical (i : Instr) (s : State) (h : Canonical (cells s)) :
    Answers i s (fun u => Canonical (cells u)) := by
  cases i <;> exact ⟨_, rfl, by simp +contextual [h]⟩

theorem canonical_step (s t : State) (h : Canonical (cells s)) (hs : step s = .next t) : Canonical (cells t) := by
  unfold step at hs
  split at hs
  · cases hs
    exact canonical_idleTick s h
  · next c cs _ =>
    obtain ⟨u, hu, hc⟩ := answers_canonical c (s.withPending cs) (by simpa using h)
    cases hu.symm.trans hs
    exact hc

/-- Settles O60: the canonical form of the memory is kept by each function that a command or a cycle calls, and so by every
step. -/
theorem memoryStaysCanonical : Obligations.MemoryStaysCanonical := fun s t => canonical_step s t

end Sys2Proof.Laws
end


section
/-! SUPPORT. The clock of a state: its cycle count, its tile edges, its queue and its throttle. Until a cycle ticks it, whatever
the cycle does leaves it alone: one rule per function that a cycle calls, in the order of the model's files. -/

namespace Sys2Proof.Laws

set_option Elab.async false

open Sys2Proof Sys2Proof.Machine Sys2Proof.Safety

/-- The cycle count, the tile edges, the waiting commands and the throttle. -/
def clock (s : State) : Nat × Nat × List Instr × Throttle := (s.cyc, s.edge, s.pending, s.stw.thr)

theorem clock_congr {s u : State} (hc : u.cyc = s.cyc) (he : u.edge = s.edge) (hp : u.pending = s.pending)
    (ht : u.stw.thr = s.stw.thr) : clock u = clock s := by simp [clock, *]

@[simp] theorem clock_mk (c e r h t p n g m sy co fa st hr ev) (sw : Steward) (em pe) :
    clock ⟨c, e, r, h, t, p, n, g, m, sy, co, fa, st, hr, ev, sw, em, pe⟩ = (c, e, pe, sw.thr) := id rfl

@[simp] theorem clock_fold (s : State) : (s.cyc, s.edge, s.pending, s.stw.thr) = clock s := id rfl

@[simp] theorem clock_ite {c : Prop} [Decidable c] (s u : State) :
    clock (if c then s else u) = if c then clock s else clock u := by split <;> rfl

@[simp] theorem clock_each {β : Type} (l : List β) (f : β → State → State) (s : State)
    (hf : ∀ x u, clock (f x u) = clock u) : clock (each l f s) = clock s :=
  each_keeps (fun u => clock u = clock s) l f s rfl (fun x u h => (hf x u).trans h)

theorem FinishFrame.clock {s u : State} (h : FinishFrame s u) : clock u = clock s := by
  unfold FinishFrame at h
  rw [h]
  rfl

/-! ### Machine/Regs -/

@[simp] theorem clock_setRg (s : State) (n : RegName) (v i j : Nat) : clock (State.setRg s n v i j) = clock s :=
  clock_congr rfl rfl rfl rfl
@[simp] theorem clock_setRgBits (s : State) (n : RegName) (lo w x i j : Nat) :
    clock (State.setRgBits s n lo w x i j) = clock s := clock_congr rfl rfl rfl rfl
@[simp] theorem clock_flag (s : State) (n : RegName) (b i j : Nat) : clock (State.flag s n b i j) = clock s :=
  clock_congr rfl rfl rfl rfl
@[simp] theorem clock_inc (s : State) (n : RegName) (k i j : Nat) : clock (State.inc s n k i j) = clock s :=
  clock_congr rfl rfl rfl rfl
@[simp] theorem clock_incSat (s : State) (n : RegName) (k i j : Nat) :
    clock (State.incSat s n k i j) = clock s := by simp [State.incSat]
@[simp] theorem clock_raise (s : State) (n : RegName) (v i j : Nat) :
    clock (State.raise s n v i j) = clock s := by simp [State.raise]

/-! ### Machine/Ops -/

@[simp] theorem clock_raiseEvent (code : EventCode) (index : Nat) (d : BitVec 128) (s : State) :
    clock (raiseEvent code index d s) = clock s := (raiseEvent_frame _ _ _ _).finish.clock
@[simp] theorem clock_setRing (s : State) (r : Nat) (c : RingCtx) : clock (State.setRing s r c) = clock s :=
  clock_congr rfl rfl rfl rfl
@[simp] theorem clock_finish (i : Inflight) (st : Status) (reason : Nat) (result payload : List Byte) (s : State) :
    clock (finish i st reason result payload s) = clock s := (finish_frame _ _ _ _ _ _).clock
@[simp] theorem clock_updTile (s : State) (t : Nat) (f : Tile → Tile) : clock (State.updTile s t f) = clock s :=
  clock_congr rfl rfl rfl rfl
@[simp] theorem clock_updInflight (s : State) (d : Nat) (f : Inflight → Inflight) :
    clock (State.updInflight s d f) = clock s := clock_congr rfl rfl rfl rfl
@[simp] theorem clock_dropInflight (s : State) (d : Nat) : clock (State.dropInflight s d) = clock s :=
  clock_congr rfl rfl rfl rfl
@[simp] theorem clock_setDev (s : State) (p : Nat) (d : Device) :
    clock (State.setDev s p d) = clock s := by simp [State.setDev]
@[simp] theorem clock_updDev (s : State) (p : Nat) (f : Device → Device) :
    clock (State.updDev s p f) = clock s := by simp [State.updDev]
@[simp] theorem clock_updPort (s : State) (p : Nat) (f : Port → Port) : clock (State.updPort s p f) = clock s :=
  clock_congr rfl rfl rfl rfl
@[simp] theorem clock_setMtally (s : State) (k : Nat) (v : Tally) : clock (State.setMtally s k v) = clock s :=
  clock_congr rfl rfl rfl rfl

/-! ### Machine/Memory -/

@[simp] theorem clock_reportDetected (l reader step : Nat) (s : State) :
    clock (reportDetected l reader step s) = clock s := by
  simp only [reportDetected]; (repeat' split) <;> simp
@[simp] theorem clock_latchFault (c : FaultCause) (s : State) :
    clock (latchFault c s) = clock s := by simp [latchFault]
@[simp] theorem clock_retirePc (k pc cause : Nat) (failed : Bool) (s : State) :
    clock (retirePc k pc cause failed s) = clock s := by
  simp only [retirePc]; (repeat' split) <;> simp
@[simp] theorem clock_reportCorrected (p l : Nat) (s : State) :
    clock (reportCorrected p l s) = clock s := by simp [reportCorrected]
@[simp] theorem clock_countPcCorr (k pc : Nat) (s : State) :
    clock (countPcCorr k pc s) = clock s := by simp [countPcCorr]
@[simp] theorem clock_countCorrected (l : Nat) (s : State) : clock (countCorrected l s) = clock s := by
  simp only [countCorrected]; (repeat' split) <;> simp
@[simp] theorem clock_alterLine (l : Nat) (es : List (Nat × BitVec 16)) (s : State) :
    clock (alterLine l es s) = clock s := by simp [alterLine]
@[simp] theorem clock_markDetected (l : Nat) (s : State) :
    clock (markDetected l s) = clock s := by simp [markDetected]
@[simp] theorem clock_meetErrors (l : Nat) (s : State) : clock (meetErrors l s) = clock s := by
  simp only [meetErrors]; split <;> simp
@[simp] theorem clock_wakeDev (a n : Nat) (s : State) : clock (wakeDev a n s) = clock s := by
  unfold wakeDev; split <;> simp
@[simp] theorem clock_meetLines (a n reader step : Nat) (s : State) :
    clock (meetLines a n reader step s) = clock s := by simp [meetLines]
@[simp] theorem clock_noteRead (a n reader step : Nat) (s : State) :
    clock (noteRead a n reader step s) = clock s := by simp [noteRead]

/-! ### Machine/Packet -/

@[simp] theorem clock_enqueue (port : Nat) (ps : List OutPacket) (s : State) :
    clock (enqueue port ps s) = clock s := by simp [enqueue]
@[simp] theorem clock_sendXfer (type node vl : Nat) (ordered req : Bool) (purpose : Purpose) (ps : List Piece)
    (sig : Option (Nat × Nat)) (s : State) :
    clock (sendXfer type node vl ordered req purpose ps sig s).1 = clock s := by simp [sendXfer]

/-! ### Machine/Sync -/

@[simp] theorem clock_updSeq (s : State) (t q : Nat) (f : SeqState → SeqState) :
    clock (State.updSeq s t q f) = clock s := clock_congr rfl rfl rfl rfl
@[simp] theorem clock_setTally (s : State) (dest : Option Nat) (k : Nat) (y : Tally) :
    clock (State.setTally s dest k y) = clock s := by
  unfold State.setTally; split <;> simp
@[simp] theorem clock_evalWait (t q : Nat) (s : State) : clock (evalWait t q s) = clock s := by
  unfold evalWait; split <;> simp
@[simp] theorem clock_applyTakes (s : State) : clock (applyTakes s) = clock s := by simp [applyTakes]
@[simp] theorem clock_tallyCycle (s : State) : clock (tallyCycle s) = clock s := by simp [tallyCycle]

/-! ### Machine/Settle -/

@[simp] theorem clock_complete (d : Nat) (st : Status) (reason : Nat) (result payload : List Byte) (s : State) :
    clock (complete d st reason result payload s) = clock s := by
  unfold complete; split <;> simp
@[simp] theorem clock_completeWaited (d : Nat) (st : Status) (result : List Byte) (s : State) :
    clock (completeWaited d st result s) = clock s := by simp [completeWaited]
@[simp] theorem clock_applyDisabled (op : DisableOp) (s : State) : clock (applyDisabled op s) = clock s := by
  unfold applyDisabled; split <;> simp
@[simp] theorem clock_settleOne (d : Nat) (s : State) : clock (settleOne d s) = clock s := by
  simp only [settleOne]; (repeat' split) <;> simp
@[simp] theorem clock_settle (s : State) : clock (settle s) = clock s := by simp [settle]

/-! ### Machine/Pass -/

@[simp] theorem clock_setArea (s : State) (a : Nat) (v : AreaSt) :
    clock (State.setArea s a v) = clock s := by simp [State.setArea]
@[simp] theorem clock_freeHeld (a : Nat) (s : State) : clock (freeHeld a s) = clock s := by simp [freeHeld]
@[simp] theorem clock_unbind (mb : Nat) (s : State) : clock (unbind mb s) = clock s := by simp [unbind]
@[simp] theorem clock_completePass (p : Pass) (st : Status) (t : Nat) (s : State) :
    clock (completePass p st t s) = clock s := by simp [completePass]

/-! ### Machine/Fault -/

@[simp] theorem clock_abortAll (s : State) : clock (abortAll s) = clock s := by simp [abortAll]
@[simp] theorem clock_idlePorts (s : State) : clock (idlePorts s) = clock s := by simp [idlePorts]
@[simp] theorem clock_restPorts (s : State) : clock (restPorts s) = clock s := by simp [restPorts]
@[simp] theorem clock_dropWork (banks : Nat → BitVec 4) (s : State) : clock (dropWork banks s) = clock s := by
  unfold dropWork; split <;> simp
@[simp] theorem clock_faultEffects (c : FaultCause) (s : State) :
    clock (faultEffects c s) = clock s := by simp [faultEffects]
@[simp] theorem clock_checkFault (s : State) : clock (checkFault s) = clock s := by
  unfold checkFault; split <;> simp
@[simp] theorem clock_declareFault (c : FaultCause) (s : State) :
    clock (declareFault c s) = clock s := by simp [declareFault]
@[simp] theorem clock_finishCritical (s : State) : clock (finishCritical s) = clock s := by
  unfold finishCritical; split <;> simp

/-! ### Machine/Twin -/

@[simp] theorem clock_underOp (op : Nat) (f : State → State) (s : State) (hf : ∀ u, clock (f u) = clock u) :
    clock (underOp op f s) = clock s := by simp [underOp, hf]
@[simp] theorem clock_newOp (s : State) : clock (newOp s).2 = clock s := by simp [newOp]
@[simp] theorem clock_sendParts (type node vl : Nat) (purpose : Purpose) (ps : List Piece)
    (sig : Option (Nat × Nat)) (s : State) :
    clock (sendParts type node vl purpose ps sig s) = clock s := by simp [sendParts]
@[simp] theorem clock_sendOperation (type node vl : Nat) (purpose : Purpose) (ps : List Piece)
    (sig : Option (Nat × Nat)) (s : State) :
    clock (sendOperation type node vl purpose ps sig s) = clock s := by simp [sendOperation]
@[simp] theorem clock_sendBlocks (c : CopyOut) (s : State) : clock (sendBlocks c s) = clock s := by simp [sendBlocks]
@[simp] theorem clock_sendCopies (s : State) : clock (sendCopies s) = clock s := by simp [sendCopies]

/-! ### Machine/MemRows -/

@[simp] theorem clock_noteQuiet (k : Nat) (s : State) : clock (noteQuiet k s) = clock s := by simp [noteQuiet]

/-! ### Machine/Clocks -/

@[simp] theorem clock_noteUnused (q : Nat) (s : State) : clock (noteUnused q s) = clock s := by simp [noteUnused]
@[simp] theorem clock_noteTile (t : Nat) (s : State) : clock (noteTile t s) = clock s := by simp [noteTile]

/-! ### Machine/Recover -/

@[simp] theorem clock_sendLogCopy (node : Nat) (x : LogEnt × Nat) (s : State) :
    clock (sendLogCopy node x s) = clock s := by simp [sendLogCopy]
@[simp] theorem clock_sendStream (d : HostDesc) (s : State) : clock (sendStream d s) = clock s := by simp [sendStream]
@[simp] theorem clock_startStream (s : State) : clock (startStream s) = clock s := by
  unfold startStream; split <;> simp

/-! ### Machine/CopyAhead -/

@[simp] theorem clock_noteHolds (s : State) : clock (noteHolds s) = clock s := by simp [noteHolds]

/-! ### Machine/Clock -/

@[simp] theorem clock_tileCycle (edge : Bool) (t : Nat) (s : State) : clock (tileCycle edge t s) = clock s := by
  unfold tileCycle; split <;> simp
@[simp] theorem clock_tilesCycle (edge : Bool) (s : State) :
    clock (tilesCycle edge s) = clock s := by simp [tilesCycle]
@[simp] theorem clock_promisesCycle (edge : Bool) (s : State) :
    clock (promisesCycle edge s) = clock s := by simp [promisesCycle]
@[simp] theorem clock_windowsCycle (s : State) : clock (windowsCycle s) = clock s := by simp [windowsCycle]
@[simp] theorem clock_aliveCycle (edge : Bool) (s : State) :
    clock (aliveCycle edge s) = clock s := by simp [aliveCycle]

end Sys2Proof.Laws
end


section
/-! One undivided cycle on an empty queue: what it counts, what it leaves alone when nothing waits for it, and what its TAKEs
leave in the module tallies. -/

namespace Sys2Proof.Laws

set_option Elab.async false

open Sys2Proof Sys2Proof.Machine Sys2Proof.Safety

/-! ## The clock of an undivided cycle -/

theorem restPorts_noFault (s : State) (h : s.stw.fault = none) : restPorts s = s := by simp [restPorts, h]

theorem checkFault_noFault (s : State) (h : s.stw.fault = none) : checkFault s = s := by simp [checkFault, h]

/-- A throttle event leaves another throttle record behind, and raises at most one event. -/
theorem throttleEvent_frame (s : State) : ∃ t, EventFrame (s.setThr t) (throttleEvent s) := by
  unfold throttleEvent
  extract_lets t due
  split
  · exact ⟨_, raiseEvent_frame _ _ _ _⟩
  · exact ⟨s.stw.thr, rfl⟩

theorem clockCycle_edge (s : State) : (clockCycle s).edge = s.edge + (if s.stw.thr.left ≤ 1 then 1 else 0) := by
  simp only [clockCycle, Throttle.edgeNow, decide_eq_true_eq]
  split <;> rfl

/-- The work of a cycle: the cycle is counted, and what a module that is alive then does. -/
def cycleWork (s : State) : State :=
  if s.alive then aliveCycle s.stw.thr.edgeNow { s with cyc := s.cyc + 1 } else { s with cyc := s.cyc + 1 }

/-- What follows a cycle's work: the fault's effects, the ports at rest, the tile clock, and the events that are due. -/
def afterWork (s : State) : State := flushEvents (throttleEvent (clockCycle (restPorts (checkFault s))))

theorem idleTick_unpowered (s : State) (h : s.stw.powered = false) : idleTick s = s := by simp [idleTick, h]

theorem idleTick_powered (s : State) (h : s.stw.powered = true) : idleTick s = afterWork (cycleWork s) := by
  simp [idleTick, h, afterWork, cycleWork, State.alive]

theorem cycleWork_clock (s : State) : clock (cycleWork s) = (s.cyc + 1, s.edge, s.pending, s.stw.thr) := by
  unfold cycleWork
  split <;> simp

theorem afterWork_frame (s : State) :
    ∃ t, EventFrame ((clockCycle (restPorts (checkFault s))).setThr t) (afterWork s) := by
  obtain ⟨t, ht⟩ := throttleEvent_frame (clockCycle (restPorts (checkFault s)))
  exact ⟨t, ht.trans (flushEvents_frame _)⟩

theorem afterWork_clock (s : State) :
    (afterWork s).cyc = s.cyc ∧ (afterWork s).pending = s.pending ∧
      (afterWork s).edge = s.edge + (if s.stw.thr.left ≤ 1 then 1 else 0) := by
  have hc : clock (restPorts (checkFault s)) = clock s := by simp
  obtain ⟨hcyc, hedge, hpend, hthr⟩ : _ ∧ _ ∧ _ ∧ _ := by simpa only [clock, Prod.mk.injEq] using hc
  obtain ⟨t, ht⟩ := afterWork_frame s
  rw [ht]
  refine ⟨hcyc, hpend, ?_⟩
  rw [← hedge, ← hthr]
  exact clockCycle_edge _

theorem idleTick_clock (s : State) (h : s.stw.powered = true) :
    (idleTick s).cyc = s.cyc + 1 ∧ (idleTick s).pending = s.pending ∧
      (idleTick s).edge = s.edge + (if s.stw.thr.left ≤ 1 then 1 else 0) := by
  obtain ⟨hcyc, hedge, hpend, hthr⟩ : _ ∧ _ ∧ _ ∧ _ := by
    simpa only [clock, Prod.mk.injEq] using cycleWork_clock s
  obtain ⟨hcyc', hpend', hedge'⟩ := afterWork_clock (cycleWork s)
  rw [idleTick_powered s h]
  exact ⟨hcyc'.trans hcyc, hpend'.trans hpend, by rw [hedge', hedge, hthr]⟩

/-! ## The TAKEs and waits of a cycle -/

/-- What the TAKEs and waits of a cycle may change: the tiles and the module tallies. -/
def TallyFrame (s u : State) : Prop := u = { s with tiles := u.tiles, sync := u.sync }

theorem TallyFrame.trans {s u v : State} (h : TallyFrame s u) (k : TallyFrame u v) : TallyFrame s v := by
  unfold TallyFrame at *
  rw [k]
  rw [h]

theorem setTally_frame (s : State) (dest : Option Nat) (k : Nat) (y : Tally) : TallyFrame s (s.setTally dest k y) := by
  cases dest <;> rfl

theorem setTally_takes (s : State) (dest : Option Nat) (k : Nat) (y : Tally) :
    (s.setTally dest k y).sync.takes = s.sync.takes := by cases dest <;> rfl

/-- Writing a tally changes the module tally it names, and no other. -/
theorem mtally_setTally (s : State) (dest : Option Nat) (k j : Nat) (y : Tally) :
    (s.setTally dest k y).mtally j = if dest = none ∧ k = j then y else s.mtally j := by
  cases dest with
  | none => simp [State.setTally, eq_comm]
  | some t => simp [State.setTally, State.mtally]

/-- A wait that is met moves its tally and lets its pass go on; any other leaves the state. -/
theorem evalWait_cases (t q : Nat) (s : State) :
    evalWait t q s = s ∨ ∃ dest k target, evalWait t q s =
      (s.setTally dest k ((s.tally dest k).waited target)).updSeq t q SeqState.next := by
  unfold evalWait
  split
  · simp only
    split
    · exact .inr ⟨_, _, _, rfl⟩
    · exact .inl rfl
  · exact .inl rfl

theorem evalWait_frame (t q : Nat) (s : State) : TallyFrame s (evalWait t q s) := by
  obtain h | ⟨_, _, _, h⟩ := evalWait_cases t q s
  · rw [h]
    rfl
  · rw [h]
    exact (setTally_frame _ _ _ _).trans rfl

theorem evalWait_takes (t q : Nat) (s : State) : (evalWait t q s).sync.takes = s.sync.takes := by
  obtain h | ⟨_, _, _, h⟩ := evalWait_cases t q s
  · rw [h]
  · rw [h, updSeq_sync, setTally_takes]

theorem waited_count (y : Tally) (target : Word) : (y.waited target).count = y.count := by
  simp only [Tally.waited]
  split <;> rfl

/-- A wait moves a tally's reference; it leaves the counts. -/
theorem evalWait_count (t q k : Nat) (s : State) : ((evalWait t q s).mtally k).count = (s.mtally k).count := by
  obtain h | ⟨dest, j, target, h⟩ := evalWait_cases t q s
  · rw [h]
  · rw [h]
    change ((s.setTally dest j ((s.tally dest j).waited target)).mtally k).count = _
    rw [mtally_setTally]
    split
    · next hk =>
      rw [waited_count, hk.1, hk.2]
      rfl
    · rfl

theorem applyTakes_frame (s : State) : TallyFrame s (applyTakes s) :=
  each_keeps (TallyFrame s) _ _ _ rfl fun _ _ hu => hu.trans (setTally_frame _ _ _ _)

theorem applyTakes_takes (s : State) : (applyTakes s).sync.takes = [] :=
  each_keeps (fun u : State => u.sync.takes = []) _ _ _ rfl fun _ _ hu => (setTally_takes _ _ _ _).trans hu

/-- Takes in a row leave in a module tally what they leave taken from it one by one. -/
theorem mtally_each_take (l : List (Option Nat × Nat × Word)) (k : Nat) (s : State) :
    (each l (fun x s => s.setTally x.1 x.2.1 ((s.tally x.1 x.2.1).take x.2.2)) s).mtally k =
      l.foldl (fun y x => if x.1 = none && x.2.1 = k then y.take x.2.2 else y) (s.mtally k) := by
  induction l generalizing s with
  | nil => rfl
  | cons x l ih =>
    rw [each_cons, ih, mtally_setTally, List.foldl_cons]
    congr 1
    by_cases h : x.1 = none ∧ x.2.1 = k
    · simp [h, State.tally]
    · simp only [if_neg h]
      simp [h]

theorem applyTakes_mtally (s : State) (k : Nat) : (applyTakes s).mtally k = s.mtallyTaken k :=
  mtally_each_take _ _ _

theorem tallyCycle_frame (s : State) : TallyFrame s (tallyCycle s) :=
  each_keeps (TallyFrame s) _ _ _ (applyTakes_frame s) fun _ _ hu => hu.trans (evalWait_frame _ _ _)

theorem tallyCycle_takes (s : State) : (tallyCycle s).sync.takes = [] :=
  each_keeps (fun u : State => u.sync.takes = []) _ _ _ (applyTakes_takes s) fun _ _ hu => (evalWait_takes _ _ _).trans hu

theorem tallyCycle_count (s : State) (k : Nat) : ((tallyCycle s).mtally k).count = (s.mtallyTaken k).count :=
  each_keeps (fun u : State => (u.mtally k).count = (s.mtallyTaken k).count) _ _ _
    (by rw [applyTakes_mtally]) fun _ _ hu => (evalWait_count _ _ _ _).trans hu

/-! ## A cycle for which nothing waits -/

/-- What a cycle leaves alone when no fault is latched and nothing waits for the cycle. Without accepted work the rings stay
too, and no DISABLE comes to be accepted. -/
structure CycleFrame (s u : State) : Prop where
  mem : u.memory.mem = s.memory.mem
  sync : u.sync = s.sync
  coll : u.coll = s.coll
  fab : u.fab = s.fab
  steps : u.steps = s.steps
  op : u.hrv.op = s.hrv.op
  recWait : u.hrv.recWait = s.hrv.recWait
  fault : u.stw.fault = s.stw.fault
  noDisable : NoDisable s → NoDisable u
  rings : s.host.inflight = [] → u.host.inflight = [] ∧ u.host.rings = s.host.rings

theorem CycleFrame.refl (s : State) : CycleFrame s s :=
  ⟨rfl, rfl, rfl, rfl, rfl, rfl, rfl, rfl, id, fun h => ⟨h, rfl⟩⟩

theorem CycleFrame.trans {s u v : State} (h : CycleFrame s u) (k : CycleFrame u v) : CycleFrame s v where
  mem := k.mem.trans h.mem
  sync := k.sync.trans h.sync
  coll := k.coll.trans h.coll
  fab := k.fab.trans h.fab
  steps := k.steps.trans h.steps
  op := k.op.trans h.op
  recWait := k.recWait.trans h.recWait
  fault := k.fault.trans h.fault
  noDisable hs := k.noDisable (h.noDisable hs)
  rings hs := ⟨(k.rings (h.rings hs).1).1, (k.rings (h.rings hs).1).2.trans (h.rings hs).2⟩

/-- The fields whose change a cycle's frame allows, where the accepted work stays. -/
theorem CycleFrame.of_eq {s u : State} (h : u = { s with
    cyc := u.cyc, edge := u.edge, regs := u.regs, tiles := u.tiles, gath := u.gath, evt := u.evt, emitted := u.emitted,
    memory := { u.memory with mem := s.memory.mem }, hrv := { s.hrv with holds := u.hrv.holds },
    stw := { u.stw with fault := s.stw.fault },
    host := { s.host with msix := u.host.msix, msixHeld := u.host.msixHeld } }) : CycleFrame s u := by
  rw [h]
  exact ⟨rfl, rfl, rfl, rfl, rfl, rfl, rfl, rfl, id, fun h => ⟨h, rfl⟩⟩

theorem CycleFrame.ofEvent {s u : State} (h : EventFrame s u) : CycleFrame s u := by
  unfold EventFrame at h
  rw [h]
  exact .of_eq rfl

theorem CycleFrame.ofEach {β : Type} (l : List β) (f : β → State → State) (s : State)
    (hf : ∀ x u, CycleFrame u (f x u)) : CycleFrame s (each l f s) :=
  each_keeps (CycleFrame s) l f s (.refl s) fun x u hu => hu.trans (hf x u)

theorem tallyCycle_kept (s : State) : CycleFrame { s with sync := (tallyCycle s).sync } (tallyCycle s) := by
  have h := tallyCycle_frame s
  unfold TallyFrame at h
  generalize tallyCycle s = u at h
  rw [h]
  exact .of_eq rfl

theorem tileCycle_kept (edge : Bool) (t : Nat) (s : State) : CycleFrame s (tileCycle edge t s) := by
  unfold tileCycle
  split
  · exact .of_eq rfl
  · exact .refl s

theorem noteTile_kept (t : Nat) (s : State) : CycleFrame s (noteTile t s) := .of_eq rfl

theorem tilesCycle_kept (edge : Bool) (s : State) : CycleFrame s (tilesCycle edge s) := by
  refine .ofEach _ _ s fun t u => ?_
  split
  · exact (tileCycle_kept edge t u).trans (noteTile_kept _ _)
  · exact noteTile_kept _ _

theorem promisesCycle_kept (edge : Bool) (s : State) : CycleFrame s (promisesCycle edge s) where
  mem := rfl
  sync := rfl
  coll := rfl
  fab := rfl
  steps := rfl
  op := rfl
  recWait := rfl
  fault := rfl
  noDisable hs i hi := by
    obtain ⟨j, hj, rfl⟩ := List.mem_map.1 hi
    exact hs j hj
  rings hs := ⟨by simp [promisesCycle, hs], rfl⟩

theorem windowsCycle_kept (s : State) : CycleFrame s (windowsCycle s) := by
  unfold windowsCycle
  split
  · exact .refl s
  · exact .ofEach _ _ s fun g u => .of_eq rfl

theorem noteQuiet_kept (k : Nat) (s : State) : CycleFrame s (noteQuiet k s) := by
  simp only [noteQuiet]
  split
  · split
    · exact .refl s
    · exact .of_eq rfl
  · split
    · exact .of_eq rfl
    · exact .refl s

theorem noteUnused_kept (q : Nat) (s : State) : CycleFrame s (noteUnused q s) := by
  simp only [noteUnused]
  split
  · split
    · exact .refl s
    · exact .of_eq rfl
  · split
    · exact .of_eq rfl
    · exact .refl s

theorem noteHolds_kept (s : State) : CycleFrame s (noteHolds s) := .of_eq rfl

theorem sendCopies_none (s : State) (h : s.steps.copies = []) : sendCopies s = s := by
  have hs : { s.steps with copies := [] } = s.steps := by rw [← h]
  simp [sendCopies, h, hs]

theorem startStream_none (s : State) (h : s.hrv.recWait = none) : startStream s = s := by simp [startStream, h]

theorem finishCritical_none (s : State) (h : s.coll.ending = none) : finishCritical s = s := by simp [finishCritical, h]

theorem inflight?_nil {s : State} {d : Nat} {i : Inflight} (h : s.inflight? d = some i) : s.host.inflight ≠ [] := by
  intro hn
  simp [State.inflight?, hn] at h

/-- Completing an accepted descriptor changes the completion's own fields and the list of accepted work. -/
theorem complete_kept (d : Nat) (st : Status) (k : Nat) (b p : List Byte) (s : State) (h : s.host.inflight ≠ []) :
    CycleFrame s (complete d st k b p s) := by
  unfold complete
  split
  · next i _ =>
    have hf := finish_frame i st k b p (s.dropInflight d)
    unfold FinishFrame at hf
    rw [hf]
    exact ⟨rfl, rfl, rfl, rfl, rfl, rfl, rfl, rfl, fun hs j hj => hs j (List.mem_of_mem_filter hj),
      fun hn => absurd hn h⟩
  · exact .refl s

theorem updInflight_kept (d : Nat) (f : Inflight → Inflight) (s : State) (hf : ∀ i, (f i).work = i.work) :
    CycleFrame s (s.updInflight d f) where
  mem := rfl
  sync := rfl
  coll := rfl
  fab := rfl
  steps := rfl
  op := rfl
  recWait := rfl
  fault := rfl
  noDisable hs i hi := by
    obtain ⟨j, hj, rfl⟩ := List.mem_map.1 hi
    split
    · rw [hf]; exact hs j hj
    · exact hs j hj
  rings hs := ⟨by simp [State.updInflight, hs], rfl⟩

theorem completeWaited_kept (d : Nat) (st : Status) (b : List Byte) (s : State) (h : s.host.inflight ≠ []) :
    CycleFrame s (completeWaited d st b s) := by
  unfold completeWaited
  refine (updInflight_kept d _ s fun _ => ?_).trans (complete_kept _ _ _ _ _ _ ?_)
  · rfl
  · simpa [State.updInflight] using h

/-- A descriptor whose work is not a DISABLE completes without moving what the cycle leaves alone. -/
theorem settleOne_kept (d : Nat) (s : State) (hd : NoDisable s) : CycleFrame s (settleOne d s) := by
  unfold settleOne
  split
  · exact .refl s
  · next i hi =>
    have hn := inflight?_nil hi
    split
    · split
      · exact completeWaited_kept _ _ _ _ hn
      · exact .refl s
    · split
      · exact completeWaited_kept _ _ _ _ hn
      · exact .refl s
    · split
      · exact complete_kept _ _ _ _ _ _ hn
      · exact .refl s
    · next op hw =>
      have := hd i (List.mem_of_find?_eq_some hi)
      simp [hw, Work.disables] at this
    · exact .refl s

theorem settle_kept (s : State) (hd : NoDisable s) : CycleFrame s (settle s) :=
  each_keeps (CycleFrame s) _ _ _ (.refl s) fun d u hu => hu.trans (settleOne_kept d u (hu.noDisable hd))

/-- Nothing waits for the cycle: no fault is latched, and there is no critical stack, copy, recovery stream or DISABLE. -/
structure NothingWaits (s : State) : Prop where
  fault : s.stw.fault = none
  ending : s.coll.ending = none
  copies : s.steps.copies = []
  recWait : s.hrv.recWait = none
  noDisable : NoDisable s

theorem CycleFrame.nothingWaits {s u : State} (h : CycleFrame s u) (hs : NothingWaits s) : NothingWaits u where
  fault := h.fault.trans hs.fault
  ending := (congrArg Coll.ending h.coll).trans hs.ending
  copies := (congrArg Steps.copies h.steps).trans hs.copies
  recWait := h.recWait.trans hs.recWait
  noDisable := h.noDisable hs.noDisable

theorem NothingWaits.withSync {s : State} (h : NothingWaits s) (y : Sync) : NothingWaits { s with sync := y } :=
  ⟨h.fault, h.ending, h.copies, h.recWait, h.noDisable⟩

/-- Where nothing waits, the copies, the recovery stream and the critical stack have no part in the cycle's work, and the rest
of it keeps the frame. -/
theorem aliveCycle_kept (edge : Bool) (s : State) (h : NothingWaits s) :
    CycleFrame { s with sync := (tallyCycle s).sync } (aliveCycle edge s) := by
  have h1 := (tallyCycle_kept s).trans ((tilesCycle_kept edge _).trans (promisesCycle_kept edge _))
  have h2 := h1.trans ((windowsCycle_kept _).trans (.ofEach (List.range Config.numStacks) noteQuiet _ noteQuiet_kept))
  have h3 := h2.trans (.ofEach (List.range 4) noteUnused _ noteUnused_kept)
  have w3 := h3.nothingWaits (h.withSync _)
  have h4 := h3.trans (noteHolds_kept _)
  have w4 := h4.nothingWaits (h.withSync _)
  unfold aliveCycle
  simp only
  rw [sendCopies_none _ w3.copies, startStream_none _ w3.recWait]
  split
  · rw [finishCritical_none _ w4.ending]
    exact h4
  · have h5 := h4.trans (settle_kept _ w4.noDisable)
    rw [finishCritical_none _ (h5.nothingWaits (h.withSync _)).ending]
    exact h5

theorem afterWork_kept (s : State) (h : s.stw.fault = none) : CycleFrame s (afterWork s) := by
  obtain ⟨t, ht⟩ := afterWork_frame s
  rw [checkFault_noFault s h, restPorts_noFault s h] at ht
  exact CycleFrame.trans (.of_eq rfl) (.ofEvent ht)

theorem NothingWaits.counted {s : State} (h : NothingWaits s) : NothingWaits { s with cyc := s.cyc + 1 } :=
  ⟨h.fault, h.ending, h.copies, h.recWait, h.noDisable⟩

theorem cycleWork_alive (s : State) (hm : s.stw.mainOn = true) (h : NothingWaits s) :
    CycleFrame { s with sync := (tallyCycle { s with cyc := s.cyc + 1 }).sync } (cycleWork s) := by
  have ha : s.alive = true := by simp [State.alive, hm, h.fault]
  rw [cycleWork, if_pos ha]
  exact CycleFrame.trans (.of_eq rfl) (aliveCycle_kept _ _ h.counted)

theorem cycleWork_notAlive (s : State) (hm : s.stw.mainOn = false) : CycleFrame s (cycleWork s) := by
  have ha : ¬ s.alive = true := by simp [State.alive, hm]
  rw [cycleWork, if_neg ha]
  exact .of_eq rfl

/-- The cycle of a module that is alive moves its tallies, and nothing else that a cycle's frame names. -/
theorem idleTick_alive (s : State) (hp : s.stw.powered = true) (hm : s.stw.mainOn = true) (h : NothingWaits s) :
    CycleFrame { s with sync := (tallyCycle { s with cyc := s.cyc + 1 }).sync } (idleTick s) := by
  have hk := cycleWork_alive s hm h
  rw [idleTick_powered s hp]
  exact hk.trans (afterWork_kept _ (hk.fault.trans h.fault))

/-- The cycle of a module that is not alive moves nothing that a cycle's frame names. -/
theorem idleTick_notAlive (s : State) (hp : s.stw.powered = true) (hm : s.stw.mainOn = false) (h : NothingWaits s) :
    CycleFrame s (idleTick s) := by
  have hk := cycleWork_notAlive s hm
  rw [idleTick_powered s hp]
  exact hk.trans (afterWork_kept _ (hk.fault.trans h.fault))

theorem mtally_of_sync {s u : State} (h : u.sync = s.sync) {k : Nat} : u.mtally k = s.mtally k := by
  simp only [State.mtally, h]

theorem step_empty (s : State) (h : s.pending = []) : step s = .next (idleTick s) := by simp [step, h]

/-- Settles O59: nothing that a cycle does before the tile clock ticks touches the clock, and where nothing waits for the cycle
only its TAKEs and waits reach what the statement names. -/
theorem emptyQueueTicks : Obligations.EmptyQueueTicks := by
  intro s hq
  rw [step_empty s hq]
  refine ⟨fun hp => by rw [idleTick_unpowered s hp], fun hp => ⟨_, rfl, ?_⟩⟩
  obtain ⟨hcyc, hpend, hedge⟩ := idleTick_clock s hp
  refine ⟨hcyc, hpend.trans hq, hedge, fun hf he hc hr hd => ?_⟩
  have hw : NothingWaits s := ⟨hf, he, hc, hr, hd⟩
  cases hm : s.stw.mainOn with
  | false =>
    have k := idleTick_notAlive s hp hm hw
    exact ⟨k.mem, k.fab, k.steps, k.coll, k.op, fun hi => (k.rings hi).2, by simp⟩
  | true =>
    have k := idleTick_alive s hp hm hw
    refine ⟨k.mem, k.fab, k.steps, k.coll, k.op, fun hi => (k.rings hi).2, fun _ => ⟨?_, fun j => ?_⟩⟩
    · rw [k.sync]
      exact tallyCycle_takes _
    · rw [mtally_of_sync k.sync]
      exact tallyCycle_count _ j

end Sys2Proof.Laws
end


section
/-! SIG off the grid while a read of its pass has left its controller and not landed: the abandonment marks the read for
discarding and leaves it as it stands, so that a statement by which only requested reads remain fails there. -/

namespace Sys2Proof.Laws

set_option Elab.async false

open Sys2Proof Sys2Proof.Machine Sys2Proof.Safety

/-- A SIG of kind 1 from tile 5 that names the column 43 to its right, off the grid (R10). -/
def offGridSig : SigF := { kind := 1, tally := 3, inc := 1, dx := 43, dy := 0, stream := 0, bare := false }

/-- An image of one instruction that declares no banks, wires, buffers or streams. -/
def bareImage : Image :=
  { nInstr := 1, banks := 0, wires := 0, tBase := 0, tCount := 8, layer := 0, role := 0, timeout := 0, fpBase := 0, fpSize := 0,
    save := 0, bufs := [], gauges := [], streams := [], codeOff := 0 }

/-- A pass of that image on tile 5. -/
def barePass : Pass :=
  { seq := 0, desc := 0, passId := 0, jobTag := 0, ring := 0, deadline := false, tiles := [5], addr := 0, img := bareImage,
    budget := 0, mb := 0, role := 0, origin := 0, demand := [], step := none, stepNum := 0, done := [], losses := 0,
    lossLayer := 0, ending := none, dropped := [], moved := [] }

/-- Its sequencer state with the SIG dispatched into the control queue (R111). -/
def sigQueuedSeq : SeqState :=
  { pass := 0, slot := 0, pc := 1, loops := [], swapped := [], budget := 0, sinceYield := 0, moves := 0, preempt := false,
    suspended := false, pended := false, parts := [], hold := none,
    queue := [{ pc := 0, loops := [], move := 0, instr := .sig 5 offGridSig, held := [], gets := [], order := 0 }] }

/-- A local read of the pass that its controller has served and that has not landed yet (R204, R212). -/
def arrivedRead : Xfer :=
  { id := 0, gath := 0, tile := 5, pass := 0, stream := 0, prio := 0, deadline := false, move := 0, write := false, node := 0,
    mpa := 0, lines := 1, bins := [0], fmt := 0, reserve := some false, issued := true, st := .arrived,
    data := List.replicate 64 0, detected := [false], discard := false, refetch := false, block := none, since := 0 }

/-- A module whose tile 5 presents the SIG while that read is on its way. -/
def arrivedAtSig : State :=
  { State.reset with
    stw := { Steward.init with powered := true, mainOn := true, good := true, pll := [.running, .running, .running, .running] },
    passes := [barePass], nextPass := 1,
    tiles := [(5, { Tile.init with seqs := [sigQueuedSeq], running := some 0 })],
    gath := { Gath.init with xfers := [arrivedRead], nextId := 1 } }

theorem exec_sig (t : Nat) (f : SigF) (s : State) : exec (.sig t f) s = .next (sigOp t f s) := rfl

/-- The SIG may issue there, and has no target. -/
theorem arrivedAtSig_presents : (present arrivedAtSig 5 (.sig 5 offGridSig)).any (fun c =>
    c.p.seq == 0 && !arrivedAtSig.behindGet 5 c.earlier [] && c.free (.sig 5 offGridSig) [] [] arrivedAtSig &&
    !arrivedAtSig.putPending 5 [] && !sigOk arrivedAtSig c offGridSig) = true := by decide +kernel

theorem sigOp_keeps_arrivedRead : (sigOp 5 offGridSig arrivedAtSig).gath.xfers = [{ arrivedRead with discard := true }] := by
  decide +kernel

/-- Refutes O16: a SIG off the grid abandons its pass while a read of the pass has arrived and not landed. That read completes
into its landing slot and is discarded there (R216): until then it stands in the list as arrived, where the statement's `Abandoned`
has every read left be a requested one. -/
theorem not_signalsReachTheirTallies : ¬ Obligations.SignalsReachTheirTallies := by
  intro h
  obtain ⟨c, hc, hx⟩ := (Option.any_eq_true ..).1 arrivedAtSig_presents
  simp only [Bool.and_eq_true, Bool.not_eq_true', beq_iff_eq] at hx
  obtain ⟨⟨⟨⟨hseq, hget⟩, hfree⟩, hput⟩, hbad⟩ := hx
  obtain ⟨u, hu, -, -, -, hreads, -⟩ := (h.1 arrivedAtSig 5 offGridSig c ⟨hc, hget, hfree, hput⟩).2 hbad
  have hxfers : u.gath.xfers = [{ arrivedRead with discard := true }] := by
    rw [exec_sig, Host.Outcome.next.injEq] at hu
    rw [← hu, sigOp_keeps_arrivedRead]
  have hst := (hreads { arrivedRead with discard := true } (by simp [hxfers]) hseq.symm rfl).1
  exact absurd hst (by decide)

end Sys2Proof.Laws
end


section
/-! SUPPORT. What leaves towards the host stays: an entry of the output trace is never taken back, and a completion that waits
for space in its ring keeps waiting there or is written. -/

namespace Sys2Proof.Laws

set_option Elab.async false

open Sys2Proof Sys2Proof.Machine Sys2Proof.Safety

/-- A completion has been written to a ring or waits there for space. -/
def Shown (u : State) (r : Nat) (e : Completion) : Prop :=
  (∃ pos ws, Emit.completion r pos e ws ∈ u.emitted) ∨ e ∈ (u.ring r).waiting

/-- What is on its way to the host stays so, and every ring keeps its companion. -/
structure KeepsPosts (s u : State) : Prop where
  emitted : s.emitted ⊆ u.emitted
  companion : ∀ r, (u.ring r).companion = (s.ring r).companion
  shown : ∀ r e, e ∈ (s.ring r).waiting → Shown u r e

theorem KeepsPosts.of_eq {s u : State} (he : u.emitted = s.emitted) (hr : u.host.rings = s.host.rings) : KeepsPosts s u where
  emitted := by rw [he]; exact List.Subset.refl _
  companion r := by simp only [State.ring, hr]
  shown r e h := .inr (by simpa only [State.ring, hr] using h)

/-- The entries and the rings at the start may stand in another state too. -/
theorem KeepsPosts.after {s u v : State} (k : KeepsPosts u v) (he : u.emitted = s.emitted) (hr : u.host.rings = s.host.rings) :
    KeepsPosts s v where
  emitted := he ▸ k.emitted
  companion r := (k.companion r).trans (by simp only [State.ring, hr])
  shown r e h := k.shown r e (by simpa only [State.ring, hr] using h)

theorem KeepsPosts.refl (s : State) : KeepsPosts s s := .of_eq rfl rfl

theorem Shown.mono {s u : State} {r : Nat} {e : Completion} (h : Shown s r e) (k : KeepsPosts s u) : Shown u r e := by
  obtain ⟨pos, ws, h⟩ | h := h
  · exact .inl ⟨pos, ws, k.emitted h⟩
  · exact k.shown r e h

theorem KeepsPosts.trans {s u v : State} (h : KeepsPosts s u) (k : KeepsPosts u v) : KeepsPosts s v where
  emitted := List.Subset.trans h.emitted k.emitted
  companion r := (k.companion r).trans (h.companion r)
  shown r e he := (h.shown r e he).mono k

/-- More in the output trace, the rings as they were. -/
theorem KeepsPosts.of_emitted {s u : State} (he : s.emitted ⊆ u.emitted) (hr : u.host.rings = s.host.rings) : KeepsPosts s u where
  emitted := he
  companion r := by simp only [State.ring, hr]
  shown r e h := .inr (by simpa only [State.ring, hr] using h)

theorem KeepsPosts.emit (s : State) (e : Emit) : KeepsPosts s (s.emit e) := .of_emitted (List.subset_cons_self _ _) rfl

/-- A ring whose companion stays and which drops nothing from its wait list. -/
theorem KeepsPosts.setRing (s : State) (r : Nat) (c : RingCtx) (hc : c.companion = (s.ring r).companion)
    (hw : (s.ring r).waiting ⊆ c.waiting) : KeepsPosts s (s.setRing r c) where
  emitted := List.Subset.refl _
  companion j := by
    rw [ring_setRing]
    split
    · next h => rw [h, hc]
    · rfl
  shown j e he := .inr (by
    rw [ring_setRing]
    split
    · next h => exact hw (h ▸ he)
    · exact he)

theorem KeepsPosts.each {β : Type} (l : List β) (f : β → State → State) (s : State) (hf : ∀ x u, KeepsPosts u (f x u)) :
    KeepsPosts s (each l f s) := each_keeps (KeepsPosts s) l f s (.refl s) fun x u hu => hu.trans (hf x u)

/-! ### Messages and events -/

theorem sendMsix_posts (v : Nat) (s : State) : KeepsPosts s (sendMsix v s) := by
  obtain ⟨_, h⟩ | ⟨_, _, h⟩ | ⟨_, _, h⟩ := sendMsix_cases v s <;> rw [h]
  · exact .of_eq rfl rfl
  · exact .emit _ _
  · exact .of_eq rfl rfl

theorem evtSignal_posts (s : State) : KeepsPosts s (evtSignal s) :=
  (sendMsix_posts _ _).after rfl rfl

theorem writeRecord_posts (r : EventRec) (s : State) : KeepsPosts s (writeRecord r s) := by
  have h (e : Emit) (x : Events) : KeepsPosts s { s.emit e with evt := x } := .trans (.emit s e) (.of_eq rfl rfl)
  unfold writeRecord
  simp only
  split
  · exact (h _ _).trans (evtSignal_posts _)
  · exact h _ _

theorem drainHold_posts (n : Nat) (s : State) : KeepsPosts s (drainHold n s) := by
  induction n generalizing s with
  | zero => exact .refl s
  | succ n ih =>
    unfold drainHold
    split
    · exact .refl s
    · split
      · refine KeepsPosts.trans ?_ (ih _)
        exact (writeRecord_posts _ _).after rfl rfl
      · exact .refl s

theorem keepRecord_posts (r : EventRec) (s : State) : KeepsPosts s (keepRecord r s) := by
  unfold keepRecord
  split
  · exact (drainHold_posts _ _).after rfl rfl
  · exact .of_eq rfl rfl

theorem flushEvents_posts (s : State) : KeepsPosts s (flushEvents s) := by
  unfold flushEvents
  split
  · exact (KeepsPosts.each _ _ _ keepRecord_posts).after rfl rfl
  · exact .refl s

theorem raiseEvent_posts (c : EventCode) (i : Nat) (d : BitVec 128) (s : State) : KeepsPosts s (raiseEvent c i d s) := by
  unfold raiseEvent
  exact .trans (u := flushEvents (s.inc .evtRaised 1)) ((flushEvents_posts _).after rfl rfl) (.of_eq rfl rfl)

/-! ### Completions -/

theorem cqSignal_posts (r : Nat) (s : State) : KeepsPosts s (cqSignal r s) := by
  unfold cqSignal
  refine .trans (.setRing s r _ ?_ ?_) (sendMsix_posts _ _)
  · rfl
  · exact List.Subset.refl _

/-- A completion that leaves at a ring's tail, and the ring's context after it. -/
theorem emitCompletion_posts (s : State) (r pos : Nat) (e : Completion) (ws : List (Nat × List Byte)) (c : RingCtx)
    (hc : c.companion = (s.ring r).companion) (hw : (s.ring r).waiting ⊆ c.waiting) :
    KeepsPosts s ((s.emit (.completion r pos e ws)).setRing r c) ∧ Shown ((s.emit (.completion r pos e ws)).setRing r c) r e :=
  ⟨.trans (.emit _ _) (.setRing _ _ _ hc hw), .inl ⟨pos, ws, List.mem_cons_self⟩⟩

/-- A completion written stands in the output trace. -/
theorem writeCompletion_posts (r : Nat) (e : Completion) (s : State) :
    KeepsPosts s (writeCompletion r e s) ∧ Shown (writeCompletion r e s) r e := by
  unfold writeCompletion
  extract_lets c c1 s1
  obtain ⟨hk, hs⟩ : KeepsPosts s s1 ∧ Shown s1 r e := emitCompletion_posts _ _ _ _ _ c1 rfl (List.Subset.refl _)
  split
  · exact ⟨hk.trans (cqSignal_posts _ _), hs.mono (cqSignal_posts _ _)⟩
  · exact ⟨hk, hs⟩

/-- The completion that leaves the wait list of a ring is written. -/
theorem drainCq_posts (n r : Nat) (s : State) : KeepsPosts s (drainCq n r s) := by
  induction n generalizing s with
  | zero => exact .refl s
  | succ n ih =>
    unfold drainCq
    simp only
    split
    · exact .refl s
    · next e es hw =>
      split
      · refine KeepsPosts.trans ?_ (ih _)
        obtain ⟨hk, hs⟩ := writeCompletion_posts r e (s.setRing r { s.ring r with waiting := es })
        refine ⟨hk.emitted, fun j => (hk.companion j).trans ?_, fun j x hx => ?_⟩
        · rw [ring_setRing]
          split
          · next hj => rw [hj]
          · rfl
        · by_cases hj : j = r
          · subst hj
            rw [hw] at hx
            obtain rfl | hx := List.mem_cons.1 hx
            · exact hs
            · exact hk.shown _ _ (by simpa using hx)
          · exact hk.shown _ _ (by simpa [hj] using hx)
      · exact .refl s

theorem pushCompletion_posts (r : Nat) (e : Completion) (s : State) :
    KeepsPosts s (pushCompletion r e s) ∧ Shown (pushCompletion r e s) r e := by
  have h : KeepsPosts s (s.setRing r { s.ring r with waiting := (s.ring r).waiting ++ [e] }) :=
    .setRing _ _ _ rfl (List.subset_append_left _ _)
  have hs : Shown (s.setRing r { s.ring r with waiting := (s.ring r).waiting ++ [e] }) r e := .inr (by simp)
  exact ⟨h.trans (drainCq_posts _ _ _), hs.mono (drainCq_posts _ _ _)⟩

/-- A completion posted stays so. -/
theorem posted_mono {i : Inflight} {st : Status} {s u v : State} (h : Posted i st s u) (k : KeepsPosts u v) : Posted i st s v := by
  obtain ⟨e, hst, htag, hring, hslot, hop, he⟩ := h
  exact ⟨e, hst, htag, hring, hslot, hop, Shown.mono he k⟩

/-- A completion posted later is posted from any earlier state. -/
theorem posted_from {i : Inflight} {st : Status} {s u v : State} (k : KeepsPosts s u) (h : Posted i st u v) : Posted i st s v := by
  obtain ⟨e, hst, htag, hring, hslot, hop, he⟩ := h
  rw [k.companion] at he
  exact ⟨e, hst, htag, hring, hslot, hop, he⟩

theorem finish_posts (i : Inflight) (st : Status) (k : Nat) (b p : List Byte) (s : State) :
    KeepsPosts s (finish i st k b p s) ∧ Posted i st s (finish i st k b p s) := by
  unfold Machine.finish
  extract_lets ctx spent late st' e s1
  have hst : Carries st e := by
    by_cases h : (late ≠ 0 && st = .ok) = true
    · exact .inr ⟨by simpa using And.right (by simpa using h), if_pos h⟩
    · exact .inl (if_neg h)
  obtain ⟨hk, hs⟩ := pushCompletion_posts ctx.companion e s
  have hp : Posted i st s s1 := ⟨e, hst, rfl, rfl, rfl, rfl, hs⟩
  split
  · exact ⟨hk, hp⟩
  · have he (n : RegName) (c : EventCode) (j : Nat) (d : BitVec 128) : KeepsPosts s1 (raiseEvent c j d (s1.inc n 1)) :=
      (raiseEvent_posts _ _ _ _).after rfl rfl
    exact ⟨hk.trans (he ..), posted_mono hp (he ..)⟩

/-! ### Accepted descriptors -/

theorem inflight_finish (i : Inflight) (st : Status) (k : Nat) (b p : List Byte) (s : State) :
    (finish i st k b p s).host.inflight = s.host.inflight := by rw [finish_frame]

/-- Completing a descriptor takes it off the list, and leaves the others there. -/
theorem inflight_complete (d : Nat) (st : Status) (k : Nat) (b p : List Byte) (s : State) :
    (complete d st k b p s).host.inflight = s.host.inflight.filter (fun i => i.id != d) := by
  unfold complete
  split
  · rw [inflight_finish]
    rfl
  · next h =>
    rw [State.inflight?, List.find?_eq_none] at h
    exact (List.filter_eq_self.2 fun i hi => by simpa using h i hi).symm

theorem complete_posts (d : Nat) (st : Status) (k : Nat) (b p : List Byte) (s : State) : KeepsPosts s (complete d st k b p s) := by
  unfold complete
  split
  · exact (finish_posts _ _ _ _ _ _).1.after rfl rfl
  · exact .refl s

/-- An accepted descriptor that completes has its completion posted. -/
theorem posted_complete {d : Nat} {i : Inflight} {s : State} (h : s.inflight? d = some i) (st : Status) (k : Nat)
    (b p : List Byte) : Posted i st s (complete d st k b p s) := by
  simp only [complete, h]
  exact posted_from (u := s.dropInflight d) (.of_eq rfl rfl) (finish_posts _ _ _ _ _ _).2

/-- Another descriptor off the list leaves a descriptor where it was. -/
theorem inflight?_of_filter {s u : State} {d k : Nat} (h : u.host.inflight = s.host.inflight.filter (fun i => i.id != k))
    (hd : d ≠ k) : u.inflight? d = s.inflight? d := by
  rw [State.inflight?, State.inflight?, h, List.find?_filter]
  congr 1
  funext i
  by_cases hi : i.id = d <;> simp [hi, hd]

end Sys2Proof.Laws
end


section
/-! SUPPORT. Which registers the shared operations write: each operation by a list of registers outside which every register
keeps what is stored for it. -/

namespace Sys2Proof.Laws

set_option Elab.async false

open Sys2Proof Sys2Proof.Machine Sys2Proof.Safety

theorem regsKept_of_eq {s u : State} (h : u.regs = s.regs) (l : List Reg) : RegsKept s u l := fun _ _ => by rw [h]

theorem regsKept_trans {s u v : State} {l : List Reg} (h : RegsKept s u l) (k : RegsKept u v l) : RegsKept s v l :=
  fun o ho => (k o ho).trans (h o ho)

theorem regsKept_mono {s u : State} {l m : List Reg} (h : RegsKept s u l) (hl : l ⊆ m) : RegsKept s u m :=
  fun o ho => h o fun hm => ho (List.map_subset _ hl hm)

theorem regsKept_each {β : Type} {r : List Reg} (l : List β) (f : β → State → State) (s : State)
    (hf : ∀ x u, RegsKept u (f x u) r) : RegsKept s (each l f s) r :=
  each_keeps (fun u => RegsKept s u r) l f s (regsKept_of_eq rfl r) fun x u hu => regsKept_trans hu (hf x u)

/-- A register that an operation does not write reads as before. -/
theorem rg_regsKept {s u : State} {l : List Reg} (h : RegsKept s u l) (n : RegName) (i j : Nat)
    (hn : Reg.offset ⟨n, i, j⟩ ∉ l.map Reg.offset) : u.rg n i j = s.rg n i j := by
  simp only [State.rg, State.rgQ, h _ hn]

/-- The registers that writing the event records of a count may write: the lost records and the log's flags (R426). -/
def recordRegs : List Reg := [⟨.evtLost, 0, 0⟩, ⟨.evtStatus, 0, 0⟩]

/-- The registers that raising an event may write. -/
def eventRegs : List Reg := ⟨.evtRaised, 0, 0⟩ :: recordRegs

/-- The registers that completing a descriptor may write. -/
def completionRegs : List Reg := ⟨.hstMisses, 0, 0⟩ :: eventRegs

theorem regsKept_set {l : List Reg} (s : State) (n : RegName) (v : Nat) (h : ⟨n, 0, 0⟩ ∈ l) : RegsKept s (s.setRg n v) l :=
  regsKept_mono (regsKept_setRg s n v 0 0) (by simpa using h)

theorem sendMsix_regs (v : Nat) (s : State) : (sendMsix v s).regs = s.regs := by
  obtain ⟨_, h⟩ | ⟨_, _, h⟩ | ⟨_, _, h⟩ := sendMsix_cases v s <;> rw [h] <;> rfl

theorem writeRecord_regs (r : EventRec) (s : State) : (writeRecord r s).regs = s.regs := by
  unfold writeRecord
  simp only
  split
  · exact sendMsix_regs _ _
  · rfl

theorem drainHold_regs (n : Nat) (s : State) : (drainHold n s).regs = s.regs := by
  fun_induction drainHold with
  | case3 s n r rs hw hc ih => rw [ih, writeRecord_regs]
  | _ => rfl

theorem keepRecord_regs (r : EventRec) (s : State) : RegsKept s (keepRecord r s) recordRegs := by
  unfold keepRecord
  split
  · exact regsKept_of_eq (drainHold_regs _ _) _
  · exact regsKept_trans (regsKept_set _ .evtLost _ (by simp [recordRegs])) (regsKept_set _ .evtStatus _ (by simp [recordRegs]))

theorem flushEvents_regs (s : State) : RegsKept s (flushEvents s) recordRegs := by
  unfold flushEvents
  split
  · exact regsKept_each _ _ _ keepRecord_regs
  · exact regsKept_of_eq rfl _

theorem raiseEvent_regs (c : EventCode) (i : Nat) (d : BitVec 128) (s : State) : RegsKept s (raiseEvent c i d s) eventRegs :=
  regsKept_trans (regsKept_set s .evtRaised _ (by simp [eventRegs]))
    (regsKept_mono (flushEvents_regs (s.inc .evtRaised 1)) (by simp [eventRegs]))

/-- Raising an event counts it. -/
theorem counted_raiseEvent (c : EventCode) (i : Nat) (d : BitVec 128) (s : State) :
    Counted s (raiseEvent c i d s) .evtRaised := by
  have h : (raiseEvent c i d s).rg .evtRaised = (s.inc .evtRaised 1).rg .evtRaised :=
    rg_regsKept (flushEvents_regs (s.inc .evtRaised 1)) .evtRaised 0 0 (by decide)
  exact h.trans (rg_inc s .evtRaised 1 0 0)

theorem pushCompletion_regs (r : Nat) (e : Completion) (s : State) : (pushCompletion r e s).regs = s.regs := by
  rw [pushCompletion_frame]

theorem finish_regs (i : Inflight) (st : Status) (k : Nat) (b p : List Byte) (s : State) :
    RegsKept s (finish i st k b p s) completionRegs := by
  unfold Machine.finish
  extract_lets ctx spent late st' e s1
  have h1 : RegsKept s s1 completionRegs := regsKept_of_eq (pushCompletion_regs _ _ _) _
  split
  · exact h1
  · exact regsKept_trans h1 (regsKept_trans (regsKept_set s1 .hstMisses _ (by simp [completionRegs]))
      (regsKept_mono (raiseEvent_regs _ _ _ _) (by simp [completionRegs])))

theorem complete_regs (d : Nat) (st : Status) (k : Nat) (b p : List Byte) (s : State) :
    RegsKept s (complete d st k b p s) completionRegs := by
  unfold complete
  split
  · exact finish_regs _ _ _ _ _ (s.dropInflight d)
  · exact regsKept_of_eq rfl _

/-! ## Fields of a register -/

/-- A bit set in a number. -/
theorem testBit_putBits_one (v b : Nat) : (putBits v b 1 1).testBit b = true := by
  unfold putBits bits
  cases h : v.testBit b with
  | false =>
    have h0 : v >>> b % 2 ^ 1 = 0 := by
      rw [Nat.testBit, Nat.one_and_eq_mod_two] at h
      simpa using h
    rw [h0]
    simp [Nat.add_comm v, Nat.testBit_two_pow_add_eq, h]
  | true =>
    have h1 : v >>> b % 2 ^ 1 = 1 := by
      rw [Nat.testBit, Nat.one_and_eq_mod_two] at h
      simpa using h
    have hle : 2 ^ b ≤ v := Nat.ge_two_pow_of_testBit h
    rw [h1]
    simpa [Nat.sub_add_cancel hle] using h

/-- A flag set reads as set. -/
theorem rgBit_flag (s : State) (n : RegName) (b i j : Nat) (h : b < 8 * n.row.bytes) :
    (s.flag n b i j).rgBit n b i j = true := by
  have hp : 256 ^ n.row.bytes = 2 ^ (8 * n.row.bytes) := by rw [Nat.pow_mul]
  rw [State.rgBit, State.flag, State.setRgBits, rg_setRg, bit, hp, Nat.testBit_mod_two_pow, testBit_putBits_one]
  simp [h]

end Sys2Proof.Laws
end


section
/-! The module fault (R365, R383): what completing all work leaves, and what becomes of tiles, memories and ports. -/

namespace Sys2Proof.Laws

set_option Elab.async false

open Sys2Proof Sys2Proof.Machine Sys2Proof.Safety

/-! ## Completing all work -/

/-- Completing passes and descriptors moves the host interface, the lists of passes and bindings, registers and events. -/
def AbortFrame (s u : State) : Prop :=
  u = { s with regs := u.regs, evt := u.evt, emitted := u.emitted, host := u.host, passes := u.passes, steps := u.steps }

theorem AbortFrame.refl (s : State) : AbortFrame s s := rfl

theorem AbortFrame.trans {s u v : State} (h : AbortFrame s u) (k : AbortFrame u v) : AbortFrame s v := by
  unfold AbortFrame at *
  rw [k, h]

theorem AbortFrame.ofFinish {s u : State} (h : FinishFrame s u) : AbortFrame s u := by
  unfold FinishFrame at h
  rw [h]
  rfl

theorem complete_frame (d : Nat) (st : Status) (k : Nat) (b p : List Byte) (s : State) : AbortFrame s (complete d st k b p s) := by
  unfold complete
  split
  · exact .trans (u := s.dropInflight d) rfl (.ofFinish (finish_frame _ _ _ _ _ _))
  · exact .refl s

/-- What the end of a pass leaves to complete: the list without it, and for a close pass its micro-batch unbound (R158). -/
def passOff (p : Pass) (s : State) : State :=
  let s := { s with passes := s.passes.filter (fun x => x.seq != p.seq) }
  if p.role = 2 then unbind p.mb s else s

theorem completePass_eq (p : Pass) (st : Status) (t : Nat) (s : State) :
    completePass p st t s = complete p.desc st 0 (leBytes 4 p.passId.toNat ++ leBytes 20 t) [] (passOff p s) := rfl

theorem freeHeld_frame (a : Nat) (s : State) : freeHeld a s = { s with steps := (freeHeld a s).steps } := by
  unfold freeHeld
  split <;> rfl

theorem passOff_frame (p : Pass) (s : State) :
    passOff p s = { s with passes := s.passes.filter (fun x => x.seq != p.seq), steps := (passOff p s).steps } := by
  unfold passOff unbind
  simp only
  split
  · rw [freeHeld_frame, freeHeld_frame]
  · rfl

theorem completePass_frame (p : Pass) (st : Status) (t : Nat) (s : State) : AbortFrame s (completePass p st t s) := by
  rw [completePass_eq]
  refine AbortFrame.trans ?_ (complete_frame _ _ _ _ _ _)
  rw [passOff_frame]
  rfl

theorem completePass_posts (p : Pass) (st : Status) (t : Nat) (s : State) : KeepsPosts s (completePass p st t s) := by
  rw [completePass_eq]
  exact (complete_posts _ _ _ _ _ _).after (by rw [passOff_frame]) (by rw [passOff_frame])

theorem completePass_regs (p : Pass) (st : Status) (t : Nat) (s : State) :
    RegsKept s (completePass p st t s) completionRegs := by
  rw [completePass_eq]
  exact regsKept_trans (regsKept_of_eq (by rw [passOff_frame]) _) (complete_regs _ _ _ _ _ _)

theorem complete_passes (d : Nat) (st : Status) (k : Nat) (b p : List Byte) (s : State) :
    (complete d st k b p s).passes = s.passes := by
  unfold complete
  split
  · rw [finish_frame]; rfl
  · rfl

theorem passes_completePass (p : Pass) (st : Status) (t : Nat) (s : State) :
    (completePass p st t s).passes = s.passes.filter (fun x => x.seq != p.seq) := by
  rw [completePass_eq, complete_passes, passOff_frame]

theorem inflight_completePass (p : Pass) (st : Status) (t : Nat) (s : State) :
    (completePass p st t s).host.inflight = s.host.inflight.filter (fun i => i.id != p.desc) := by
  rw [completePass_eq, inflight_complete, passOff_frame]

theorem posted_completePass {p : Pass} {i : Inflight} {s : State} (h : s.inflight? p.desc = some i) (st : Status) (t : Nat) :
    Posted i st s (completePass p st t s) := by
  rw [completePass_eq]
  have h' : (passOff p s).inflight? p.desc = some i := by rw [passOff_frame]; exact h
  exact posted_from (.of_eq (by rw [passOff_frame]) (by rw [passOff_frame])) (posted_complete h' _ _ _ _)

theorem AbortFrame.cyc {s u : State} (h : AbortFrame s u) : u.cyc = s.cyc := by rw [h]

/-- A list from which each of some keys is taken is left without any of them. -/
theorem each_filters {β α : Type} (l : List β) (f : β → State → State) (get : State → List α) (key : β → Nat) (id : α → Nat)
    (hf : ∀ x u, get (f x u) = (get u).filter (fun a => id a != key x)) (s : State) :
    get (each l f s) = (get s).filter (fun a => !(l.map key).contains (id a)) := by
  induction l generalizing s with
  | nil => simp
  | cons x l ih =>
    rw [each_cons, ih, hf, List.filter_filter]
    congr 1
    funext a
    by_cases h : id a = key x <;> simp [h]

theorem filter_none_left {α : Type} (l : List α) (id : α → Nat) : l.filter (fun a => !(l.map id).contains (id a)) = [] := by
  rw [List.filter_eq_nil_iff]
  intro a ha
  simpa using ⟨a, ha, rfl⟩

/-- Completions one after another, each of the descriptor of an element with a status that the cycle may decide. -/
structure Completing {β : Type} (f : β → State → State) (key : β → Nat) (st : β → Nat → Status) : Prop where
  frame : ∀ x u, AbortFrame u (f x u)
  posts : ∀ x u, KeepsPosts u (f x u)
  inflight : ∀ x u, (f x u).host.inflight = u.host.inflight.filter (fun i => i.id != key x)
  posted : ∀ x u i, u.inflight? (key x) = some i → Posted i (st x u.cyc) u (f x u)
  regs : ∀ x u, RegsKept u (f x u) completionRegs

section
variable {β : Type} {f : β → State → State} {key : β → Nat} {st : β → Nat → Status} (h : Completing f key st)
include h

theorem Completing.each_frame (l : List β) (s : State) : AbortFrame s (each l f s) :=
  each_keeps (AbortFrame s) l f s (.refl s) fun x u hu => hu.trans (h.frame x u)

theorem Completing.each_posts (l : List β) (s : State) : KeepsPosts s (each l f s) := .each l f s h.posts

/-- A descriptor that none of them names stays accepted. -/
theorem Completing.inflight?_other {d : Nat} (l : List β) (s : State) (hd : ∀ x ∈ l, key x ≠ d) :
    (each l f s).inflight? d = s.inflight? d := by
  induction l generalizing s with
  | nil => rfl
  | cons x l ih =>
    rw [each_cons, ih _ fun y hy => hd y (List.mem_cons_of_mem _ hy),
      inflight?_of_filter (h.inflight x s) (Ne.symm (hd x List.mem_cons_self))]

/-- A descriptor that one of them names completes with its status, if no other gives it another one. -/
theorem Completing.posted_each {x : β} {i : Inflight} (l : List β) (s : State) (hx : x ∈ l)
    (hst : ∀ y ∈ l, key y = key x → st y s.cyc = st x s.cyc) (hi : s.inflight? (key x) = some i) :
    Posted i (st x s.cyc) s (each l f s) := by
  induction l generalizing s with
  | nil => simp at hx
  | cons y l ih =>
    rw [each_cons]
    by_cases hy : key y = key x
    · rw [← hst y List.mem_cons_self hy]
      exact posted_mono (h.posted y s i (hy ▸ hi)) (h.each_posts l _)
    · have hc : (f y s).cyc = s.cyc := (h.frame y s).cyc
      have hl : x ∈ l := (List.mem_cons.1 hx).resolve_left fun e => hy (e ▸ rfl)
      have hi' : (f y s).inflight? (key x) = some i := by rw [inflight?_of_filter (h.inflight y s) (Ne.symm hy), hi]
      have hp := ih (f y s) hl (fun z hz => by rw [hc]; exact hst z (List.mem_cons_of_mem _ hz)) hi'
      rw [hc] at hp
      exact posted_from (h.posts y s) hp

end

/-- A pass completes at a fault (R365, R420). -/
def faultPass (p : Pass) (s : State) : State := completePass p (p.faultStatus s.cyc).1 (p.faultStatus s.cyc).2 s

/-- A descriptor completes with ABORTED at a fault (R365). -/
def abortDesc (d : Nat) (s : State) : State := complete d .aborted 0 [] [] s

theorem abortAll_eq (s : State) :
    abortAll s = each ((each s.passes faultPass s).host.inflight.map (·.id)) abortDesc (each s.passes faultPass s) := rfl

theorem completing_passes : Completing faultPass (·.desc) (fun p n => (p.faultStatus n).1) where
  frame _ _ := completePass_frame _ _ _ _
  posts _ _ := completePass_posts _ _ _ _
  inflight _ _ := inflight_completePass _ _ _ _
  posted _ _ _ h := posted_completePass h _ _
  regs _ _ := completePass_regs _ _ _ _

theorem completing_descs : Completing abortDesc id (fun _ _ => .aborted) where
  frame _ _ := complete_frame _ _ _ _ _ _
  posts _ _ := complete_posts _ _ _ _ _ _
  inflight _ _ := inflight_complete _ _ _ _ _ _
  posted _ _ _ h := posted_complete h _ _ _ _
  regs _ _ := complete_regs _ _ _ _ _ _

theorem abortAll_frame (s : State) : AbortFrame s (abortAll s) :=
  (completing_passes.each_frame _ _).trans (completing_descs.each_frame _ _)

theorem abortAll_regs (s : State) : RegsKept s (abortAll s) completionRegs :=
  regsKept_trans (regsKept_each _ _ _ completing_passes.regs) (regsKept_each _ _ _ completing_descs.regs)

/-- After a fault no descriptor is accepted. -/
theorem inflight_abortAll (s : State) : (abortAll s).host.inflight = [] := by
  rw [abortAll_eq, each_filters _ abortDesc (fun u => u.host.inflight) id (·.id) completing_descs.inflight]
  simpa using filter_none_left (each s.passes faultPass s).host.inflight (·.id)

/-- After a fault no pass remains. -/
theorem passes_abortAll (s : State) : (abortAll s).passes = [] := by
  have h1 : (each s.passes faultPass s).passes = [] := by
    rw [each_filters _ faultPass (·.passes) (·.seq) (·.seq) fun p u => passes_completePass _ _ _ _]
    exact filter_none_left s.passes (·.seq)
  rw [abortAll_eq]
  exact each_keeps (fun u : State => u.passes = []) _ _ _ h1 fun d u hu => (complete_passes _ _ _ _ _ _).trans hu

/-- A descriptor of no pass completes with ABORTED. -/
theorem abortAll_posts_aborted {s : State} {d : Nat} {i : Inflight} (h : s.inflight? d = some i)
    (hd : ∀ p ∈ s.passes, p.desc ≠ d) : Posted i .aborted s (abortAll s) := by
  have h1 : (each s.passes faultPass s).inflight? d = some i := (completing_passes.inflight?_other _ s hd).trans h
  have hm : d ∈ (each s.passes faultPass s).host.inflight.map (·.id) :=
    List.mem_map.2 ⟨i, List.mem_of_find?_eq_some h1, by simpa using List.find?_some h1⟩
  exact posted_from (completing_passes.each_posts _ _) (completing_descs.posted_each _ _ hm (fun _ _ _ => rfl) h1)

/-- The descriptor of a pass completes with what the fault gives the pass. -/
theorem abortAll_posts_pass {s : State} (hn : (s.passes.map (·.desc)).Nodup) {p : Pass} (hp : p ∈ s.passes) {i : Inflight}
    (h : s.inflight? p.desc = some i) : Posted i (p.faultStatus s.cyc).1 s (abortAll s) := by
  have h1 := completing_passes.posted_each s.passes s hp
    (fun q hq hd => by rw [List.inj_on_of_nodup_map hn hq hp hd]) h
  exact posted_mono h1 (completing_descs.each_posts _ _)

/-! ## Tiles, memories and ports at rest -/

/-- A table with its values changed, an unlisted key reading the same before and after. -/
theorem sget_map {α : Type} (d : α) (m : List (Nat × α)) (f : Nat → α → α) (k : Nat) (hd : f k d = d) :
    sget d (m.map (fun e => (e.1, f e.1 e.2))) k = f k (sget d m k) := by
  induction m with
  | nil => exact hd.symm
  | cons e m ih =>
    obtain ⟨j, v⟩ := e
    by_cases h : j = k
    · simp [sget, sfind, h]
    · simpa [sget, sfind, h] using ih

/-- What the harvest bitmap of a running harvest becomes (R334). -/
def clearBitmap (s : State) : State :=
  match s.hrv.op with
  | some h => s.memPut (s.rg .hrvBitmapBase) (List.replicate h.bitmapBytes 0)
  | none => s

theorem dropWork_eq (banks : Nat → BitVec 4) (s : State) :
    dropWork banks s = { s with
      tiles := s.tiles.map (fun e => (e.1, e.2.gated (banks e.1))),
      gath := { s.gath with xfers := [], mesh := [], window := [] },
      sync := { s.sync with signals := [], wires := [], takes := [] },
      memory := { (clearBitmap s).memory with dev := s.memory.dev.map (fun e => (e.1, e.2.resting)) },
      hrv := { s.hrv with op := none, restore := none, recovery := .idle, recRates := [], recWait := none, holds := [] },
      fab := { s.fab with ports := s.fab.ports.map (fun e => (e.1, e.2.faulted)), restBy := some (s.cyc + msCycles 1),
                          out := [], inn := [], acks := [], claim := none } } := by
  unfold dropWork clearBitmap
  rcases h : s.hrv.op <;> rfl

theorem tile_dropWork (banks : Nat → BitVec 4) (s : State) (t : Nat) :
    (dropWork banks s).tile t = (s.tile t).gated (banks t) := by
  rw [dropWork_eq]
  exact sget_map Tile.init s.tiles (fun k tl => tl.gated (banks k)) t rfl

theorem dev_dropWork (banks : Nat → BitVec 4) (s : State) (p : Nat) : (dropWork banks s).dev p = (s.dev p).resting := by
  rw [dropWork_eq]
  exact sget_map Device.init s.memory.dev (fun _ => Device.resting) p (by decide)

theorem port_dropWork (banks : Nat → BitVec 4) (s : State) (p : Nat) : (dropWork banks s).port p = (s.port p).faulted := by
  rw [dropWork_eq]
  exact sget_map Port.init s.fab.ports (fun _ => Port.faulted) p (by decide)

theorem port_idlePorts (s : State) (p : Nat) : (idlePorts s).port p = (s.port p).idle :=
  sget_map Port.init s.fab.ports (fun _ => Port.idle) p (by decide)

/-- The banks that a fault clears on a tile read +0.0 (R27). -/
theorem accAt_gated (tl : Tile) (banks : BitVec 4) (k r n : Nat) (hk : banks.getLsbD k = true) (hr : r < 16) (hn : n < 64) :
    (tl.gated banks).accAt k r n = 0 := by
  have hdiv : (k * 1024 + r * 64 + n) / 1024 = k := by omega
  have h := sfind_filter (fun x => !banks.getLsbD (x / 1024)) tl.acc (k * 1024 + r * 64 + n)
  simp only [hdiv, hk, Bool.not_true, Bool.false_eq_true, if_false] at h
  exact congrArg (Option.getD · 0) h

/-- Ports that rest differ in their own state alone. -/
theorem restPorts_frame (s : State) :
    restPorts s = { s with fab := { s.fab with ports := (restPorts s).fab.ports, restBy := (restPorts s).fab.restBy } } := by
  unfold restPorts
  split <;> rfl

/-- A port is up after a fault while it has a packet of a collective chunk to send, and then has it still. -/
theorem faulted_st (p : Port) : p.faulted.st = if p.collSending then .up else .disabled := by
  unfold Port.faulted
  split
  · next h => simpa [Port.collSending] using And.left (by simpa [Port.collSending] using h)
  · rfl

theorem collSending_faulted (p : Port) : p.faulted.collSending = p.collSending := by
  unfold Port.faulted
  split
  · simp [Port.collSending, List.any_filter]
  · next h => rw [Bool.not_eq_true] at h; rw [h]; rfl

/-- A port listed with a packet of a collective chunk to send keeps the module from resting its ports. -/
theorem collSending_of_port {s : State} {p : Nat} (h : (s.port p).collSending = true) : s.collSending = true := by
  have hm : ∀ m : List (Nat × Port), (sget Port.init m p).collSending = true → m.any (fun e => e.2.collSending) = true := by
    intro m
    induction m with
    | nil => intro h; exact absurd h Bool.false_ne_true
    | cons e m ih =>
      obtain ⟨j, v⟩ := e
      intro h
      by_cases hj : j = p
      · simp_all [sget, sfind]
      · have := ih (by simpa [sget, sfind, hj] using h)
        simp [this]
  exact hm _ h

/-- While the module may still send the packets of a chunk, a port that has them is up and every other has gone idle. -/
theorem restPorts_port_st {s : State} {p n : Nat} {v : Port} (h : s.port p = v.faulted) (hb : s.fab.restBy = some n)
    (hn : s.cyc < n) : ((restPorts s).port p).st = if v.collSending then .up else .disabled := by
  unfold restPorts
  split
  · next hc =>
    have hs : s.collSending = false := by
      have := Nat.not_le.2 hn
      simp_all
    have hv : v.collSending = false := by
      rw [← collSending_faulted, ← h]
      exact Bool.eq_false_iff.2 fun hp => by simp [collSending_of_port hp] at hs
    rw [port_idlePorts, hv]
    rfl
  · rw [h, faulted_st]

end Sys2Proof.Laws
end


section
/-! MODULE_FAULT_DECLARE (R383): the effects of the first cause, one lemma for each unit, and what a further cause does. -/

namespace Sys2Proof.Laws

set_option Elab.async false

open Sys2Proof Sys2Proof.Machine Sys2Proof.Safety

/-! ## The effects of a fault -/

/-- The Steward at a fault: the pin asserted, the quadrant PLLs off, no wake walk (R383). -/
def Steward.faulted (w : Steward) : Steward := { w with faultPin := true, pll := w.pll.map (fun _ => PllSt.off), walks := [] }

/-- All work completed, and the Steward as the fault leaves it. -/
def workAborted (s : State) : State := { abortAll s with stw := Steward.faulted (abortAll s).stw }

/-- A fault's effects up to its event. -/
def faultRaised (c : FaultCause) (s : State) : State :=
  raiseEvent .moduleFault 0
    (detail [(0, 1, faultNum c), (1, 1, faultDevice c), (2, 2, (workAborted s).hottest), (4, 2, (workAborted s).input10),
      (6, 2, faultNode c)]) (workAborted s)

theorem faultEffects_eq (c : FaultCause) (s : State) :
    faultEffects c s = restPorts ((dropWork s.declaredOn (faultRaised c s)).flag .stwAlertStatus 4) := rfl

theorem workAborted_frame (s : State) : AbortFrame { s with stw := Steward.faulted s.stw } (workAborted s) := by
  have h := abortAll_frame s
  unfold AbortFrame at *
  unfold workAborted
  rw [h]

theorem faultRaised_frame (c : FaultCause) (s : State) : AbortFrame { s with stw := Steward.faulted s.stw } (faultRaised c s) :=
  (workAborted_frame s).trans (.ofFinish (raiseEvent_frame _ _ _ _).finish)

theorem faultRaised_posts (c : FaultCause) (s : State) : KeepsPosts (abortAll s) (faultRaised c s) :=
  (raiseEvent_posts _ _ _ _).after rfl rfl

theorem faultRaised_regs (c : FaultCause) (s : State) : RegsKept s (faultRaised c s) completionRegs :=
  regsKept_trans (abortAll_regs s)
    (regsKept_mono (raiseEvent_regs _ _ _ (workAborted s)) (by simp [completionRegs]))

theorem faultRaised_ends (c : FaultCause) (s : State) :
    (faultRaised c s).passes = [] ∧ (faultRaised c s).host.inflight = [] := by
  unfold faultRaised
  rw [raiseEvent_frame]
  exact ⟨passes_abortAll s, inflight_abortAll s⟩

theorem port_of_fab {s u : State} (h : u.fab = s.fab) {p : Nat} : u.port p = s.port p := by simp only [State.port, h]

/-- What a fault's effects leave, as the work dropped leaves it, but for the ports and the alert. -/
theorem faultEffects_frame (c : FaultCause) (s : State) :
    faultEffects c s = { dropWork s.declaredOn (faultRaised c s) with
      regs := (faultEffects c s).regs,
      fab := { (dropWork s.declaredOn (faultRaised c s)).fab with
        ports := (faultEffects c s).fab.ports, restBy := (faultEffects c s).fab.restBy } } := by
  rw [faultEffects_eq, restPorts_frame]
  rfl

theorem faultEffects_ends (c : FaultCause) (s : State) :
    (faultEffects c s).passes = [] ∧ (faultEffects c s).host.inflight = [] ∧ (faultEffects c s).gath.xfers = [] ∧
    (faultEffects c s).fab.out = [] ∧ (faultEffects c s).fab.inn = [] := by
  rw [faultEffects_frame, dropWork_eq]
  exact ⟨(faultRaised_ends c s).1, (faultRaised_ends c s).2, rfl, rfl, rfl⟩

theorem stw_faultEffects (c : FaultCause) (s : State) : (faultEffects c s).stw = Steward.faulted s.stw := by
  rw [faultEffects_frame, dropWork_eq]
  change (faultRaised c s).stw = _
  rw [faultRaised_frame]

theorem tile_faultEffects (c : FaultCause) (s : State) (t : Nat) :
    (faultEffects c s).tile t = (s.tile t).gated (s.declaredOn t) := by
  rw [faultEffects_frame]
  refine (tile_dropWork s.declaredOn (faultRaised c s) t).trans ?_
  rw [faultRaised_frame]
  rfl

theorem dev_faultEffects (c : FaultCause) (s : State) (p : Nat) : (faultEffects c s).dev p = (s.dev p).resting := by
  rw [faultEffects_frame]
  refine (dev_dropWork s.declaredOn (faultRaised c s) p).trans ?_
  rw [faultRaised_frame]
  rfl

theorem msCycles_one_pos : 0 < msCycles 1 := by norm_num [msCycles, usCycles]

theorem port_faultEffects (c : FaultCause) (s : State) (p : Nat) :
    ((faultEffects c s).port p).st = if (s.port p).collSending then .up else .disabled := by
  have hf : (faultRaised c s).fab = s.fab := by rw [faultRaised_frame]
  have h : ((dropWork s.declaredOn (faultRaised c s)).flag .stwAlertStatus 4).port p = (s.port p).faulted := by
    rw [port_of_fab (flag_fab _ _ _ _ _), port_dropWork, port_of_fab hf]
  have hb : ((dropWork s.declaredOn (faultRaised c s)).flag .stwAlertStatus 4).fab.restBy =
      some ((faultRaised c s).cyc + msCycles 1) := by rw [flag_fab, dropWork_eq]
  have hr : ((dropWork s.declaredOn (faultRaised c s)).flag .stwAlertStatus 4).cyc < (faultRaised c s).cyc + msCycles 1 := by
    rw [flag_cyc, dropWork_eq]
    exact Nat.lt_add_of_pos_right msCycles_one_pos
  rw [faultEffects_eq, restPorts_port_st h hb hr]

theorem faultEffects_posts (c : FaultCause) (s : State) : KeepsPosts (abortAll s) (faultEffects c s) := by
  refine (faultRaised_posts c s).trans (.of_eq ?_ ?_) <;> rw [faultEffects_frame, dropWork_eq]

/-- Without a harvest a fault leaves the bytes of memory. -/
theorem mem_faultEffects (c : FaultCause) (s : State) (h : s.hrv.op = none) :
    (faultEffects c s).memory.mem = s.memory.mem := by
  rw [faultEffects_frame, dropWork_eq]
  change (clearBitmap (faultRaised c s)).memory.mem = _
  rw [faultRaised_frame]
  simp only [clearBitmap, h]

/-- A fault clears the bitmap of a running harvest, and no other byte (R334). -/
theorem memKept_faultEffects (c : FaultCause) (s : State) (h : HarvestOp) (hop : s.hrv.op = some h) :
    MemKept s (faultEffects c s)
      (fun a => s.rg .hrvBitmapBase ≤ a ∧ a < s.rg .hrvBitmapBase + h.bitmapBytes) := by
  have hrg : (faultRaised c s).rg .hrvBitmapBase = s.rg .hrvBitmapBase :=
    rg_regsKept (faultRaised_regs c s) .hrvBitmapBase 0 0 (by decide)
  have hrv : (faultRaised c s).hrv.op = some h := by rw [faultRaised_frame]; exact hop
  have hmem : (faultRaised c s).memory.mem = s.memory.mem := by rw [faultRaised_frame]
  have hu : (faultEffects c s).memory.mem =
      ((faultRaised c s).memPut ((faultRaised c s).rg .hrvBitmapBase) (List.replicate h.bitmapBytes 0)).memory.mem := by
    rw [faultEffects_frame, dropWork_eq]
    change (clearBitmap (faultRaised c s)).memory.mem = _
    simp only [clearBitmap, hrv]
  intro a ha
  rw [hu, ← hmem]
  exact memKept_memPut (faultRaised c s) _ _ a (by simpa [hrg] using ha)

/-- The banks that the passes of a tile declare read +0.0 after a fault (R27). -/
theorem accAt_faultEffects (c : FaultCause) (s : State) (t k r n : Nat) (hk : (s.declaredOn t).getLsbD k = true) (hr : r < 16)
    (hn : n < 64) : ((faultEffects c s).tile t).accAt k r n = 0 := by
  rw [tile_faultEffects]
  exact accAt_gated _ _ _ _ _ hk hr hn

/-! ## MODULE_FAULT_DECLARE -/

/-- The state in which a first cause is latched; for the input voltage an alert stands in a register too. -/
def faultLatched (c : FaultCause) (s : State) : State :=
  { (if c = .inputVoltage then alert 1 s else s) with stw := { s.stw with fault := some c } }

theorem faultLatched_eq (c : FaultCause) (s : State) :
    faultLatched c s = { s with regs := (faultLatched c s).regs, stw := { s.stw with fault := some c } } := by
  unfold faultLatched alert
  split <;> rfl

theorem faultLatched_regs (c : FaultCause) (s : State) : RegsKept s (faultLatched c s) [⟨.stwAlertStatus, 0, 0⟩] := by
  unfold faultLatched
  split
  · exact regsKept_setRg _ _ _ _ _
  · exact regsKept_of_eq rfl _

/-- The first cause of a fault takes its effects. -/
theorem moduleFaultDeclareOp_first (c : FaultCause) (s : State) (hp : s.stw.powered = true) (hf : s.stw.fault = none)
    (hn : s.stw.faultPin = false) : moduleFaultDeclareOp c s = faultEffects c (faultLatched c s) := by
  by_cases hc : c = .inputVoltage <;>
    simp [moduleFaultDeclareOp, declareFault, latchFault, faultLatched, checkFault, alert, hc, hp, hf, hn]

/-- A further cause changes nothing. -/
theorem moduleFaultDeclareOp_further (c : FaultCause) (s : State) (hf : s.stw.fault ≠ none) (hn : s.stw.faultPin = true)
    (hc : c ≠ .inputVoltage) : moduleFaultDeclareOp c s = s := by
  obtain ⟨k, hk⟩ := Option.ne_none_iff_exists'.1 hf
  simp [moduleFaultDeclareOp, declareFault, latchFault, checkFault, hk, hn, hc]

theorem faultLatched_declaredOn (c : FaultCause) (s : State) (t : Nat) : (faultLatched c s).declaredOn t = s.declaredOn t := by
  rw [faultLatched_eq]
  rfl

end Sys2Proof.Laws
end


section
/-! What the Steward's samples, the quadrant PLLs and their wake walks, the clock gates, the self test and the retirement of tiles
change (R376 to R380, R393 to R396, R443). -/

namespace Sys2Proof.Laws

set_option Elab.async false

open Sys2Proof Sys2Proof.Machine Sys2Proof.Safety

/-! ## Energy -/

/-- The Steward with a sample of the input power added. -/
def sampled (mV mA : Nat) (s : State) : State :=
  { s with stw := { s.stw with energy := s.stw.energy + mV * mA, powers := (mV * mA :: s.stw.powers).take 10,
                               sampleAt := some s.cyc } }

/-- The sample in the Steward's registers. -/
def sampleShown (mV mA : Nat) (s : State) : State :=
  ((sampled mV mA s).setRg .stwEnergy ((s.stw.energy + mV * mA) / 100000000)).setRg .stwInput
    (mV % 65536 + min (meanWatts (sampled mV mA s).stw.powers) 65535 * 65536)

theorem energySampleOp_eq (mV mA : Nat) (s : State) (hp : s.stw.powered = true) (hd : s.sampleDue = true) :
    energySampleOp mV mA s =
      if mV < 44000 || 56000 < mV then alert 1 (sampleShown mV mA s) else sampleShown mV mA s := by
  rw [energySampleOp, if_pos (by simp [hp, hd])]
  rfl

theorem energySampleOp_regs (mV mA : Nat) (s : State) (hp : s.stw.powered = true) (hd : s.sampleDue = true) :
    RegsKept (sampleShown mV mA s) (energySampleOp mV mA s) [⟨.stwAlertStatus, 0, 0⟩] := by
  rw [energySampleOp_eq mV mA s hp hd]
  split
  · exact regsKept_setRg _ _ _ _ _
  · exact regsKept_of_eq rfl _

theorem energySampleOp_frame (mV mA : Nat) (s : State) (hp : s.stw.powered = true) (hd : s.sampleDue = true) :
    energySampleOp mV mA s = { sampled mV mA s with regs := (energySampleOp mV mA s).regs } := by
  rw [energySampleOp_eq mV mA s hp hd]
  split <;> rfl

/-- The low half of STW_INPUT shows the voltage of the sample. -/
theorem rgBits_stwInput_sampleShown (mV mA : Nat) (s : State) : bits ((sampleShown mV mA s).rg .stwInput) 0 16 = mV % 65536 := by
  have hb : RegName.stwInput.row.bytes = 4 := rfl
  rw [sampleShown, rg_setRg, hb, bits]
  generalize meanWatts _ = w
  rw [Nat.shiftRight_zero]
  omega

theorem energySample_answers (mV mA : Nat) (s : State) (hp : s.stw.powered = true) (hd : s.sampleDue = true) :
    let u := energySampleOp mV mA s
    u.stw.energy = s.stw.energy + mV * mA ∧
    u.rg .stwEnergy = (s.stw.energy + mV * mA) / 100000000 % 256 ^ RegName.stwEnergy.row.bytes ∧
    u.rgBits .stwInput 0 16 = mV % 65536 ∧
    RegsKept s u [⟨.stwEnergy, 0, 0⟩, ⟨.stwInput, 0, 0⟩, ⟨.stwAlertStatus, 0, 0⟩] ∧
    u = { s with stw := { s.stw with energy := u.stw.energy, powers := u.stw.powers, sampleAt := some s.cyc }, regs := u.regs } := by
  have hr := energySampleOp_regs mV mA s hp hd
  have hf := energySampleOp_frame mV mA s hp hd
  refine ⟨?_, ?_, ?_, ?_, ?_⟩
  · rw [hf]
    rfl
  · rw [rg_regsKept hr .stwEnergy 0 0 (by decide), sampleShown, rg_setRg_other _ _ _ _ _ _ _ _ (by decide), rg_setRg]
  · rw [State.rgBits, rg_regsKept hr .stwInput 0 0 (by decide), rgBits_stwInput_sampleShown]
  · exact regsKept_trans (regsKept_set (sampled mV mA s) .stwEnergy _ (by simp))
      (regsKept_trans (regsKept_set _ .stwInput _ (by simp)) (regsKept_mono hr (by simp)))
  · rw [hf]
    rfl

/-! ## PLLs, walks and gates -/

/-- A quadrant's PLL that is not off takes a state, and every other keeps its own. -/
theorem pllOf_setPll (s : State) (q k : Nat) (v : PllSt) (h : s.pllOf q ≠ .off) :
    (s.setPll q v).pllOf k = if k = q then v else s.pllOf k := by
  have hq : q < s.stw.pll.length := by
    by_contra hn
    exact h (by simp [State.pllOf, List.getElem?_eq_none (Nat.not_lt.1 hn)])
  simp only [State.pllOf, State.setPll, lput, List.getElem?_set, hq]
  by_cases hk : k = q
  · simp [hk]
  · simp [hk, Ne.symm hk]

theorem pllLockOp_locking (q : Nat) (s : State) (ha : s.alive = true) (h : s.pllOf q = .locking) :
    let u := pllLockOp q s
    u.pllOf q = .running ∧ (∀ k, k ≠ q → u.pllOf k = s.pllOf k) ∧ sfind u.stw.walks q = some (0, s.edge) ∧
    u = { s with stw := { s.stw with pll := u.stw.pll, walks := u.stw.walks, locked := u.stw.locked } } := by
  have hpll (k : Nat) : (s.setPll q .running).pllOf k = if k = q then .running else s.pllOf k :=
    pllOf_setPll s q k _ (by simp [h])
  rw [pllLockOp, if_pos (by simp [ha, h])]
  refine ⟨(hpll q).trans (if_pos rfl), fun k hk => (hpll k).trans (if_neg hk), ?_, rfl⟩
  exact (sfind_sinsert q q (0, s.edge) s.stw.walks).trans (if_pos rfl)

theorem pllStopOp_unused (q : Nat) (s : State) (c : Nat) (ha : s.alive = true) (h : s.pllOf q = .running)
    (hs : s.stopDelay ≠ 0) (hu : s.unused q = true) (hc : sfind s.stw.unused q = some c)
    (hd : c + usCycles s.stopDelay ≤ s.cyc) :
    let u := pllStopOp q s
    u.pllOf q = .off ∧ sfind u.stw.walks q = none ∧
    u = { s with stw := { s.stw with pll := u.stw.pll, walks := u.stw.walks } } := by
  rw [pllStopOp, if_pos (by simp [ha, h, hs, hu, hc, hd])]
  refine ⟨(pllOf_setPll s q q .off (by simp [h])).trans (if_pos rfl), ?_, rfl⟩
  exact (sfind_serase q q s.stw.walks).trans (if_pos rfl)

theorem releaseTile_frame (t : Nat) (s : State) : releaseTile t s = { s with tiles := (releaseTile t s).tiles } := by
  unfold releaseTile
  split <;> rfl

/-- A tile once its group of a wake walk is reached. -/
def releasedTile (tl : Tile) : Tile := if tl.waking then { tl with clocked := true, waking := false } else tl

/-- A tile once released awaits no wake. -/
theorem releasedTile_twice (tl : Tile) : releasedTile (releasedTile tl) = releasedTile tl := by
  cases h : tl.waking <;> simp [releasedTile, h]

theorem tile_releaseTile (k : Nat) (s : State) (t : Nat) :
    (releaseTile k s).tile t = if t = k then releasedTile (s.tile t) else s.tile t := by
  unfold releaseTile releasedTile
  by_cases hk : t = k
  · subst hk
    split <;> simp
  · split <;> simp [hk]

theorem each_releaseTile_frame (l : List Nat) (s : State) :
    each l releaseTile s = { s with tiles := (each l releaseTile s).tiles } :=
  each_keeps (fun u => u = { s with tiles := u.tiles }) l releaseTile s rfl fun t u hu => by
    rw [releaseTile_frame]
    rw [hu]

theorem tile_each_releaseTile (l : List Nat) (s : State) (t : Nat) :
    (each l releaseTile s).tile t = if t ∈ l then releasedTile (s.tile t) else s.tile t := by
  induction l generalizing s with
  | nil => simp
  | cons k l ih =>
    rw [each_cons, ih, tile_releaseTile]
    by_cases hk : t = k <;> simp [hk, releasedTile_twice]

theorem wakeWalkStepOp_due (q g e : Nat) (s : State) (ha : s.alive = true) (h : sfind s.stw.walks q = some (g, e))
    (he : e ≤ s.edge) :
    let u := wakeWalkStepOp q s
    (∀ t, u.tile t = if t ∈ walkTiles q g ∧ (s.tile t).waking = true then { s.tile t with clocked := true, waking := false }
      else s.tile t) ∧
    sfind u.stw.walks q = (if g + 1 < 96 then some (g + 1, s.edge + 16) else none) ∧
    u = { s with tiles := u.tiles, stw := { s.stw with walks := u.stw.walks } } := by
  simp only [wakeWalkStepOp, h, ha, he, decide_true, Bool.and_true, if_true]
  refine ⟨fun t => (tile_each_releaseTile _ s t).trans ?_, ?_, ?_⟩
  · rw [releasedTile, ite_and]
  · change sfind (if g + 1 < 96 then sinsert q (g + 1, s.edge + 16) s.stw.walks else serase s.stw.walks q) q = _
    split
    · simp [sfind_sinsert]
    · simp [sfind_serase]
  · rw [each_releaseTile_frame]
    rfl

theorem tileGateOp_idle (t : Nat) (s : State) (ha : s.alive = true) (hc : (s.tile t).clocked = true)
    (hw : s.hasWork t = false) (hf : s.inFlight t = false) (hd : (s.tile t).issuedAt + s.gateDelay ≤ s.cyc) :
    tileGateOp t s = s.updTile t (fun tl => { tl with clocked := false }) := by simp [tileGateOp, *]

theorem tilesKept_updTile (s : State) (t : Nat) (f : Tile → Tile) : TilesKept s (s.updTile t f) t := fun j hj => by
  rw [tile_updTile, if_neg hj]

/-! ## The self test -/

theorem runSlice_frame (t : Nat) (s : State) :
    runSlice t s = { s with tiles := (runSlice t s).tiles, stw := { s.stw with slices := s.stw.slices + 1 } } := by
  unfold runSlice
  simp only
  split <;> rfl

theorem tile_runSlice (t : Nat) (s : State) : TilesKept s (runSlice t s) t ∧
    (runSlice t s).tile t =
      if t < 1536 then { s.tile t with testUntil := s.cyc + 2625, acc := [], opBits := [] } else s.tile t := by
  have hn : Config.numTiles = 1536 := rfl
  unfold runSlice
  simp only [hn]
  split
  · exact ⟨fun j hj => (tile_updTile _ _ _ _).trans (if_neg hj), (tile_updTile _ _ _ _).trans (if_pos rfl)⟩
  · exact ⟨fun _ _ => rfl, rfl⟩

/-- A slice that fails, with the bin line that a failed write-back has lost. -/
def sliceLost (t part : Nat) (addr : BitVec 24) (s : State) : State :=
  if part = 2 && t < Config.numTiles then loseLine t addr.toNat (runSlice t s) else runSlice t s

theorem sliceLost_regs (t part : Nat) (addr : BitVec 24) (s : State) : (sliceLost t part addr s).regs = s.regs := by
  have h : (runSlice t s).regs = s.regs := by rw [runSlice_frame]
  unfold sliceLost
  split <;> exact h

theorem runSlice_keeps_seqs_bin (t : Nat) (s : State) :
    ((runSlice t s).tile t).seqs = (s.tile t).seqs ∧ ((runSlice t s).tile t).bin = (s.tile t).bin := by
  rw [(tile_runSlice t s).2]
  split <;> exact ⟨rfl, rfl⟩

theorem tile_sliceLost (t part : Nat) (addr : BitVec 24) (s : State) : TilesKept s (sliceLost t part addr s) t ∧
    ((sliceLost t part addr s).tile t).seqs = (s.tile t).seqs ∧
    (part ≠ 2 → ((sliceLost t part addr s).tile t).bin = (s.tile t).bin) := by
  have hk := (tile_runSlice t s).1
  obtain ⟨hs, hb⟩ := runSlice_keeps_seqs_bin t s
  unfold sliceLost loseLine
  split
  · next h =>
    refine ⟨fun j hj => (tilesKept_updTile _ _ _ j hj).trans (hk j hj), ?_, fun hp => by simp [hp] at h⟩
    rw [tile_updTile, if_pos rfl]
    exact hs
  · exact ⟨hk, hs, fun _ => hb⟩

/-- A tile joins the failed ones that await a job boundary. -/
def noteFailed (t : Nat) (s : State) : State :=
  let f := s.stw.nv.failed
  { s with stw := { s.stw with nv := { s.stw.nv with failed := if f.contains t then f else f ++ [t] } } }

theorem mem_noteFailed (t : Nat) (s : State) : t ∈ (noteFailed t s).stw.nv.failed := by
  change t ∈ if s.stw.nv.failed.contains t then s.stw.nv.failed else s.stw.nv.failed ++ [t]
  split
  · next h => simpa using h
  · simp

/-- A failure found raises its event, notes the tile, and sets the alert (R396, R397). -/
theorem idleTestSliceOp_failed (t part : Nat) (addr : BitVec 24) (sig : Quad) (s : State) (h : s.mayTest t = true) :
    ∃ d, idleTestSliceOp t (some (part, addr, sig)) s =
      alert 5 (noteFailed t (raiseEvent .idleTestFail (failedId t) d (sliceLost t part addr s))) := by
  rw [idleTestSliceOp, if_pos h]
  exact ⟨_, rfl⟩

theorem idleTestSlice_failed (t part : Nat) (addr : BitVec 24) (sig : Quad) (s : State) (h : s.mayTest t = true) :
    let u := idleTestSliceOp t (some (part, addr, sig)) s
    t ∈ u.stw.nv.failed ∧ u.rgBit .stwAlertStatus 5 = true ∧ Counted s u .evtRaised ∧ TilesKept s u t ∧
    (part ≠ 2 → (u.tile t).bin = (s.tile t).bin) ∧ (u.tile t).seqs = (s.tile t).seqs := by
  obtain ⟨d, hu⟩ := idleTestSliceOp_failed t part addr sig s h
  obtain ⟨hk, hs, hb⟩ := tile_sliceLost t part addr s
  have hev := raiseEvent_frame .idleTestFail (failedId t) d (sliceLost t part addr s)
  have hc := counted_raiseEvent .idleTestFail (failedId t) d (sliceLost t part addr s)
  simp only [hu]
  generalize raiseEvent .idleTestFail (failedId t) d (sliceLost t part addr s) = v at hev hc ⊢
  have ht (j : Nat) : (alert 5 (noteFailed t v)).tile j = (sliceLost t part addr s).tile j := by
    change v.tile j = _
    rw [hev]
    rfl
  refine ⟨mem_noteFailed t v, rgBit_flag _ _ _ _ _ (by decide), ?_, fun j hj => (ht j).trans (hk j hj), fun hp => ?_, ?_⟩
  · refine Eq.trans (rg_setRg_other _ _ _ _ _ _ _ _ (by decide)) (Eq.trans hc ?_)
    simp only [State.rg, State.rgQ, sliceLost_regs]
  · rw [ht]
    exact hb hp
  · rw [ht]
    exact hs

/-! ## Retirement -/

theorem retiredEvent_frame (t col o : Nat) (s : State) : EventFrame s (retiredEvent t col o s) := raiseEvent_frame _ _ _ _

/-- A failed tile is shifted out of its row, or is absent when the row has one already (R12, R396). -/
theorem retireTile_cases (t col : Nat) (s : State) :
    (sfind s.stw.nv.retired (failedRow t) = none ∧
      EventFrame (s.setNv { s.stw.nv with retired := sinsert (failedRow t) col s.stw.nv.retired }) (retireTile t col s)) ∨
    (sfind s.stw.nv.retired (failedRow t) ≠ none ∧ t < 1536 ∧
      EventFrame (s.setNv { s.stw.nv with absent := s.stw.nv.absent ++ [t] }) (retireTile t col s)) ∨
    (sfind s.stw.nv.retired (failedRow t) ≠ none ∧ ¬ t < 1536 ∧ retireTile t col s = s) := by
  have hn : Config.numTiles = 1536 := rfl
  unfold retireTile
  simp only [hn, Option.isNone_iff_eq_none]
  split
  · next h => exact .inl ⟨h, retiredEvent_frame _ _ _ _⟩
  · next h =>
    split
    · next ht => exact .inr (.inl ⟨h, ht, retiredEvent_frame _ _ _ _⟩)
    · next ht => exact .inr (.inr ⟨h, ht, rfl⟩)

theorem tileRetirementApply_one (s : State) (t : Nat) (ha : s.alive = true) (hb : s.boundary = true)
    (hc : s.rgBit .stwTestCfg 1 = true) (hf : s.stw.nv.failed = [t]) :
    let u := tileRetirementApplyOp s
    u.stw.nv.failed = [] ∧
    (sfind s.stw.nv.retired (failedRow t) = none → sfind u.stw.nv.retired (failedRow t) = some (s.failedCol t) ∧
      u.stw.nv.absent = s.stw.nv.absent) ∧
    (sfind s.stw.nv.retired (failedRow t) ≠ none → t < 1536 → u.stw.nv.absent = s.stw.nv.absent ++ [t] ∧
      u.stw.nv.retired = s.stw.nv.retired) ∧ u.tiles = s.tiles ∧ u.memory = s.memory := by
  have hu : tileRetirementApplyOp s = retireTile t (s.failedCol t) (s.setNv { s.stw.nv with failed := [] }) := by
    simp [tileRetirementApplyOp, ha, hb, hc, hf]
  simp only [hu]
  obtain ⟨hr, h⟩ | ⟨hr, ht, h⟩ | ⟨hr, ht, h⟩ := retireTile_cases t (s.failedCol t) (s.setNv { s.stw.nv with failed := [] })
  · unfold EventFrame at h
    rw [h]
    exact ⟨rfl, fun _ => ⟨(sfind_sinsert _ _ _ _).trans (if_pos rfl), rfl⟩, fun hn => absurd hr hn, rfl, rfl⟩
  · unfold EventFrame at h
    rw [h]
    exact ⟨rfl, fun hn => absurd hn hr, fun _ _ => ⟨rfl, rfl⟩, rfl, rfl⟩
  · rw [h]
    exact ⟨rfl, fun hn => absurd hn hr, fun _ h1 => absurd h1 ht, rfl, rfl⟩

end Sys2Proof.Laws
end


section
/-! The statement about faults, clocks and tests, part by part. -/

namespace Sys2Proof.Laws

set_option Elab.async false

open Sys2Proof Sys2Proof.Machine Sys2Proof.Safety

/-- Every descriptor accepted before the first cause of a fault has its completion posted. -/
theorem latchedFault_posts (s : State) (c : FaultCause) :
    let u := faultEffects c (faultLatched c s)
    (∀ d i, s.inflight? d = some i → (∀ p ∈ s.passes, p.desc ≠ d) → Posted i .aborted s u) ∧
    ((s.passes.map (·.desc)).Nodup → ∀ p ∈ s.passes, ∀ i, s.inflight? p.desc = some i →
      Posted i (p.faultStatus s.cyc).1 s u) := by
  have hk : KeepsPosts s (faultLatched c s) := by rw [faultLatched_eq]; exact .of_eq rfl rfl
  have hp : (faultLatched c s).passes = s.passes := by rw [faultLatched_eq]
  have hc : (faultLatched c s).cyc = s.cyc := by rw [faultLatched_eq]
  have hi (d : Nat) : (faultLatched c s).inflight? d = s.inflight? d := by rw [faultLatched_eq]; rfl
  have after {i : Inflight} {st : Status} (h : Posted i st (faultLatched c s) (abortAll (faultLatched c s))) :
      Posted i st s (faultEffects c (faultLatched c s)) := posted_from hk (posted_mono h (faultEffects_posts _ _))
  refine ⟨fun d i h hd => after (abortAll_posts_aborted ((hi d).trans h) (hp ▸ hd)), fun hn p hm i h => ?_⟩
  rw [← hc]
  exact after (abortAll_posts_pass (hp ▸ hn) (hp ▸ hm) ((hi _).trans h))

/-- The clocks, tiles, memories, ports and bytes of memory after the first cause of a fault. -/
theorem latchedFault_units (s : State) (c : FaultCause) :
    let u := faultEffects c (faultLatched c s)
    (∀ q, u.pllOf q = .off) ∧
    (∀ t, (u.tile t).seqs = [] ∧ (u.tile t).running = none ∧ (u.tile t).clocked = false ∧ (u.tile t).bin = (s.tile t).bin ∧
      ∀ k r n, (s.declaredOn t).getLsbD k = true → r < 16 → n < 64 → (u.tile t).accAt k r n = 0) ∧
    (∀ p, (u.dev p).st = (if (s.dev p).st = .ready then .selfRefresh else (s.dev p).st)) ∧
    (∀ p, (u.port p).st = (if (s.port p).collSending then .up else .disabled)) ∧
    (s.hrv.op = none → u.memory.mem = s.memory.mem) ∧
    (∀ h, s.hrv.op = some h →
      MemKept s u (fun a => s.rg .hrvBitmapBase ≤ a ∧ a < s.rg .hrvBitmapBase + h.bitmapBytes)) := by
  have hrg : (faultLatched c s).rg .hrvBitmapBase = s.rg .hrvBitmapBase :=
    rg_regsKept (faultLatched_regs c s) .hrvBitmapBase 0 0 (by decide)
  have htile (t : Nat) : (faultLatched c s).tile t = s.tile t := by rw [faultLatched_eq]; rfl
  have hdev (p : Nat) : (faultLatched c s).dev p = s.dev p := by rw [faultLatched_eq]; rfl
  have hport (p : Nat) : (faultLatched c s).port p = s.port p := by rw [faultLatched_eq]; rfl
  have hop : (faultLatched c s).hrv.op = s.hrv.op := by rw [faultLatched_eq]
  have hmem : (faultLatched c s).memory.mem = s.memory.mem := by rw [faultLatched_eq]
  refine ⟨fun q => ?_, fun t => ?_, fun p => ?_, fun p => ?_, fun h => ?_, fun h hs a ha => ?_⟩
  · simp only [State.pllOf, stw_faultEffects, Steward.faulted, List.getElem?_map]
    cases (faultLatched c s).stw.pll[q]? <;> rfl
  · refine ⟨?_, ?_, ?_, ?_, fun k r n hk => accAt_faultEffects _ _ t k r n (by rw [faultLatched_declaredOn, hk])⟩ <;>
      rw [tile_faultEffects, htile] <;> rfl
  · rw [dev_faultEffects, hdev]
    rfl
  · rw [port_faultEffects, hport]
  · rw [mem_faultEffects _ _ (hop.trans h), hmem]
  · rw [← hmem]
    exact memKept_faultEffects c _ h (hop.trans hs) a (by rwa [hrg])

/-- Settles O51: the effects of a fault unit by unit, completions that stay posted once the work has ended, and each clock, test
and retirement command by its own lemma. -/
theorem faultsClocksAndTests : Obligations.FaultsClocksAndTests := by
  refine ⟨fun s c hp => ⟨fun hf hn => ?_, fun hf hn hc => ?_, fun hd mV mA => ?_⟩, fun s q ha => ⟨fun h => ?_, fun g e h he => ?_,
    fun c h hs hu hc hd => ?_⟩, fun s t ha hc hw hf hd => ?_, fun s t h => ⟨?_, fun part addr sig => ?_⟩, fun s t ha hb hc hf => ?_⟩
  · refine ⟨_, rfl, ?_⟩
    rw [moduleFaultDeclareOp_first c s hp hf hn]
    obtain ⟨hpasses, hinflight, hxfers, hout, hinn⟩ := faultEffects_ends c (faultLatched c s)
    obtain ⟨habort, hpass⟩ := latchedFault_posts s c
    obtain ⟨hpll, htile, hdev, hport, hnone, hsome⟩ := latchedFault_units s c
    have hstw := stw_faultEffects c (faultLatched c s)
    exact ⟨by rw [hstw]; rfl, by rw [hstw]; rfl, hpasses, hinflight, habort, hpass, hpll, hxfers, htile, hdev, hout, hinn,
      fun _ _ => hport, hnone, hsome⟩
  · exact ⟨_, rfl, moduleFaultDeclareOp_further c s hf hn hc⟩
  · exact ⟨_, rfl, energySample_answers mV mA s hp hd⟩
  · exact ⟨_, rfl, pllLockOp_locking q s ha h⟩
  · exact ⟨_, rfl, wakeWalkStepOp_due q g e s ha h he⟩
  · exact ⟨_, rfl, pllStopOp_unused q s c ha h hs hu hc hd⟩
  · refine ⟨_, rfl, ?_⟩
    rw [tileGateOp_idle t s ha hc hw hf hd]
    exact ⟨(tile_updTile ..).trans (if_pos rfl), tilesKept_updTile s t _, rfl⟩
  · refine ⟨_, rfl, ?_⟩
    rw [idleTestSliceOp, if_pos h]
    obtain ⟨hk, ht⟩ := tile_runSlice t s
    refine ⟨?_, hk, fun hl => ht.trans (if_pos hl), ?_⟩ <;> rw [runSlice_frame]
  · exact ⟨_, rfl, idleTestSlice_failed t part addr sig s h⟩
  · exact ⟨_, rfl, tileRetirementApply_one s t ha hb hc hf⟩

end Sys2Proof.Laws
end


section
/-! SUPPORT. What an instruction of the array does once its sequencer presents it: one rule for each operation that its effect is
made of, and one for its issue (R19, R26, R28, R35, R112). -/

namespace Sys2Proof.Laws

set_option Elab.async false

open Sys2Proof Sys2Proof.Machine Sys2Proof.Safety

/-! ## Elements of a tile's banks -/

theorem accAt_congr {x y : Tile} (h : x.acc = y.acc) (b r n : Nat) : x.accAt b r n = y.accAt b r n := by
  simp only [Tile.accAt, h]

/-- Clearing a set of banks: their elements are +0.0, and every other bank's are as before. -/
theorem accAt_clearBanks (tl : Tile) (banks : BitVec 4) (b r n : Nat) (hr : r < 16) (hn : n < 64) :
    (tl.clearBanks banks).accAt b r n = if banks.getLsbD b then 0 else tl.accAt b r n := by
  have hdiv : (b * 1024 + r * 64 + n) / 1024 = b := by omega
  have h := sfind_filter (fun x => !banks.getLsbD (x / 1024)) tl.acc (b * 1024 + r * 64 + n)
  unfold Tile.accAt Tile.clearBanks sget
  rw [h, hdiv]
  cases banks.getLsbD b <;> rfl

/-- The set of one bank holds no other. -/
theorem getLsbD_oneBank : ∀ bank < 4, ∀ b < 4, (1#4 <<< bank).getLsbD b = decide (b = bank) := by decide

/-! ## Multiply-accumulate counts -/

/-- Counting multiply-accumulates changes the attempts alone. -/
theorem countMacs_frame (p : Pass) (cls n : Nat) (s : State) :
    countMacs p cls n s = { s with steps := (countMacs p cls n s).steps } := by
  unfold countMacs
  split <;> rfl

/-- The counts depend on the attempts alone. -/
theorem countMacs_steps_congr {s v : State} (h : v.steps = s.steps) (p : Pass) (cls n : Nat) :
    (countMacs p cls n v).steps = (countMacs p cls n s).steps := by
  unfold countMacs
  split
  · exact h
  · simp only [State.updAttempt, h]

/-! ## The effect of an array instruction -/

/-- A sequencer state with its list of partial blocks changed. -/
def changeParts (m : List Nat → List Nat) (q : SeqState) : SeqState := { q with parts := m q.parts }

@[simp] theorem changeParts_id (q : SeqState) : changeParts id q = q := rfl

/-- Moving a pass on and changing its partial blocks do not depend on each other. -/
theorem step_changeParts (c : Ctx) (i : Instr) (m : List Nat → List Nat) (q : SeqState) :
    c.step i (changeParts m q) = changeParts m (c.step i q) := by
  unfold Ctx.step
  split <;> rfl

/-- Between s and v an instruction of context c has changed the data of its tile by g and the partial blocks of its pass by k, and
nothing else but the tile's operand widths and the steps, which are then st. -/
structure ArrayEffect (c : Ctx) (g : Tile → Tile) (k : List Nat → List Nat) (st : Steps) (s v : State) : Prop where
  tile : ∃ o q, v.tile c.t = { g (s.tile c.t) with opBits := o, seqs := q }
  seq : ∀ r, v.seq? c.t r = (s.seq? c.t r).map (fun x => if r = c.q.pass then changeParts k x else x)
  kept : TilesKept s v c.t
  frame : v = { s with tiles := v.tiles, steps := st }

section
variable {c : Ctx} {g : Tile → Tile} {k : List Nat → List Nat} {st : Steps} {s v : State}

/-- A change of the tile that leaves its sequencer states alone. -/
theorem arrayEffect_updTile (hg : (g (s.tile c.t)).seqs = (s.tile c.t).seqs) :
    ArrayEffect c g id s.steps s (s.updTile c.t g) where
  tile := ⟨_, _, (tile_updTile ..).trans (if_pos rfl)⟩
  seq r := by simp [seq_updTile s c.t c.t r g hg]
  kept := tilesKept_updTile s c.t g
  frame := rfl

theorem ArrayEffect.updOpBits (h : ArrayEffect c g k st s v) (m : SMap Nat → SMap Nat) :
    ArrayEffect c g k st s (v.updTile c.t (fun tl => { tl with opBits := m tl.opBits })) where
  tile := by
    obtain ⟨o, q, ht⟩ := h.tile
    exact ⟨m o, q, by simp [ht]⟩
  seq r := (seq_updTile _ _ _ _ _ rfl).trans (h.seq r)
  kept j hj := (tilesKept_updTile v c.t _ j hj).trans (h.kept j hj)
  frame := by rw [h.frame]; rfl

theorem ArrayEffect.updParts (h : ArrayEffect c g k st s v) (m : List Nat → List Nat) :
    ArrayEffect c g (fun l => m (k l)) st s (v.updSeq c.t c.q.pass (changeParts m)) where
  tile := by
    obtain ⟨o, q, ht⟩ := h.tile
    refine ⟨o, ((v.updSeq c.t c.q.pass (changeParts m)).tile c.t).seqs, ?_⟩
    rw [tile_updSeq, if_pos rfl, ht]
  seq r := by
    rw [seq_updSeq v c.t c.q.pass c.t r (changeParts m) (fun _ => rfl), if_pos rfl, h.seq r, Option.map_map]
    congr 1
    funext x
    by_cases hr : r = c.q.pass <;> simp [hr, changeParts]
  kept j hj := (tilesKept_updTile v c.t _ j hj).trans (h.kept j hj)
  frame := by rw [h.frame]; rfl

theorem ArrayEffect.mark (h : ArrayEffect c g k st s v) (bank : Nat) (fs : List Nat) :
    ArrayEffect c g (fun l => (bank :: k l).dedup) st s (markBank c bank fs v) :=
  (h.updParts (fun l => (bank :: l).dedup)).updOpBits _

theorem ArrayEffect.unmark (h : ArrayEffect c g k st s v) (bank : Nat) :
    ArrayEffect c g (fun l => (k l).filter (· ≠ bank)) st s (unmarkBank c bank v) :=
  h.updParts (fun l => l.filter (· ≠ bank))

theorem ArrayEffect.count (h : ArrayEffect c g k s.steps s v) (p : Pass) (cls n : Nat) :
    ArrayEffect c g k (countMacs p cls n s).steps s (countMacs p cls n v) where
  tile := by rw [countMacs_frame]; exact h.tile
  seq := by rw [countMacs_frame]; exact h.seq
  kept := by rw [countMacs_frame]; exact h.kept
  frame := by
    have hs : v.steps = s.steps := by rw [h.frame]
    rw [countMacs_frame, countMacs_steps_congr hs, h.frame]

/-- An array instruction that issues has its effect, its pass moves past it and its tile's clock runs. -/
theorem runOp_array {t : Nat} {i : Instr} {rd wr : List Nat} {eff : Ctx → State → State} (hi : Issues s t i c rd wr)
    (ht : touchOf i c s = some (rd, wr)) (hm : isMove i = false) (he : ArrayEffect c g k st s (eff c s)) :
    let u := runOp t i eff s
    (∃ o q, u.tile t = { g (s.tile t) with opBits := o, seqs := q, clocked := true }) ∧
    PassAt c i s u (changeParts k) ∧ TilesKept s u t ∧
    u = { s with tiles := u.tiles, steps := st } := by
  obtain ⟨rfl, hq, -⟩ := present_ctx hi.1
  have hrun : runOp c.t i eff s = advance c i (eff c s) := runOp_issues hi ht
  obtain ⟨o, q, htile⟩ := he.tile
  rw [hrun]
  refine ⟨⟨o, ((advance c i (eff c s)).tile c.t).seqs, ?_⟩, ⟨?_, fun r hr => ?_⟩, fun j hj => ?_, ?_⟩
  · rw [tile_advance, if_pos rfl, htile]
  · rw [seq_advance, if_pos rfl, he.seq, hq]
    simp [step_changeParts]
  · rw [seq_advance, if_pos rfl, he.seq]
    simp [hr]
  · rw [tile_advance, if_neg hj, he.kept j hj]
  · have hg := advance_gath c i (eff c s) hm
    rw [advance_frame, hg, he.frame]

end

/-! ## Plain and shifted sweeps -/

/-- The effect that OPX and SHX share: a sweep of cycles into one bank with the last row latched, the bank marked with the formats
of the operands, and n multiply-accumulates counted. -/
def sweepEff (bank : Nat) (fs : List Nat) (cycles : List (List OpStep)) (row : List Nat) (n : Nat) (c : Ctx) (s : State) : State :=
  countMacs c.p (rateClass fs) n (markBank c bank fs (s.updTile c.t (fun tl => latchRow (sweepInto tl bank cycles) row)))

theorem opxEff_eq {f : OpxF} {c : Ctx} {a b : Side} (h : opxSides f c = some (a, b)) (s : State) :
    opxEff f c s = sweepEff f.bank [a.pl.fmt, b.pl.fmt]
      (if rateClass [a.pl.fmt, b.pl.fmt] = 0 then pieces 2 (plainSteps a b (s.tile c.t).bin f.k)
       else (plainSteps a b (s.tile c.t).bin f.k).map (fun x => [x]))
      (b.codes (s.tile c.t).bin (f.k - 1)) (1024 * f.k) c s := by
  unfold opxEff
  rw [h]
  rfl

theorem shxEff_eq {f : ShxF} {c : Ctx} {a b : Side} (h : shxSides f c = some (a, b)) (s : State) :
    shxEff f c s = sweepEff f.bank [a.pl.fmt, b.pl.fmt]
      ((List.range f.rows).flatMap (fun i =>
        if rateClass [a.pl.fmt, b.pl.fmt] = 0 then pieces 2 (shxRow f a b (s.tile c.t).bin i)
        else (shxRow f a b (s.tile c.t).bin i).map (fun x => [x])))
      (b.codes (s.tile c.t).bin (f.rows - 1)) (1024 * (f.rows * f.taps)) c s := by
  unfold shxEff
  rw [h]
  rfl

theorem arrayEffect_sweepEff (bank : Nat) (fs : List Nat) (cycles : List (List OpStep)) (row : List Nat) (n : Nat) (c : Ctx)
    (s : State) :
    ArrayEffect c (fun tl => latchRow (sweepInto tl bank cycles) row) (fun l => (bank :: l).dedup)
      (countMacs c.p (rateClass fs) n s).steps s (sweepEff bank fs cycles row n c s) :=
  ((arrayEffect_updTile rfl).mark bank fs).count c.p (rateClass fs) n

/-- A sweep that issues: its bank has every cycle added in order, and every other bank is as before; of the tile's other data only
the latched row changes, and of the rest of the module only the step's counts. -/
theorem runOp_sweep {s : State} {t : Nat} {i : Instr} {c : Ctx} {rd wr : List Nat} {eff : Ctx → State → State} {bank : Nat}
    {fs : List Nat} {cycles : List (List OpStep)} {row : List Nat} {n : Nat} (hi : Issues s t i c rd wr)
    (ht : touchOf i c s = some (rd, wr)) (hm : isMove i = false) (he : eff c s = sweepEff bank fs cycles row n c s) :
    let u := runOp t i eff s
    (∀ r col, r < 16 → col < 64 → (u.tile t).accAt bank r col = sweptElem (s.tile t) bank r col cycles) ∧
    (∀ b r col, b ≠ bank → r < 16 → col < 64 → (u.tile t).accAt b r col = (s.tile t).accAt b r col) ∧
    u.tile t = { s.tile t with acc := (u.tile t).acc, opBits := (u.tile t).opBits, seqs := (u.tile t).seqs,
                               brow := (latchRow (s.tile t) row).brow, clocked := true } ∧
    PassAt c i s u (fun q => { q with parts := (bank :: q.parts).dedup }) ∧ TilesKept s u t ∧
    u = { s with tiles := u.tiles, steps := (countMacs c.p (rateClass fs) n s).steps } := by
  obtain ⟨⟨o, q, hu⟩, hpass, hkept, hframe⟩ :=
    runOp_array hi ht hm (he ▸ arrayEffect_sweepEff bank fs cycles row n c s)
  have hacc (b r col : Nat) (hr : r < 16) (hc : col < 64) : ((runOp t i eff s).tile t).accAt b r col =
      if b = bank then sweptElem (s.tile t) bank r col cycles else (s.tile t).accAt b r col := by
    rw [hu, ← accAt_sweepInto _ _ _ _ _ cycles hr hc]
    exact accAt_congr rfl ..
  refine ⟨fun r col hr hc => ?_, fun b r col hb hr hc => ?_, ?_, hpass, hkept, hframe⟩
  · rw [hacc _ _ _ hr hc, if_pos rfl]
  · rw [hacc _ _ _ hr hc, if_neg hb]
  · rw [hu]
    rfl

/-! ## Alternating gradient sweeps -/

/-- A tile with a chunk in the half that the ALT before did not use (R35). -/
def loadChunk (flat : List (BitVec 16)) (tl : Tile) : Tile :=
  if tl.chunkSel then { tl with chunk0 := flat, chunkSel := false } else { tl with chunk1 := flat, chunkSel := true }

/-- Between two tiles a chunk has gone to the half that was not in use. -/
def HalfLoaded (flat : List (BitVec 16)) (old new : Tile) : Prop :=
  new.chunkSel = (!old.chunkSel) ∧ (if old.chunkSel then new.chunk1 = old.chunk1 else new.chunk0 = old.chunk0) ∧
  (if old.chunkSel then new.chunk0 else new.chunk1) = flat

theorem halfLoaded_loadChunk (flat : List (BitVec 16)) (tl : Tile) : HalfLoaded flat tl (loadChunk flat tl) := by
  unfold HalfLoaded
  cases h : tl.chunkSel <;> simp [loadChunk, h]

/-- Loading a chunk leaves the banks, the bin, the tallies and the sequencer states. -/
theorem loadChunk_keeps (flat : List (BitVec 16)) (tl : Tile) :
    (loadChunk flat tl).acc = tl.acc ∧ (loadChunk flat tl).bin = tl.bin ∧ (loadChunk flat tl).tallies = tl.tallies ∧
    (loadChunk flat tl).seqs = tl.seqs := by
  unfold loadChunk
  split <;> exact ⟨rfl, rfl, rfl, rfl⟩

/-- The values of a row of an ALT's chunk. -/
def chunkRow (dy : Side) (bin : SMap Byte) (m : Nat) : List FVal := (dy.codes bin m).map (decodeElem dy.pl.fmt)

/-- The cycles that an ALT adds into its dX bank: the chunk's columns by the weight rows (R35). -/
def dxCycles (dy w : Side) (bin : SMap Byte) : List (List OpStep) :=
  (List.range 64).map (fun n =>
    [((List.range 16).map (fun m => ((chunkRow dy bin m)[n]?).getD .nan), (w.codes bin n).map (decodeElem w.pl.fmt))])

/-- The cycles that an ALT adds into its dW bank: the X columns by the chunk's rows (R35). -/
def dwCycles (dy x : Side) (bin : SMap Byte) : List (List OpStep) :=
  (List.range 16).map (fun m => [((x.codes bin m).map (decodeElem x.pl.fmt), chunkRow dy bin m)])

/-- The codes of an ALT's chunk, row by row. -/
def chunkCodes (dy : Side) (bin : SMap Byte) : List (BitVec 16) :=
  ((List.range 16).map (dy.codes bin)).flatten.map (BitVec.ofNat 16)

/-- What an ALT makes of its tile's data, the operands read from a bin. -/
def altTile (f : AltF) (dy w x : Side) (bin : SMap Byte) (tl : Tile) : Tile :=
  loadChunk (chunkCodes dy bin)
    (latchRow (sweepInto (sweepInto tl f.dxBank (dxCycles dy w bin)) f.dwBank (dwCycles dy x bin)) (dy.codes bin 15))

theorem altEff_eq {f : AltF} {c : Ctx} {dy w x : Side} (h : altSides f c = some (dy, w, x)) (s : State) :
    altEff f c s =
      let fs := [dy.pl.fmt, w.pl.fmt, x.pl.fmt]
      countMacs c.p (rateClass fs) (1024 * 80)
        (markBank c f.dxBank fs (markBank c f.dwBank fs (s.updTile c.t (altTile f dy w x (s.tile c.t).bin)))) := by
  have hdx : ((List.range 64).map (fun n =>
        ((((List.range 16).map (dy.codes (s.tile c.t).bin)).map (fun r => r.map (decodeElem dy.pl.fmt))).map
          (fun r => (r[n]?).getD .nan), (w.codes (s.tile c.t).bin n).map (decodeElem w.pl.fmt)))).map (fun y => [y]) =
      dxCycles dy w (s.tile c.t).bin := by
    simp only [dxCycles, chunkRow, List.map_map, Function.comp_def]
  have hdw : ((List.range 16).map (fun m => ((x.codes (s.tile c.t).bin m).map (decodeElem x.pl.fmt),
        (((((List.range 16).map (dy.codes (s.tile c.t).bin)).map (fun r => r.map (decodeElem dy.pl.fmt)))[m]?).getD [])))).map
          (fun y => [y]) = dwCycles dy x (s.tile c.t).bin := by
    rw [dwCycles, List.map_map]
    refine List.map_congr_left fun m hm => ?_
    simp [chunkRow, List.mem_range.mp hm]
  unfold altEff
  rw [h]
  simp only [hdx, hdw]
  rfl

/-- An ALT loads its chunk and leaves the bin, the tallies and the sequencer states. -/
theorem altTile_data (f : AltF) (dy w x : Side) (bin : SMap Byte) (tl : Tile) :
    HalfLoaded (chunkCodes dy bin) tl (altTile f dy w x bin tl) ∧ (altTile f dy w x bin tl).bin = tl.bin ∧
    (altTile f dy w x bin tl).tallies = tl.tallies ∧ (altTile f dy w x bin tl).seqs = tl.seqs :=
  ⟨halfLoaded_loadChunk _ _, (loadChunk_keeps _ _).2⟩

theorem arrayEffect_altEff {f : AltF} {c : Ctx} {dy w x : Side} (h : altSides f c = some (dy, w, x)) (s : State) :
    ArrayEffect c (altTile f dy w x (s.tile c.t).bin) (fun l => (f.dxBank :: (f.dwBank :: l).dedup).dedup)
      (countMacs c.p (rateClass [dy.pl.fmt, w.pl.fmt, x.pl.fmt]) (1024 * 80) s).steps s (altEff f c s) := by
  obtain ⟨-, -, -, hseqs⟩ := altTile_data f dy w x (s.tile c.t).bin (s.tile c.t)
  have hbanks := ((arrayEffect_updTile hseqs).mark f.dwBank [dy.pl.fmt, w.pl.fmt, x.pl.fmt]).mark f.dxBank
    [dy.pl.fmt, w.pl.fmt, x.pl.fmt]
  rw [altEff_eq h s]
  exact hbanks.count c.p _ _

/-- The banks after an ALT: each gradient's has its own cycles added, and every other bank is as before. -/
theorem accAt_altTile {f : AltF} (hne : f.dxBank ≠ f.dwBank) (dy w x : Side) (bin : SMap Byte) (tl : Tile) (b r n : Nat)
    (hr : r < 16) (hn : n < 64) :
    (altTile f dy w x bin tl).accAt b r n =
      if b = f.dwBank then sweptElem tl f.dwBank r n (dwCycles dy x bin)
      else if b = f.dxBank then sweptElem tl f.dxBank r n (dxCycles dy w bin) else tl.accAt b r n := by
  have hdx := fun b => accAt_sweepInto tl f.dxBank b r n (dxCycles dy w bin) hr hn
  have hdw := accAt_sweepInto (sweepInto tl f.dxBank (dxCycles dy w bin)) f.dwBank b r n (dwCycles dy x bin) hr hn
  rw [hdx, sweptElem, hdx, if_neg hne.symm] at hdw
  exact (accAt_congr (loadChunk_keeps _ _).1 ..).trans hdw

end Sys2Proof.Laws
end


section
/-! The statements about the outer-product array: OPX, ALT, SHX and ACLR. -/

namespace Sys2Proof.Laws

set_option Elab.async false

open Sys2Proof Sys2Proof.Machine Sys2Proof.Safety

/-- Settles O2: an OPX is a sweep of its plain operand steps. -/
theorem opxAddsEveryProduct : Obligations.OpxAddsEveryProduct := by
  intro s t f c a b rd hi hs ht
  obtain ⟨rfl, -⟩ := present_ctx hi.1
  exact ⟨_, rfl, runOp_sweep hi ht rfl (opxEff_eq hs s)⟩

/-- Settles O3: the two sweeps of an ALT touch different banks, and its chunk goes to the half that the ALT before did not use. -/
theorem altFeedsBothGradients : Obligations.AltFeedsBothGradients := by
  intro s t f c dy w x rd hi hs ht hne
  obtain ⟨rfl, -⟩ := present_ctx hi.1
  refine ⟨_, rfl, ?_⟩
  obtain ⟨⟨o, q, hu⟩, hpass, hkept, hframe⟩ := runOp_array hi ht rfl (arrayEffect_altEff hs s)
  have hacc (b r n : Nat) (hr : r < 16) (hn : n < 64) :=
    (congrArg (Tile.accAt · b r n) hu).trans (accAt_altTile hne dy w x (s.tile c.t).bin (s.tile c.t) b r n hr hn)
  obtain ⟨⟨hsel, hother, hloaded⟩, hbin, htal, -⟩ := altTile_data f dy w x (s.tile c.t).bin (s.tile c.t)
  refine ⟨fun r n hr hn => ?_, fun r n hr hn => ?_, fun b r n hdx hdw hr hn => ?_, ?_, ?_, ?_, ?_, ?_, hpass, hkept, hframe⟩
  · exact (hacc _ r n hr hn).trans ((if_neg hne).trans (if_pos rfl))
  · exact (hacc _ r n hr hn).trans (if_pos rfl)
  · exact (hacc b r n hr hn).trans ((if_neg hdw).trans (if_neg hdx))
  · rw [altOp, hu]; exact hsel
  · rw [altOp, hu]; exact hother
  · rw [altOp, hu]; exact hloaded
  · rw [altOp, hu]; exact hbin
  · rw [altOp, hu]; exact htal

/-- Settles O4: an SHX is a sweep of the taps of its rows. -/
theorem shxSlidesTheRow : Obligations.ShxSlidesTheRow := by
  intro s t f c a b rd hi hs ht
  obtain ⟨rfl, -⟩ := present_ctx hi.1
  exact ⟨_, rfl, runOp_sweep hi ht rfl (shxEff_eq hs s)⟩

/-- Settles O5: the filter that clears a set of banks, for the set of one bank. -/
theorem aclrClearsOneBank : Obligations.AclrClearsOneBank := by
  intro s t bank c hi hb
  refine ⟨_, rfl, ?_⟩
  have he : ArrayEffect c (fun tl => tl.clearBanks (1#4 <<< bank)) (fun l => l.filter (· ≠ bank)) s.steps s (aclrEff bank c s) :=
    (arrayEffect_updTile rfl).unmark bank
  obtain ⟨⟨o, q, hu⟩, hpass, hkept, hframe⟩ := runOp_array hi rfl rfl he
  have hacc (b r n : Nat) (hlt : b < 4) (hr : r < 16) (hn : n < 64) : ((aclrOp t bank s).tile t).accAt b r n =
      if b = bank then 0 else (s.tile t).accAt b r n := by
    have h := accAt_clearBanks (s.tile t) (1#4 <<< bank) b r n hr hn
    simp only [getLsbD_oneBank bank hb b hlt, decide_eq_true_eq] at h
    rw [← h, aclrOp, hu]
    exact accAt_congr rfl ..
  refine ⟨fun r n hr hn => ?_, fun b r n hne hlt hr hn => ?_, ?_, hpass, hkept, hframe⟩
  · rw [hacc bank r n hb hr hn, if_pos rfl]
  · rw [hacc b r n hlt hr hn, if_neg hne]
  · rw [aclrOp, hu]
    rfl

end Sys2Proof.Laws
end


section
/-! SUPPORT. What an instruction that converts or computes elements reports to the watch, and which of the module's bytes and
registers the report may change (R54, R66, R77). -/

namespace Sys2Proof.Laws

set_option Elab.async false

open Sys2Proof Sys2Proof.Machine Sys2Proof.Safety

@[simp] theorem length_leBytes (n v : Nat) : (leBytes n v).length = n := by
  induction n generalizing v with
  | zero => rfl
  | succ n ih => simp [leBytes, ih]

/-- A write that covers no whole line changes memory's bytes alone. -/
theorem memPut_part_frame (s : State) (a : Nat) (b : List Byte) (h : b.length < 64) :
    s.memPut a b = { s with memory := { s.memory with mem := (s.memPut a b).memory.mem } } := by
  obtain ⟨hmarks, herrs⟩ := marks_memPut_part s a b h
  calc s.memPut a b
      = { s with memory := { s.memory with mem := (s.memPut a b).memory.mem, marks := (s.memPut a b).memory.marks,
                                           errs := (s.memPut a b).memory.errs } } := rfl
    _ = _ := by rw [hmarks, herrs]

/-- The histogram has 32 bins (R74). -/
theorem histBin_lt {est : Word} {x : FVal} {b : Nat} (h : histBin est x = some b) : b < 32 := by
  unfold histBin at h
  split at h
  · split at h
    · contradiction
    · rw [Option.some.injEq] at h
      omega
  · contradiction

/-! ## Bytes and registers that a count may touch -/

/-- n bytes from an address lie in a layer's entry of a watch table, in the pass's bank or in bank 0. -/
def InEntry (w : Watch) (l a n : Nat) : Prop :=
  (w.entry l ≤ a ∧ a + n ≤ w.entry l + 0x400) ∨ (w.shared l ≤ a ∧ a + n ≤ w.shared l + 0x400)

theorem InEntry.layerBytes {w : Watch} {l a n x : Nat} (h : InEntry w l a n) (hx : a ≤ x ∧ x < a + n) : LayerBytes w l x :=
  h.imp (fun _ => by omega) (fun _ => by omega)

/-- From s to u only what counts outcomes has changed: the counters of tile t, for a role of R63 the bytes of the layer's entry,
the attempts' records and the passes' loss counts. -/
structure CountsOnly (w : Watch) (l role t : Nat) (s u : State) : Prop where
  regs : RegsKept s u (countRegs t)
  mem : MemKept s u (fun a => role ≤ 4 → LayerBytes w l a)
  frame : u = { s with regs := u.regs, memory := { s.memory with mem := u.memory.mem },
                       steps := { s.steps with attempts := u.steps.attempts }, passes := u.passes }

section
variable {w : Watch} {l role t : Nat} {s u v : State}

theorem CountsOnly.refl (w : Watch) (l role t : Nat) (s : State) : CountsOnly w l role t s s :=
  ⟨fun _ _ => rfl, fun _ _ => rfl, rfl⟩

theorem CountsOnly.trans (h : CountsOnly w l role t s u) (k : CountsOnly w l role t u v) : CountsOnly w l role t s v where
  regs := regsKept_trans h.regs k.regs
  mem a ha := (k.mem a ha).trans (h.mem a ha)
  frame := k.frame.trans (by rw [h.frame])

theorem CountsOnly.tiles (h : CountsOnly w l role t s u) : u.tiles = s.tiles := by rw [h.frame]

/-- A write within the layer's entry that covers no whole line. -/
theorem CountsOnly.memPutNum {a n : Nat} (h : CountsOnly w l role t s u) (hn : n < 64) (ha : role ≤ 4 → InEntry w l a n)
    (v : Nat) : CountsOnly w l role t s (u.memPutNum a n v) := by
  refine h.trans ⟨fun _ _ => rfl, fun x hx => memKept_memPut u a _ x fun hin => hx fun hr => ?_, ?_⟩
  · exact (ha hr).layerBytes (by simpa using hin)
  · exact memPut_part_frame u a _ (by simpa using hn)

theorem CountsOnly.memAdd {a n : Nat} (h : CountsOnly w l role t s u) (hn : n < 64) (ha : role ≤ 4 → InEntry w l a n)
    (k : Nat) : CountsOnly w l role t s (u.memAdd a n k) := by
  unfold State.memAdd
  split
  · exact h
  · exact h.memPutNum hn ha _

theorem CountsOnly.memAddSat {a n : Nat} (h : CountsOnly w l role t s u) (hn : n < 64) (ha : role ≤ 4 → InEntry w l a n)
    (k : Nat) : CountsOnly w l role t s (u.memAddSat a n k) := by
  unfold State.memAddSat
  split
  · exact h
  · exact h.memPutNum hn ha _

theorem CountsOnly.setRg {n : RegName} {i j : Nat} (h : CountsOnly w l role t s u) (hn : ⟨n, i, j⟩ ∈ countRegs t) (v : Nat) :
    CountsOnly w l role t s (u.setRg n v i j) :=
  h.trans ⟨regsKept_mono (regsKept_setRg u n v i j) (by simpa using hn), fun _ _ => rfl, rfl⟩

theorem CountsOnly.updAttempt (h : CountsOnly w l role t s u) (n : Nat) (f : Attempt → Attempt) :
    CountsOnly w l role t s (u.updAttempt n f) :=
  h.trans ⟨fun _ _ => rfl, fun _ _ => rfl, rfl⟩

theorem CountsOnly.updPass (h : CountsOnly w l role t s u) (q : Nat) (f : Pass → Pass) :
    CountsOnly w l role t s (u.updPass q f) :=
  h.trans ⟨fun _ _ => rfl, fun _ _ => rfl, rfl⟩

/-! ## The parts of a report -/

theorem CountsOnly.foldAmax {a : Nat} (h : CountsOnly w l role t s u) (ha : role ≤ 4 → InEntry w l a 4) (v : Word) :
    CountsOnly w l role t s (foldAmax a v u) := by
  unfold Machine.foldAmax
  split
  · exact h.memPutNum (by decide) ha _
  · exact h

theorem CountsOnly.addHist {a : Nat} (h : CountsOnly w l role t s u) (ha : InEntry w l a 128) (est : Word) (xs : List FVal) :
    CountsOnly w l role t s (addHist a est xs u) := by
  unfold Machine.addHist each
  refine List.foldlRecOn _ _ h fun v hv b hb => hv.memAddSat (by decide) (fun _ => ?_) _
  obtain ⟨x, -, hx⟩ := List.mem_filterMap.1 hb
  have hlt := histBin_lt hx
  unfold InEntry at ha ⊢
  omega

theorem CountsOnly.addCounts (h : CountsOnly w l role t s u) (c : StepCounts) :
    CountsOnly w l role t s (addCounts w l role c u) := by
  have hcnt (k : Nat) (hk : k ≤ 40) (hr : role ≤ 4) : InEntry w l (w.entry l + 0x50 + role * 48 + k) 8 := .inl (by omega)
  have htot (k : Nat) (hk : k ≤ 16) (hr : role ≤ 4) : InEntry w l (w.shared l + 0x140 + role * 24 + k) 8 := .inr (by omega)
  unfold Machine.addCounts
  extract_lets e rec_ cnt tot s1 s2 fl
  have h1 : CountsOnly w l role t s s1 :=
    (((((h.memAdd (by decide) (hcnt 0 (by decide)) _).memAdd (by decide) (hcnt 8 (by decide)) _).memAdd (by decide)
      (hcnt 16 (by decide)) _).memAdd (by decide) (hcnt 24 (by decide)) _).memAdd (by decide) (hcnt 32 (by decide)) _).memAdd
      (by decide) (hcnt 40 (by decide)) _
  have h2 : CountsOnly w l role t s s2 :=
    ((h1.memAdd (by decide) (htot 0 (by decide)) _).memAdd (by decide) (htot 8 (by decide)) _).memAdd (by decide)
      (htot 16 (by decide)) _
  split
  · exact h2
  · exact h2.memPutNum (by decide) (fun hr => .inl (by omega)) _

end

/-- Accounting for an instruction's outcomes changes counts alone (R66, R72 to R77). -/
theorem countsOnly_account (w : Watch) (t : Nat) (c : Counted) (s : State) :
    CountsOnly w c.layer c.role t s (account w t c s) := by
  have hrec (k n : Nat) (hk : k + n ≤ 16) (hr : c.role ≤ 4) : InEntry w c.layer (w.entry c.layer + c.role * 16 + k) n :=
    .inl (by omega)
  unfold account
  extract_lets k e rec_ s1 s2 amax s3 est s4
  have h1 : CountsOnly w c.layer c.role t s s1 :=
    (((CountsOnly.refl w c.layer c.role t s).setRg (by simp [countRegs]) _).setRg (by simp [countRegs]) _).setRg
      (by simp [countRegs]) _
  have h2 : CountsOnly w c.layer c.role t s s2 := h1.addCounts k
  split
  · exact h2
  · have h3 : CountsOnly w c.layer c.role t s s3 := h2.foldAmax (hrec 4 4 (by decide)) amax
    have h4 : CountsOnly w c.layer c.role t s s4 := by
      unfold s4
      split
      · exact h3.addHist (.inl (by omega)) est c.sources
      · split
        · exact h3.addHist (.inl (by omega)) est c.sources
        · exact h3
    extract_lets s5 s6
    have h5 : CountsOnly w c.layer c.role t s s5 := h4.updAttempt _ _
    split
    · have h6 : CountsOnly w c.layer c.role t s s6 := h5.foldAmax (hrec 8 4 (by decide)) amax
      split
      · exact (h6.memPutNum (by decide) (hrec 14 1 (by decide)) _).setRg (by simp [countRegs]) _
      · exact h6
    · exact h5

/-- So does its report, which counts the non-finite outcomes of role LOSS on its pass (R86). -/
theorem countsOnly_report (c : Ctx) (n : Counted) (s : State) : CountsOnly c.w n.layer n.role c.t s (report c n s) := by
  unfold report
  extract_lets nf s1
  have h : CountsOnly c.w n.layer n.role c.t s s1 := countsOnly_account c.w c.t n s
  split
  · exact h.updPass _ _
  · exact h

/-! ## An instruction that writes its bin and reports -/

section
variable {c : Ctx} {i : Instr} {sc : Scaling} {bin : SMap Byte} {s u : State}

/-- A tile's bin replaced, outcomes counted and the instruction issued: what changes is what the statements let change. -/
theorem countFrame_advance (h : CountsOnly c.w sc.layer sc.role c.t (s.setBin c.t bin) u) (hm : isMove i = false) :
    CountFrame c sc s (advance c i u) := by
  have hadv : advance c i u = { u with tiles := (advance c i u).tiles } := by
    have hg := advance_gath c i u hm
    rw [advance_frame, hg]
  have htile (j : Nat) : u.tile j = (s.setBin c.t bin).tile j := by simp only [State.tile, h.tiles]
  refine ⟨fun j hj => ?_, ?_, fun hr a ha => ?_, ?_⟩
  · rw [tile_advance, if_neg hj, htile, State.setBin, tile_updTile, if_neg hj]
  · rw [hadv]
    exact h.regs
  · rw [hadv]
    exact h.mem a (fun hl => ha (hl hr))
  · rw [hadv, h.frame]
    rfl

/-- An instruction that issues, sets its tile's bin and reports: the bin is the one set, and the banks and tallies are as before. -/
theorem runOp_report {t : Nat} {rd wr : List Nat} {eff : Ctx → State → State} {n : Counted} (hi : Issues s t i c rd wr)
    (ht : touchOf i c s = some (rd, wr)) (hm : isMove i = false) (he : eff c s = report c n (s.setBin c.t bin))
    (hl : n.layer = sc.layer) (hr : n.role = sc.role) :
    let u := runOp t i eff s
    (u.tile c.t).bin = bin ∧ (u.tile c.t).acc = (s.tile c.t).acc ∧ (u.tile c.t).tallies = (s.tile c.t).tallies ∧
    PassAt c i s u ∧ CountFrame c sc s u := by
  obtain ⟨rfl, hq, -⟩ := present_ctx hi.1
  have hcount := countsOnly_report c n (s.setBin c.t bin)
  have htiles := hcount.tiles
  rw [hl, hr] at hcount
  have hseq (r : Nat) : (report c n (s.setBin c.t bin)).seq? c.t r = s.seq? c.t r := by
    simp only [State.seq?, State.tile, htiles]
    exact seq_updTile s c.t c.t r (fun tl => { tl with bin := bin }) rfl
  have htile : (report c n (s.setBin c.t bin)).tile c.t = { s.tile c.t with bin := bin } := by
    simp only [State.tile, htiles]
    exact (tile_updTile ..).trans (if_pos rfl)
  have hrun : runOp c.t i eff s = advance c i (report c n (s.setBin c.t bin)) := he ▸ runOp_issues hi ht
  rw [hrun]
  refine ⟨?_, ?_, ?_, passAt_advance ((hseq _).trans hq) fun r _ => hseq r, countFrame_advance hcount hm⟩ <;>
    rw [tile_advance, if_pos rfl, htile]

end

end Sys2Proof.Laws
end


section
/-! SUPPORT. What writing rows at a place does to a bin: no byte outside the lines of the operand changes (R33, R45, R95, R450). -/

namespace Sys2Proof.Laws

set_option Elab.async false

open Sys2Proof Sys2Proof.Machine Sys2Proof.Safety

theorem mem_upFrom {x lo n : Nat} : x ∈ upFrom lo n ↔ lo ≤ x ∧ x < lo + n := by
  induction n generalizing lo with
  | zero => simp [upFrom]
  | succ n ih => rw [upFrom, List.mem_cons, ih]; omega

theorem length_pack (w : Nat) (xs : List Nat) : (pack w xs).length = (xs.length * w + 7) / 8 := length_leBytes _ _

/-! ## Bytes outside the lines of a place -/

/-- No line of a list holds the byte at an address. -/
def Outside (ls : List Nat) (y : Nat) : Prop := ∀ l ∈ ls, ¬ (l ≤ y ∧ y < l + 64)

/-- No byte outside the lines that n bytes from byte x touch is one of these bytes. -/
theorem byteAddr_ne {p : Place} {x n k y : Nat} (hk : k < n) (hy : Outside (p.lines x n) y) :
    y ≠ p.buf.byteAddr p.half (p.x0 + x + k) := by
  rintro rfl
  refine hy (p.buf.lineAddr p.half ((p.x0 + x + k) / 64)) (List.mem_map.2 ⟨_, mem_upFrom.2 ?_, rfl⟩) ?_
  · omega
  · unfold BufEntry.byteAddr
    omega

theorem byteAt_write_outside {p : Place} {x n y : Nat} {data : List Byte} (hn : data.length ≤ n)
    (hy : Outside (p.lines x n) y) (bin : SMap Byte) : byteAt (p.write bin x data) y = byteAt bin y := by
  unfold Place.write
  refine List.foldlRecOn (motive := fun m => byteAt m y = byteAt bin y) _ _ rfl fun m hm d hd => ?_
  have hlt := (List.mem_zipIdx' hd).1
  rw [byteAt_sput, if_neg (byteAddr_ne (by omega) hy), hm]

/-- No byte outside the lines that two scale bytes touch is one of these two. -/
theorem scaleAddr_ne {p : Place} {pos k y : Nat} (hk : k < 2) (hy : Outside (p.scaleLines pos 2) y) :
    y ≠ p.scaleAddr (pos + k) := by
  rintro rfl
  refine hy ((p.scaleAddr pos + k) / 64 * 64) (List.mem_map.2 ⟨_, mem_upFrom.2 ?_, rfl⟩) ?_
  · omega
  · unfold Place.scaleAddr
    omega

/-! ## Rows -/

/-- Stored rows of codes are no more and no longer than a shape has (R95). -/
def RowsFit (sh : Shape) (rows : List (List Nat)) : Prop :=
  rows.length ≤ storedRows sh ∧ ∀ r ∈ rows, r.length ≤ rowElems sh

/-- The lines of one stored row of an operand are lines of the operand. -/
theorem outside_row {p : Place} {sh : Shape} {y r : Nat} (hr : r < storedRows sh) (hy : Outside (p.shapeLines sh) y) :
    Outside (p.lines (rowSpan sh p.fmt r).1 (rowSpan sh p.fmt r).2) y ∧
    (blockScaled p.fmt = true → Outside (p.scaleLines (p.rowScale r) 2) y) := by
  refine ⟨fun l hl => hy l ?_, fun hb l hl => hy l ?_⟩ <;>
    refine List.mem_flatMap.2 ⟨r, List.mem_range.2 hr, List.mem_append.2 ?_⟩
  · exact .inl hl
  · exact .inr (by rwa [if_pos hb])

theorem byteAt_putRows_outside {p : Place} {sh : Shape} {rows : List (List Nat)} {y : Nat} (hf : RowsFit sh rows)
    (hy : Outside (p.shapeLines sh) y) (bin : SMap Byte) : byteAt (p.putRows bin sh rows) y = byteAt bin y := by
  unfold Place.putRows
  refine List.foldlRecOn (motive := fun m => byteAt m y = byteAt bin y) _ _ rfl fun m hm r hr => ?_
  have hlt := (List.mem_zipIdx' hr).1
  have hlen := hf.2 r.1 ((List.mem_zipIdx' hr).2 ▸ List.getElem_mem _)
  have hw := Nat.mul_le_mul_right (fmtBits p.fmt) hlen
  rw [← hm]
  refine byteAt_write_outside ?_ (outside_row (hlt.trans_le hf.1) hy).1 m
  rw [length_pack]
  show _ ≤ (rowElems sh * fmtBits p.fmt + 7) / 8
  omega

theorem rowsFit_buildRows (sh : Shape) (g : Nat → Nat → Nat) : RowsFit sh (buildRows sh g) := by
  cases sh <;> simp [RowsFit, buildRows, storedRows, rowElems]

/-! ## Pieces of a row -/

theorem flatten_piecesFuel {α : Type} {n : Nat} (hn : 0 < n) (fuel : Nat) (l : List α) (h : l.length ≤ fuel) :
    (piecesFuel n fuel l).flatten = l := by
  induction fuel generalizing l with
  | zero => simp [piecesFuel, List.length_eq_zero_iff.1 (Nat.le_zero.1 h)]
  | succ fuel ih =>
    cases l with
    | nil => rfl
    | cons x xs =>
      rw [piecesFuel, List.flatten_cons, ih, List.take_append_drop]
      · rw [List.length_drop]
        simp only [List.length_cons] at h ⊢
        omega
      · exact List.cons_ne_nil _ _

theorem length_piecesFuel_le {α : Type} {n k : Nat} (fuel : Nat) (l : List α) (h : l.length ≤ k * n) :
    (piecesFuel n fuel l).length ≤ k := by
  induction fuel generalizing l k with
  | zero => simp [piecesFuel]
  | succ fuel ih =>
    cases l with
    | nil => simp [piecesFuel]
    | cons x xs =>
      rw [piecesFuel, List.length_cons]
      · cases k with
        | zero => simp at h
        | succ k =>
          refine Nat.succ_le_succ (ih _ ?_)
          rw [List.length_drop]
          rw [Nat.succ_mul] at h
          omega
      · exact List.cons_ne_nil _ _

theorem flatten_pieces {α : Type} {n : Nat} (hn : 0 < n) (l : List α) : (pieces n l).flatten = l :=
  flatten_piecesFuel hn _ l le_rfl

theorem length_pieces_le {α : Type} {n k : Nat} {l : List α} (h : l.length ≤ k * n) : (pieces n l).length ≤ k :=
  length_piecesFuel_le _ l h

/-! ## Converted rows -/

theorem length_convertBlock (f : Fmt) (g : Int) (xs : List (FVal × Rounding)) : (f.convertBlock g xs).2.length = xs.length := by
  unfold Fmt.convertBlock
  split <;> exact List.length_map _

theorem length_convertRow (f : Nat) (g : Int) (xs : List (FVal × Rounding)) : (convertRow f g xs).codes.length = xs.length := by
  unfold convertRow
  split
  · conv_rhs => rw [← flatten_pieces (n := 32) (by decide) xs]
    simp [List.length_flatMap, List.length_flatten, List.map_map, Function.comp_def, length_convertBlock]
  · simp

/-- A row of at most 64 elements has at most two scales, and none in a format without block scales (R55). -/
theorem length_convertRow_scales {f : Nat} {xs : List (FVal × Rounding)} (g : Int) (h : xs.length ≤ 64) :
    (convertRow f g xs).scales.length ≤ if blockScaled f then 2 else 0 := by
  unfold convertRow
  split
  · simpa using length_pieces_le (n := 32) h
  · simp

/-- Converted rows are no more and no longer than a shape has, with two scales at most and none where the place's format has
none. -/
def ConvertedFit (p : Place) (sh : Shape) (rows : List Converted) : Prop :=
  rows.length ≤ storedRows sh ∧
  ∀ r ∈ rows, r.codes.length ≤ rowElems sh ∧ r.scales.length ≤ if blockScaled p.fmt then 2 else 0

theorem ConvertedFit.codes {p : Place} {sh : Shape} {rows : List Converted} (h : ConvertedFit p sh rows) :
    RowsFit sh (rows.map (·.codes)) :=
  ⟨by simpa using h.1, List.forall_mem_map.2 fun r hr => (h.2 r hr).1⟩

theorem convertedFit_map {α : Type} {p : Place} {sh : Shape} {l : List α} {k : α → Converted} (hl : l.length ≤ storedRows sh)
    (hk : ∀ x ∈ l, (k x).codes.length ≤ rowElems sh ∧ (k x).scales.length ≤ if blockScaled p.fmt then 2 else 0) :
    ConvertedFit p sh (l.map k) :=
  ⟨by simpa using hl, List.forall_mem_map.2 hk⟩

theorem byteAt_putConverted_outside {p : Place} {sh : Shape} {rows : List Converted} {y : Nat} (hf : ConvertedFit p sh rows)
    (hy : Outside (p.shapeLines sh) y) (bin : SMap Byte) : byteAt (p.putConverted bin sh rows) y = byteAt bin y := by
  unfold Place.putConverted
  refine List.foldlRecOn (motive := fun m => byteAt m y = byteAt bin y) _ _ (byteAt_putRows_outside hf.codes hy bin)
    fun m hm r hr => List.foldlRecOn (motive := fun m => byteAt m y = byteAt bin y) _ _ hm fun m hm k hk => ?_
  have hr' := List.mem_zipIdx' hr
  have hk' := (List.mem_zipIdx' hk).1
  have hlen := (hf.2 r.1 (hr'.2 ▸ List.getElem_mem _)).2
  have hlt : r.2 < storedRows sh := hr'.1.trans_le hf.1
  split at hlen
  · rename_i hb
    rw [byteAt_sput, if_neg (scaleAddr_ne (by omega) ((outside_row hlt hy).2 hb)), hm]
  · omega

end Sys2Proof.Laws
end


section
/-! The vector instructions of two sources: VADD, VMUL, VMIN, VMAX and VCMP. -/

namespace Sys2Proof.Laws

set_option Elab.async false

open Sys2Proof Sys2Proof.Machine Sys2Proof.Safety

/-! ## Instructions that compute elements -/

/-- A vector instruction that names what it touches has its destination in its half, and writes its lines. -/
theorem vecTouch_dest {d : VOp} {df : Nat} {srcs : List (VOp × Nat)} {extra : List Nat → Option (List Nat)} {c : Ctx} {s : State}
    {rd wr : List Nat} (h : vecTouch d df srcs extra c s = some (rd, wr)) :
    ∃ p, vplace c d true df = some p ∧ wr = p.shapeLines d.shape := by
  simp only [vecTouch, vlines, Option.bind_eq_bind, Option.bind_eq_some_iff, Option.some.injEq, Prod.mk.injEq,
    Option.ite_none_right_eq_some] at h
  obtain ⟨-, -, -, ⟨p, hp, -, rfl⟩, -, -, -, rfl⟩ := h
  exact ⟨p, hp, rfl⟩

theorem vplace_fmt {c : Ctx} {v : VOp} {write : Bool} {f : Nat} {p : Place} (h : vplace c v write f = some p) : p.fmt = f := by
  simp only [vplace, place, Option.map_eq_some_iff] at h
  obtain ⟨b, -, rfl⟩ := h
  rfl

/-- The words of a destination are the stored rows of the elements computed. -/
theorem wordRows_eq (sh : Shape) (g : Nat → Nat → Elem) :
    wordRows sh g = (buildRows sh g).map (fun r => r.map (·.w.toNat)) := by
  cases sh <;> simp [wordRows, buildRows, Function.comp_def]

/-- An instruction that issues and writes computed elements has written them, and nothing else of the tile's data. -/
theorem wrote_writeElems {s : State} {t : Nat} {i : Instr} {c : Ctx} {rd wr : List Nat} {eff : Ctx → State → State} {d : VOp}
    {srcs : List (VOp × Nat)} {extra : List Nat → Option (List Nat)} {g : Nat → Nat → Elem} (hi : Issues s t i c rd wr)
    (ht : touchOf i = vecTouch d 7 srcs extra) (hv : vecTouch d 7 srcs extra c s = some (rd, wr)) (hm : isMove i = false)
    (he : eff c s = writeElems c d g s) : Wrote c i d g wr s (runOp t i eff s) := by
  obtain ⟨p, hp, rfl⟩ := vecTouch_dest hv
  rw [writeElems, hp] at he
  obtain ⟨hbin, hacc, htal, hpass, hframe⟩ :=
    runOp_report (sc := scaling s c.w c.p.img 31) hi (ht ▸ hv) hm he rfl rfl
  rw [← wordRows_eq] at hbin
  refine ⟨fun p' hp' => ?_, fun y hy => ?_, hacc, htal, hpass, hframe⟩
  · obtain rfl : p = p' := Option.some.inj (hp.symm.trans hp')
    exact hbin
  · rw [hbin]
    exact byteAt_putRows_outside (rowsFit_buildRows _ _) hy _

/-- A two-source instruction that the dispatcher hands its element function computes by it. -/
theorem twoSource_v2Op {t : Nat} {i : Instr} {f : V2F} {g : Word → Word → Elem} (hx : ∀ s, exec i s = .next (v2Op t i f g s))
    (ht : touchOf i = v2Touch f) (hm : isMove i = false) : TwoSource i t f g :=
  fun s _ _ _ hi hv => ⟨_, hx s, wrote_writeElems hi ht hv hm rfl⟩

/-! ## The statement -/

/-- Settles O7: each of the five is the two-source instruction of its element function. -/
theorem vectorSumsProductsAndMasks : Obligations.VectorSumsProductsAndMasks := by
  refine ⟨fun t f => ?_, fun t f => ?_, fun t f => ?_, fun t f => ?_, fun t f => ?_⟩ <;>
    exact twoSource_v2Op (fun _ => rfl) rfl rfl

end Sys2Proof.Laws
end


section
/-! SUPPORT. What a VCVT writes whose operands have one shape, as those of every VCVT that a furrow word spells have (R100). -/

namespace Sys2Proof.Laws

set_option Elab.async false

open Sys2Proof Sys2Proof.Machine Sys2Proof.Safety

theorem vcvtSource_fit (f : VcvtF) (c : Ctx) (s : State) :
    (vcvtSource f c s).length ≤ storedRows f.a.shape ∧ ∀ r ∈ vcvtSource f c s, r.length ≤ rowElems f.a.shape := by
  unfold vcvtSource
  split
  · simp
  · refine ⟨by simp [Place.rows], fun r hr => ?_⟩
    obtain ⟨x, hx, rfl⟩ := List.mem_map.1 hr
    have hrow : x.1 ∈ Place.rows _ _ _ := (List.mem_zipIdx' hx).2 ▸ List.getElem_mem _
    obtain ⟨k, -, hk⟩ := List.mem_map.1 hrow
    simp [← hk, Place.codes, unpack]

theorem vcvtRows_fit {f : VcvtF} {c : Ctx} {p : Place} (sc : Scaling) (s : State) (hs : f.a.shape = f.d.shape)
    (hp : p.fmt = (vcvtFmts f).2) : ConvertedFit p f.d.shape (vcvtRows f c sc s) := by
  obtain ⟨hlen, hrow⟩ := vcvtSource_fit f c s
  rw [hs] at hlen hrow
  have h64 : rowElems f.d.shape ≤ 64 := by cases f.d.shape <;> decide
  unfold vcvtRows
  cases hform : f.form with
  | plain =>
    rw [show (vcvtFmts f).2 = f.dstFmt by simp [vcvtFmts, hform]] at hp
    refine convertedFit_map (by simpa using hlen) fun x hx => ?_
    have hx' := hrow x.1 ((List.mem_zipIdx' hx).2 ▸ List.getElem_mem _)
    rw [hp]
    exact ⟨by simpa [length_convertRow] using hx', length_convertRow_scales _ (by simpa using hx'.trans h64)⟩
  | field => exact convertedFit_map hlen fun r hr => ⟨by simpa using hrow r hr, Nat.zero_le _⟩
  | code => exact convertedFit_map hlen fun r hr => ⟨by simpa using hrow r hr, Nat.zero_le _⟩

/-- The scaling enters the plain form alone (R62). -/
theorem vcvtRows_unscaled {f : VcvtF} (h : f.form ≠ .plain) (c : Ctx) (sc sc' : Scaling) (s : State) :
    vcvtRows f c sc s = vcvtRows f c sc' s := by
  unfold vcvtRows
  cases hform : f.form with
  | plain => exact absurd hform h
  | field => rfl
  | code => rfl

/-- What a VCVT does to its tile's bin and reports, its scaling that of its form (R62, R100). -/
theorem vcvtEff_report {f : VcvtF} {c : Ctx} {p : Place} (hp : vplace c f.d true (vcvtFmts f).2 = some p) (s : State) :
    ∃ n : Counted, n.layer = (scaling s c.w c.p.img f.gref).layer ∧ n.role = (scaling s c.w c.p.img f.gref).role ∧
      vcvtEff f c s = report c n
        (s.setBin c.t (p.putConverted (s.tile c.t).bin f.d.shape (vcvtRows f c (scaling s c.w c.p.img f.gref) s))) := by
  unfold vcvtEff
  rw [hp]
  by_cases hf : f.form = .plain
  · simp only [if_pos hf]
    exact ⟨_, rfl, rfl, rfl⟩
  · simp only [if_neg hf]
    rw [vcvtRows_unscaled hf c _ (scaling s c.w c.p.img f.gref) s]
    exact ⟨_, rfl, rfl, rfl⟩

/-- A VCVT whose operands have one shape converts: the destination holds the converted rows, and every other bin byte, the banks and
the tallies are as before. -/
theorem answers_vcvt {s : State} {t : Nat} {f : VcvtF} {c : Ctx} {rd wr : List Nat} {p : Place}
    (hi : Issues s t (.vcvt t f) c rd wr) (ht : touchOf (.vcvt t f) c s = some (rd, wr))
    (hp : vplace c f.d true (vcvtFmts f).2 = some p) (hs : f.a.shape = f.d.shape) :
    let sc := scaling s c.w c.p.img f.gref
    Answers (.vcvt t f) s (fun u =>
      (u.tile t).bin = p.putConverted (s.tile t).bin f.d.shape (vcvtRows f c sc s) ∧
      BinKept s u t wr ∧ (u.tile t).acc = (s.tile t).acc ∧ (u.tile t).tallies = (s.tile t).tallies ∧
      PassAt c (.vcvt t f) s u ∧ CountFrame c sc s u) := by
  obtain ⟨rfl, -⟩ := present_ctx hi.1
  obtain ⟨n, hl, hr, he⟩ := vcvtEff_report hp s
  obtain ⟨hbin, hacc, htal, hpass, hframe⟩ := runOp_report hi ht rfl he hl hr
  obtain ⟨p', hp', rfl⟩ := vecTouch_dest (s := s) ht
  obtain rfl : p = p' := Option.some.inj (hp.symm.trans hp')
  refine ⟨_, rfl, hbin, fun y hy => ?_, hacc, htal, hpass, hframe⟩
  rw [vcvtOp, hbin]
  exact byteAt_putConverted_outside (vcvtRows_fit _ s hs (vplace_fmt hp)) hy _

/-- Both operands of a VCVT that a furrow word spells take the word's one shape field (R120). -/
theorem decodeFurrow_vcvt {t w t' : Nat} {f : VcvtF} (h : decodeFurrow t w = some (.vcvt t' f)) : f.a.shape = f.d.shape := by
  unfold decodeFurrow at h
  split at h
  · unfold decodeArray at h
    split at h <;> simp [keepIf] at h
  · unfold decodeVector at h
    split at h <;> simp [keepIf, Option.bind_eq_some_iff] at h
    obtain ⟨-, -, -, -, rfl⟩ := h
    rfl
  · unfold decodeMove at h
    split at h <;> simp [keepIf] at h
  · unfold decodeControl at h
    split at h <;> simp [keepIf] at h

end Sys2Proof.Laws
end


section
/-! VCVT with a source larger than its destination: its rows run past the destination's lines, so that a statement by which every
other bin byte is as before fails there. -/

namespace Sys2Proof.Laws

set_option Elab.async false

open Sys2Proof Sys2Proof.Machine Sys2Proof.Safety

/-- A VCVT in the FIELD form of a row of buffer 0 into one element of buffer 1. -/
def rowToOneCvt : VcvtF :=
  { d := { ref := { buf := 1, off := 0 }, shape := .one }, a := { ref := { buf := 0, off := 0 }, shape := .row }, form := .field,
    srcFmt := 7, dstFmt := 7, sr := false, srSeq := 0, gref := 31, measure := false }

/-- A single buffer of FP32 that is four lines wide and one deep, in the four banks from an address. -/
def rowBuffer (base : Nat) : BufEntry :=
  { h0 := base, h1 := base, double := false, fmt := 7, width := 4, depth := 1, index := 0, stride := 0, scale := 0, gauge := 0 }

/-- A pass of an image with two such buffers. -/
def rowsPass : Pass := { barePass with img := { bareImage with bufs := [rowBuffer 0, rowBuffer 0x40] } }

/-- Its sequencer state with the VCVT dispatched into the vector queue (R111). -/
def cvtQueuedSeq : SeqState :=
  { sigQueuedSeq with queue := [{ pc := 0, loops := [], move := 0, instr := .vcvt 5 rowToOneCvt, held := [], gets := [],
                                  order := 0 }] }

/-- A module whose tile 5 presents the VCVT. Of its bin only byte 0xC040 is not 0: the first byte of the second line of the
destination's buffer, which no line of a ONE operand at 0x40 holds. -/
def besideOne : State :=
  { arrivedAtSig with
    gath := Gath.init, passes := [rowsPass],
    tiles := [(5, { Tile.init with seqs := [cvtQueuedSeq], running := some 0, bin := [(0xC040, 1#8)] })] }

theorem exec_vcvt (t : Nat) (f : VcvtF) (s : State) : exec (.vcvt t f) s = .next (vcvtOp t f s) := rfl

/-- The VCVT may issue there, and writes no line but the one at 0x40. -/
theorem besideOne_presents : (present besideOne 5 (.vcvt 5 rowToOneCvt)).any (fun c =>
    (touchOf (.vcvt 5 rowToOneCvt) c besideOne).any (fun x =>
      !besideOne.behindGet 5 c.earlier (x.1 ++ x.2) && c.free (.vcvt 5 rowToOneCvt) x.1 x.2 besideOne &&
      !besideOne.putPending 5 x.2 && x.2 == [0x40] && (vplace c rowToOneCvt.d true 7).isSome)) = true := by decide +kernel

theorem vcvtOp_clears_besideOne : ((vcvtOp 5 rowToOneCvt besideOne).tile 5).bin = [] := by decide +kernel

/-- Refutes O9: a VCVT in a tile's vector queue whose source is a ROW and whose destination is ONE writes all 64 elements of the
row, and the statement, which is about every state, has the bin outside the destination's one line stay as it was. Both operands
of a VCVT that a furrow word spells have one shape (`decodeFurrow_vcvt`), and for those it holds (`answers_vcvt`). -/
theorem not_vcvtConvertsByItsForm : ¬ Obligations.VcvtConvertsByItsForm := by
  intro h
  obtain ⟨c, hc, hx⟩ := (Option.any_eq_true ..).1 besideOne_presents
  obtain ⟨⟨rd, wr⟩, htouch, hx⟩ := (Option.any_eq_true ..).1 hx
  simp only [Bool.and_eq_true, Bool.not_eq_true', beq_iff_eq] at hx
  obtain ⟨⟨⟨⟨hget, hfree⟩, hput⟩, rfl⟩, hdest⟩ := hx
  obtain ⟨p, hp⟩ := Option.isSome_iff_exists.1 hdest
  obtain ⟨u, hu, -, hkept, -⟩ := h besideOne 5 rowToOneCvt c rd _ p ⟨hc, hget, hfree, hput⟩ htouch hp
  rw [exec_vcvt, Host.Outcome.next.injEq] at hu
  have hbyte := hkept 0xC040 (by decide)
  rw [← hu, vcvtOp_clears_besideOne] at hbyte
  exact absurd hbyte (by decide)

end Sys2Proof.Laws
end


section
/-! SUPPORT. What reading memory leaves as it was: the controllers' counters, events and records of errors may change, and only
with device errors the bytes (R180, R182, R186, R187, R189, R192). -/

namespace Sys2Proof.Laws

set_option Elab.async false

open Sys2Proof Sys2Proof.Machine Sys2Proof.Safety

/-! ## The frame -/

/-- What work at the controllers may change: the memory, registers and events, a fault that it latches, the Steward's record of
retired pseudo-channels, and the harvest whose blocks it copies first. -/
def MemFrame (s u : State) : Prop :=
  u = { s with regs := u.regs, evt := u.evt, emitted := u.emitted, memory := u.memory, stw := u.stw,
               hrv := { s.hrv with op := u.hrv.op },
               host := { s.host with msix := u.host.msix, msixHeld := u.host.msixHeld } }

/-- Work at the controllers, from s to u. -/
structure MemWork (s u : State) : Prop where
  frame : MemFrame s u
  emitted : s.emitted ⊆ u.emitted

theorem MemWork.refl (s : State) : MemWork s s := ⟨rfl, List.Subset.refl _⟩

theorem MemWork.trans {s u v : State} (h : MemWork s u) (k : MemWork u v) : MemWork s v where
  frame := by
    have hf := h.frame
    have kf := k.frame
    unfold MemFrame at *
    rw [kf, hf]
  emitted := List.Subset.trans h.emitted k.emitted

theorem MemWork.ofEvent {s u : State} (h : EventFrame s u) (k : KeepsPosts s u) : MemWork s u where
  frame := by
    unfold EventFrame at h
    rw [h]
    rfl
  emitted := k.emitted

theorem MemWork.raise (c : EventCode) (i : Nat) (d : BitVec 128) (s : State) : MemWork s (raiseEvent c i d s) :=
  .ofEvent (raiseEvent_frame _ _ _ _) (raiseEvent_posts _ _ _ _)

theorem MemWork.each {β : Type} (l : List β) (f : β → State → State) (s : State) (hf : ∀ x u, MemWork u (f x u)) :
    MemWork s (each l f s) := each_keeps (MemWork s) l f s (.refl s) fun x u hu => hu.trans (hf x u)

theorem MemWork.posts {s u : State} (h : MemWork s u) : KeepsPosts s u :=
  .of_emitted h.emitted (by rw [h.frame])

section
variable {s u : State} (h : MemWork s u)
include h

theorem MemWork.steps : u.steps = s.steps := by rw [h.frame]
theorem MemWork.fab : u.fab = s.fab := by rw [h.frame]
theorem MemWork.sync : u.sync = s.sync := by rw [h.frame]
theorem MemWork.tiles : u.tiles = s.tiles := by rw [h.frame]
theorem MemWork.passes : u.passes = s.passes := by rw [h.frame]
theorem MemWork.inflight : u.host.inflight = s.host.inflight := by rw [h.frame]
theorem MemWork.gotBlocks : u.hrv.gotBlocks = s.hrv.gotBlocks := by rw [h.frame]
theorem MemWork.gotSide : u.hrv.gotSide = s.hrv.gotSide := by rw [h.frame]

end

/-! ## The registers of a read -/

/-- The registers that a read may write: the controllers' counts of corrections and detected lines, and those of events. -/
def readRegs : List Reg :=
  eventRegs ++
  (List.range 12).flatMap (fun p => [⟨.memStkDet, p, 0⟩, ⟨.memStkLastdet, p, 0⟩, ⟨.memStkCorr, p, 0⟩]) ++
  (List.range 12).flatMap (fun p => (List.range 64).flatMap (fun e => [⟨.memRangeDet, p, e⟩, ⟨.memRangeCorr, p, e⟩])) ++
  (List.range 12).flatMap (fun p => (List.range 32).map (fun q => ⟨.memPcCorr, p, q⟩)) ++
  (List.range 16).flatMap (fun p => [⟨.memPkgDet, p, 0⟩, ⟨.memPkgLastdet, p, 0⟩, ⟨.memPkgCorr, p, 0⟩])

theorem stack_mem_readRegs {p : Nat} (hp : p < 12) :
    ⟨.memStkDet, p, 0⟩ ∈ readRegs ∧ ⟨.memStkLastdet, p, 0⟩ ∈ readRegs ∧ ⟨.memStkCorr, p, 0⟩ ∈ readRegs := by
  simp [readRegs, hp]

theorem range_mem_readRegs {p e : Nat} (hp : p < 12) (he : e < 64) :
    ⟨.memRangeDet, p, e⟩ ∈ readRegs ∧ ⟨.memRangeCorr, p, e⟩ ∈ readRegs := by
  simp [readRegs, hp, he]

theorem channel_mem_readRegs {p q : Nat} (hp : p < 12) (hq : q < 32) : ⟨.memPcCorr, p, q⟩ ∈ readRegs := by
  simp [readRegs, hp, hq]

theorem package_mem_readRegs {p : Nat} (hp : p < 16) :
    ⟨.memPkgDet, p, 0⟩ ∈ readRegs ∧ ⟨.memPkgLastdet, p, 0⟩ ∈ readRegs ∧ ⟨.memPkgCorr, p, 0⟩ ∈ readRegs := by
  simp [readRegs, hp]

/-- Where the registers of a read stand: the events' far above, the controllers' in their area, and among the range tables at no
multiple of 16, where the entries themselves stand. -/
theorem offset_readRegs {o : Nat} (h : o ∈ readRegs.map Reg.offset) :
    0x800000 ≤ o ∨ o < 0x250000 ∧ (0x220000 ≤ o → o < 0x240000 → o % 16 ≠ 0) := by
  obtain ⟨r, hr, rfl⟩ := List.mem_map.1 h
  simp only [readRegs, eventRegs, recordRegs, List.mem_append, List.mem_flatMap, List.mem_map, List.mem_range, List.mem_cons,
    List.not_mem_nil, or_false] at hr
  rcases hr with ((((rfl | rfl | rfl) | ⟨p, hp, rfl | rfl | rfl⟩) | ⟨p, hp, e, he, rfl | rfl⟩) | ⟨p, hp, q, hq, rfl⟩) |
    ⟨p, hp, rfl | rfl | rfl⟩ <;>
  · simp only [Reg.offset, RegName.row, row0, row1, row2]
    omega

/-- Neither the step unit's registers nor the range tables are among them. -/
theorem rg_readRegs {s u : State} (h : RegsKept s u readRegs) (n : RegName) (i j : Nat)
    (hn : 0x250000 ≤ Reg.offset ⟨n, i, j⟩ ∧ Reg.offset ⟨n, i, j⟩ < 0x800000 ∨
      0x220000 ≤ Reg.offset ⟨n, i, j⟩ ∧ Reg.offset ⟨n, i, j⟩ < 0x240000 ∧ Reg.offset ⟨n, i, j⟩ % 16 = 0) :
    u.rg n i j = s.rg n i j :=
  rg_regsKept h n i j fun hm => by
    have := offset_readRegs hm
    omega

/-! ## Reads -/

/-- A read from s to u. -/
structure ReadWork (s u : State) : Prop extends MemWork s u where
  regs : RegsKept s u readRegs

theorem ReadWork.refl (s : State) : ReadWork s s := ⟨.refl s, regsKept_of_eq rfl _⟩

theorem ReadWork.trans {s u v : State} (h : ReadWork s u) (k : ReadWork u v) : ReadWork s v :=
  ⟨h.toMemWork.trans k.toMemWork, regsKept_trans h.regs k.regs⟩

theorem ReadWork.each {β : Type} (l : List β) (f : β → State → State) (s : State) (hf : ∀ x u, ReadWork u (f x u)) :
    ReadWork s (each l f s) := each_keeps (ReadWork s) l f s (.refl s) fun x u hu => hu.trans (hf x u)

/-- A change of what the registers are no part of. -/
theorem ReadWork.of_regs {s u : State} (hf : MemFrame s u) (he : u.emitted = s.emitted) (hr : u.regs = s.regs) : ReadWork s u :=
  ⟨⟨hf, he ▸ List.Subset.refl _⟩, regsKept_of_eq hr _⟩

theorem ReadWork.setRg {n : RegName} {i j : Nat} (h : ⟨n, i, j⟩ ∈ readRegs) (v : Nat) (s : State) :
    ReadWork s (s.setRg n v i j) :=
  ⟨⟨rfl, List.Subset.refl _⟩, regsKept_mono (regsKept_setRg s n v i j) (by simpa using h)⟩

theorem ReadWork.raise (c : EventCode) (i : Nat) (d : BitVec 128) (s : State) : ReadWork s (raiseEvent c i d s) :=
  ⟨.raise c i d s, regsKept_mono (raiseEvent_regs c i d s) (by simp [readRegs])⟩

theorem ReadWork.ite {s u v : State} {c : Prop} [Decidable c] (h : c → ReadWork s u) (k : ¬ c → ReadWork s v) :
    ReadWork s (if c then u else v) := by
  split
  · exact h ‹_›
  · exact k ‹_›

/-- The windows are those of 12 stacks and 16 packages (R175). -/
theorem mpaWindow_lt {a p off : Nat} (h : mpaWindow a = some (p, off)) : p < 28 := by
  unfold mpaWindow at h
  split at h
  · simp only [Option.some.injEq, Prod.mk.injEq] at h
    omega
  · split at h
    · next hb =>
      simp only [Bool.and_eq_true, decide_eq_true_eq] at hb
      simp only [Option.some.injEq, Prod.mk.injEq] at h
      omega
    · contradiction

/-- A range table has 64 entries. -/
theorem rangeAt_lt {s : State} {k off e : Nat} (h : s.rangeAt k off = some e) : e < 64 :=
  List.mem_range.1 (List.mem_of_find?_eq_some h)

theorem pcNew_lt (r g : Nat) : pcNew r g < 32 := by
  unfold pcNew
  extract_lets surv
  cases h : surv[(g % 31 + g / 31 % 31) % 31]? with
  | none => simp
  | some x => exact List.mem_range.1 (List.mem_of_mem_filter (List.mem_of_getElem? h))

/-- A stack has 32 pseudo-channels (R177). -/
theorem channel_lt {s : State} {p off : Nat} (hp : p < 12) : s.channel p off < 32 := by
  have hold : (placeOld off).1 < 32 := Nat.mod_lt _ (by decide)
  unfold State.channel State.place
  rw [if_neg (by omega)]
  simp only
  split
  · split
    · exact pcNew_lt _ _
    · exact hold
  · exact hold

theorem readWork_reportDetected (l reader step : Nat) (s : State) : ReadWork s (reportDetected l reader step s) := by
  unfold reportDetected
  split
  · exact .refl s
  · next p off hw =>
    have hp := mpaWindow_lt hw
    extract_lets s1 s2
    have h1 : ReadWork s s1 := .ite (fun h => .trans (.setRg (stack_mem_readRegs h).1 _ _) (.setRg (stack_mem_readRegs h).2.1 _ _))
      fun h => .trans (.setRg (package_mem_readRegs (by omega)).1 _ _) (.setRg (package_mem_readRegs (by omega)).2.1 _ _)
    have h2 : ReadWork s1 s2 := .ite (fun h => by
      split
      · next e he => exact .setRg (range_mem_readRegs h (rangeAt_lt he)).1 _ _
      · exact .refl _) fun _ => .refl _
    exact (h1.trans h2).trans (.raise _ _ _ _)

theorem readWork_latchFault (c : FaultCause) (s : State) : ReadWork s (latchFault c s) :=
  .ite (fun _ => .of_regs rfl rfl rfl) fun _ => .refl s

theorem readWork_setDev (p : Nat) (d : Device) (s : State) : ReadWork s (s.setDev p d) := .of_regs rfl rfl rfl

theorem readWork_retirePc (k pc cause : Nat) (failed : Bool) (s : State) : ReadWork s (retirePc k pc cause failed s) := by
  unfold retirePc
  extract_lets d s1 w nv s2
  split
  · exact .ite (fun _ => .refl s) fun _ => (readWork_setDev _ _ s).trans (readWork_latchFault _ _)
  · have h2 : ReadWork s1 s2 := .of_regs rfl rfl rfl
    exact ((readWork_setDev _ _ s).trans h2).trans (.raise _ _ _ _)

theorem readWork_reportCorrected (p l : Nat) (s : State) : ReadWork s (reportCorrected p l s) :=
  .ite (fun _ => (readWork_setDev _ _ s).trans (.raise _ _ _ _)) fun _ => readWork_setDev _ _ s

theorem readWork_countPcCorr {k pc : Nat} (hk : k < 12) (hpc : pc < 32) (s : State) : ReadWork s (countPcCorr k pc s) := by
  have hwin (u : State) : ReadWork u (each (List.range 32) (fun q s => s.setRg .memPcCorr 0 k q) u) :=
    List.foldlRecOn _ _ (.refl u) fun v hv q hq => hv.trans (.setRg (channel_mem_readRegs hk (List.mem_range.1 hq)) _ _)
  unfold countPcCorr
  extract_lets w s1 s2 thr
  have h1 : ReadWork s s1 := .ite (fun _ => .refl s) fun _ => (hwin s).trans (readWork_setDev _ _ _)
  have h2 : ReadWork s1 s2 := .setRg (channel_mem_readRegs hk hpc) _ _
  exact (h1.trans h2).trans (.ite (fun _ => readWork_retirePc _ _ _ _ _) fun _ => .refl _)

theorem readWork_countCorrected (l : Nat) (s : State) : ReadWork s (countCorrected l s) := by
  unfold countCorrected
  split
  · next p off hw =>
    have hp := mpaWindow_lt hw
    extract_lets s1 s2 s3
    have h1 : ReadWork s s1 := .ite (fun h => .setRg (stack_mem_readRegs h).2.2 _ _)
      fun h => .setRg (package_mem_readRegs (by omega)).2.2 _ _
    have h2 : ReadWork s1 s2 := .ite (fun h => by
      split
      · next e he => exact .setRg (range_mem_readRegs h (rangeAt_lt he)).2 _ _
      · exact .refl _) fun _ => .refl _
    have h3 : ReadWork s2 s3 := readWork_reportCorrected _ _ _
    exact ((h1.trans h2).trans h3).trans (.ite (fun h => readWork_countPcCorr h (channel_lt h) _) fun _ => .refl _)
  · exact .refl s

theorem readWork_alterLine (l : Nat) (es : List (Nat × BitVec 16)) (s : State) : ReadWork s (alterLine l es s) :=
  .of_regs rfl rfl rfl

/-- A line's device errors are met: they no longer stand in the list. -/
def errorsMet (l : Nat) (s : State) : State := { s with memory := { s.memory with errs := serase s.memory.errs l } }

theorem meetErrors_eq (l : Nat) (s : State) :
    meetErrors l s = match decodeErrors ((errorsMet l s).mpaClass l) (sget [] s.memory.errs l) with
      | .clean => errorsMet l s
      | .corrected => countCorrected l (errorsMet l s)
      | .miscorrected w => countCorrected l (alterLine l w (errorsMet l s))
      | .unseen w => alterLine l w (errorsMet l s)
      | .detected w => markDetected l (alterLine l w (errorsMet l s)) := rfl

theorem readWork_meetErrors (l : Nat) (s : State) : ReadWork s (meetErrors l s) := by
  have h : ReadWork s (errorsMet l s) := .of_regs rfl rfl rfl
  refine h.trans ?_
  rw [meetErrors_eq]
  split
  · exact .refl _
  · exact readWork_countCorrected _ _
  · exact (readWork_alterLine _ _ _).trans (readWork_countCorrected _ _)
  · exact readWork_alterLine _ _ _
  · exact (readWork_alterLine _ _ _).trans (.of_regs rfl rfl rfl)

theorem readWork_wakeDev (a n : Nat) (s : State) : ReadWork s (wakeDev a n s) := by
  unfold wakeDev
  split
  · exact .ite (fun _ => readWork_setDev _ _ s) fun _ => .refl s
  · exact .refl s

theorem readWork_noteRead (a n reader step : Nat) (s : State) : ReadWork s (noteRead a n reader step s) := by
  unfold noteRead meetLines
  exact (readWork_wakeDev a n s).trans
    ((ReadWork.each _ _ _ readWork_meetErrors).trans (.each _ _ _ fun l u => readWork_reportDetected l reader step u))

/-! ## Reads of a memory without device errors -/

/-- Where the bytes of memory lie and what they are stays: no byte, class or failed pseudo-channel changes. -/
structure SameBytes (s u : State) : Prop where
  mem : u.memory.mem = s.memory.mem
  errs : u.memory.errs = s.memory.errs
  failed : ∀ a, u.onFailedPc a = s.onFailedPc a
  cls : ∀ a, u.mpaClass a = s.mpaClass a

theorem SameBytes.refl (s : State) : SameBytes s s := ⟨rfl, rfl, fun _ => rfl, fun _ => rfl⟩

theorem SameBytes.trans {s u v : State} (h : SameBytes s u) (k : SameBytes u v) : SameBytes s v :=
  ⟨k.mem.trans h.mem, k.errs.trans h.errs, fun a => (k.failed a).trans (h.failed a), fun a => (k.cls a).trans (h.cls a)⟩

theorem SameBytes.memNum {s u : State} (h : SameBytes s u) (a n : Nat) : u.memNum a n = s.memNum a n := by
  have hb : u.byte = s.byte := funext fun x => by rw [State.byte, State.byte, h.mem, h.failed, h.cls]
  simp only [State.memNum, State.memBytes, hb]

/-- The range tables stand apart from what a read counts. -/
theorem ReadWork.rangeAt {s u : State} (h : ReadWork s u) {p : Nat} (hp : p < 12) (off : Nat) :
    (∀ e < 64, u.range p e = s.range p e) ∧ u.rangeAt p off = s.rangeAt p off := by
  have hr : ∀ e < 64, u.range p e = s.range p e := fun e he => by
    have := rg_readRegs h.regs .memRangeCfg p e (.inr (by simp only [Reg.offset, RegName.row, row2]; omega))
    simp only [State.range, State.rgBits, State.rgBit, this]
  exact ⟨hr, List.find?_congr fun e he => by simp only [hr e (List.mem_range.1 he)]⟩

theorem ReadWork.mpaClass {s u : State} (h : ReadWork s u) (a : Nat) : u.mpaClass a = s.mpaClass a := by
  unfold State.mpaClass
  split
  · next p off _ =>
    split
    · rfl
    · next hp =>
      obtain ⟨hr, ha⟩ := h.rangeAt (p := p) (by omega) off
      rw [ha]
      split
      · next e he => rw [hr e (rangeAt_lt he)]
      · rfl
  · rfl

/-- The parts of a memory's state that say which of its pseudo-channels failed and where its bytes lie. -/
def deviceLayout (d : Device) : Bool × Option Nat × Resow × Nat := (d.retiredFailed, d.retired, d.resow, d.wmark)

theorem onFailedPc_congr {s u : State} (h : ∀ p, deviceLayout (u.dev p) = deviceLayout (s.dev p)) (a : Nat) :
    u.onFailedPc a = s.onFailedPc a := by
  unfold State.onFailedPc
  split
  · next p off _ =>
    have hp := h p
    simp only [deviceLayout, Prod.mk.injEq] at hp
    obtain ⟨hf, hr, hs, hw⟩ := hp
    simp only [State.channel, State.place, hf, hr, hs, hw]
  · rfl

theorem wakeDev_dev (a n : Nat) (s : State) (p : Nat) : deviceLayout ((wakeDev a n s).dev p) = deviceLayout (s.dev p) := by
  unfold wakeDev
  split
  · next q _ _ =>
    simp only
    split
    · rw [dev_setDev]
      split
      · next h => rw [h]; rfl
      · rfl
    · rfl
  · rfl

theorem wakeDev_memory (a n : Nat) (s : State) :
    (wakeDev a n s).memory = { s.memory with dev := (wakeDev a n s).memory.dev } := by
  unfold wakeDev
  split
  · simp only
    split <;> rfl
  · rfl

theorem sameBytes_wakeDev (a n : Nat) (s : State) : SameBytes s (wakeDev a n s) where
  mem := by rw [wakeDev_memory]
  errs := by rw [wakeDev_memory]
  failed := onFailedPc_congr (wakeDev_dev a n s)
  cls := (readWork_wakeDev a n s).mpaClass

theorem reportDetected_memory (l reader step : Nat) (s : State) : (reportDetected l reader step s).memory = s.memory := by
  unfold reportDetected
  split
  · rfl
  · extract_lets s1 s2
    have h1 : s1.memory = s.memory := by unfold s1; split <;> rfl
    have h2 : s2.memory = s1.memory := by
      unfold s2
      split
      · split <;> rfl
      · rfl
    rw [raiseEvent_frame, h2, h1]

theorem sameBytes_reportDetected (l reader step : Nat) (s : State) : SameBytes s (reportDetected l reader step s) where
  mem := by rw [reportDetected_memory]
  errs := by rw [reportDetected_memory]
  failed := onFailedPc_congr fun p => by simp only [State.dev, reportDetected_memory]
  cls := (readWork_reportDetected l reader step s).mpaClass

/-- Without device errors a read changes no byte. -/
theorem sameBytes_noteRead (a n reader step : Nat) {s : State} (h : s.memory.errs = []) :
    SameBytes s (noteRead a n reader step s) := by
  have hw := sameBytes_wakeDev a n s
  have he : (wakeDev a n s).memory.errs = [] := hw.errs.trans h
  refine hw.trans ?_
  simp only [noteRead, meetLines, he, List.map_nil, List.filter_nil, each_nil]
  exact each_keeps (SameBytes _) _ _ _ (.refl _) fun l u hu => hu.trans (sameBytes_reportDetected l reader step u)

/-- Reads one after another. -/
theorem sameBytes_each_noteRead {β : Type} (l : List β) (a n : β → Nat) (reader : Nat) (step : State → Nat) {s : State}
    (h : s.memory.errs = []) : SameBytes s (each l (fun x s => noteRead (a x) (n x) reader (step s) s) s) :=
  each_keeps (SameBytes s) _ _ _ (.refl s) fun _ _ hu => hu.trans (sameBytes_noteRead _ _ _ _ (hu.errs.trans h))

end Sys2Proof.Laws
end


section
/-! SUPPORT. What writing memory leaves as it was, and, where no window, harvest, twin update or failed pseudo-channel takes part,
which bytes it stores (R148 to R153, R308, R330). -/

namespace Sys2Proof.Laws

set_option Elab.async false

open Sys2Proof Sys2Proof.Machine Sys2Proof.Safety

/-! ## The operations that store bytes -/

theorem MemWork.of_frame {s u : State} (h : MemFrame s u) (he : u.emitted = s.emitted) : MemWork s u :=
  ⟨h, he ▸ List.Subset.refl _⟩

theorem MemWork.ite {s u v : State} {c : Prop} [Decidable c] (h : MemWork s u) (k : MemWork s v) : MemWork s (if c then u else v) := by
  split <;> assumption

theorem memWork_setRg (n : RegName) (v i j : Nat) (s : State) : MemWork s (s.setRg n v i j) := .of_frame rfl rfl
theorem memWork_memPut (a : Nat) (b : List Byte) (s : State) : MemWork s (s.memPut a b) := .of_frame rfl rfl
theorem memWork_setAsm (l : List AsmBuf) (s : State) : MemWork s (s.setAsm l) := .of_frame rfl rfl
theorem memWork_updHarvest (f : HarvestOp → HarvestOp) (s : State) : MemWork s (updHarvest f s) := .of_frame rfl rfl

theorem memWork_memAddSat (a n k : Nat) (s : State) : MemWork s (s.memAddSat a n k) := .ite (.refl s) (memWork_memPut _ _ s)

theorem memWork_enginePut (a : Nat) (b : List Byte) (s : State) : MemWork s (enginePut a b s) := .ite (memWork_memPut a b s) (.refl s)

theorem memWork_noteRead (a n reader step : Nat) (s : State) : MemWork s (noteRead a n reader step s) :=
  (readWork_noteRead a n reader step s).toMemWork

theorem memWork_verifyFailed (dest op i : Nat) (got : Quad) (s : State) : MemWork s (verifyFailed dest op i got s) := by
  unfold verifyFailed
  exact ((memWork_setRg .hrvVerifyFails _ 0 0 s).trans (.raise _ _ _ _)).trans (.ite (memWork_updHarvest _ _) (.refl _))

theorem memWork_writeVerified (dest op i a : Nat) (b : List Byte) (s : State) : MemWork s (writeVerified dest op i a b s) := by
  have hput (u : State) : MemWork u (readBy 4 u.oldestStep a b.length (enginePut a b u)).2 :=
    (memWork_enginePut a b u).trans (memWork_noteRead _ _ _ _ _)
  unfold writeVerified
  refine (hput s).trans (.ite (.refl _) ?_)
  exact (hput _).trans (.ite (.refl _) (memWork_verifyFailed _ _ _ _ _))

theorem memWork_clearBlock (i : Nat) (s : State) : MemWork s (clearBlock i s) := memWork_memPut _ _ s

theorem memWork_copyBlock (i : Nat) (s : State) : MemWork s (copyBlock i s) := by
  unfold copyBlock
  split
  · exact .refl s
  · refine .trans ?_ (memWork_clearBlock _ _)
    refine .trans ?_ (memWork_setRg .hrvProgress _ 0 0 _)
    refine .trans ?_ (memWork_updHarvest _ _)
    exact (memWork_noteRead _ _ _ _ s).trans (memWork_writeVerified _ _ _ _ _ _)

theorem memWork_copyAheadOf (i : Nat) (s : State) : MemWork s (copyAheadOf i s) := .each _ _ s memWork_copyBlock

theorem memWork_copyFirst (a n : Nat) (s : State) : MemWork s (copyFirst a n s) := by
  unfold copyFirst
  split
  · refine .ite ((memWork_setRg .hrvHolds _ 0 0 s).trans (.each _ _ _ fun i u => ?_)) (.refl s)
    exact .ite (memWork_copyAheadOf i u) (.refl u)
  · exact .refl s

theorem memWork_foldWord (mirror : Bool) (area a : Nat) (s : State) : MemWork s (foldWord mirror area a s) := by
  unfold foldWord
  split
  · exact memWork_memPut _ _ s
  · exact .refl s

theorem memWork_foldRange (a n : Nat) (s : State) : MemWork s (foldRange a n s) := by
  unfold foldRange
  split
  · exact .ite (.each _ _ s fun w u => (memWork_foldWord _ _ _ u).trans (memWork_foldWord _ _ _ _)) (.refl s)
  · exact .refl s

theorem memWork_rawWrite (a : Nat) (b : List Byte) (s : State) : MemWork s (rawWrite a b s) :=
  ((memWork_copyFirst _ _ s).trans (memWork_memPut _ _ _)).trans (memWork_foldRange _ _ _)

theorem memWork_turnRow (x : Window) (b : AsmBuf) (n : Nat) (s : State) : MemWork s (b.turnRow x n s) :=
  .ite (memWork_memPut _ _ s) (.each _ _ s fun _ u => memWork_memPut _ _ u)

theorem memWork_spillBuf (b : AsmBuf) (s : State) : MemWork s (spillBuf b s) := by
  unfold spillBuf
  refine .trans ?_ (memWork_setAsm _ _)
  refine .trans ?_ (.each _ _ _ fun _ u => memWork_foldRange _ _ u)
  refine .trans ?_ (.each _ _ _ fun _ u => memWork_turnRow _ _ _ u)
  exact .each _ _ _ fun _ u => memWork_copyFirst _ _ u

theorem memWork_flushBuf (b : AsmBuf) (s : State) : MemWork s (flushBuf b s) :=
  (memWork_spillBuf b s).trans (memWork_setRg _ _ _ _ _)

theorem memWork_flushWriter (w : Nat) (s : State) : MemWork s (flushWriter w s) := .each _ _ s memWork_flushBuf

theorem memWork_takeBuf (k w i j writer : Nat) (s : State) : MemWork s (takeBuf k w i j writer s) := by
  unfold takeBuf
  extract_lets s1 mine s2 fresh
  have h1 : MemWork s s1 := by
    unfold s1
    split
    · exact .ite (.refl s) (memWork_flushBuf _ s)
    · exact .refl s
  refine h1.trans ?_
  split
  · exact .refl s1
  · refine .trans (u := s2) ?_ (memWork_setAsm _ s2)
    unfold s2
    clear_value mine
    cases mine with
    | nil => exact .refl s1
    | cons b l => exact .ite (memWork_flushBuf b s1) (.refl s1)

theorem memWork_addElement (k w writer : Nat) (ack : Option Nat) (el : Nat × Nat × Nat) (s : State) :
    MemWork s (addElement k w writer ack el s) := by
  unfold addElement
  extract_lets i j s1 s2
  have h2 : MemWork s s2 := (memWork_takeBuf k w i j writer s).trans (memWork_setAsm _ _)
  refine h2.trans ?_
  split
  · exact .ite ((memWork_spillBuf _ _).trans (memWork_setRg _ _ _ _ _)) (.refl s2)
  · exact .refl s2

theorem memWork_ctrlWriteLine (writer : Nat) (ack : Option Nat) (a : Nat) (b : List Byte) (s : State) :
    MemWork s (ctrlWriteLine writer ack a b s) := by
  refine (readWork_wakeDev a b.length s).toMemWork.trans ?_
  unfold ctrlWriteLine
  simp only
  split
  · exact (MemWork.ite (.refl _) (memWork_rawWrite _ _ _)).trans (.each _ _ _ fun e u => memWork_addElement _ _ _ _ _ u)
  · exact memWork_rawWrite _ _ _

theorem memWork_ctrlWrite (writer : Nat) (ack : Option Nat) (a : Nat) (b : List Byte) (s : State) :
    MemWork s (ctrlWrite writer ack a b s) := by
  unfold ctrlWrite
  generalize b.length / 64 + 2 = f
  fun_induction ctrlWriteFuel with
  | case1 a b s => exact .refl s
  | case2 f a s => exact .refl s
  | case3 f a b s hb n ih => exact (memWork_ctrlWriteLine writer ack a (b.take n) s).trans ih

theorem memWork_unitWrite (a : Nat) (b : List Byte) (s : State) : MemWork s (unitWrite a b s) :=
  .ite (memWork_ctrlWrite 0 none a b s) (.refl s)

theorem memWork_landBytes (id a : Nat) (data : List Byte) (mask : Nat) (s : State) : MemWork s (landBytes id a data mask s) := by
  unfold landBytes
  refine (memWork_ctrlWrite 0 (some id) a data s).trans (.each _ _ _ fun l u => .ite (.ite ?_ ?_) (.refl u))
  · exact memWork_memPut _ _ u
  · exact .of_frame rfl rfl

end Sys2Proof.Laws
end


section
/-! SUPPORT. Writing a memory in which no window, harvest, twin update or failed pseudo-channel takes part: the bytes are stored as
they come, and nothing else of the module changes (R150, R181, R187, R193). -/

namespace Sys2Proof.Laws

set_option Elab.async false

open Sys2Proof Sys2Proof.Machine Sys2Proof.Safety

/-! ## What keeps a memory plain -/

/-- None of some registers is a transposing window's, nor the mirror's configuration. -/
def ApartFromWrites (l : List Reg) : Prop :=
  ∀ r ∈ l, (r.offset < 0x260000 ∨ 0x26C000 ≤ r.offset) ∧ r.offset ≠ 0x600070

theorem windowAt_regsKept {s u : State} {l : List Reg} (h : RegsKept s u l) (hl : ApartFromWrites l) (a : Nat) :
    u.windowAt a = s.windowAt a := by
  have hrg (n : RegName) (i j : Nat) (ho : 0x260000 ≤ Reg.offset ⟨n, i, j⟩ ∧ Reg.offset ⟨n, i, j⟩ < 0x26C000) :
      u.rg n i j = s.rg n i j := rg_regsKept h n i j fun hm => by
    obtain ⟨r, hr, hro⟩ := List.mem_map.1 hm
    have := (hl r hr).1
    omega
  unfold State.windowAt
  split
  · next k _ _ =>
    split
    · rfl
    · next hk =>
      have hx : ∀ w < 64, u.xwin k w = s.xwin k w := fun w hw => by
        unfold State.xwin State.rgBit State.rgBits
        rw [hrg .memXpwRowbase, hrg .memXpwColbase, hrg .memXpwGeom, hrg .memXpwPitch, hrg .memXpwCtl] <;>
        · simp only [Reg.offset, RegName.row, row2]
          omega
      refine congrArg _ (List.find?_congr fun w hw => ?_)
      simp only [hx w (List.mem_range.1 hw)]
  · rfl

/-- A change that leaves the layout of the memories, the buffers and the harvest alone, and such registers, keeps a memory plain. -/
theorem plainMemory_of {s u : State} {l : List Reg} (h : PlainMemory s) (hr : RegsKept s u l) (hl : ApartFromWrites l)
    (hd : ∀ p, deviceLayout (u.dev p) = deviceLayout (s.dev p)) (ha : u.memory.asm = s.memory.asm)
    (he : u.memory.errs = [] ∨ u.memory.errs = s.memory.errs) (ho : u.hrv.op = s.hrv.op) : PlainMemory u := by
  obtain ⟨hwin, hpc, hop, hmir, hasm, herr⟩ := h
  refine ⟨fun a => (windowAt_regsKept hr hl a).trans (hwin a), fun a => (onFailedPc_congr hd a).trans (hpc a), ho.trans hop, ?_,
    ha.trans hasm, he.elim id (·.trans herr)⟩
  have hm : u.rg .stpMirrorCfg = s.rg .stpMirrorCfg := rg_regsKept hr .stpMirrorCfg 0 0 fun hm => by
    obtain ⟨r, hr, hro⟩ := List.mem_map.1 hm
    exact (hl r hr).2 hro
  rw [State.mirrorOn, State.rgBit] at hmir ⊢
  rw [hm, hmir]

theorem apartFromWrites_nil : ApartFromWrites [] := fun _ h => absurd h List.not_mem_nil

/-! ## Bytes stored -/

theorem putBytes_append (m : List Host.Cell) (a : Nat) (b c : List Byte) :
    putBytes m a (b ++ c) = putBytes (putBytes m a b) (a + b.length) c := by
  induction b generalizing m a with
  | nil => rfl
  | cons x b ih => simp only [List.cons_append, putBytes, ih, List.length_cons, Nat.add_assoc, Nat.add_comm 1]

theorem bytesAt_putBytes (m : List Host.Cell) (a : Nat) (b : List Byte) : bytesAt (putBytes m a b) a b.length = b := by
  induction b generalizing m a with
  | nil => rfl
  | cons x b ih =>
    have hx : byteAt (putBytes m a (x :: b)) a = x := by
      rw [putBytes, byteAt_putBytes_out _ _ _ _ (.inl (Nat.lt_succ_self a)), byteAt_sput, if_pos rfl]
    exact congrArg₂ List.cons hx (ih _ _)

/-- A write from s to u that stores bytes as they come, and changes nothing but memory. -/
structure StoredPlain (a : Nat) (b : List Byte) (s u : State) : Prop where
  frame : u = { s with memory := u.memory }
  mem : u.memory.mem = putBytes s.memory.mem a b
  plain : PlainMemory u

theorem StoredPlain.append {a : Nat} {b c : List Byte} {s u v : State} (h : StoredPlain a b s u)
    (k : StoredPlain (a + b.length) c u v) : StoredPlain a (b ++ c) s v where
  frame := by rw [k.frame, h.frame]
  mem := by rw [k.mem, h.mem, putBytes_append]
  plain := k.plain

theorem StoredPlain.stored {a : Nat} {b : List Byte} {s u : State} (h : StoredPlain a b s u) : Stored u a b := by
  unfold Stored
  rw [h.mem, bytesAt_putBytes]

theorem StoredPlain.kept {a : Nat} {b : List Byte} {s u : State} (h : StoredPlain a b s u) :
    MemKept s u (fun x => a ≤ x ∧ x < a + b.length) := fun x hx => by
  rw [h.mem]
  exact byteAt_putBytes_out _ _ _ _ (by omega)

theorem putKept_none {lost : Nat → Bool} (h : ∀ a, lost a = false) (m : List Host.Cell) (a : Nat) (b : List Byte) :
    putKept lost m a b = putBytes m a b := by
  induction b generalizing m a with
  | nil => rfl
  | cons x b ih => rw [putKept, ih, h, if_neg Bool.false_ne_true, putBytes]

theorem storedPlain_memPut (a : Nat) (b : List Byte) {s : State} (h : PlainMemory s) : StoredPlain a b s (s.memPut a b) where
  frame := rfl
  mem := by
    show (if _ then _ else _) = _
    rw [putKept_none h.2.1, ite_self]
  plain := plainMemory_of h (regsKept_of_eq rfl []) apartFromWrites_nil (fun _ => rfl) rfl
    (.inl (show List.filter _ s.memory.errs = [] by rw [h.2.2.2.2.2, List.filter_nil])) rfl

theorem copyFirst_none (a n : Nat) {s : State} (h : s.hrv.op = none) : copyFirst a n s = s := by simp [copyFirst, h]

theorem foldRange_mirrorOff (a n : Nat) {s : State} (h : s.mirrorOn = false) : foldRange a n s = s := by
  unfold foldRange
  split <;> simp [h]

theorem storedPlain_rawWrite (a : Nat) (b : List Byte) {s : State} (h : PlainMemory s) : StoredPlain a b s (rawWrite a b s) := by
  have hs := storedPlain_memPut a b h
  rw [rawWrite, copyFirst_none _ _ h.2.2.1, putRaw, foldRange_mirrorOff _ _ hs.plain.2.2.2.1]
  exact hs

theorem wakeDev_frame (a n : Nat) (s : State) : wakeDev a n s = { s with memory := (wakeDev a n s).memory } := by
  unfold wakeDev
  split
  · simp only
    split <;> rfl
  · rfl

theorem plainMemory_wakeDev (a n : Nat) {s : State} (h : PlainMemory s) : PlainMemory (wakeDev a n s) := by
  have hm := wakeDev_memory a n s
  refine plainMemory_of h (regsKept_of_eq ?_ []) apartFromWrites_nil (wakeDev_dev a n s) ?_ (.inr ?_) ?_
  · rw [wakeDev_frame]
  · rw [hm]
  · rw [hm]
  · rw [wakeDev_frame]

theorem storedPlain_ctrlWriteLine (writer : Nat) (ack : Option Nat) (a : Nat) (b : List Byte) {s : State} (h : PlainMemory s) :
    StoredPlain a b s (ctrlWriteLine writer ack a b s) := by
  have hw := plainMemory_wakeDev a b.length h
  have hs := storedPlain_rawWrite a b hw
  simp only [ctrlWriteLine, hw.1 a]
  exact ⟨by rw [hs.frame, wakeDev_frame], by rw [hs.mem, wakeDev_memory], hs.plain⟩

theorem storedPlain_ctrlWriteFuel (writer : Nat) (ack : Option Nat) (f a : Nat) (b : List Byte) {s : State} (h : PlainMemory s)
    (hf : b.length + a % 64 ≤ f * 64) : StoredPlain a b s (ctrlWriteFuel writer ack f a b s) := by
  induction f generalizing a b s with
  | zero =>
    obtain rfl : b = [] := List.length_eq_zero_iff.1 (by omega)
    exact ⟨rfl, rfl, h⟩
  | succ f ih =>
    rw [ctrlWriteFuel]
    split
    · next hb => exact hb ▸ ⟨rfl, rfl, h⟩
    · simp only
      have h1 := storedPlain_ctrlWriteLine writer ack a (b.take (64 - a % 64)) h
      by_cases hl : b.length ≤ 64 - a % 64
      · rw [List.take_of_length_le hl] at h1 ⊢
        rw [List.drop_eq_nil_of_le hl]
        cases f <;> exact h1
      · have hlen : (b.take (64 - a % 64)).length = 64 - a % 64 := by rw [List.length_take]; omega
        have h2 := ih (a + (64 - a % 64)) (b.drop (64 - a % 64)) h1.plain (by rw [List.length_drop]; omega)
        have h3 := h1.append (by rw [hlen]; exact h2)
        rwa [List.take_append_drop] at h3

theorem storedPlain_ctrlWrite (writer : Nat) (ack : Option Nat) (a : Nat) (b : List Byte) {s : State} (h : PlainMemory s) :
    StoredPlain a b s (ctrlWrite writer ack a b s) := storedPlain_ctrlWriteFuel _ _ _ _ _ h (by omega)

end Sys2Proof.Laws
end


section
/-! SUPPORT. What completing, settling, abandoning and writing records leave as they were: what is on its way to the host stays so,
no descriptor is accepted and no attempt opened, and the version and its area stay (R144, R362 to R366). -/

namespace Sys2Proof.Laws

set_option Elab.async false

open Sys2Proof Sys2Proof.Machine Sys2Proof.Safety

/-! ## What goes on -/

/-- From s to u what is on its way to the host stays so, no descriptor comes to be accepted and no attempt to be open, and the
version and the area that holds it are the same. -/
structure Onward (s u : State) : Prop where
  posts : KeepsPosts s u
  inflight : u.host.inflight.map (·.id) ⊆ s.host.inflight.map (·.id)
  version : u.steps.version = s.steps.version
  curArea : u.steps.curArea = s.steps.curArea
  attempts : u.steps.attempts ⊆ s.steps.attempts

theorem Onward.refl (s : State) : Onward s s := ⟨.refl s, List.Subset.refl _, rfl, rfl, List.Subset.refl _⟩

theorem Onward.trans {s u v : State} (h : Onward s u) (k : Onward u v) : Onward s v where
  posts := h.posts.trans k.posts
  inflight := List.Subset.trans k.inflight h.inflight
  version := k.version.trans h.version
  curArea := k.curArea.trans h.curArea
  attempts := List.Subset.trans k.attempts h.attempts

/-- A change of neither the output, the host interface's lists nor the step unit. -/
theorem Onward.of_eq {s u : State} (he : u.emitted = s.emitted) (hr : u.host.rings = s.host.rings)
    (hi : u.host.inflight = s.host.inflight) (hs : u.steps = s.steps) : Onward s u :=
  ⟨.of_eq he hr, by rw [hi]; exact List.Subset.refl _, by rw [hs], by rw [hs], by rw [hs]; exact List.Subset.refl _⟩

/-- A change of other parts of the step unit. -/
theorem Onward.of_steps (s : State) (x : Steps) (hv : x.version = s.steps.version) (hc : x.curArea = s.steps.curArea)
    (ha : x.attempts ⊆ s.steps.attempts) : Onward s { s with steps := x } :=
  ⟨.of_eq rfl rfl, List.Subset.refl _, hv, hc, ha⟩

theorem Onward.each {β : Type} (l : List β) (f : β → State → State) (s : State) (hf : ∀ x u, Onward u (f x u)) :
    Onward s (each l f s) := each_keeps (Onward s) l f s (.refl s) fun x u hu => hu.trans (hf x u)

theorem Onward.ite {s u v : State} {c : Prop} [Decidable c] (h : Onward s u) (k : Onward s v) : Onward s (if c then u else v) := by
  split <;> assumption

theorem MemWork.onward {s u : State} (h : MemWork s u) : Onward s u :=
  ⟨h.posts, by rw [h.inflight]; exact List.Subset.refl _, by rw [h.steps], by rw [h.steps],
    by rw [h.steps]; exact List.Subset.refl _⟩

theorem Onward.raise (c : EventCode) (i : Nat) (d : BitVec 128) (s : State) : Onward s (raiseEvent c i d s) :=
  (MemWork.raise c i d s).onward

/-! ## Completions -/

theorem onward_finish (i : Inflight) (st : Status) (k : Nat) (b p : List Byte) (s : State) : Onward s (finish i st k b p s) where
  posts := (finish_posts i st k b p s).1
  inflight := by rw [inflight_finish]; exact List.Subset.refl _
  version := by rw [finish_frame]
  curArea := by rw [finish_frame]
  attempts := by rw [finish_frame]; exact List.Subset.refl _

theorem onward_dropInflight (d : Nat) (s : State) : Onward s (s.dropInflight d) :=
  ⟨.of_eq rfl rfl, List.map_subset _ List.filter_sublist.subset, rfl, rfl, List.Subset.refl _⟩

theorem onward_complete (d : Nat) (st : Status) (k : Nat) (b p : List Byte) (s : State) : Onward s (complete d st k b p s) := by
  unfold complete
  split
  · exact (onward_dropInflight d s).trans (onward_finish _ _ _ _ _ _)
  · exact .refl s

/-- What a completion that has waited completes: the descriptor with its time excluded. -/
def waitExcluded (d : Nat) (s : State) : State := s.updInflight d (fun i => { i with excluded := s.cyc - i.start })

theorem completeWaited_eq (d : Nat) (st : Status) (b : List Byte) (s : State) :
    completeWaited d st b s = complete d st 0 b [] (waitExcluded d s) := rfl

theorem ids_waitExcluded (d : Nat) (s : State) : (waitExcluded d s).host.inflight.map (·.id) = s.host.inflight.map (·.id) := by
  simp only [waitExcluded, State.updInflight, List.map_map]
  refine List.map_congr_left fun i _ => ?_
  simp only [Function.comp_apply]
  split <;> rfl

theorem onward_waitExcluded (d : Nat) (s : State) : Onward s (waitExcluded d s) :=
  ⟨.of_eq rfl rfl, by rw [ids_waitExcluded]; exact List.Subset.refl _, rfl, rfl, List.Subset.refl _⟩

theorem onward_completeWaited (d : Nat) (st : Status) (b : List Byte) (s : State) : Onward s (completeWaited d st b s) :=
  (onward_waitExcluded d s).trans (onward_complete _ _ _ _ _ _)

theorem onward_applyDisabled (op : DisableOp) (s : State) : Onward s (applyDisabled op s) := by
  unfold applyDisabled
  split
  · exact ⟨.setRing s _ _ rfl (List.Subset.refl _), List.Subset.refl _, rfl, rfl, List.Subset.refl _⟩
  · exact .of_eq rfl rfl rfl rfl
  · exact .of_eq rfl rfl rfl rfl
  · exact .of_eq rfl rfl rfl rfl
  · exact .of_eq rfl rfl rfl rfl
  · exact .of_eq rfl rfl rfl rfl

theorem onward_settleOne (d : Nat) (s : State) : Onward s (settleOne d s) := by
  unfold settleOne
  split
  · exact .refl s
  · split
    · exact .ite (onward_completeWaited _ _ _ s) (.refl s)
    · exact .ite (onward_completeWaited _ _ _ s) (.refl s)
    · exact .ite (onward_complete _ _ _ _ _ s) (.refl s)
    · exact .ite (.refl s) ((onward_applyDisabled _ s).trans (onward_completeWaited _ _ _ _))
    · exact .refl s

theorem onward_settle (s : State) : Onward s (settle s) := .each _ _ s onward_settleOne

/-! ## The end of a pass -/

theorem onward_setArea (a : Nat) (v : AreaSt) (s : State) : Onward s (s.setArea a v) := by
  unfold State.setArea
  split
  · exact .of_steps s _ rfl rfl (List.Subset.refl _)
  · exact .of_steps s _ rfl rfl (List.Subset.refl _)

theorem onward_freeHeld (a : Nat) (s : State) : Onward s (freeHeld a s) := .ite (onward_setArea _ _ s) (.refl s)

theorem onward_unbind (mb : Nat) (s : State) : Onward s (unbind mb s) := by
  unfold unbind
  refine .trans (.trans ?_ (onward_freeHeld 0 _)) (onward_freeHeld 1 _)
  exact .of_steps s _ rfl rfl (List.Subset.refl _)

theorem onward_passOff (p : Pass) (s : State) : Onward s (passOff p s) := by
  unfold passOff
  extract_lets s1
  refine .trans (u := s1) (.of_eq rfl rfl rfl rfl) ?_
  split
  · exact onward_unbind _ s1
  · exact .refl s1

theorem onward_settlePass (q : Nat) (s : State) : Onward s (settlePass q s) := by
  unfold settlePass
  split
  · split
    · refine .ite (.refl s) ?_
      rw [completePass_eq]
      exact ((onward_passOff _ s).trans (onward_complete _ _ _ _ _ _)).trans (onward_settle _)
    · exact .refl s
  · exact .refl s

theorem onward_fetchCancelled (q g : Nat) (s : State) : Onward s (fetchCancelled q g s) := by
  unfold fetchCancelled
  split
  · exact .refl s
  · split
    · exact .refl s
    · refine .ite (.refl s) (.trans ?_ (.raise _ _ _ _))
      exact .of_eq rfl rfl rfl rfl

theorem onward_discardXfer (x : Xfer) (s : State) : Onward s (discardXfer x s) := by
  unfold discardXfer
  refine .trans ?_ (onward_fetchCancelled _ _ _)
  exact .of_eq rfl rfl rfl rfl

theorem onward_endXfer (x : Xfer) (s : State) : Onward s (endXfer x s) := by
  unfold endXfer
  split
  · exact .refl s
  · split
    · exact .of_eq rfl rfl rfl rfl
    · exact .of_eq rfl rfl rfl rfl
    · exact .of_eq rfl rfl rfl rfl
    · exact onward_discardXfer x s

theorem onward_endXfers (q : Nat) (s : State) : Onward s (endXfers q s) := by
  unfold endXfers
  refine .trans (.trans (.each _ _ s fun r u => ?_) (.each _ _ _ onward_endXfer)) (.each _ _ _ fun g u => onward_fetchCancelled q g u)
  exact .of_eq rfl rfl rfl rfl

theorem onward_updTile (t : Nat) (f : Tile → Tile) (s : State) : Onward s (s.updTile t f) := .of_eq rfl rfl rfl rfl
theorem onward_updPass (q : Nat) (f : Pass → Pass) (s : State) : Onward s (s.updPass q f) := .of_eq rfl rfl rfl rfl

theorem onward_abandonOn (p : Pass) (t : Nat) (s : State) : Onward s (abandonOn p t s) := by
  refine .ite ?_ (.refl s)
  refine .trans ?_ (.ite (onward_updTile _ _ _) (.refl _))
  exact .trans (u := s.dropSeq t p.seq) (.of_eq rfl rfl rfl rfl) (onward_updTile _ _ _)

theorem onward_dropSignals (q : Nat) (s : State) : Onward s (dropSignals q s) := by
  unfold dropSignals
  refine .trans ?_ (.each _ _ _ fun k u => .of_eq rfl rfl rfl rfl)
  exact .of_eq rfl rfl rfl rfl

theorem onward_freeWires (q : Nat) (s : State) : Onward s (freeWires q s) := .of_eq rfl rfl rfl rfl

/-- A pass's data leave the mesh. -/
def offMesh (q : Nat) (s : State) : State := { s with gath := { s.gath with mesh := s.gath.mesh.filter (fun m => m.pass != q) } }

theorem onward_offMesh (q : Nat) (s : State) : Onward s (offMesh q s) := .of_eq rfl rfl rfl rfl

/-- What abandoning a pass that goes on does. -/
theorem abandonPass_eq (q : Nat) (st : Status) (t : Nat) (s : State) : abandonPass q st t s = match s.pass? q with
    | some p =>
      if p.ending.isSome then
        if p.endedAt = s.cyc && p.ending.any (fun e => st.rank < e.1.rank) then
          s.updPass q (fun p => { p with ending := some (st, t) })
        else s
      else
        settlePass q (endXfers q (flushWriter (q + 1) (each p.tiles (abandonOn p) (freeWires q (dropSignals q (offMesh q
          (s.updPass q (fun p => { p with ending := some (st, t), endedAt := s.cyc }))))))))
    | none => s := rfl

theorem onward_abandonPass (q : Nat) (st : Status) (t : Nat) (s : State) : Onward s (abandonPass q st t s) := by
  rw [abandonPass_eq]
  split
  · next p _ =>
    refine .ite (.ite (onward_updPass _ _ s) (.refl s)) ?_
    refine .trans (.trans (.trans ?_ (memWork_flushWriter _ _).onward) (onward_endXfers _ _)) (onward_settlePass _ _)
    refine .trans ?_ (.each _ _ _ (onward_abandonOn p))
    exact .trans (.trans (.trans (onward_updPass _ _ s) (onward_offMesh _ _)) (onward_dropSignals _ _)) (onward_freeWires _ _)
  · exact .refl s

theorem onward_takeSlots (r n : Nat) (s : State) : Onward s (takeSlots r n s) where
  posts := by
    unfold takeSlots
    extract_lets c h s1
    exact .trans (u := s1) (.setRing s r _ rfl (List.Subset.refl _)) (.of_eq rfl rfl)
  inflight := List.Subset.refl _
  version := rfl
  curArea := rfl
  attempts := List.Subset.refl _

theorem onward_abortHeld (step : Nat) (s : State) : Onward s (abortHeld step s) :=
  .each _ _ s fun _ u => (onward_takeSlots _ _ u).trans (onward_finish _ _ _ _ _ _)

end Sys2Proof.Laws
end


section
/-! SUPPORT. What putting packets on the ports leaves as it was: only the fabric's part changes, and what was under way stays so (R258,
R262, R264, R305, R309). -/

namespace Sys2Proof.Laws

set_option Elab.async false

open Sys2Proof Sys2Proof.Machine Sys2Proof.Safety

/-! ## Transfers -/

/-- A transfer of a purpose is under way to a node on a lane. -/
def UnderWay (u : State) (p : Purpose) (node vl : Nat) : Prop := ∃ o ∈ u.fab.out, o.purpose = p ∧ o.node = node ∧ o.vl = vl

/-- Sending from s to u: only the fabric's part changes, what is under way stays so, and the ports' queues only grow. -/
structure Sends (s u : State) : Prop where
  frame : u = { s with fab := u.fab }
  underWay : ∀ p node vl, UnderWay s p node vl → UnderWay u p node vl
  queues : ∀ q, (s.port q).txq ⊆ (u.port q).txq

theorem Sends.refl (s : State) : Sends s s := ⟨rfl, fun _ _ _ => id, fun _ => List.Subset.refl _⟩

theorem Sends.trans {s u v : State} (h : Sends s u) (k : Sends u v) : Sends s v where
  frame := by rw [k.frame, h.frame]
  underWay p n l hu := k.underWay p n l (h.underWay p n l hu)
  queues q := List.Subset.trans (h.queues q) (k.queues q)

theorem Sends.each {β : Type} (l : List β) (f : β → State → State) (s : State) (hf : ∀ x u, Sends u (f x u)) :
    Sends s (each l f s) := each_keeps (Sends s) l f s (.refl s) fun x u hu => hu.trans (hf x u)

theorem Sends.ite {s u v : State} {c : Prop} [Decidable c] (h : Sends s u) (k : Sends s v) : Sends s (if c then u else v) := by
  split <;> assumption

theorem Sends.queued {s u : State} (h : Sends s u) {node xid type : Nat} (k : Queued s node xid type) : Queued u node xid type := by
  obtain ⟨q, o, ho, hk⟩ := k
  exact ⟨q, o, h.queues q ho, hk⟩

theorem Sends.onward {s u : State} (h : Sends s u) : Onward s u := by
  rw [h.frame]
  exact .of_eq rfl rfl rfl rfl

theorem txq_enqueue (port : Nat) (ps : List OutPacket) (s : State) (q : Nat) :
    ((enqueue port ps s).port q).txq = (s.port q).txq ++ if q = port then ps else [] := by
  rw [enqueue, port_updPort]
  split
  · next h => rw [h]
  · simp

theorem sends_enqueue (port : Nat) (ps : List OutPacket) (s : State) : Sends s (enqueue port ps s) :=
  ⟨rfl, fun _ _ _ => id, fun q => by rw [txq_enqueue]; exact List.subset_append_left _ _⟩

theorem sends_sendXfer (type node vl : Nat) (ordered req : Bool) (purpose : Purpose) (ps : List Piece) (sig : Option (Nat × Nat))
    (s : State) : Sends s (sendXfer type node vl ordered req purpose ps sig s).1 := by
  unfold sendXfer
  refine .trans ?_ (sends_enqueue _ _ _)
  exact ⟨rfl, fun p node vl ⟨x, hx, h⟩ => ⟨x, List.mem_append_left _ hx, h⟩, fun _ => List.Subset.refl _⟩

/-- A transfer that is sent is under way. -/
theorem underWay_sendXfer (type node vl : Nat) (ordered req : Bool) (purpose : Purpose) (ps : List Piece) (sig : Option (Nat × Nat))
    (s : State) : UnderWay (sendXfer type node vl ordered req purpose ps sig s).1 purpose node vl := by
  unfold sendXfer
  exact (sends_enqueue _ _ _).underWay _ _ _ ⟨_, List.mem_append_right _ List.mem_cons_self, rfl, rfl, rfl⟩

theorem sends_sendParts (type node vl : Nat) (purpose : Purpose) (ps : List Piece) (sig : Option (Nat × Nat)) (s : State) :
    Sends s (sendParts type node vl purpose ps sig s) := .each _ _ s fun _ u => sends_sendXfer _ _ _ _ _ _ _ _ u

theorem splitPieces_ne_nil {ps : List Piece} (h : ps ≠ []) : splitPieces ps ≠ [] := by
  cases ps with
  | nil => exact absurd rfl h
  | cons x xs =>
    unfold splitPieces
    split
    · split <;> exact List.cons_ne_nil _ _
    · exact List.cons_ne_nil _ _

theorem underWay_sendParts (type node vl : Nat) (purpose : Purpose) {ps : List Piece} (h : ps ≠ []) (sig : Option (Nat × Nat))
    (s : State) : UnderWay (sendParts type node vl purpose ps sig s) purpose node vl := by
  unfold sendParts
  extract_lets gs
  have hgs : gs ≠ [] := splitPieces_ne_nil h
  have hz : gs.zipIdx ≠ [] := by simpa using hgs
  obtain ⟨g, l, hl⟩ := List.exists_cons_of_ne_nil hz
  rw [hl, each_cons]
  exact (Sends.each l _ _ fun _ u => sends_sendXfer _ _ _ _ _ _ _ _ u).underWay _ _ _ (underWay_sendXfer _ _ _ _ _ _ _ _ _)

/-- What belongs to an operation stays under way. -/
theorem sends_underOp (op : Nat) (f : State → State) (s : State) : Sends (f s) (underOp op f s) where
  frame := rfl
  underWay := by
    rintro p node vl ⟨o, ho, hp, hn, hv⟩
    refine ⟨_, List.mem_map_of_mem ho, ?_⟩
    split
    · exact ⟨hp, hn, hv⟩
    · exact ⟨hp, hn, hv⟩
  queues _ := List.Subset.refl _

/-- The state with a number taken for an operation. -/
def withNewOp (s : State) : State := (newOp s).2

theorem sends_withNewOp (s : State) : Sends s (withNewOp s) := ⟨rfl, fun _ _ _ => id, fun _ => List.Subset.refl _⟩

theorem sendOperation_eq (type node vl : Nat) (purpose : Purpose) (ps : List Piece) (sig : Option (Nat × Nat)) (s : State) :
    sendOperation type node vl purpose ps sig s = underOp s.fab.nextOp (sendParts type node vl purpose ps sig) (withNewOp s) := rfl

theorem sends_sendOperation (type node vl : Nat) (purpose : Purpose) (ps : List Piece) (sig : Option (Nat × Nat)) (s : State) :
    Sends s (sendOperation type node vl purpose ps sig s) := by
  rw [sendOperation_eq]
  exact ((sends_withNewOp s).trans (sends_sendParts _ _ _ _ _ _ _)).trans (sends_underOp _ _ _)

theorem underWay_sendOperation (type node vl : Nat) (purpose : Purpose) {ps : List Piece} (h : ps ≠ []) (sig : Option (Nat × Nat))
    (s : State) : UnderWay (sendOperation type node vl purpose ps sig s) purpose node vl := by
  rw [sendOperation_eq]
  exact (sends_underOp _ _ (withNewOp s)).underWay _ _ _ (underWay_sendParts _ _ _ _ h _ _)

/-! ## Digests -/

theorem sends_sendDigests (a : Attempt) (kind lo : Nat) (ds : List Quad) (s : State) : Sends s (sendDigests a kind lo ds s) :=
  .ite (.refl s) (sends_sendXfer _ _ _ _ _ _ _ _ s)

theorem pieces_ne_nil {α : Type} {n : Nat} (hn : 0 < n) {l : List α} (h : l ≠ []) : pieces n l ≠ [] := fun hp =>
  h (by rw [← flatten_pieces hn l, hp, List.flatten_nil])

theorem underWay_sendDigests (a : Attempt) (kind lo : Nat) {ds : List Quad} (h : ds ≠ []) (s : State) :
    UnderWay (sendDigests a kind lo ds s) .digests s.partner 3 := by
  unfold sendDigests
  extract_lets ps
  have hps : ps ≠ [] := by simpa [ps] using pieces_ne_nil (by decide : 0 < 512) h
  rw [if_neg hps]
  exact underWay_sendXfer _ _ _ _ _ _ _ _ s

theorem sends_sendBlockDigests (a : Attempt) (mirror : Bool) (kind : Nat) (groups : List Nat) (s : State) :
    Sends s (sendBlockDigests a mirror kind groups s) := .each _ _ s fun _ u => sends_sendDigests _ _ _ _ u

/-! ## Acknowledgements -/

theorem sends_sendPacketOf (pass : Option Nat) (type node xid idx : Nat) (port : Option Nat) (x : Piece) (sig : Option (Nat × Nat))
    (s : State) : Sends s (sendPacketOf pass type node xid idx port x sig s) := by
  exact sends_enqueue _ _ s

/-- A packet's first byte says its type (R258). -/
theorem type_bytes (p : Packet) (h : p.type < 256) : numIn p.bytes 0 1 = p.type := by
  simp [Packet.bytes, Packet.header, numIn, leBytes, leNat, Nat.mod_eq_of_lt h]

theorem queued_sendPacketOf (pass : Option Nat) (type node xid idx : Nat) (port : Option Nat) (x : Piece) (sig : Option (Nat × Nat))
    (s : State) (h : type < 256) : Queued (sendPacketOf pass type node xid idx port x sig s) node xid type := by
  unfold sendPacketOf
  refine ⟨_, _, by rw [txq_enqueue, if_pos rfl]; exact List.mem_append_right _ List.mem_cons_self, rfl, rfl, ?_⟩
  exact type_bytes _ h

theorem sends_sendAck (port node xid idx status : Nat) (s : State) : Sends s (sendAck port node xid idx status s) :=
  sends_sendPacketOf _ _ _ _ _ _ _ _ s

theorem queued_sendAck (port node xid idx status : Nat) (s : State) : Queued (sendAck port node xid idx status s) node xid 0x04 :=
  queued_sendPacketOf _ _ _ _ _ _ _ _ s (by decide)

/-- An acknowledgement moves the ports alone. -/
theorem sendAck_frame (port node xid idx status : Nat) (s : State) : sendAck port node xid idx status s =
    { s with fab := { s.fab with ports := (sendAck port node xid idx status s).fab.ports } } := rfl

end Sys2Proof.Laws
end


section
/-! SUPPORT. What sealing, refusing and rolling back an attempt leave as it was, and the completion of its STEP_CLOSE (R284, R294,
R295, R310). -/

namespace Sys2Proof.Laws

set_option Elab.async false

open Sys2Proof Sys2Proof.Machine Sys2Proof.Safety

/-! ## The step unit's own work -/

/-- The step unit's own work from s to u: the memory, the unit's state but for the version, its area and new attempts, and events. -/
structure UnitWork (s u : State) : Prop where
  frame : u = { s with regs := u.regs, evt := u.evt, emitted := u.emitted, memory := u.memory, stw := u.stw, steps := u.steps,
                       hrv := { s.hrv with op := u.hrv.op, mirrorVer := u.hrv.mirrorVer },
                       host := { s.host with msix := u.host.msix, msixHeld := u.host.msixHeld } }
  emitted : s.emitted ⊆ u.emitted
  version : u.steps.version = s.steps.version
  curArea : u.steps.curArea = s.steps.curArea
  attempts : u.steps.attempts ⊆ s.steps.attempts

theorem UnitWork.refl (s : State) : UnitWork s s := ⟨rfl, List.Subset.refl _, rfl, rfl, List.Subset.refl _⟩

theorem UnitWork.trans {s u v : State} (h : UnitWork s u) (k : UnitWork u v) : UnitWork s v where
  frame := by rw [k.frame, h.frame]
  emitted := List.Subset.trans h.emitted k.emitted
  version := k.version.trans h.version
  curArea := k.curArea.trans h.curArea
  attempts := List.Subset.trans k.attempts h.attempts

theorem UnitWork.ite {s u v : State} {c : Prop} [Decidable c] (h : UnitWork s u) (k : UnitWork s v) :
    UnitWork s (if c then u else v) := by
  split <;> assumption

theorem UnitWork.each {β : Type} (l : List β) (f : β → State → State) (s : State) (hf : ∀ x u, UnitWork u (f x u)) :
    UnitWork s (each l f s) := each_keeps (UnitWork s) l f s (.refl s) fun x u hu => hu.trans (hf x u)

theorem MemWork.unitWork {s u : State} (h : MemWork s u) : UnitWork s u where
  frame := by
    have hf := h.frame
    unfold MemFrame at hf
    rw [hf]
  emitted := h.emitted
  version := by rw [h.steps]
  curArea := by rw [h.steps]
  attempts := by rw [h.steps]; exact List.Subset.refl _

theorem UnitWork.of_steps (s : State) (x : Steps) (hv : x.version = s.steps.version) (hc : x.curArea = s.steps.curArea)
    (ha : x.attempts ⊆ s.steps.attempts) : UnitWork s { s with steps := x } :=
  ⟨rfl, List.Subset.refl _, hv, hc, ha⟩

theorem UnitWork.posts {s u : State} (h : UnitWork s u) : KeepsPosts s u := .of_emitted h.emitted (by rw [h.frame])

theorem UnitWork.inflight {s u : State} (h : UnitWork s u) : u.host.inflight = s.host.inflight := by rw [h.frame]

theorem UnitWork.onward {s u : State} (h : UnitWork s u) : Onward s u :=
  ⟨h.posts, by rw [h.inflight]; exact List.Subset.refl _, h.version, h.curArea, h.attempts⟩

theorem memWork_putRec (a : Attempt) (off n v : Nat) (s : State) : MemWork s (putRec a off n v s) := memWork_unitWrite _ _ s

theorem unitWork_relaxLog (s : State) : UnitWork s s.relaxLog :=
  .ite (.of_steps s _ rfl rfl (List.Subset.refl _)) (.refl s)

theorem memWork_memPutNum (a n v : Nat) (s : State) : MemWork s (s.memPutNum a n v) := memWork_memPut _ _ s

theorem unitWork_sealLayer (a : Attempt) (w : Watch) (l : Nat) (s : State) : UnitWork s (sealLayer a w l s) := by
  unfold sealLayer
  extract_lets e s1 fresh s2 run src s3
  have h1 : UnitWork s s1 := (memWork_memPutNum _ _ _ s).unitWork
  refine h1.trans ?_
  split
  · exact (memWork_memPutNum _ _ _ s1).unitWork
  · have h2 : UnitWork s1 s2 := ((memWork_memAddSat _ _ _ s1).trans (memWork_memAddSat _ _ _ _)).unitWork
    have h3 : UnitWork s2 s3 := by
      unfold s3
      split
      · exact .of_steps s2 _ rfl rfl (List.Subset.refl _)
      · exact .refl s2
    refine (h2.trans h3).trans ?_
    clear_value s3
    split
    · refine .trans ?_ (MemWork.raise _ _ _ _).unitWork
      exact .of_steps s3 _ rfl rfl (List.Subset.refl _)
    · exact .refl s3

theorem unitWork_sealWatch (a : Attempt) (s : State) : UnitWork s (sealWatch a s) := .each _ _ s (unitWork_sealLayer _ _)

/-! ## The completion of STEP_CLOSE -/

theorem inflight_waitExcluded (d : Nat) (s : State) :
    (waitExcluded d s).host.inflight.filter (fun i => i.id != d) = s.host.inflight.filter (fun i => i.id != d) := by
  simp only [waitExcluded, State.updInflight]
  generalize s.host.inflight = l
  induction l with
  | nil => rfl
  | cons i l ih =>
    rw [List.map_cons]
    by_cases h : i.id = d <;> simp [h, ih]

theorem inflight?_waitExcluded {d : Nat} {i : Inflight} {s : State} (h : s.inflight? d = some i) :
    (waitExcluded d s).inflight? d = some { i with excluded := s.cyc - i.start } := by
  have hi : i.id = d := by simpa using List.find?_some h
  rw [State.inflight?] at h
  simp only [State.inflight?, waitExcluded, State.updInflight, List.find?_map, Function.comp_def]
  rw [List.find?_congr (p₂ := fun i => i.id == d), h]
  · simp [hi]
  · intro j _
    split <;> rfl

/-- A descriptor whose work has waited completes with a status. -/
def closeOne (st : Status) (i : Inflight) (s : State) : State := completeWaited i.id st [] s

theorem completing_closeOne (st : Status) : Completing (closeOne st) (·.id) (fun _ _ => st) where
  frame i u := .trans (u := waitExcluded i.id u) rfl (complete_frame _ _ _ _ _ _)
  posts i u := (onward_completeWaited _ _ _ u).posts
  inflight i u := by rw [closeOne, completeWaited_eq, inflight_complete, inflight_waitExcluded]
  posted i u j h := by
    have hp := posted_complete (inflight?_waitExcluded h) st 0 [] []
    exact posted_from (u := waitExcluded i.id u) (.of_eq rfl rfl) hp
  regs i u := complete_regs _ _ _ _ _ (waitExcluded i.id u)

theorem finishClose_eq (step : Nat) (st : Status) (s : State) :
    finishClose step st s = each (s.host.inflight.filter (fun i => i.work == .stepClose step)) (closeOne st) s := rfl

theorem onward_finishClose (step : Nat) (st : Status) (s : State) : Onward s (finishClose step st s) :=
  .each _ _ s fun _ u => onward_completeWaited _ _ _ u

/-- The STEP_CLOSE of the step completes. -/
theorem closed_finishClose (step : Nat) (st : Status) (s : State) : Closed step st s (finishClose step st s) := by
  intro d i hi hw
  have hc := completing_closeOne st
  have hid : i.id = d := by simpa using List.find?_some hi
  have hm : i ∈ s.host.inflight.filter (fun i => i.work == .stepClose step) := by
    simp [List.mem_of_find?_eq_some hi, hw]
  rw [finishClose_eq]
  refine ⟨fun j hj hjd => ?_, fun k hk => ?_⟩
  · rw [each_filters _ _ (fun u => u.host.inflight) (·.id) (·.id) hc.inflight] at hj
    have := (List.mem_filter.1 hj).2
    rw [hjd, ← hid] at this
    simp only [Bool.not_eq_true', List.contains_eq_mem, decide_eq_false_iff_not] at this
    exact this (List.mem_map_of_mem hm)
  · obtain rfl : i = k := Option.some.inj (hi.symm.trans hk)
    exact hc.posted_each _ s hm (fun _ _ _ => rfl) (hid ▸ hi)

/-- What goes on afterwards leaves it completed. -/
theorem closed_onward {step : Nat} {st : Status} {s u v : State} (h : Closed step st s u) (k : Onward u v) : Closed step st s v :=
  fun d i hi hw => by
    obtain ⟨hg, hp⟩ := h d i hi hw
    refine ⟨fun j hj hjd => ?_, fun l hl => posted_mono (hp l hl) k.posts⟩
    obtain ⟨m, hm, hmj⟩ := List.mem_map.1 (k.inflight (List.mem_map_of_mem hj))
    exact hg m hm (hmj.trans hjd)

/-- What is done before leaves it to complete. -/
theorem closed_after {step : Nat} {st : Status} {s u v : State} (k : KeepsPosts s u) (hi : u.host.inflight = s.host.inflight)
    (h : Closed step st u v) : Closed step st s v := fun d i hd hw => by
  have hu : ∀ j, s.inflight? d = some j → u.inflight? d = some j := fun j hj => by rw [State.inflight?, hi]; exact hj
  obtain ⟨hg, hp⟩ := h d i (hu i hd) hw
  exact ⟨hg, fun j hj => posted_from k (hp j (hu j hj))⟩

/-! ## Rolling back -/

theorem onward_restoreLayer (w : Watch) (r l : Nat) (s : State) : Onward s (restoreLayer w r l s) := by
  have h1 (u : State) (x : Nat) : MemWork u _ :=
    (memWork_memPut (w.gauge l x) (u.memBytes (r + 0x9000 + l * 64 + 8 * x) 4) u).trans
      (memWork_memPut (w.gauge l x + 12) (u.memBytes (r + 0x9000 + l * 64 + 8 * x + 4) 2) _)
  exact (Onward.each _ _ s fun x u => (h1 u x).onward).trans (memWork_memPut _ _ _).onward

/-- A rolled-back attempt is no longer open. -/
def dropAttempt (a : Attempt) (s : State) : State :=
  { s with steps := { s.steps with
    attempts := s.steps.attempts.filter (fun b => b.step != a.step),
    digests := s.steps.digests.filter (fun d => d.step != a.step % 256),
    recorded := s.steps.recorded.filter (fun t => t.1 != a.step) ++ a.bindings.map (fun b => (a.step, b)) } }

theorem onward_dropAttempt (a : Attempt) (s : State) : Onward s (dropAttempt a s) :=
  .of_steps s _ rfl rfl List.filter_sublist.subset

theorem rollBack_closes (causes : Nat) (st : Status) (restore : Bool) (a : Attempt) (s : State) :
    Onward s (rollBack causes st restore a s) ∧ (∀ b ∈ (rollBack causes st restore a s).steps.attempts, b.step ≠ a.step) ∧
      Closed a.step st s (rollBack causes st restore a s) := by
  unfold rollBack
  extract_lets s1 s2 s3 s4 s5 s6 s7
  have h2 : Onward s1 s2 := .each _ _ _ fun _ u => onward_abandonPass _ _ _ u
  have h3 : Onward s2 s3 := onward_abortHeld _ _
  have h4 : Onward s3 s4 := .each _ _ _ fun _ u => onward_unbind _ u
  have h5 : Onward s4 s5 := ((memWork_putRec _ _ _ _ _).trans (memWork_putRec _ _ _ _ _)).onward
  have h6 : Onward s5 s6 := .ite (.each _ _ _ (onward_restoreLayer _ _)) (.refl _)
  have h7 : Onward s6 s7 := .of_steps _ _ rfl rfl (List.Subset.refl _)
  have h17 : Onward s1 s7 := ((((h2.trans h3).trans h4).trans h5).trans h6).trans h7
  have h8 : Onward s7 (dropAttempt a s7) := onward_dropAttempt a s7
  refine ⟨((onward_finishClose _ _ s).trans h17).trans h8, fun b hb => ?_, ?_⟩
  · simpa using (List.mem_filter.1 hb).2
  · exact closed_onward (closed_finishClose _ _ s) (h17.trans h8)

theorem onward_zeroTallies (s : State) : Onward s (zeroTallies s) :=
  .each _ _ s fun _ u => .ite (.of_eq rfl rfl rfl rfl) (.refl u)

/-! ## Copies to the partner -/

theorem onward_sendBlocks (c : CopyOut) (s : State) : Onward s (sendBlocks c s) := by
  unfold sendBlocks
  extract_lets s1 ps
  have h1 : Onward s s1 := .each _ _ s fun _ u => (memWork_noteRead _ _ _ _ u).onward
  exact h1.trans (sends_sendOperation _ _ _ _ _ _ _).onward

theorem onward_sendCopies (s : State) : Onward s (sendCopies s) := by
  unfold sendCopies
  refine .trans ?_ (.each _ _ _ onward_sendBlocks)
  exact .of_steps s _ rfl rfl (List.Subset.refl _)

theorem onward_startRepair (step : Nat) (out inn : List Nat) (s : State) : Onward s (startRepair step out inn s) := by
  unfold startRepair
  extract_lets src s1
  have h1 : Onward s s1 := .of_steps s _ rfl rfl (List.Subset.refl _)
  refine h1.trans (.ite (.refl s1) ?_)
  unfold startCopy
  refine .trans ?_ (onward_sendCopies _)
  exact .of_steps s1 _ rfl rfl (List.Subset.refl _)

end Sys2Proof.Laws
end


section
/-! SUPPORT. Which registers sealing and refusing write in a plain memory without a DISABLE: beside the step unit's own, those of a
completion (R294, R295, R362, R426). -/

namespace Sys2Proof.Laws

set_option Elab.async false

open Sys2Proof Sys2Proof.Machine Sys2Proof.Safety

/-! ## Calm work -/

/-- In a plain memory without a DISABLE what goes from s to u writes the registers of a list alone, and leaves a plain memory, no
DISABLE and the passes as they were. -/
def Calm (l : List Reg) (s u : State) : Prop :=
  PlainMemory s → NoDisable s → RegsKept s u l ∧ PlainMemory u ∧ NoDisable u ∧ u.passes = s.passes

theorem Calm.refl (l : List Reg) (s : State) : Calm l s s := fun hp hd => ⟨regsKept_of_eq rfl l, hp, hd, rfl⟩

theorem Calm.trans {l : List Reg} {s u v : State} (h : Calm l s u) (k : Calm l u v) : Calm l s v := fun hp hd => by
  obtain ⟨hr, hp', hd', hs⟩ := h hp hd
  obtain ⟨kr, kp, kd, ks⟩ := k hp' hd'
  exact ⟨regsKept_trans hr kr, kp, kd, ks.trans hs⟩

theorem Calm.mono {l m : List Reg} {s u : State} (h : Calm l s u) (hl : l ⊆ m) : Calm m s u := fun hp hd => by
  obtain ⟨hr, hk⟩ := h hp hd
  exact ⟨regsKept_mono hr hl, hk⟩

theorem Calm.ite {l : List Reg} {s u v : State} {c : Prop} [Decidable c] (h : Calm l s u) (k : Calm l s v) :
    Calm l s (if c then u else v) := by
  split <;> assumption

theorem Calm.each {β : Type} {r : List Reg} (l : List β) (f : β → State → State) (s : State) (hf : ∀ x u, Calm r u (f x u)) :
    Calm r s (each l f s) := each_keeps (Calm r s) l f s (.refl r s) fun x u hu => hu.trans (hf x u)

/-- A change of registers that are no part of the memory's layout, and of what the memory and the accepted work are no part of. -/
theorem Calm.of_regs {l : List Reg} {s u : State} (hr : RegsKept s u l) (hl : ApartFromWrites l) (hm : u.memory = s.memory)
    (ho : u.hrv.op = s.hrv.op) (hi : NoDisable s → NoDisable u) (hs : u.passes = s.passes) : Calm l s u := fun hp hd =>
  ⟨hr, plainMemory_of hp hr hl (fun p => by rw [State.dev, State.dev, hm]) (by rw [hm]) (.inr (by rw [hm])) ho, hi hd, hs⟩

theorem Calm.of_eq {s u : State} (l : List Reg) (hr : u.regs = s.regs) (hm : u.memory = s.memory) (ho : u.hrv.op = s.hrv.op)
    (hi : u.host.inflight = s.host.inflight) (hs : u.passes = s.passes) : Calm l s u :=
  (Calm.of_regs (regsKept_of_eq hr []) apartFromWrites_nil hm ho (fun hd i h => hd i (hi ▸ h)) hs).mono (List.nil_subset l)

theorem Calm.of_steps (l : List Reg) (s : State) (x : Steps) : Calm l s { s with steps := x } := .of_eq l rfl rfl rfl rfl rfl

theorem apartFromWrites_completion : ApartFromWrites completionRegs := by
  intro r hr
  simp only [completionRegs, eventRegs, recordRegs, List.mem_cons, List.not_mem_nil, or_false] at hr
  rcases hr with rfl | rfl | rfl | rfl <;> decide

theorem calm_setRg {n : RegName} {i j : Nat} (h : ApartFromWrites [⟨n, i, j⟩]) (v : Nat) (s : State) :
    Calm [⟨n, i, j⟩] s (s.setRg n v i j) := .of_regs (regsKept_setRg s n v i j) h rfl rfl id rfl

theorem Calm.raise (c : EventCode) (i : Nat) (d : BitVec 128) (s : State) : Calm completionRegs s (raiseEvent c i d s) := by
  have hf := raiseEvent_frame c i d s
  unfold EventFrame at hf
  refine .of_regs (regsKept_mono (raiseEvent_regs c i d s) (List.subset_cons_self _ _)) apartFromWrites_completion ?_ ?_ ?_ ?_ <;>
  · rw [hf]
    try exact id

/-! ## Memory -/

theorem StoredPlain.calm {a : Nat} {b : List Byte} {s u : State} (h : PlainMemory s → StoredPlain a b s u) (l : List Reg) :
    Calm l s u := fun hp hd => by
  have hs := h hp
  refine ⟨regsKept_of_eq (by rw [hs.frame]) l, hs.plain, ?_, by rw [hs.frame]⟩
  rw [hs.frame]
  exact hd

theorem calm_memPut (l : List Reg) (a : Nat) (b : List Byte) (s : State) : Calm l s (s.memPut a b) :=
  StoredPlain.calm (storedPlain_memPut a b) l

theorem calm_memAddSat (l : List Reg) (a n k : Nat) (s : State) : Calm l s (s.memAddSat a n k) :=
  .ite (.refl l s) (calm_memPut l _ _ s)

theorem calm_unitWrite (l : List Reg) (a : Nat) (b : List Byte) (s : State) : Calm l s (unitWrite a b s) :=
  .ite (StoredPlain.calm (storedPlain_ctrlWrite 0 none a b) l) (.refl l s)

theorem calm_putRec (l : List Reg) (a : Attempt) (off n v : Nat) (s : State) : Calm l s (putRec a off n v s) :=
  calm_unitWrite l _ _ s

theorem calm_sealLayer (a : Attempt) (w : Watch) (l : Nat) (s : State) : Calm completionRegs s (sealLayer a w l s) := by
  unfold sealLayer
  extract_lets e s1 fresh s2 run src s3
  have h1 : Calm completionRegs s s1 := calm_memPut _ _ _ s
  refine h1.trans ?_
  split
  · exact calm_memPut _ _ _ s1
  · have h2 : Calm completionRegs s1 s2 := (calm_memAddSat _ _ _ _ s1).trans (calm_memAddSat _ _ _ _ _)
    have h3 : Calm completionRegs s2 s3 := by
      unfold s3
      split
      · exact .of_steps _ s2 _
      · exact .refl _ s2
    refine (h2.trans h3).trans ?_
    clear_value s3
    split
    · refine .trans ?_ (.raise _ _ _ _)
      exact .of_steps _ s3 _
    · exact .refl _ s3

/-! ## Completions -/

theorem calm_finish (i : Inflight) (st : Status) (k : Nat) (b p : List Byte) (s : State) :
    Calm completionRegs s (finish i st k b p s) := by
  have hf := finish_frame i st k b p s
  unfold FinishFrame at hf
  refine .of_regs (finish_regs i st k b p s) apartFromWrites_completion ?_ ?_ ?_ ?_ <;>
  · rw [hf]
    try exact id

theorem calm_complete (d : Nat) (st : Status) (k : Nat) (b p : List Byte) (s : State) :
    Calm completionRegs s (complete d st k b p s) := by
  unfold complete
  split
  · refine .trans ?_ (calm_finish _ _ _ _ _ _)
    exact .of_regs (regsKept_of_eq rfl _) apartFromWrites_completion rfl rfl (fun hd j hj => hd j (List.mem_of_mem_filter hj)) rfl
  · exact .refl _ s

theorem calm_waitExcluded (d : Nat) (s : State) : Calm completionRegs s (waitExcluded d s) := by
  refine .of_regs (regsKept_of_eq rfl _) apartFromWrites_completion rfl rfl (fun hd i hi => ?_) rfl
  obtain ⟨j, hj, rfl⟩ := List.mem_map.1 hi
  split <;> exact hd j hj

theorem calm_completeWaited (d : Nat) (st : Status) (b : List Byte) (s : State) :
    Calm completionRegs s (completeWaited d st b s) := (calm_waitExcluded d s).trans (calm_complete _ _ _ _ _ _)

theorem calm_settleOne (d : Nat) (s : State) : Calm completionRegs s (settleOne d s) := by
  unfold settleOne
  split
  · exact .refl _ s
  · next i hi =>
    split
    · exact .ite (calm_completeWaited _ _ _ s) (.refl _ s)
    · exact .ite (calm_completeWaited _ _ _ s) (.refl _ s)
    · exact .ite (calm_complete _ _ _ _ _ s) (.refl _ s)
    · next op hw =>
      intro _ hd
      have := hd i (List.mem_of_find?_eq_some hi)
      simp [hw, Work.disables] at this
    · exact .refl _ s

theorem calm_settle (s : State) : Calm completionRegs s (settle s) := .each _ _ s calm_settleOne

theorem calm_finishClose (step : Nat) (st : Status) (s : State) : Calm completionRegs s (finishClose step st s) :=
  .each _ _ s fun _ u => calm_completeWaited _ _ _ u

/-! ## Rolling back -/

theorem calm_takeSlots (r n : Nat) (s : State) : Calm completionRegs s (takeSlots r n s) := .of_eq _ rfl rfl rfl rfl rfl

theorem calm_abortHeld (step : Nat) (s : State) : Calm completionRegs s (abortHeld step s) :=
  .each _ _ s fun _ u => (calm_takeSlots _ _ u).trans (calm_finish _ _ _ _ _ _)

theorem calm_freeHeld (a : Nat) (s : State) : Calm completionRegs s (freeHeld a s) :=
  .ite (.of_steps _ s _) (.refl _ s)

theorem calm_unbind (mb : Nat) (s : State) : Calm completionRegs s (unbind mb s) := by
  unfold unbind
  refine .trans (.trans ?_ (calm_freeHeld 0 _)) (calm_freeHeld 1 _)
  exact .of_steps _ s _

/-- Rolling back an attempt of a module without passes. -/
theorem calm_rollBack (causes : Nat) (st : Status) (a : Attempt) {s : State} (h : s.passes = []) :
    Calm completionRegs s (rollBack causes st false a s) := by
  unfold rollBack
  extract_lets s1 s2 s3 s4 s5 s6 s7
  have h1 : Calm completionRegs s s1 := calm_finishClose _ _ s
  have h2 : Calm completionRegs s s2 := fun hp hd => by
    have hs : s1.passes = [] := (h1 hp hd).2.2.2.trans h
    have h2 : s2 = s1 := by
      unfold s2
      rw [hs, List.filter_nil, each_nil]
    rw [h2]
    exact h1 hp hd
  have h3 : Calm completionRegs s2 s3 := calm_abortHeld _ _
  have h4 : Calm completionRegs s3 s4 := .each _ _ _ fun _ u => calm_unbind _ u
  have h5 : Calm completionRegs s4 s5 := (calm_putRec _ _ _ _ _ _).trans (calm_putRec _ _ _ _ _ _)
  have h6 : Calm completionRegs s5 s6 := by
    unfold s6
    rw [if_neg Bool.false_ne_true]
    exact .refl _ s5
  have h7 : Calm completionRegs s6 s7 := .of_steps _ s6 _
  have h8 : Calm completionRegs s7 (dropAttempt a s7) := .of_steps _ s7 _
  exact (((((h2.trans h3).trans h4).trans h5).trans h6).trans h7).trans h8

/-- Rolling back attempts of a module without passes. -/
theorem calm_rollBacks (causes : Nat) (st : Status) (l : List Attempt) {s : State} (h : s.passes = []) :
    Calm completionRegs s (each l (rollBack causes st false) s) := by
  induction l generalizing s with
  | nil => exact .refl _ s
  | cons a l ih =>
    rw [each_cons]
    intro hp hd
    have h1 := calm_rollBack causes st a h
    have hs : (rollBack causes st false a s).passes = [] := (h1 hp hd).2.2.2.trans h
    exact h1.trans (ih hs) hp hd

theorem calm_zeroTallies (s : State) : Calm completionRegs s (zeroTallies s) :=
  .each _ _ s fun _ u => .ite (.of_eq _ rfl rfl rfl rfl rfl) (.refl _ u)

end Sys2Proof.Laws
end


section
/-! SUPPORT. The verdict on an attempt: what a seal and a refusal leave (R292 to R296, R310, R316). -/

namespace Sys2Proof.Laws

set_option Elab.async false

open Sys2Proof Sys2Proof.Machine Sys2Proof.Safety

/-! ## Fields of registers -/

/-- A field written, its bits above it and those below it. -/
theorem putBits_eq (v lo w x : Nat) :
    putBits v lo w x = v % 2 ^ lo + 2 ^ lo * (x % 2 ^ w + 2 ^ w * (v / 2 ^ lo / 2 ^ w)) := by
  unfold putBits bits
  rw [Nat.shiftRight_eq_div_pow]
  have h1 := Nat.mod_add_div v (2 ^ lo)
  have h2 := Nat.mod_add_div (v / 2 ^ lo) (2 ^ w)
  generalize v / 2 ^ lo = q at *
  generalize q / 2 ^ w = r at *
  have h3 : v = v % 2 ^ lo + q % 2 ^ w * 2 ^ lo + 2 ^ lo * (2 ^ w * r) := by
    calc v = v % 2 ^ lo + 2 ^ lo * (q % 2 ^ w + 2 ^ w * r) := by rw [h2, h1]
      _ = _ := by ring
  rw [show v - q % 2 ^ w * 2 ^ lo = v % 2 ^ lo + 2 ^ lo * (2 ^ w * r) by omega]
  ring

/-- A field written reads as the value that it holds. -/
theorem bits_putBits (v lo w x : Nat) : bits (putBits v lo w x) lo w = x % 2 ^ w := by
  rw [putBits_eq, bits, Nat.shiftRight_eq_div_pow, Nat.add_mul_div_left _ _ (by positivity),
    Nat.div_eq_of_lt (Nat.mod_lt _ (by positivity)), Nat.zero_add, Nat.add_mul_mod_self_left, Nat.mod_mod]

/-- The low bits of a number hold its fields. -/
theorem bits_mod (v : Nat) {lo w k : Nat} (h : lo + w ≤ k) : bits (v % 2 ^ k) lo w = bits v lo w := by
  refine Nat.eq_of_testBit_eq fun i => ?_
  simp only [bits, Nat.testBit_mod_two_pow, Nat.testBit_shiftRight]
  by_cases hi : i < w
  · simp [hi, show lo + i < k by omega]
  · simp [hi]

theorem rgBits_setRgBits_same (s : State) (n : RegName) {lo w : Nat} (h : lo + w ≤ 8 * n.row.bytes) (x : Nat) :
    (s.setRgBits n lo w x).rgBits n lo w = x % 2 ^ w := by
  have hp : 256 ^ n.row.bytes = 2 ^ (8 * n.row.bytes) := by rw [Nat.pow_mul]
  rw [State.rgBits, State.setRgBits, rg_setRg, hp, bits_mod _ h, bits_putBits]
/-! ## The stages of a seal (R294) -/

/-- The version of a sealed step is current in the other area. -/
def sealPlaced (a : Attempt) (s : State) : State :=
  let s := flipAreas s
  { s with steps := { s.steps with version := (a.step + 1) % 2 ^ 40 } }

/-- The logs of a sealed step are released. -/
def sealLogged (a : Attempt) (s : State) : State :=
  State.relaxLog { s with steps := { s.steps with log := s.steps.log.release a.step, mlog := s.steps.mlog.release a.step } }

/-- The multiply-accumulates of a sealed step are counted. -/
def sealCounted (a : Attempt) (s : State) : State :=
  ((s.inc .stpSealedMac4 a.mac4).inc .stpSealedMac8 a.mac8).inc .stpSealedMac16 a.mac16

/-- What the module holds for a sealed attempt goes, and with back the mirror is established again. -/
def sealDropped (a : Attempt) (back : Bool) (s : State) : State :=
  { s with steps := { s.steps with
    attempts := s.steps.attempts.filter (fun b => b.step != a.step), tried := s.steps.tried.filter (fun t => a.step < t.1),
    recorded := s.steps.recorded.filter (fun t => a.step < t.1),
    reports := s.steps.reports.filter (fun r => a.step < r.step), facts := s.steps.facts.filter (fun f => a.step < f.1),
    digests := s.steps.digests.filter (fun d => d.step != a.step % 256), lost := s.steps.lost && !back,
    remirror := s.steps.remirror && !back, remirrorCopied := s.steps.remirrorCopied && !back } }

/-- The version that the mirror holds. -/
def mirrorHolds (v : Option Nat) (s : State) : State := { s with hrv := { s.hrv with mirrorVer := v } }

/-- A sealed attempt's watch table and record are written, and it goes. -/
def sealEnded (a : Attempt) (ver : Option Nat) (s : State) : State :=
  let s := putRec a 0x06 1 3 (sealWatch a s)
  let back := a.remirror && s.mirrorOn
  let was := s.steps.lost
  let s := mirrorHolds ver (sealDropped a back s)
  if back && was then unprotectedEvent s.steps.lostCause 1 s else s

theorem applySeal_eq (a : Attempt) (s : State) : applySeal a s = settle (finishClose a.step .ok
    (sealEnded a (if s.twin a && a.digestDone && a.mirrorOk then some (a.step + 1) else none)
      (sealCounted a (sealLogged a ((sealPlaced a s).setRg .stpLastSealed (a.step + 2 ^ 40)))))) := rfl

theorem curArea_sealPlaced (a : Attempt) (s : State) : (sealPlaced a s).steps.curArea = 1 - s.steps.curArea := rfl

theorem unitWork_sealLogged (a : Attempt) (s : State) : UnitWork s (sealLogged a s) := by
  refine .trans ?_ (unitWork_relaxLog _)
  exact .of_steps s _ rfl rfl (List.Subset.refl _)

theorem unitWork_sealCounted (a : Attempt) (s : State) : UnitWork s (sealCounted a s) :=
  (((memWork_setRg _ _ _ _ s).trans (memWork_setRg _ _ _ _ _)).trans (memWork_setRg _ _ _ _ _)).unitWork

theorem unitWork_sealDropped (a : Attempt) (back : Bool) (s : State) : UnitWork s (sealDropped a back s) :=
  .of_steps s _ rfl rfl List.filter_sublist.subset

theorem unitWork_mirrorHolds (v : Option Nat) (s : State) : UnitWork s (mirrorHolds v s) :=
  ⟨rfl, List.Subset.refl _, rfl, rfl, List.Subset.refl _⟩

theorem unitWork_unprotected (c d : Nat) (s : State) : UnitWork s (unprotectedEvent c d s) := (MemWork.raise _ _ _ s).unitWork

theorem unitWork_sealEnded (a : Attempt) (ver : Option Nat) (s : State) :
    UnitWork s (sealEnded a ver s) ∧ ∀ b ∈ (sealEnded a ver s).steps.attempts, b.step ≠ a.step := by
  unfold sealEnded
  extract_lets s1 back was s2
  have h1 : UnitWork s s1 := (unitWork_sealWatch a s).trans (memWork_putRec _ _ _ _ _).unitWork
  have h2 : UnitWork s1 s2 := (unitWork_sealDropped a back s1).trans (unitWork_mirrorHolds ver _)
  have h3 : UnitWork s2 (if back && was then unprotectedEvent s2.steps.lostCause 1 s2 else s2) :=
    .ite (unitWork_unprotected _ _ _) (.refl s2)
  refine ⟨(h1.trans h2).trans h3, fun b hb => ?_⟩
  simpa using (List.mem_filter.1 (h3.attempts hb)).2

/-- A sealed attempt's version, attempts and STEP_CLOSE. -/
theorem applySeal_closes (a : Attempt) (s : State) :
    (applySeal a s).steps.version = (a.step + 1) % 2 ^ 40 ∧ (applySeal a s).steps.curArea = 1 - s.steps.curArea ∧
      (∀ b ∈ (applySeal a s).steps.attempts, b.step ≠ a.step) ∧ Closed a.step .ok s (applySeal a s) := by
  rw [applySeal_eq]
  generalize (if s.twin a && a.digestDone && a.mirrorOk then some (a.step + 1) else none) = ver
  obtain ⟨h4, ha⟩ := unitWork_sealEnded a ver
    (sealCounted a (sealLogged a ((sealPlaced a s).setRg .stpLastSealed (a.step + 2 ^ 40))))
  have h1 : UnitWork (sealPlaced a s) _ := (memWork_setRg .stpLastSealed (a.step + 2 ^ 40) 0 0 (sealPlaced a s)).unitWork
  have h := ((h1.trans (unitWork_sealLogged a _)).trans (unitWork_sealCounted a _)).trans h4
  generalize sealEnded a ver _ = u at *
  have h5 : Onward u (finishClose a.step .ok u) := onward_finishClose _ _ u
  have h6 := h5.trans (onward_settle _)
  refine ⟨h6.version.trans h.version, h6.curArea.trans (h.curArea.trans (curArea_sealPlaced a s)),
    fun b hb => ha b (h6.attempts hb), ?_⟩
  refine closed_after (u := u) (.trans (u := sealPlaced a s) (.of_eq rfl rfl) h.posts) h.inflight ?_
  exact closed_onward (closed_finishClose _ _ u) (onward_settle _)

/-! ### Its registers -/

theorem sealLogged_regs (a : Attempt) (s : State) : (sealLogged a s).regs = s.regs := by
  unfold sealLogged State.relaxLog
  split <;> rfl

/-- The step unit's registers that a seal writes. -/
def sealRegs : List Reg :=
  [⟨.stpLastSealed, 0, 0⟩, ⟨.stpSealedMac4, 0, 0⟩, ⟨.stpSealedMac8, 0, 0⟩, ⟨.stpSealedMac16, 0, 0⟩]

theorem apartFromWrites_seal : ApartFromWrites sealRegs := by
  unfold ApartFromWrites sealRegs
  decide

theorem calm_sealReg {r : Reg} (h : r ∈ sealRegs) (v : Nat) (s : State) : Calm sealRegs s (s.setRg r.name v r.i r.j) :=
  .of_regs (regsKept_mono (regsKept_setRg s r.name v r.i r.j) (by simpa using h)) apartFromWrites_seal rfl rfl id rfl

theorem sealPlaced_regs (a : Attempt) (s : State) : (sealPlaced a s).regs = s.regs := rfl

theorem calm_sealPlaced (a : Attempt) (s : State) : Calm sealRegs s (sealPlaced a s) := .of_eq _ rfl rfl rfl rfl rfl

theorem calm_sealDropped (a : Attempt) (back : Bool) (s : State) : Calm completionRegs s (sealDropped a back s) := .of_steps _ s _

theorem calm_mirrorHolds (v : Option Nat) (s : State) : Calm completionRegs s (mirrorHolds v s) := .of_eq _ rfl rfl rfl rfl rfl

theorem calm_sealLogged (a : Attempt) (s : State) : Calm sealRegs s (sealLogged a s) :=
  .trans (.of_steps _ s _) (.ite (.of_steps _ _ _) (.refl _ _))

theorem calm_sealCounted (a : Attempt) (s : State) : Calm sealRegs s (sealCounted a s) :=
  ((calm_sealReg (r := ⟨.stpSealedMac4, 0, 0⟩) (by simp [sealRegs]) _ s).trans
    (calm_sealReg (r := ⟨.stpSealedMac8, 0, 0⟩) (by simp [sealRegs]) _ _)).trans
      (calm_sealReg (r := ⟨.stpSealedMac16, 0, 0⟩) (by simp [sealRegs]) _ _)

theorem calm_sealEnded (a : Attempt) (ver : Option Nat) (s : State) : Calm completionRegs s (sealEnded a ver s) := by
  unfold sealEnded
  extract_lets s1 back was s2
  have h1 : Calm completionRegs s s1 := (Calm.each _ _ s (calm_sealLayer _ _)).trans (calm_putRec _ _ _ _ _ _)
  have h2 : Calm completionRegs s1 s2 := (calm_sealDropped a back s1).trans (calm_mirrorHolds ver _)
  exact (h1.trans h2).trans (.ite (.raise _ _ _ s2) (.refl _ s2))

/-- The sealed step and its multiply-accumulates stand in their registers. -/
theorem applySeal_registers (a : Attempt) (s : State) (hp : PlainMemory s) (hd : NoDisable s) :
    (applySeal a s).rg .stpLastSealed = (a.step + 2 ^ 40) % 256 ^ RegName.stpLastSealed.row.bytes ∧
    (applySeal a s).rg .stpSealedMac4 = (s.rg .stpSealedMac4 + a.mac4) % 256 ^ RegName.stpSealedMac4.row.bytes ∧
    (applySeal a s).rg .stpSealedMac8 = (s.rg .stpSealedMac8 + a.mac8) % 256 ^ RegName.stpSealedMac8.row.bytes ∧
    (applySeal a s).rg .stpSealedMac16 = (s.rg .stpSealedMac16 + a.mac16) % 256 ^ RegName.stpSealedMac16.row.bytes := by
  rw [applySeal_eq]
  generalize (if s.twin a && a.digestDone && a.mirrorOk then some (a.step + 1) else none) = ver
  have hq : Calm sealRegs s ((sealPlaced a s).setRg .stpLastSealed (a.step + 2 ^ 40)) :=
    (calm_sealPlaced a s).trans (calm_sealReg (r := ⟨.stpLastSealed, 0, 0⟩) (by simp [sealRegs]) _ _)
  have hqv := rg_setRg (sealPlaced a s) .stpLastSealed (a.step + 2 ^ 40) 0 0
  have hqo (n : RegName) (hn : Reg.offset ⟨n, 0, 0⟩ ≠ Reg.offset ⟨.stpLastSealed, 0, 0⟩) :
      ((sealPlaced a s).setRg .stpLastSealed (a.step + 2 ^ 40)).rg n = s.rg n := by
    rw [rg_setRg_other _ _ _ _ _ _ _ _ hn]
    simp only [State.rg, State.rgQ, sealPlaced_regs]
  generalize (sealPlaced a s).setRg .stpLastSealed (a.step + 2 ^ 40) = q at *
  have hr : Calm sealRegs s (sealLogged a q) := hq.trans (calm_sealLogged a q)
  have hrr (n : RegName) : (sealLogged a q).rg n = q.rg n := by simp only [State.rg, State.rgQ, sealLogged_regs]
  generalize sealLogged a q = r at *
  obtain ⟨-, htp, htd, -⟩ := hr.trans (calm_sealCounted a r) hp hd
  obtain ⟨hk, -⟩ := ((calm_sealEnded a ver _).trans (calm_finishClose a.step .ok _)).trans (calm_settle _) htp htd
  have hu (n : RegName) (hn : Reg.offset ⟨n, 0, 0⟩ ∉ completionRegs.map Reg.offset) := rg_regsKept hk n 0 0 hn
  rw [hu .stpLastSealed (by decide), hu .stpSealedMac4 (by decide), hu .stpSealedMac8 (by decide), hu .stpSealedMac16 (by decide)]
  unfold sealCounted
  refine ⟨?_, ?_, ?_, ?_⟩
  · rw [State.inc, rg_setRg_other _ _ _ _ _ _ _ _ (by decide), State.inc, rg_setRg_other _ _ _ _ _ _ _ _ (by decide), State.inc,
      rg_setRg_other _ _ _ _ _ _ _ _ (by decide), hrr, hqv]
  · rw [State.inc, rg_setRg_other _ _ _ _ _ _ _ _ (by decide), State.inc, rg_setRg_other _ _ _ _ _ _ _ _ (by decide), rg_inc,
      hrr, hqo _ (by decide)]
  · rw [State.inc, rg_setRg_other _ _ _ _ _ _ _ _ (by decide), rg_inc, State.inc, rg_setRg_other _ _ _ _ _ _ _ _ (by decide),
      hrr, hqo _ (by decide)]
  · rw [rg_inc, State.inc, rg_setRg_other _ _ _ _ _ _ _ _ (by decide), State.inc, rg_setRg_other _ _ _ _ _ _ _ _ (by decide),
      hrr, hqo _ (by decide)]

theorem sealed_applySeal (a : Attempt) (s : State) : Sealed a s (applySeal a s) := by
  obtain ⟨hv, hc, ha, hcl⟩ := applySeal_closes a s
  exact ⟨hv, hc, ha, hcl, applySeal_registers a s⟩

/-! ## Refusing (R295, R310) -/

/-- A refused attempt and the later ones are rolled back. -/
def refuseRolled (a : Attempt) (causes : Nat) (later : List Attempt) (s : State) : State :=
  zeroTallies (each later (rollBack (causes ||| 0x40) .sealRefused false) (rollBack causes .sealRefused false a s))

/-- A refusal is counted. -/
def refuseCounted (s : State) : State := s.setRgBits .stpAttempts 32 32 (s.rgBits .stpAttempts 32 32 + 1)

/-- The events of a refusal. -/
def refuseRaised (a : Attempt) (causes sum : Nat) (later : List Attempt) (s : State) : State :=
  each later (refusedEvent (causes ||| 0x40) sum) (refusedEvent causes sum a s)

/-- What follows a refusal of an attempt whose digests differ from the partner's. -/
def refuseRepaired (a : Attempt) (s : State) : State :=
  let own := (a.mismatch.filter (fun b => b % 2 = 0)).map (· / 2)
  let mir := (a.mismatch.filter (fun b => b % 2 = 1)).map (· / 2)
  if a.mismatch = [] || s.unprotected then s else startRepair a.step own mir s

/-- The open attempts later than one. -/
def laterOf (a : Attempt) (s : State) : List Attempt := s.openAttempts.filter (fun b => a.step < b.step)

theorem applyRefuse_eq (a : Attempt) (causes sum : Nat) (s : State) : applyRefuse a causes sum s =
    settle (refuseRepaired a (refuseRaised a causes sum (laterOf a s) (refuseCounted
      (refuseRolled a causes (laterOf a s) s)))) := rfl

/-- Attempts rolled back one after another are open no longer. -/
theorem rollBacks_close (causes : Nat) (st : Status) (l : List Attempt) (s : State) :
    Onward s (each l (rollBack causes st false) s) ∧
      ∀ c ∈ l, ∀ b ∈ (each l (rollBack causes st false) s).steps.attempts, b.step ≠ c.step := by
  induction l generalizing s with
  | nil => exact ⟨.refl s, fun _ h => absurd h List.not_mem_nil⟩
  | cons a l ih =>
    rw [each_cons]
    obtain ⟨ho, ha, -⟩ := rollBack_closes causes st false a s
    obtain ⟨hl, hc⟩ := ih (rollBack causes st false a s)
    refine ⟨ho.trans hl, fun c hm b hb => ?_⟩
    rcases List.mem_cons.1 hm with rfl | hm
    · exact ha b (hl.attempts hb)
    · exact hc c hm b hb

theorem onward_refuseCounted (s : State) : Onward s (refuseCounted s) := (memWork_setRg _ _ _ _ s).onward

theorem onward_refuseRaised (a : Attempt) (causes sum : Nat) (later : List Attempt) (s : State) :
    Onward s (refuseRaised a causes sum later s) :=
  (Onward.raise _ _ _ s).trans (.each _ _ _ fun _ u => .raise _ _ _ u)

theorem onward_refuseRepaired (a : Attempt) (s : State) : Onward s (refuseRepaired a s) :=
  .ite (.refl s) (onward_startRepair _ _ _ s)

/-- Of a refusal: its attempts go, and its STEP_CLOSE completes. -/
theorem applyRefuse_closes (a : Attempt) (causes sum : Nat) (s : State) :
    let u := applyRefuse a causes sum s
    u.steps.version = s.steps.version ∧ u.steps.curArea = s.steps.curArea ∧ (∀ b ∈ u.steps.attempts, b.step ≠ a.step) ∧
      (∀ c ∈ s.openAttempts, a.step < c.step → ∀ b ∈ u.steps.attempts, b.step ≠ c.step) ∧
      Closed a.step .sealRefused s u := by
  intro u
  obtain ⟨h1, ha, hc⟩ := rollBack_closes causes .sealRefused false a s
  obtain ⟨h2, hl⟩ := rollBacks_close (causes ||| 0x40) .sealRefused (laterOf a s) (rollBack causes .sealRefused false a s)
  have h3 : Onward (each (laterOf a s) (rollBack (causes ||| 0x40) .sealRefused false) (rollBack causes .sealRefused false a s)) u :=
    ((((onward_zeroTallies _).trans (onward_refuseCounted _)).trans (onward_refuseRaised a causes sum (laterOf a s) _)).trans
      (onward_refuseRepaired a _)).trans (onward_settle _)
  have h := (h1.trans h2).trans h3
  refine ⟨h.version, h.curArea, fun b hb => ha b (h2.attempts (h3.attempts hb)), fun c hm hs b hb => ?_,
    closed_onward hc (h2.trans h3)⟩
  exact hl c (List.mem_filter.2 ⟨hm, decide_eq_true hs⟩) b (h3.attempts hb)

/-! ### Its register -/

theorem calm_refuseRaised (a : Attempt) (causes sum : Nat) (later : List Attempt) (s : State) :
    Calm completionRegs s (refuseRaised a causes sum later s) :=
  (Calm.raise _ _ _ s).trans (.each _ _ _ fun _ u => .raise _ _ _ u)

/-- A module without a twin repairs nothing. -/
theorem calm_refuseRepaired (a : Attempt) (s : State) : Calm completionRegs s (refuseRepaired a s) := fun hp hd => by
  have hu : s.unprotected = true := by
    obtain ⟨-, -, -, hm, -⟩ := hp
    simp [State.unprotected, hm]
  have he : refuseRepaired a s = s := by simp [refuseRepaired, hu]
  rw [he]
  exact Calm.refl _ s hp hd

theorem apartFromWrites_attempts : ApartFromWrites [⟨.stpAttempts, 0, 0⟩] := by
  unfold ApartFromWrites
  decide

/-- The refusal is counted. -/
theorem applyRefuse_counted (a : Attempt) (causes sum : Nat) (s : State) (hp : PlainMemory s) (hd : NoDisable s) (hs : s.passes = []) :
    (applyRefuse a causes sum s).rgBits .stpAttempts 32 32 = (s.rgBits .stpAttempts 32 32 + 1) % 2 ^ 32 := by
  have h1 : Calm completionRegs s (refuseRolled a causes (laterOf a s) s) := fun hp hd => by
    have h := calm_rollBack causes .sealRefused a hs
    have hs1 : (rollBack causes .sealRefused false a s).passes = [] := (h hp hd).2.2.2.trans hs
    exact ((h.trans (calm_rollBacks (causes ||| 0x40) .sealRefused (laterOf a s) hs1)).trans (calm_zeroTallies _)) hp hd
  obtain ⟨hr, hp1, hd1, -⟩ := h1 hp hd
  generalize hq : refuseRolled a causes (laterOf a s) s = q at *
  obtain ⟨-, hp2, hd2, -⟩ := calm_setRg apartFromWrites_attempts
    (putBits (q.rg .stpAttempts) 32 32 (q.rgBits .stpAttempts 32 32 + 1)) q hp1 hd1
  obtain ⟨hk, -⟩ := ((calm_refuseRaised a causes sum (laterOf a s) (refuseCounted q)).trans (calm_refuseRepaired a _)).trans
    (calm_settle _) hp2 hd2
  rw [applyRefuse_eq, hq, State.rgBits, rg_regsKept hk .stpAttempts 0 0 (by decide), ← State.rgBits, refuseCounted,
    rgBits_setRgBits_same _ _ (by decide), State.rgBits, rg_regsKept hr .stpAttempts 0 0 (by decide), State.rgBits]

theorem refused_applyRefuse (a : Attempt) (causes sum : Nat) (s : State) : Refused a s (applyRefuse a causes sum s) := by
  obtain ⟨hv, hc, ha, hl, hcl⟩ := applyRefuse_closes a causes sum s
  exact ⟨hv, hc, ha, hl, hcl, applyRefuse_counted a causes sum s⟩

/-! ## The verdict (R292, R316) -/

/-- A verdict stands in STP_LAST_VERDICT and in the attempt's record. -/
def verdictKept (a : Attempt) (v : Verdict) (s : State) : State :=
  let s := s.setRg .stpLastVerdict (a.step + a.num * 2 ^ 40 + (if v.pass then 2 ^ 48 else 0) + 2 ^ 49)
  putRec a 0x88 8 s.aon (putRec a 0x68 8 v.sum s)

theorem settleVerdict_eq (a : Attempt) (v : Verdict) (s : State) : settleVerdict a v s =
    if v.pass then applySeal a (verdictKept a v s)
    else applyRefuse a (v.causes ||| (if v.host then 0x20 else 0)) v.sum (verdictKept a v s) := rfl

theorem memWork_verdictKept (a : Attempt) (v : Verdict) (s : State) : MemWork s (verdictKept a v s) :=
  ((memWork_setRg _ _ _ _ s).trans (memWork_putRec _ _ _ _ _)).trans (memWork_putRec _ _ _ _ _)

theorem calm_verdictKept (a : Attempt) (v : Verdict) (s : State) : Calm [⟨.stpLastVerdict, 0, 0⟩] s (verdictKept a v s) := by
  have hl : ApartFromWrites [⟨.stpLastVerdict, 0, 0⟩] := by
    unfold ApartFromWrites
    decide
  exact ((calm_setRg hl _ s).trans (calm_putRec _ _ _ _ _ _)).trans (calm_putRec _ _ _ _ _ _)

/-- An attempt sealed after work at the memories that writes STP_LAST_VERDICT alone. -/
theorem sealed_after {a : Attempt} {s u v : State} (h : MemWork s u) (k : Calm [⟨.stpLastVerdict, 0, 0⟩] s u) (hs : Sealed a u v) :
    Sealed a s v := by
  obtain ⟨hv, hc, ha, hcl, hr⟩ := hs
  refine ⟨hv, by rw [hc, h.steps], ha, closed_after h.posts h.inflight hcl, fun hp hd => ?_⟩
  obtain ⟨kr, kp, kd, -⟩ := k hp hd
  have hrg (n : RegName) (hn : Reg.offset ⟨n, 0, 0⟩ ∉ [Reg.offset ⟨.stpLastVerdict, 0, 0⟩]) : u.rg n = s.rg n :=
    rg_regsKept kr n 0 0 hn
  rw [← hrg .stpSealedMac4 (by decide), ← hrg .stpSealedMac8 (by decide), ← hrg .stpSealedMac16 (by decide)]
  exact hr kp kd

/-- An attempt refused after such work. -/
theorem refused_after {a : Attempt} {s u v : State} (h : MemWork s u) (k : Calm [⟨.stpLastVerdict, 0, 0⟩] s u)
    (hs : Refused a u v) : Refused a s v := by
  obtain ⟨hv, hc, ha, hl, hcl, hr⟩ := hs
  refine ⟨by rw [hv, h.steps], by rw [hc, h.steps], ha, ?_, closed_after h.posts h.inflight hcl, fun hp hd hn => ?_⟩
  · rw [State.openAttempts, ← h.steps]
    exact hl
  · obtain ⟨kr, kp, kd, ks⟩ := k hp hd
    have hrg : u.rg .stpAttempts = s.rg .stpAttempts := rg_regsKept kr .stpAttempts 0 0 (by decide)
    rw [hr kp kd (ks.trans hn), State.rgBits, State.rgBits, hrg]

/-- A verdict that is applied seals or refuses its attempt. -/
theorem settleVerdict_decides (a : Attempt) (v : Verdict) (s : State) :
    if v.pass then Sealed a s (settleVerdict a v s) else Refused a s (settleVerdict a v s) := by
  have hm := memWork_verdictKept a v s
  have hc := calm_verdictKept a v s
  rw [settleVerdict_eq]
  split
  · exact sealed_after hm hc (sealed_applySeal _ _)
  · exact refused_after hm hc (refused_applyRefuse _ _ _ _)

end Sys2Proof.Laws
end


section
/-! SUPPORT. The twin's sends: the next entry of a mirror send list, and the digests of the attempt in CHECK (R302, R305, R306,
R309). -/

namespace Sys2Proof.Laws

set_option Elab.async false

open Sys2Proof Sys2Proof.Machine Sys2Proof.Safety

/-! ## The attempt of a step -/

/-- The attempt of a step once a change that keeps its step has been made to it. -/
theorem attempt?_updAttempt {s : State} {k : Nat} {a : Attempt} {f : Attempt → Attempt} (h : s.attempt? k = some a)
    (hf : (f a).step = a.step) : (s.updAttempt k f).attempt? k = some (f a) := by
  have ha : a.step = k := by simpa using List.find?_some h
  rw [State.attempt?] at h
  change (s.steps.attempts.map fun a => if a.step = k then f a else a).find? (fun a => a.step == k) = some (f a)
  generalize s.steps.attempts = l at h
  induction l with
  | nil => simp at h
  | cons b l ih =>
    rw [List.map_cons]
    by_cases hb : b.step = k
    · obtain rfl : b = a := by simpa [hb] using h
      simp [hb, hf]
    · have hb' : (b.step == k) = false := by simpa using hb
      rw [List.find?_cons, hb'] at h
      rw [if_neg hb, List.find?_cons, hb']
      exact ih h

theorem attempt?_congr {s u : State} (h : u.steps = s.steps) (k : Nat) : u.attempt? k = s.attempt? k := by
  rw [State.attempt?, State.attempt?, h]

/-! ## Registers of the step unit through reads -/

theorem partner_readWork {s u : State} (h : ReadWork s u) : u.partner = s.partner := by
  rw [State.partner, State.rgBits, rg_readRegs h.regs .stpMirrorCfg 0 0 (by decide)]
  rfl

theorem mapSegs_readWork {s u : State} (h : ReadWork s u) (mirror : Bool) : u.mapSegs mirror = s.mapSegs mirror := by
  refine List.map_congr_left fun i hi => ?_
  have hi : i < 16 := List.mem_range.1 hi
  have hr (n : RegName) (ho : 0x250000 ≤ Reg.offset ⟨n, i, 0⟩ ∧ Reg.offset ⟨n, i, 0⟩ < 0x800000) : u.rg n i = s.rg n i :=
    rg_readRegs h.regs n i 0 (.inl ho)
  unfold State.mapSeg
  split
  · rw [hr .stpMirrorSegA0, hr .stpMirrorSegA1, hr .stpMirrorSegBlocks] <;>
    · simp only [Reg.offset, RegName.row, row1]
      omega
  · rw [hr .stpShardSegA0, hr .stpShardSegA1, hr .stpShardSegBlocks] <;>
    · simp only [Reg.offset, RegName.row, row1]
      omega

/-! ## Mirror sends (R305) -/

/-- Bytes that are there make at least one piece. -/
theorem cut_ne_nil (a : Nat) {b : List Byte} (d : List Bool) (h : b ≠ []) : cut a b d ≠ [] := by
  simp [cut, cutFuel, h]

theorem mirrorPieces_ne_nil (kind step a : Nat) {b : List Byte} (d : List Bool) (h : b ≠ []) :
    mirrorPieces kind step a b d ≠ [] := by
  simpa [mirrorPieces] using cut_ne_nil a d h

theorem length_upFrom (a n : Nat) : (upFrom a n).length = n := by
  induction n generalizing a with
  | zero => rfl
  | succ n ih => rw [upFrom, List.length_cons, ih]

theorem readMarked_ne_nil (s : State) (a : Nat) {n : Nat} (h : n ≠ 0) : (s.readMarked a n).1 ≠ [] := by
  intro hb
  have : (s.readMarked a n).1.length = n := by simp [State.readMarked, readRange, State.memBytes, length_upFrom]
  rw [hb] at this
  exact h this.symm

/-- Taking a command's need from its trigger tally leaves the rest of the count. -/
theorem count_takeNeed (k need : Nat) {s : State} (h : (s.mtally k).gate = false) :
    ((takeNeed k need s).mtally k).count = (s.mtally k).count - BitVec.ofNat 32 need := by
  have hg (t : Word) : ((s.mtally k).waited t).gate = false := by
    unfold Tally.waited
    simp only
    split <;> exact h
  simp only [takeNeed, mtally_setMtally, if_true, Tally.take, hg, if_false, Bool.false_eq_true, waited_count]

/-- The attempt's next entry is passed over. -/
def sendPassed (a : Attempt) (s : State) : State := s.updAttempt a.step (fun a => { a with mirrorPos := a.mirrorPos + 1 })

/-- The attempt's next entry runs. -/
def sendBusy (a : Attempt) (s : State) : State := s.updAttempt a.step (fun a => { a with mirrorBusy := true })

theorem attempt?_sendBusy {a : Attempt} {s : State} (h : s.attempt? a.step = some a) :
    (sendBusy a s).attempt? a.step = some { a with mirrorBusy := true } := attempt?_updAttempt h rfl

/-- The bytes of an entry go to the partner. -/
def sendOff (e : SendEntry) (a : Attempt) (s : State) : State :=
  sendOperation 0x20 s.partner 3 .mirrorSend
    (mirrorPieces 0 a.step e.dst (s.readMarked e.src e.len).1 (s.readMarked e.src e.len).2) (some (e.ptal, e.inc)) s

theorem startSend_eq (a : Attempt) (s : State) :
    startSend a s = if !s.twin a || (s.sendEntry a).len = 0 then sendPassed a (takeNeed (s.sendEntry a).tally (s.sendEntry a).need s)
      else sendOff (s.sendEntry a) a (noteRead (s.sendEntry a).src (s.sendEntry a).len 3 a.step
        (sendBusy a (takeNeed (s.sendEntry a).tally (s.sendEntry a).need s))) := rfl

theorem mirrorSendEntryOp_eq {s : State} {a : Attempt} (hs : s.alive = true) (hf : s.openAttempts.find? s.sendReady = some a)
    (hb : s.openAttempts.any (·.mirrorBusy) = false) : mirrorSendEntryOp s = startSend a s := by
  simp [mirrorSendEntryOp, hs, hf, hb]

theorem sends_sendOff (e : SendEntry) (a : Attempt) (s : State) : Sends s (sendOff e a s) := sends_sendOperation _ _ _ _ _ _ _

theorem underWay_sendOff {e : SendEntry} (a : Attempt) (s : State) (he : e.len ≠ 0) :
    UnderWay (sendOff e a s) .mirrorSend s.partner 3 :=
  underWay_sendOperation _ _ _ _ (mirrorPieces_ne_nil _ _ _ _ (readMarked_ne_nil s e.src he)) _ s

/-- What an entry that runs leaves: the attempt is busy, its bytes are under way, and a memory without errors keeps its bytes. -/
theorem sendOff_spec {e : SendEntry} {a : Attempt} {s r : State} (hr : ReadWork (sendBusy a s) r)
    (hm : s.memory.errs = [] → SameBytes (sendBusy a s) r) (ha : s.attempt? a.step = some a) (he : e.len ≠ 0) :
    (sendOff e a r).sync = s.sync ∧ (∃ b, (sendOff e a r).attempt? a.step = some b ∧ b.mirrorBusy = true) ∧
      UnderWay (sendOff e a r) .mirrorSend s.partner 3 ∧ (s.memory.errs = [] → (sendOff e a r).memory.mem = s.memory.mem) := by
  have hu := (sends_sendOff e a r).frame
  have hp := underWay_sendOff a r he
  rw [partner_readWork hr] at hp
  refine ⟨?_, ⟨{ a with mirrorBusy := true }, ?_, rfl⟩, hp, fun h => ?_⟩
  · rw [hu]
    exact hr.sync
  · rw [attempt?_congr (s := sendBusy a s) (by rw [hu]; exact hr.steps)]
    exact attempt?_sendBusy ha
  · rw [hu]
    exact (hm h).mem

/-! ## The digest exchange (R309) -/

/-- What comparing digests leaves as it was: the memory, what is under way and queued, the digests received, and that an attempt has
sent its own. -/
structure Compares (s u : State) : Prop where
  memory : u.memory = s.memory
  underWay : ∀ p node vl, UnderWay s p node vl → UnderWay u p node vl
  queues : ∀ q, (s.port q).txq ⊆ (u.port q).txq
  digests : u.steps.digests = s.steps.digests
  sent : ∀ n, (∃ b ∈ s.steps.attempts, b.step = n ∧ b.digestSent = true) →
    ∃ b ∈ u.steps.attempts, b.step = n ∧ b.digestSent = true

theorem Compares.refl (s : State) : Compares s s := ⟨rfl, fun _ _ _ => id, fun _ => List.Subset.refl _, rfl, fun _ => id⟩

theorem Compares.trans {s u v : State} (h : Compares s u) (k : Compares u v) : Compares s v where
  memory := k.memory.trans h.memory
  underWay p n l hu := k.underWay p n l (h.underWay p n l hu)
  queues q := List.Subset.trans (h.queues q) (k.queues q)
  digests := k.digests.trans h.digests
  sent n hn := k.sent n (h.sent n hn)

theorem Compares.ite {s u v : State} {c : Prop} [Decidable c] (h : Compares s u) (k : Compares s v) :
    Compares s (if c then u else v) := by
  split <;> assumption

theorem Compares.queued {s u : State} (h : Compares s u) {node xid type : Nat} (k : Queued s node xid type) :
    Queued u node xid type := by
  obtain ⟨q, o, ho, hk⟩ := k
  exact ⟨q, o, h.queues q ho, hk⟩

theorem Sends.compares {s u : State} (h : Sends s u) : Compares s u where
  memory := by rw [h.frame]
  underWay := h.underWay
  queues := h.queues
  digests := by rw [h.frame]
  sent n hn := by rw [h.frame]; exact hn

theorem compares_updAttempt (k : Nat) (f : Attempt → Attempt) (s : State)
    (hf : ∀ a, (f a).step = a.step ∧ (f a).digestSent = a.digestSent) : Compares s (s.updAttempt k f) where
  memory := rfl
  underWay _ _ _ := id
  queues _ := List.Subset.refl _
  digests := rfl
  sent n := by
    rintro ⟨b, hb, hn, hs⟩
    refine ⟨_, List.mem_map_of_mem hb, ?_⟩
    split
    · rw [(hf b).1, (hf b).2]
      exact ⟨hn, hs⟩
    · exact ⟨hn, hs⟩

theorem compares_raise (c : EventCode) (i : Nat) (d : BitVec 128) (s : State) : Compares s (raiseEvent c i d s) := by
  have hf := raiseEvent_frame c i d s
  unfold EventFrame at hf
  rw [hf]
  exact ⟨rfl, fun _ _ _ => id, fun _ => List.Subset.refl _, rfl, fun _ => id⟩

theorem compares_endCompare (a : Attempt) (own mir : List Nat) (ok : Bool) (s : State) : Compares s (endCompare a own mir ok s) := by
  unfold endCompare
  extract_lets all s1
  have h1 : Compares s s1 := compares_updAttempt a.step _ s fun _ => ⟨rfl, rfl⟩
  exact h1.trans (.ite (.refl s1) (compares_raise _ _ _ s1))

/-- The block digests of differing groups go out once. -/
def blocksOut (a : Attempt) (og mg : List Nat) (s : State) : State :=
  if a.blocksSent then s
  else sendBlockDigests a true 5 mg (sendBlockDigests a false 4 og (s.updAttempt a.step (fun a => { a with blocksSent := true })))

theorem compares_blocksOut (a : Attempt) (og mg : List Nat) (s : State) : Compares s (blocksOut a og mg s) := by
  refine .ite (.refl s) (.trans ?_ ((sends_sendBlockDigests _ _ _ _ _).trans (sends_sendBlockDigests _ _ _ _ _)).compares)
  exact compares_updAttempt a.step _ s fun _ => ⟨rfl, rfl⟩

theorem compares_compareDigests (s : State) : Compares s (compareDigests s) := by
  unfold compareDigests
  split
  · exact .refl s
  · next a _ =>
    refine .ite (.refl s) ?_
    split
    · next og mg _ _ =>
      refine .ite (compares_endCompare _ _ _ _ s) ?_
      change Compares s (match (blocksOut a og mg s).badBlocks a false 5 og, (blocksOut a og mg s).badBlocks a true 4 mg with
        | some ob, some mb => endCompare a ob mb (mb = []) (blocksOut a og mg s)
        | _, _ => blocksOut a og mg s)
      have h := compares_blocksOut a og mg s
      split
      · exact h.trans (compares_endCompare _ _ _ _ _)
      · exact h
    · exact .refl s

/-- The digest tables of an attempt are read. -/
def digestsRead (a : Attempt) (s : State) : State :=
  noteRead (s.digestBase a true) (s.digestBytes true) 5 a.step (noteRead (s.digestBase a false) (s.digestBytes false) 5 a.step s)

/-- Its group digests go to the partner. -/
def digestsOut (a : Attempt) (s : State) : State :=
  sendDigests a 3 0 (s.groupDigests a true) (sendDigests a 2 0 (s.groupDigests a false) s)

/-- The attempt has sent its digests. -/
def digestsSent (a : Attempt) (s : State) : State := s.updAttempt a.step (fun a => { a with digestSent := true })

theorem readWork_digestsRead (a : Attempt) (s : State) : ReadWork s (digestsRead a s) :=
  (readWork_noteRead _ _ _ _ s).trans (readWork_noteRead _ _ _ _ _)

theorem sameBytes_digestsRead (a : Attempt) {s : State} (h : s.memory.errs = []) : SameBytes s (digestsRead a s) :=
  have h1 := sameBytes_noteRead (s.digestBase a false) (s.digestBytes false) 5 a.step h
  h1.trans (sameBytes_noteRead _ _ _ _ (h1.errs.trans h))

theorem sends_digestsOut (a : Attempt) (s : State) : Sends s (digestsOut a s) :=
  (sends_sendDigests _ _ _ _ s).trans (sends_sendDigests _ _ _ _ _)

/-- A map with blocks has group digests to send. -/
theorem underWay_digestsOut (a : Attempt) {s : State} (h : mapBlocks (s.mapSegs false) ≠ 0) :
    UnderWay (digestsOut a s) .digests s.partner 3 := by
  have hg : s.groupDigests a false ≠ [] := by
    simp only [State.groupDigests, groupsOf, ne_eq, List.map_eq_nil_iff, List.range_eq_nil]
    omega
  exact (sends_sendDigests _ _ _ _ _).underWay _ _ _ (underWay_sendDigests a 2 0 hg s)

theorem memory_digestsSent (a : Attempt) (s : State) : (digestsSent a s).memory = s.memory := rfl

theorem underWay_digestsSent {a : Attempt} {s : State} {p : Purpose} {node vl : Nat} (h : UnderWay s p node vl) :
    UnderWay (digestsSent a s) p node vl := h

theorem sent_digestsSent {a : Attempt} {s : State} (h : a ∈ s.steps.attempts) :
    ∃ b ∈ (digestsSent a s).steps.attempts, b.step = a.step ∧ b.digestSent = true :=
  ⟨_, List.mem_map_of_mem h, by rw [if_pos rfl]; exact ⟨rfl, rfl⟩⟩

/-- Whether the digest exchange of an attempt waits for a memory. -/
def digestsHeld (a : Attempt) (s : State) : Bool :=
  s.engineHeld (s.digestBase a false) (s.digestBytes false) || s.engineHeld (s.digestBase a true) (s.digestBytes true)

theorem digestExchangeOp_eq (s : State) : digestExchangeOp s = match s.checking with
    | none => s
    | some a =>
      if !s.alive || !s.twin a || a.digestSent || s.engineHeld (s.digestBase a false) (s.digestBytes false) ||
         s.engineHeld (s.digestBase a true) (s.digestBytes true) then s
      else compareDigests (digestsSent a (digestsOut a (digestsRead a s))) := rfl

theorem digestExchangeOp_sends {s : State} {a : Attempt} (hs : s.alive = true) (hc : s.checking = some a) (ht : s.twin a = true)
    (hd : a.digestSent = false) (hh : digestsHeld a s = false) :
    digestExchangeOp s = compareDigests (digestsSent a (digestsOut a (digestsRead a s))) := by
  obtain ⟨h0, h1⟩ := Bool.or_eq_false_iff.1 hh
  rw [digestExchangeOp_eq, hc]
  exact if_neg (by simp [hs, ht, hd, h0, h1])

theorem digestExchangeOp_waits {s : State} {a : Attempt} (hc : s.checking = some a)
    (h : s.twin a = false ∨ a.digestSent = true ∨ digestsHeld a s = true) : digestExchangeOp s = s := by
  rw [digestExchangeOp_eq, hc]
  refine if_pos ?_
  simp only [digestsHeld, Bool.or_eq_true] at h
  simp only [Bool.or_eq_true, Bool.not_eq_true']
  tauto

/-- What sending digests, once their tables have been read, leaves: the attempt has sent them, they are under way, and a memory without
errors keeps its bytes. -/
theorem digests_sent {s r : State} {a : Attempt} (hc : s.checking = some a) (hr : ReadWork s r)
    (hm : s.memory.errs = [] → SameBytes s r) :
    (∃ b ∈ (compareDigests (digestsSent a (digestsOut a r))).steps.attempts, b.step = a.step ∧ b.digestSent = true) ∧
      (s.memory.errs = [] → (compareDigests (digestsSent a (digestsOut a r))).memory.mem = s.memory.mem) ∧
      (mapBlocks (s.mapSegs false) ≠ 0 → UnderWay (compareDigests (digestsSent a (digestsOut a r))) .digests s.partner 3) := by
  have ho := (sends_digestsOut a r).frame
  have hu := compares_compareDigests (digestsSent a (digestsOut a r))
  have hs : (digestsOut a r).steps = s.steps := by
    rw [ho]
    exact hr.steps
  have ha : a ∈ (digestsOut a r).steps.attempts := by
    rw [hs]
    exact List.mem_of_find?_eq_some hc
  refine ⟨hu.sent _ (sent_digestsSent ha), fun h => ?_, fun hb => hu.underWay _ _ _ (underWay_digestsSent ?_)⟩
  · rw [hu.memory, memory_digestsSent, ho]
    exact (hm h).mem
  · rw [← partner_readWork hr]
    rw [← mapSegs_readWork hr] at hb
    exact underWay_digestsOut a hb

end Sys2Proof.Laws
end


section
/-! SUPPORT. The tithe test: what testing a sample reads, counts and writes, and the verdict that waited for it (R81 to R83). -/

namespace Sys2Proof.Laws

set_option Elab.async false

open Sys2Proof Sys2Proof.Machine Sys2Proof.Safety

/-! ## Work on a layer's entry -/

/-- Work at the memories that stores bytes of a layer's entry alone. -/
structure EntryWork (w : Watch) (l : Nat) (s u : State) : Prop extends MemWork s u where
  mem : MemKept s u (LayerBytes w l)

section
variable {w : Watch} {l : Nat}

theorem EntryWork.refl (s : State) : EntryWork w l s s := ⟨.refl s, fun _ _ => rfl⟩

theorem EntryWork.trans {s u v : State} (h : EntryWork w l s u) (k : EntryWork w l u v) : EntryWork w l s v :=
  ⟨h.toMemWork.trans k.toMemWork, fun a ha => (k.mem a ha).trans (h.mem a ha)⟩

theorem EntryWork.ite {s u v : State} {c : Prop} [Decidable c] (h : EntryWork w l s u) (k : EntryWork w l s v) :
    EntryWork w l s (if c then u else v) := by
  split <;> assumption

theorem EntryWork.raise (c : EventCode) (i : Nat) (d : BitVec 128) (s : State) : EntryWork w l s (raiseEvent c i d s) :=
  ⟨.raise c i d s, fun _ _ => by rw [raiseEvent_frame]⟩

theorem entryWork_memPutNum {a n : Nat} (h : InEntry w l a n) (v : Nat) (s : State) : EntryWork w l s (s.memPutNum a n v) :=
  ⟨memWork_memPut _ _ s, fun x hx => memKept_memPut s a (leBytes n v) x fun hr => hx (h.layerBytes (by simpa using hr))⟩

theorem entryWork_memAdd {a n : Nat} (h : InEntry w l a n) (k : Nat) (s : State) : EntryWork w l s (s.memAdd a n k) :=
  .ite (.refl s) (entryWork_memPutNum h _ s)

theorem entryWork_memAddSat {a n : Nat} (h : InEntry w l a n) (k : Nat) (s : State) : EntryWork w l s (s.memAddSat a n k) :=
  .ite (.refl s) (entryWork_memPutNum h _ s)

/-- An item of a layer's shared entry. -/
theorem inEntry_shared {k n : Nat} (h : k + n ≤ 0x400) : InEntry w l (w.shared l + k) n := .inr ⟨by omega, by omega⟩

theorem entryWork_addTithe {b : Nat} (hb : b < 16) (s : State) : EntryWork w l s (addTithe (w.shared l) b s) := by
  have hi (k : Nat) (hk : k < 16) : InEntry w l (w.shared l + 0x2E0 + 4 * k) 4 := by
    rw [Nat.add_assoc]
    exact inEntry_shared (by omega)
  unfold addTithe
  extract_lets s1 bins
  have h1 : EntryWork w l s s1 := entryWork_memAdd (hi b hb) 1 s
  refine .ite (List.foldlRecOn bins.zipIdx _ h1 fun u hu x hx => hu.trans (entryWork_memPutNum (hi _ ?_) _ u)) h1
  have := List.snd_lt_of_mem_zipIdx hx
  simpa [bins] using this

end

/-- A histogram of errors has 16 bins (R82). -/
theorem titheBin_lt (e : Word) : titheBin e < 16 := by
  unfold titheBin
  split
  · split
    · decide
    · omega
  · decide
  · exact Nat.mod_lt _ (by decide)

/-! ## The stages of a test (R81 to R83) -/

/-- The ranges of a sample are read. -/
def sampleRead (a : Attempt) (x : TitheSample) (s : State) : State :=
  each (titheReads s (watchOf a) x) (fun r s => noteRead r.1 r.2 7 s.oldestStep s) s

/-- The oldest sample of an attempt is taken. -/
def sampleTaken (a : Attempt) (s : State) : State := s.updAttempt a.step (fun a => { a with samples := a.samples.drop 1 })

/-- An error is written to the layer's entry with the threshold, and counted. -/
def errorKept (sh : Nat) (t : FVal) (e : Word) (s : State) : State :=
  addTithe sh (titheBin e)
    (((s.memPutNum (sh + 0x2D8) 4 (round32 t).toNat).memPutNum (sh + 0x2DC) 4 e.toNat).memAddSat (sh + 0x2D0) 4 1)

/-- An error is counted as a divergence when it exceeds the threshold, and kept. -/
def errorScored (a : Attempt) (x : TitheSample) (t : FVal) (e : Word) (s : State) : State :=
  errorKept ((watchOf a).shared x.layer) t e (if t.lt (val32 e) then titheDiverged a (watchOf a) x e s else s)

/-- A sample that has been read and taken is tested. -/
def sampleScored (a : Attempt) (x : TitheSample) (s : State) : State :=
  let ps := tithePairs s (watchOf a) x
  if ps.any (fun p => !(val32 p.1).isFin || !(val32 p.2).isFin) then s
  else errorScored a x (.fin false 1 (titheExp s (watchOf a) a x)) (titheError ps) s

theorem testSample_eq (a : Attempt) (x : TitheSample) (s : State) :
    testSample a x s = sampleScored a x (sampleTaken a (sampleRead a x s)) := rfl

theorem readWork_sampleRead (a : Attempt) (x : TitheSample) (s : State) : ReadWork s (sampleRead a x s) :=
  .each _ _ s fun _ u => readWork_noteRead _ _ _ _ u

theorem sameBytes_sampleRead (a : Attempt) (x : TitheSample) {s : State} (h : s.memory.errs = []) :
    SameBytes s (sampleRead a x s) := by
  unfold sampleRead
  exact sameBytes_each_noteRead (titheReads s (watchOf a) x) (·.1) (·.2) 7 State.oldestStep h

/-- A byte's class follows from the registers. -/
theorem mpaClass_of_regs {s u : State} (h : u.regs = s.regs) (a : Nat) : u.mpaClass a = s.mpaClass a := by
  have hr : u.range = s.range := by
    funext p e
    simp only [State.range, State.rgBits, State.rgBit, State.rg, State.rgQ, h]
  have ha : u.rangeAt = s.rangeAt := by
    funext p off
    rw [State.rangeAt, State.rangeAt, hr]
  simp only [State.mpaClass, ha, hr]

/-- A change of what neither memory nor the registers are a part of. -/
theorem SameBytes.of_eq {s u : State} (hm : u.memory = s.memory) (hr : u.regs = s.regs) : SameBytes s u where
  mem := by rw [hm]
  errs := by rw [hm]
  failed := onFailedPc_congr fun p => by rw [State.dev, State.dev, hm]
  cls := mpaClass_of_regs hr

theorem sameBytes_sampleTaken (a : Attempt) (s : State) : SameBytes s (sampleTaken a s) := .of_eq rfl rfl

/-- The elements of a sample depend on memory alone. -/
theorem tithePairs_congr {s u : State} (h : ∀ a n, u.memNum a n = s.memNum a n) (w : Watch) (x : TitheSample) :
    tithePairs u w x = tithePairs s w x := by
  simp only [tithePairs, tithePoint, titheAddr, State.estAt, h]

theorem titheExp_congr {s u : State} (h : ∀ a n, u.memNum a n = s.memNum a n) (w : Watch) (a : Attempt) (x : TitheSample) :
    titheExp u w a x = titheExp s w a x := by
  simp only [titheExp, h]

/-! ## What a test leaves -/

theorem entryWork_errorKept (w : Watch) (l : Nat) (t : FVal) (e : Word) (s : State) :
    EntryWork w l s (errorKept (w.shared l) t e s) := by
  have h1 := entryWork_memPutNum (w := w) (l := l) (inEntry_shared (k := 0x2D8) (n := 4) (by decide)) (round32 t).toNat s
  have h2 := h1.trans (entryWork_memPutNum (inEntry_shared (k := 0x2DC) (n := 4) (by decide)) e.toNat _)
  have h3 := h2.trans (entryWork_memAddSat (inEntry_shared (k := 0x2D0) (n := 4) (by decide)) 1 _)
  exact h3.trans (entryWork_addTithe (titheBin_lt e) _)

/-- A divergence is counted with its attempt. -/
def divergenceNoted (a : Attempt) (x : TitheSample) (s : State) : State :=
  s.updAttempt a.step (fun b => { b with
    diverged := b.diverged + 1, divLayers := if !a.divLayers.contains x.layer then b.divLayers ++ [x.layer] else b.divLayers })

/-- The first divergence of a layer in a step raises an event. -/
def divergenceRaised (a : Attempt) (x : TitheSample) (e : Word) (s : State) : State :=
  if !a.divLayers.contains x.layer && s.rgBit .numEvtEn 3 then
    raiseEvent .titheDiverge x.layer
      (detail [(0, 2, x.layer), (4, 5, a.step), (9, 4, e.toNat), (13, 2, x.row), (15, 1, x.col)]) s
  else s

theorem titheDiverged_eq (a : Attempt) (w : Watch) (x : TitheSample) (e : Word) (s : State) :
    titheDiverged a w x e s = divergenceRaised a x e (divergenceNoted a x
      ((s.memAdd (w.entry x.layer + 0x2CC) 4 1).memAdd (w.shared x.layer + 0x2D4) 4 1)) := rfl

/-- A sample's test leaves the tiles, stores bytes of the layer's entry alone, and leaves its attempt the samples and the verdict,
with some more divergences. -/
structure Scores (w : Watch) (l k d : Nat) (s u : State) : Prop where
  mem : MemKept s u (LayerBytes w l)
  tiles : u.tiles = s.tiles
  attempt : ∀ c, s.attempt? k = some c → ∃ b, u.attempt? k = some b ∧ b.samples = c.samples ∧ b.verdict = c.verdict ∧
    b.diverged = c.diverged + d

theorem Scores.trans {w : Watch} {l k d e : Nat} {s u v : State} (h : Scores w l k d s u) (g : Scores w l k e u v) :
    Scores w l k (d + e) s v where
  mem a ha := (g.mem a ha).trans (h.mem a ha)
  tiles := g.tiles.trans h.tiles
  attempt c hc := by
    obtain ⟨b, hb, hs, hv, hd⟩ := h.attempt c hc
    obtain ⟨b', hb', hs', hv', hd'⟩ := g.attempt b hb
    exact ⟨b', hb', hs'.trans hs, hv'.trans hv, by rw [hd', hd, Nat.add_assoc]⟩

theorem EntryWork.scores {w : Watch} {l : Nat} {s u : State} (h : EntryWork w l s u) (k : Nat) : Scores w l k 0 s u :=
  ⟨h.mem, h.tiles, fun c hc => ⟨c, by rw [attempt?_congr h.steps]; exact hc, rfl, rfl, rfl⟩⟩

theorem scores_divergenceNoted (a : Attempt) (x : TitheSample) (w : Watch) (l : Nat) (s : State) :
    Scores w l a.step 1 s (divergenceNoted a x s) :=
  ⟨fun _ _ => rfl, rfl, fun _ hc => ⟨_, attempt?_updAttempt hc rfl, rfl, rfl, rfl⟩⟩

theorem scores_titheDiverged (a : Attempt) (w : Watch) (x : TitheSample) (e : Word) (s : State) :
    Scores w x.layer a.step 1 s (titheDiverged a w x e s) := by
  rw [titheDiverged_eq]
  have h1 : EntryWork w x.layer s ((s.memAdd (w.entry x.layer + 0x2CC) 4 1).memAdd (w.shared x.layer + 0x2D4) 4 1) :=
    (entryWork_memAdd (.inl ⟨by omega, by omega⟩) 1 s).trans (entryWork_memAdd (inEntry_shared (by decide)) 1 _)
  have h3 (u : State) : EntryWork w x.layer u (divergenceRaised a x e u) := .ite (.raise _ _ _ u) (.refl u)
  exact ((h1.scores a.step).trans (scores_divergenceNoted a x w x.layer _)).trans ((h3 _).scores a.step)

theorem scores_errorScored (a : Attempt) (x : TitheSample) (t : FVal) (e : Word) (s : State) :
    Scores (watchOf a) x.layer a.step (if t.lt (val32 e) then 1 else 0) s (errorScored a x t e s) := by
  unfold errorScored
  split
  · exact (scores_titheDiverged a _ x e s).trans ((entryWork_errorKept _ _ t e _).scores a.step)
  · exact (entryWork_errorKept _ _ t e s).scores a.step

/-- A tested sample's divergence: the elements are finite, and the error exceeds the threshold. -/
def divergence (ps : List (Word × Word)) (t : FVal) : Nat :=
  if ps.all (fun p => (val32 p.1).isFin && (val32 p.2).isFin) && t.lt (val32 (titheError ps)) then 1 else 0

theorem scores_sampleScored (a : Attempt) (x : TitheSample) (s : State) :
    Scores (watchOf a) x.layer a.step (divergence (tithePairs s (watchOf a) x) (.fin false 1 (titheExp s (watchOf a) a x))) s
      (sampleScored a x s) := by
  unfold sampleScored divergence
  extract_lets ps
  have hall : ps.all (fun p => (val32 p.1).isFin && (val32 p.2).isFin) =
      !ps.any (fun p => !(val32 p.1).isFin || !(val32 p.2).isFin) := by
    rw [List.not_any_eq_all_not]
    simp
  change Scores _ _ _ (if ps.all (fun p => (val32 p.1).isFin && (val32 p.2).isFin) && _ then 1 else 0) s _
  rw [hall]
  by_cases h : ps.any (fun p => !(val32 p.1).isFin || !(val32 p.2).isFin) = true
  · rw [if_pos h, h]
    exact (EntryWork.refl s).scores a.step
  · rw [if_neg h, Bool.eq_false_iff.2 h]
    simpa only [Bool.not_false, Bool.true_and] using
      scores_errorScored a x (.fin false 1 (titheExp s (watchOf a) a x)) (titheError ps) s

/-- What testing an attempt's oldest sample leaves of it. -/
theorem attempt?_testSample {a : Attempt} {s : State} (x : TitheSample) (h : s.attempt? a.step = some a) :
    ∃ c, (testSample a x s).attempt? a.step = some c ∧ c.samples = a.samples.drop 1 ∧ c.verdict = a.verdict ∧
      (s.memory.errs = [] → c.diverged = a.diverged +
        divergence (tithePairs s (watchOf a) x) (.fin false 1 (titheExp s (watchOf a) a x))) := by
  have hr : (sampleRead a x s).attempt? a.step = some a := by rw [attempt?_congr (readWork_sampleRead a x s).steps, h]
  obtain ⟨c, hc, hs, hv, hd⟩ := (scores_sampleScored a x (sampleTaken a (sampleRead a x s))).attempt _ (attempt?_updAttempt hr rfl)
  rw [← testSample_eq] at hc
  refine ⟨c, hc, hs, hv, fun he => ?_⟩
  have hm := ((sameBytes_sampleRead a x he).trans (sameBytes_sampleTaken a _)).memNum
  rw [tithePairs_congr hm, titheExp_congr hm] at hd
  exact hd

theorem tiles_sampleTaken (a : Attempt) (s : State) : (sampleTaken a s).tiles = s.tiles := rfl

theorem tiles_testSample (a : Attempt) (x : TitheSample) (s : State) : (testSample a x s).tiles = s.tiles := by
  rw [testSample_eq, (scores_sampleScored a x _).tiles, tiles_sampleTaken]
  exact (readWork_sampleRead a x s).tiles

/-- Without device errors a test stores bytes of the layer's entry alone. -/
theorem memKept_testSample (a : Attempt) (x : TitheSample) {s : State} (h : s.memory.errs = []) :
    MemKept s (testSample a x s) (LayerBytes (watchOf a) x.layer) := fun b hb => by
  rw [testSample_eq, (scores_sampleScored a x _).mem b hb, ((sameBytes_sampleRead a x h).trans (sameBytes_sampleTaken a _)).mem]

/-! ## The command -/

/-- Whether the reads of a sample wait for a memory. -/
def sampleHeld (a : Attempt) (x : TitheSample) (s : State) : Bool :=
  (titheReads s (watchOf a) x).any (fun r => s.engineHeld r.1 r.2)

theorem titheSampleTestOp_eq {s : State} {a : Attempt} {x : TitheSample} {xs : List TitheSample} (hs : s.alive = true)
    (hf : s.openAttempts.find? (fun b => b.samples != []) = some a) (hx : a.samples = x :: xs) :
    titheSampleTestOp s = if sampleHeld a x s then s else releaseVerdict a.step (testSample a x s) := by
  rw [titheSampleTestOp, hs, hf]
  simp only [hx, sampleHeld]
  exact if_neg (by decide)

theorem releaseVerdict_none {s : State} {k : Nat} {c : Attempt} (h : s.attempt? k = some c) (hv : c.verdict = none) :
    releaseVerdict k s = s := by
  simp only [releaseVerdict, h, hv]

theorem releaseVerdict_some {s : State} {k : Nat} {c : Attempt} {w : Verdict} (h : s.attempt? k = some c) (hv : c.verdict = some w)
    (hs : c.samples = []) : releaseVerdict k s = settleVerdict c w s := by
  simp only [releaseVerdict, h, hv, hs, if_true]

end Sys2Proof.Laws
end


section
/-! SUPPORT. Packets that carry data: when one is served or late, its acknowledgement, and the bytes that it writes (R261, R269,
R271, R275, R302). -/

namespace Sys2Proof.Laws

set_option Elab.async false

open Sys2Proof Sys2Proof.Machine Sys2Proof.Safety

/-! ## Serving a packet -/

/-- A packet that is received and not held acts on the state in which it has been taken off its lane. -/
theorem serve_received {s v : State} {port type : Nat} {p : Packet} (h : Received s port type p v) {hold : Packet → State → Bool}
    (hh : hold p s = false) (act : Packet → State → State) : serve port type hold act s = act p v := by
  obtain ⟨n, hp, hold', rfl, hnew, ha⟩ := h
  have ho : observe p.src p.inc (takePacket port n p s) = takePacket port n p s := by
    rw [observe, if_neg (by rw [hnew]; exact Bool.false_ne_true)]
  simp only [serve, hp, hold', hh, ho, ha, if_true, Bool.false_eq_true, if_false]

/-- The module has 18 ports. -/
theorem received_port {s v : State} {port type : Nat} {p : Packet} (h : Received s port type p v) : port < 18 := by
  obtain ⟨n, hp, -⟩ := h
  unfold State.headPacket at hp
  split at hp
  · contradiction
  · next hn =>
    simp only [Bool.or_eq_true, decide_eq_true_eq, not_or, ge_iff_le, not_le] at hn
    exact hn.2

theorem portsKept_trans {s u v : State} {p : Nat} (h : PortsKept s u p) (k : PortsKept u v p) : PortsKept s v p :=
  fun j hj => (k j hj).trans (h j hj)

theorem portFrame_trans {s u v : State} (h : PortFrame s u) (k : PortFrame u v) : PortFrame s v := by
  unfold PortFrame at *
  rw [k, h]

theorem portsKept_setPort (s : State) (p : Nat) (v : Port) : PortsKept s (s.setPort p v) p := fun j hj => by
  rw [port_setPort, if_neg hj]

theorem portFrame_raise (c : EventCode) (i : Nat) (d : BitVec 128) (s : State) : PortFrame s (raiseEvent c i d s) := by
  have h := raiseEvent_frame c i d s
  unfold EventFrame at h
  unfold PortFrame
  rw [h]

theorem portsKept_raise (c : EventCode) (i : Nat) (d : BitVec 128) (s : State) (p : Nat) : PortsKept s (raiseEvent c i d s) p :=
  fun _ _ => port_of_fab (by rw [raiseEvent_frame])

/-- An event leaves a port's count of late packets. -/
theorem fabPortLate_raise {port : Nat} (hp : port < 18) (c : EventCode) (i : Nat) (d : BitVec 128) (s : State) :
    (raiseEvent c i d s).rg .fabPortLate port = s.rg .fabPortLate port :=
  rg_regsKept (raiseEvent_regs c i d s) .fabPortLate port 0 fun hm => by
    simp only [eventRegs, recordRegs, List.map_cons, List.map_nil, List.mem_cons, List.not_mem_nil, Reg.offset, RegName.row, row0,
      row1, or_false] at hm
    omega

/-- A late packet is noted at its port. -/
def lateNoted (port : Nat) (s : State) : State :=
  (s.updPort port (fun q => { q with lateSince := q.lateSince + 1 })).incSat .fabPortLate 1 port

/-- A late packet is counted at its port, and nothing else of the module changes but the port, registers and events. -/
theorem late_latePacket {port : Nat} (hp : port < 18) (cause : Nat) (p : Packet) (s : State) :
    Late port s (latePacket port cause p s) := by
  have h1 : Late port s (lateNoted port s) := ⟨rg_incSat _ _ _ _ _, portsKept_setPort s port _, rfl⟩
  have h2 (d : BitVec 128) (x : Port) (u : State) (h : Late port s u) :
      Late port s (raiseEvent .protocolLate port d (u.setPort port x)) := by
    obtain ⟨hr, hk, hf⟩ := h
    exact ⟨(fabPortLate_raise hp _ _ _ _).trans hr,
      portsKept_trans hk (portsKept_trans (portsKept_setPort u port x) (portsKept_raise _ _ _ _ _)),
      portFrame_trans hf (portFrame_trans (u := u.setPort port x) rfl (portFrame_raise _ _ _ _))⟩
  unfold latePacket
  extract_lets s1 q
  change Late port s s1 at h1
  clear_value s1
  split
  · exact h2 _ _ s1 h1
  · exact h1

/-! ## Acknowledgements -/

/-- The ports alone change. -/
def PortsOnly (s u : State) : Prop := u = { s with fab := { s.fab with ports := u.fab.ports } }

/-- An acknowledgement that waited goes out. -/
def ackOut (a : PendAck) (s : State) : State := sendAck a.port a.node a.xid a.idx 0 s

theorem portsOnly_acks (l : List PendAck) (s : State) : PortsOnly s (each l ackOut s) :=
  each_keeps (PortsOnly s) l ackOut s rfl fun a u hu => by
    unfold PortsOnly at hu ⊢
    rw [ackOut, sendAck_frame, hu]

theorem queued_acks {l : List PendAck} {a : PendAck} (h : a ∈ l) (s : State) : Queued (each l ackOut s) a.node a.xid 0x04 := by
  induction l generalizing s with
  | nil => simp at h
  | cons b l ih =>
    rw [each_cons]
    rcases List.mem_cons.1 h with rfl | h
    · exact (Sends.each l ackOut _ fun c u => sends_sendAck c.port c.node c.xid c.idx 0 u).queued (queued_sendAck _ _ _ _ _ s)
    · exact ih h _

/-- Whether an acknowledgement waits. -/
def ackWaits (s : State) (a : PendAck) : Bool := a.copy || s.ackHeld a.id

/-- The module keeps the acknowledgements that wait. -/
def acksKept (s : State) : State := { s with fab := { s.fab with acks := s.fab.acks.filter (ackWaits s) } }

theorem releaseAcks_eq (s : State) :
    releaseAcks s = each (s.fab.acks.filter (fun a => !ackWaits s a)) ackOut (acksKept s) := rfl

theorem releaseAcks_frame (s : State) : releaseAcks s = { s with fab := (releaseAcks s).fab } := by
  have h := portsOnly_acks (s.fab.acks.filter (fun a => !ackWaits s a)) (acksKept s)
  rw [releaseAcks_eq]
  unfold PortsOnly at h
  rw [h]
  rfl

/-- An acknowledgement that the module keeps goes out or waits on; one that nothing holds goes out. -/
theorem releaseAcks_sends {a : PendAck} {s : State} (h : a ∈ s.fab.acks) :
    if ackWaits s a then a ∈ (releaseAcks s).fab.acks else Queued (releaseAcks s) a.node a.xid 0x04 := by
  rw [releaseAcks_eq]
  split
  · next hw =>
    have hp := portsOnly_acks (s.fab.acks.filter (fun a => !ackWaits s a)) (acksKept s)
    unfold PortsOnly at hp
    rw [hp]
    exact List.mem_filter.2 ⟨h, hw⟩
  · next hw => exact queued_acks (List.mem_filter.2 ⟨h, by simpa using hw⟩) _

/-! ## The bytes of a packet -/

theorem markLine_asm (l : Nat) (s : State) : (markLine l s).memory.asm = s.memory.asm := by
  unfold markLine
  split <;> rfl

theorem landBytes_asm (id a : Nat) (data : List Byte) (mask : Nat) {s : State} (h : PlainMemory s) :
    (landBytes id a data mask s).memory.asm = [] := by
  unfold landBytes
  refine each_keeps (fun u : State => u.memory.asm = []) _ _ _ (storedPlain_ctrlWrite 0 (some id) a data h).plain.2.2.2.2.1
    fun l u hu => ?_
  split
  · rw [markLine_asm, hu]
  · exact hu

/-- Without detected lines a packet's bytes are stored as they come. -/
theorem storedPlain_landBytes (id a : Nat) (data : List Byte) {s : State} (h : PlainMemory s) :
    StoredPlain a data s (landBytes id a data 0 s) := by
  have hs := storedPlain_ctrlWrite 0 (some id) a data h
  unfold landBytes
  simp only [Nat.zero_testBit, Bool.false_eq_true, if_false]
  exact each_keeps (StoredPlain a data s) _ (fun _ s => s) _ hs fun _ _ hu => hu

/-! ## Receiving data (R261, R271) -/

/-- A write takes a number for its acknowledgement. -/
def withAck (s : State) : State := (newAck s).2

theorem plainMemory_withAck {s : State} (h : PlainMemory s) : PlainMemory (withAck s) :=
  plainMemory_of h (regsKept_of_eq rfl []) apartFromWrites_nil (fun _ => rfl) rfl (.inr rfl) rfl

/-- The state once a packet's bytes have been written. -/
def landed (p : Packet) (a : Nat) (w : State) : State := landBytes w.gath.nextId a p.payload p.mask (withAck w)

theorem memWork_landed (p : Packet) (a : Nat) (w : State) : MemWork (withAck w) (landed p a w) := memWork_landBytes _ _ _ _ _

/-- The end of a data packet: its signal is on its way, and its acknowledgement goes out once nothing holds it. -/
def dataAcked (id port : Nat) (p : Packet) (e : State) : State := releaseAcks (packetSignal p (keepAck id port false p e))

theorem receiveData_refused {port : Nat} {target : Packet → State → Option Nat}
    (extra : Nat → Packet → State → State × Bool) {p : Packet} {v w : State} (ht : trackIn port p v = .ok w)
    (ha : (target p w).filter (fun a => w.mpaOk a p.payload.length) = none) :
    receiveData port target extra p v = sendAck port p.src p.xid p.idx 2 w := by
  simp only [receiveData, ht, ha]

theorem receiveData_written {port : Nat} {target : Packet → State → Option Nat} {extra : Packet → State → State} {p : Packet}
    {v w : State} {a : Nat} (ht : trackIn port p v = .ok w) (ha : target p w = some a) (hm : w.mpaOk a p.payload.length = true) :
    receiveData port target (fun _ p s => (extra p s, false)) p v = dataAcked w.gath.nextId port p (extra p (landed p a w)) := by
  simp only [receiveData, ht, ha, Option.filter_some, hm, if_true]
  rfl

theorem packetSignal_frame (p : Packet) (s : State) : packetSignal p s = { s with sync := (packetSignal p s).sync } := by
  unfold packetSignal packetSignalOf
  split <;> rfl

theorem dataAcked_frame (id port : Nat) (p : Packet) (e : State) :
    dataAcked id port p e = { e with sync := (dataAcked id port p e).sync, fab := (dataAcked id port p e).fab } := by
  unfold dataAcked
  rw [releaseAcks_frame, packetSignal_frame]
  rfl

/-- A data packet's acknowledgement goes out or waits, and goes out where no assembly buffer holds bytes. -/
theorem dataAcked_acks (id port : Nat) (p : Packet) (e : State) :
    Acked p (dataAcked id port p e) ∧ (e.memory.asm = [] → Queued (dataAcked id port p e) p.src p.xid 0x04) := by
  have hf := packetSignal_frame p (keepAck id port false p e)
  have hk : { id := id, copy := false, port := port, node := p.src, xid := p.xid, idx := p.idx } ∈
      (packetSignal p (keepAck id port false p e)).fab.acks := by
    rw [hf]
    exact List.mem_append_right _ List.mem_cons_self
  have hr := releaseAcks_sends hk
  split at hr
  · next hw =>
    refine ⟨.inr ⟨_, hr, rfl, rfl, rfl⟩, fun h => ?_⟩
    have : (packetSignal p (keepAck id port false p e)).memory.asm = [] := by rw [hf]; exact h
    simp [ackWaits, State.ackHeld, this] at hw
  · exact ⟨.inl hr, fun _ => hr⟩

/-- A packet whose bytes have been written is acknowledged, in a plain memory at once, and its bytes stand at its target. -/
theorem dataAcked_landed {port : Nat} {p : Packet} {a : Nat} {w e : State} (he : e.memory = (landed p a w).memory) :
    Acked p (dataAcked w.gath.nextId port p e) ∧ (PlainMemory w → Landed p a w (dataAcked w.gath.nextId port p e)) := by
  obtain ⟨hk, hq⟩ := dataAcked_acks w.gath.nextId port p e
  have hm : (dataAcked w.gath.nextId port p e).memory = (landed p a w).memory := by rw [dataAcked_frame, he]
  refine ⟨hk, fun hp => ⟨hq ?_, fun h0 => ?_⟩⟩
  · rw [he]
    exact landBytes_asm _ _ _ _ (plainMemory_withAck hp)
  · have hs := storedPlain_landBytes w.gath.nextId a p.payload (plainMemory_withAck hp)
    rw [landed, h0] at hm
    refine ⟨?_, fun x hx => ?_⟩
    · unfold Stored
      rw [hm]
      exact hs.stored
    · rw [hm]
      exact hs.kept x hx

end Sys2Proof.Laws
end


section
/-! SUPPORT. MIRROR and RECOVERY packets: what each kind does beside its bytes, and the end of a recovery stream (R302, R306, R310,
R319, R322, R323). -/

namespace Sys2Proof.Laws

set_option Elab.async false

open Sys2Proof Sys2Proof.Machine Sys2Proof.Safety

/-! ## MIRROR packets (R302, R306, R310) -/

theorem receiveMirror_data {port : Nat} {p : Packet} (hk : p.kind = 0 ∨ p.kind = 1 ∨ p.kind = 6 ∨ p.kind = 7) (s : State) :
    receiveMirror port p s = receiveData port mirrorTarget (fun _ p s => (mirrorExtra p s, false)) p s := by
  rw [receiveMirror, if_neg (by omega), if_neg (by simp only [Bool.and_eq_true, decide_eq_true_eq]; omega)]

theorem receiveMirror_digests {port : Nat} {p : Packet} (h2 : 2 ≤ p.kind) (h5 : p.kind ≤ 5) (s : State) :
    receiveMirror port p s = receiveDigests port p s := by
  rw [receiveMirror, if_neg (by omega), if_pos (by simp [h2, h5])]

/-- Digests wait for no memory. -/
theorem mirrorHold_digests {p : Packet} (h2 : 2 ≤ p.kind) (h5 : p.kind ≤ 5) (s : State) : mirrorHold p s = false := by
  rw [mirrorHold, if_pos (by simp [h2, h5])]

/-- Beside its bytes a MIRROR packet moves the step unit's state alone. -/
theorem mirrorExtra_frame (p : Packet) (s : State) : mirrorExtra p s = { s with steps := (mirrorExtra p s).steps } := by
  unfold mirrorExtra
  split
  · rfl
  · split <;> rfl

/-- A shard block moves nothing else. -/
theorem mirrorExtra_block {p : Packet} (h1 : p.kind ≠ 1) (h6 : p.kind ≠ 6) (s : State) : mirrorExtra p s = s := by
  simp [mirrorExtra, h1, h6]

/-- A block whose last bytes have come is awaited no longer. -/
theorem mirrorExtra_repaired {p : Packet} (h6 : p.kind = 6) (hb : (p.addr + p.payload.length) % blockSize = 0) (s : State) :
    p.addr / blockSize ∉ (mirrorExtra p s).steps.repairIn := by
  simp [mirrorExtra, h6, hb]

/-- The state once a MIRROR packet with a target has been received. -/
def mirrorWritten (port : Nat) (p : Packet) (a : Nat) (w : State) : State :=
  dataAcked w.gath.nextId port p (mirrorExtra p (landed p a w))

theorem mirrorWritten_spec (port : Nat) (p : Packet) (a : Nat) (w : State) :
    Acked p (mirrorWritten port p a w) ∧ (PlainMemory w → Landed p a w (mirrorWritten port p a w)) ∧
      (p.kind ≠ 1 → p.kind ≠ 6 → (mirrorWritten port p a w).steps = w.steps) ∧
      (p.kind = 6 → (p.addr + p.payload.length) % blockSize = 0 →
        p.addr / blockSize ∉ (mirrorWritten port p a w).steps.repairIn) := by
  have hs : (mirrorWritten port p a w).steps = (mirrorExtra p (landed p a w)).steps := by
    rw [mirrorWritten, dataAcked_frame]
  obtain ⟨hk, hl⟩ := dataAcked_landed (port := port) (e := mirrorExtra p (landed p a w)) (by rw [mirrorExtra_frame])
  refine ⟨hk, hl, fun h1 h6 => ?_, fun h6 hb => ?_⟩
  · rw [hs, mirrorExtra_block h1 h6, (memWork_landed p a w).steps]
    rfl
  · rw [hs]
    exact mirrorExtra_repaired h6 hb _

/-- A digest packet is kept. -/
def digestKept (p : Packet) (s : State) : State :=
  { s with steps := { s.steps with digests := s.steps.digests ++
      [{ step := p.specNum 31 1, kind := p.kind, index := p.addr, data := p.payload }] } }

theorem receiveDigests_kept {port : Nat} {p : Packet} {v w : State}
    (hw : v.checking.any (fun a => a.step % 256 == p.specNum 31 1) = true) (ht : trackIn port p v = .ok w) :
    receiveDigests port p v = compareDigests (sendAck port p.src p.xid p.idx 0 (digestKept p w)) := by
  simp only [receiveDigests, hw, ht]
  rfl

theorem receiveDigests_late {port : Nat} {p : Packet} {v : State}
    (hw : v.checking.any (fun a => a.step % 256 == p.specNum 31 1) = false) : receiveDigests port p v = latePacket port 0 p v := by
  simp only [receiveDigests, hw]
  rfl

/-- Digests that are kept are there afterwards, and acknowledged. -/
theorem digests_kept (port : Nat) (p : Packet) (w : State) :
    (∃ d ∈ (compareDigests (sendAck port p.src p.xid p.idx 0 (digestKept p w))).steps.digests,
        d.step = p.specNum 31 1 ∧ d.kind = p.kind ∧ d.index = p.addr ∧ d.data = p.payload) ∧
      Queued (compareDigests (sendAck port p.src p.xid p.idx 0 (digestKept p w))) p.src p.xid 0x04 := by
  have hc := compares_compareDigests (sendAck port p.src p.xid p.idx 0 (digestKept p w))
  refine ⟨?_, hc.queued (queued_sendAck _ _ _ _ _ _)⟩
  rw [hc.digests, sendAck_frame]
  exact ⟨_, List.mem_append_right _ List.mem_cons_self, rfl, rfl, rfl, rfl⟩

/-! ## RECOVERY packets (R319, R322, R323) -/

/-- Following a packet leaves whether the module accepts RECOVERY packets. -/
theorem trackIn_recvOk {port : Nat} {p : Packet} {v w : State} (h : trackIn port p v = .ok w) : w.recvOk = v.recvOk := by
  have ho (s : State) : (openIn port p s).recvOk = s.recvOk := by
    unfold openIn
    extract_lets room i src s1
    split
    · rfl
    · have hr : (s1.incSat .fabUntracked 1).rg .hrvRecvCfg = s1.rg .hrvRecvCfg := rg_setRg_other _ _ _ _ _ _ _ _ (by decide)
      rw [State.recvOk, State.rgBit, hr]
      rfl
  unfold trackIn at h
  split at h
  · split at h
    · contradiction
    · obtain rfl := Track.ok.inj h
      rfl
  · split at h
    · contradiction
    · split at h
      · obtain rfl := Track.ok.inj h
        rfl
      · split at h
        · contradiction
        · obtain rfl := Track.ok.inj h
          exact ho v

theorem receiveRecovery_data {port : Nat} {p : Packet} (hk : p.kind = 0 ∨ p.kind = 2) (s : State) :
    receiveRecovery port p s = receiveData port recoveryTarget (fun _ p s => (recoveryExtra p s, false)) p
      (if s.recvOk then beginStream s else s) := by
  have h4 : (s.recvOk && p.kind ≠ 4) = s.recvOk := by
    rw [decide_eq_true (by omega), Bool.and_true]
  rw [receiveRecovery, if_neg (by simp only [Bool.or_eq_true, Bool.and_eq_true, decide_eq_true_eq]; omega), if_neg (by omega)]
  simp only [h4]

theorem receiveRecovery_end {port : Nat} {p : Packet} (hk : p.kind = 3) (hl : p.payload.length = 64) (s : State) :
    receiveRecovery port p s = receiveEnd port p s := by
  simp [receiveRecovery, hk, hl]

/-- A module that takes no RECOVERY packets has no target for one. -/
theorem recoveryTarget_none {p : Packet} {s : State} (h : s.recvOk = false) : recoveryTarget p s = none := by
  simp [recoveryTarget, h]

theorem recoveryExtra_memory {p : Packet} (hk : p.kind = 0 ∨ p.kind = 2) (s : State) : (recoveryExtra p s).memory = s.memory := by
  rcases hk with h | h <;> simp [recoveryExtra, h]

/-- The bytes of shard blocks and of side regions are counted. -/
theorem recoveryExtra_counts {p : Packet} (hk : p.kind = 0 ∨ p.kind = 2) (s : State) :
    (recoveryExtra p s).hrv.gotBlocks = s.hrv.gotBlocks + (if p.kind = 0 then p.payload.length else 0) ∧
      (recoveryExtra p s).hrv.gotSide = s.hrv.gotSide + (if p.kind = 2 then p.payload.length else 0) := by
  rcases hk with h | h <;> simp [recoveryExtra, h]

/-- The state once a RECOVERY packet with a target has been received. -/
def recoveryWritten (port : Nat) (p : Packet) (a : Nat) (w : State) : State :=
  dataAcked w.gath.nextId port p (recoveryExtra p (landed p a w))

theorem recoveryWritten_spec (port : Nat) {p : Packet} (hk : p.kind = 0 ∨ p.kind = 2) (a : Nat) (w : State) :
    Acked p (recoveryWritten port p a w) ∧ (PlainMemory w → Landed p a w (recoveryWritten port p a w)) ∧
      (recoveryWritten port p a w).hrv.gotBlocks = w.hrv.gotBlocks + (if p.kind = 0 then p.payload.length else 0) ∧
      (recoveryWritten port p a w).hrv.gotSide = w.hrv.gotSide + (if p.kind = 2 then p.payload.length else 0) := by
  have hs : (recoveryWritten port p a w).hrv = (recoveryExtra p (landed p a w)).hrv := by
    rw [recoveryWritten, dataAcked_frame]
  obtain ⟨hc, hl⟩ := dataAcked_landed (port := port) (e := recoveryExtra p (landed p a w)) (recoveryExtra_memory hk _)
  obtain ⟨hb, hg⟩ := recoveryExtra_counts hk (landed p a w)
  rw [(memWork_landed p a w).gotBlocks] at hb
  rw [(memWork_landed p a w).gotSide] at hg
  exact ⟨hc, hl, by rw [hs]; exact hb, by rw [hs]; exact hg⟩

/-- The end packet's signal goes to the tally of HRV_RECV_CFG. -/
def endSignalled (port : Nat) (p : Packet) (w : State) : State :=
  sendAck port p.src p.xid p.idx 0
    (packetSignalOf (some p.payload) { p with tally := w.rgBits .hrvRecvCfg 0 16, sigInc := 1 }
      ((beginStream w).inc .hrvRecvBytes p.payload.length))

theorem receiveEnd_signals {port : Nat} {p : Packet} {v w : State} (ht : trackIn port p v = .ok w) (hw : w.recvOk = true) :
    receiveEnd port p v = endSignalled port p w := by
  simp only [receiveEnd, ht, hw]
  rfl

theorem receiveEnd_refused {port : Nat} {p : Packet} {v w : State} (ht : trackIn port p v = .ok w) (hw : w.recvOk = false) :
    receiveEnd port p v = sendAck port p.src p.xid p.idx 2 w := by
  simp only [receiveEnd, ht, hw]
  rfl

theorem beginStream_sync (s : State) : (beginStream s).sync = s.sync := by
  unfold beginStream
  split <;> rfl

/-- The signal of an end packet is on its way, with the packet's payload. -/
theorem endSignalled_spec (port : Nat) {p : Packet} (w : State) (hs : p.hasSig = true) :
    Queued (endSignalled port p w) p.src p.xid 0x04 ∧ (endSignalled port p w).hrv = (beginStream w).hrv ∧
      ∃ x : PendSig, (endSignalled port p w).sync.signals = w.sync.signals ++ [x] ∧ x.stream = some p.payload ∧
        x.source = .remote p.src ∧ x.dest = none ∧ x.tally = w.rgBits .hrvRecvCfg 0 16 ∧ x.inc = 1 := by
  refine ⟨queued_sendAck _ _ _ _ _ _, ?_, ?_⟩
  · unfold endSignalled
    rw [sendAck_frame]
    unfold packetSignalOf
    split <;> rfl
  · unfold endSignalled
    rw [sendAck_frame]
    have hs' : Packet.hasSig { p with tally := w.rgBits .hrvRecvCfg 0 16, sigInc := 1 } = true := hs
    unfold packetSignalOf
    rw [if_pos hs']
    rw [← beginStream_sync w]
    exact ⟨_, rfl, rfl, rfl, rfl, rfl, rfl⟩

/-! ## The end of a stream (R323) -/

/-- The harvest engine's state and the step unit's stay. -/
def StreamKept (s u : State) : Prop := u.hrv = s.hrv ∧ u.steps = s.steps

theorem StreamKept.trans {s u v : State} (h : StreamKept s u) (k : StreamKept u v) : StreamKept s v :=
  ⟨k.1.trans h.1, k.2.trans h.2⟩

theorem streamKept_setTally (dest : Option Nat) (k : Nat) (y : Tally) (s : State) : StreamKept s (s.setTally dest k y) := by
  rw [setTally_frame]
  exact ⟨rfl, rfl⟩

theorem streamKept_raise (c : EventCode) (i : Nat) (d : BitVec 128) (n : RegName) (b : Nat) (s : State) :
    StreamKept s ((raiseEvent c i d s).flag n b) := by
  rw [raiseEvent_frame]
  exact ⟨rfl, rfl⟩

theorem streamKept_tallyDoubled (dest : Option Nat) (k : Nat) (y : Tally) (s : State) : StreamKept s (tallyDoubled dest k y s) := by
  unfold tallyDoubled
  extract_lets due
  split
  · exact (streamKept_setTally _ _ _ s).trans (streamKept_raise _ _ _ _ _ _)
  · exact ⟨rfl, rfl⟩

/-- Applying a signal leaves the harvest engine's state and the logs. -/
theorem streamKept_applySignal (src : SigSource) (dest : Option Nat) (k i : Nat) (s : State) :
    StreamKept s (applySignal src dest k i s).1 := by
  unfold applySignal
  rcases (s.tally dest k).signal (BitVec.ofNat 32 i) with ⟨y, o⟩
  have h := streamKept_setTally dest k y s
  cases o with
  | applied => exact h
  | doubled => exact h.trans (streamKept_tallyDoubled _ _ _ _)
  | overrun => exact h.trans (streamKept_raise _ _ _ _ _ _)

theorem streamFacts_congr {s u : State} (h : u.steps = s.steps) (b : List Byte) : u.streamFacts b = s.streamFacts b := by
  simp only [State.streamFacts, h]

/-- What the counts of an end packet say of a stream. -/
def StreamAgrees (s : State) (b : List Byte) : Prop :=
  s.hrv.gotBlocks = numIn b 20 4 * blockSize ∧ s.hrv.gotLogs = numIn b 24 4 ∧ s.hrv.gotSide = numIn b 28 8

/-- A stream has ended. -/
def streamClosed (s : State) : State := { s with hrv := { s.hrv with streamEnded := true } }

/-- A stream has been received. -/
def streamReceived (b : List Byte) (s : State) : State :=
  { s with hrv := { s.hrv with recovery := RecSt.received }, steps := { s.steps with facts := s.streamFacts b } }

theorem endStream_received {b : List Byte} {s : State} (h : StreamAgrees s b) :
    ∃ d, endStream b s = raiseEvent .standinComplete 0 d (streamReceived b (streamClosed s)) := by
  obtain ⟨hb, hl, hs⟩ := h
  refine ⟨_, if_pos ?_⟩
  simp [hb, hl, hs]

theorem endStream_refused {b : List Byte} {s : State} (h : ¬ StreamAgrees s b) :
    endStream b s = (streamClosed s).flag .hrvStatus 6 := by
  refine if_neg fun hc => h ?_
  simp only [Bool.and_eq_true, decide_eq_true_eq] at hc
  exact ⟨hc.1.1, hc.1.2, hc.2⟩

/-- A stream whose counts agree is received, and one whose counts do not sets the status flag. -/
theorem endStream_spec (b : List Byte) (s : State) :
    (endStream b s).hrv.streamEnded = true ∧
      (StreamAgrees s b → (endStream b s).hrv.recovery = .received ∧ (endStream b s).steps.facts = s.streamFacts b ∧
        Counted s (endStream b s) .evtRaised) ∧
      (¬ StreamAgrees s b → (endStream b s).hrv.recovery = s.hrv.recovery ∧ (endStream b s).rgBit .hrvStatus 6 = true) := by
  by_cases h : StreamAgrees s b
  · obtain ⟨d, he⟩ := endStream_received h
    have hc := counted_raiseEvent .standinComplete 0 d (streamReceived b (streamClosed s))
    rw [he]
    refine ⟨by rw [raiseEvent_frame]; rfl, fun _ => ⟨by rw [raiseEvent_frame]; rfl, by rw [raiseEvent_frame]; rfl, hc⟩,
      fun hn => absurd h hn⟩
  · rw [endStream_refused h]
    exact ⟨rfl, fun hp => absurd hp h, fun _ => ⟨rfl, rgBit_flag _ _ _ _ _ (by decide)⟩⟩

end Sys2Proof.Laws
end


section
/-! Twin update, the tithe test and recovery: mirror sends, digests and samples advance their attempts, and MIRROR and RECOVERY packets
are written or checked (R81, R83, R302, R305, R306, R309, R311, R319, R322, R323). -/

namespace Sys2Proof.Laws

set_option Elab.async false

open Sys2Proof Sys2Proof.Machine Sys2Proof.Safety

/-! ## The commands -/

theorem exec_mirrorSendEntry (s : State) : exec .mirrorSendEntry s = .next (mirrorSendEntryOp s) := rfl
theorem exec_digestExchange (s : State) : exec .digestExchange s = .next (digestExchangeOp s) := rfl
theorem exec_titheSampleTest (s : State) : exec .titheSampleTest s = .next (titheSampleTestOp s) := rfl
theorem exec_mirror (port : Nat) (s : State) : exec (.mirror port) s = .next (mirrorOp port s) := rfl
theorem exec_recovery (port : Nat) (s : State) : exec (.recovery port) s = .next (recoveryOp port s) := rfl
theorem exec_tallySignalApply (k : Nat) (s : State) : exec (.tallySignalApply k) s = .next (tallySignalApplyOp k s) := rfl

/-- A received MIRROR packet that nothing holds acts. -/
theorem exec_mirror_received {s v : State} {port : Nat} {p : Packet} (h : Received s port 0x20 p v) (hh : mirrorHold p s = false) :
    exec (.mirror port) s = .next (receiveMirror port p v) := by
  rw [exec_mirror, mirrorOp, serve_received h hh]

/-- A received RECOVERY packet that nothing holds acts. -/
theorem exec_recovery_received {s v : State} {port : Nat} {p : Packet} (h : Received s port 0x21 p v) (hh : recoveryHold p s = false) :
    exec (.recovery port) s = .next (receiveRecovery port p v) := by
  rw [exec_recovery, recoveryOp, serve_received h hh]

/-! ## The step unit's own commands -/

/-- MIRROR_SEND_ENTRY takes the need of the next ready entry, and sends its bytes to the partner or passes it over (R305). -/
theorem mirrorSendEntry_sends {s : State} {a : Attempt} (hs : s.alive = true) (hf : s.openAttempts.find? s.sendReady = some a)
    (ha : s.attempt? a.step = some a) (hb : s.openAttempts.any (·.mirrorBusy) = false) :
    Answers .mirrorSendEntry s (fun u =>
      ((s.mtally (s.sendEntry a).tally).gate = false → (u.mtally (s.sendEntry a).tally).count =
        (s.mtally (s.sendEntry a).tally).count - BitVec.ofNat 32 (s.sendEntry a).need) ∧
      (s.twin a = false ∨ (s.sendEntry a).len = 0 →
        (∃ b, u.attempt? a.step = some b ∧ b.mirrorPos = a.mirrorPos + 1) ∧ u.fab = s.fab) ∧
      (s.twin a = true → (s.sendEntry a).len ≠ 0 → (∃ b, u.attempt? a.step = some b ∧ b.mirrorBusy = true) ∧
        UnderWay u .mirrorSend s.partner 3) ∧
      (s.memory.errs = [] → u.memory.mem = s.memory.mem)) := by
  refine ⟨_, by rw [exec_mirrorSendEntry, mirrorSendEntryOp_eq hs hf hb, startSend_eq], ?_⟩
  generalize s.sendEntry a = e
  have hc := count_takeNeed e.tally e.need (s := s)
  have hta : (takeNeed e.tally e.need s).attempt? a.step = some a := ha
  by_cases hp : s.twin a = false ∨ e.len = 0
  · rw [if_pos (by simpa using hp)]
    refine ⟨hc, fun _ => ⟨⟨_, attempt?_updAttempt hta rfl, rfl⟩, rfl⟩, fun ht hl => ?_, fun _ => rfl⟩
    rcases hp with hp | hp
    · rw [ht] at hp
      contradiction
    · exact absurd hp hl
  · rw [if_neg (by simpa using hp)]
    rw [not_or] at hp
    obtain ⟨hsy, hbusy, hway, hmem⟩ := sendOff_spec
      (readWork_noteRead e.src e.len 3 a.step (sendBusy a (takeNeed e.tally e.need s)))
      (fun h => sameBytes_noteRead e.src e.len 3 a.step h) hta hp.2
    refine ⟨fun hg => ?_, fun h => absurd h (not_or.2 hp), fun _ _ => ⟨hbusy, hway⟩, hmem⟩
    rw [State.mtally, hsy]
    exact hc hg

/-- DIGEST_EXCHANGE sends the digests of the attempt in CHECK once (R309). -/
theorem digestExchange_sends {s : State} {a : Attempt} (hs : s.alive = true) (hc : s.checking = some a) :
    (s.twin a = true → a.digestSent = false → digestsHeld a s = false → Answers .digestExchange s (fun u =>
      (∃ b ∈ u.steps.attempts, b.step = a.step ∧ b.digestSent = true) ∧
      (s.memory.errs = [] → u.memory.mem = s.memory.mem) ∧
      (mapBlocks (s.mapSegs false) ≠ 0 → UnderWay u .digests s.partner 3))) ∧
    (s.twin a = false ∨ a.digestSent = true ∨ digestsHeld a s = true → Answers .digestExchange s (fun u => u = s)) := by
  refine ⟨fun ht hd hh => ?_, fun h => ?_⟩
  · exact ⟨_, by rw [exec_digestExchange, digestExchangeOp_sends hs hc ht hd hh],
      digests_sent hc (readWork_digestsRead a s) (fun he => sameBytes_digestsRead a he)⟩
  · exact ⟨_, by rw [exec_digestExchange], digestExchangeOp_waits hc h⟩

/-- TITHE_SAMPLE_TEST tests the oldest sample once its reads are served, and after the last one applies a verdict that waited (R81 to
R83). -/
theorem titheSampleTest_tests {s : State} {a : Attempt} {x : TitheSample} {xs : List TitheSample} (hs : s.alive = true)
    (hf : s.openAttempts.find? (fun b => b.samples != []) = some a) (ha : s.attempt? a.step = some a) (hx : a.samples = x :: xs) :
    (sampleHeld a x s = true → Answers .titheSampleTest s (fun u => u = s)) ∧
    (sampleHeld a x s = false → s.memory.errs = [] → a.verdict = none → Answers .titheSampleTest s (fun u =>
      (∃ b, u.attempt? a.step = some b ∧ b.samples = xs ∧ b.diverged = a.diverged +
        divergence (tithePairs s (watchOf a) x) (.fin false 1 (titheExp s (watchOf a) a x))) ∧
      MemKept s u (LayerBytes (watchOf a) x.layer) ∧ u.tiles = s.tiles)) ∧
    (∀ w c, sampleHeld a x s = false → a.verdict = some w → xs = [] → (testSample a x s).attempt? a.step = some c →
      Answers .titheSampleTest s (fun u => if w.pass then Sealed c (testSample a x s) u else Refused c (testSample a x s) u)) := by
  have he := titheSampleTestOp_eq hs hf hx
  obtain ⟨c, hc, hcs, hcv, hcd⟩ := attempt?_testSample x ha
  rw [hx, List.drop_one, List.tail_cons] at hcs
  refine ⟨fun hh => ?_, fun hh hm hv => ?_, fun w c' hh hw hn hc' => ?_⟩
  · exact ⟨s, by rw [exec_titheSampleTest, he, if_pos hh], rfl⟩
  · refine ⟨testSample a x s, ?_, ⟨c, hc, hcs, hcd hm⟩, memKept_testSample a x hm, tiles_testSample a x s⟩
    rw [exec_titheSampleTest, he, hh, if_neg Bool.false_ne_true, releaseVerdict_none hc (hcv.trans hv)]
  · obtain rfl : c = c' := Option.some.inj (hc.symm.trans hc')
    refine ⟨settleVerdict c w (testSample a x s), ?_, settleVerdict_decides c w _⟩
    rw [exec_titheSampleTest, he, hh, if_neg Bool.false_ne_true, releaseVerdict_some hc (hcv.trans hw) (hcs.trans hn)]

/-! ## The packets -/

/-- A MIRROR packet of data is refused without a target, and otherwise written and acknowledged (R302, R306, R310). -/
theorem mirror_data {s v w : State} {port : Nat} {p : Packet} (h : Received s port 0x20 p v) (hh : mirrorHold p s = false)
    (ht : trackIn port p v = .ok w) (hk : p.kind = 0 ∨ p.kind = 1 ∨ p.kind = 6 ∨ p.kind = 7) :
    ((mirrorTarget p w).filter (fun a => w.mpaOk a p.payload.length) = none → Answers (.mirror port) s (fun u =>
      Queued u p.src p.xid 0x04 ∧ u = { w with fab := { w.fab with ports := u.fab.ports } })) ∧
    (∀ a, mirrorTarget p w = some a → w.mpaOk a p.payload.length = true →
      Answers (.mirror port) s (fun u => Acked p u ∧ (PlainMemory w → Landed p a w u) ∧
        (p.kind ≠ 1 → p.kind ≠ 6 → u.steps = w.steps) ∧
        (p.kind = 6 → (p.addr + p.payload.length) % blockSize = 0 → p.addr / blockSize ∉ u.steps.repairIn))) := by
  have he := exec_mirror_received h hh
  rw [receiveMirror_data hk] at he
  refine ⟨fun hn => ⟨_, by rw [he, receiveData_refused _ ht hn], queued_sendAck _ _ _ _ _ w, sendAck_frame _ _ _ _ _ w⟩,
    fun a ha hm => ?_⟩
  exact ⟨mirrorWritten port p a w, by rw [he, receiveData_written ht ha hm, mirrorWritten], mirrorWritten_spec port p a w⟩

/-- Digests of the step in CHECK are kept and acknowledged, others are late (R306, R309). -/
theorem mirror_digests {s v : State} {port : Nat} {p : Packet} (h : Received s port 0x20 p v) (h2 : 2 ≤ p.kind) (h5 : p.kind ≤ 5) :
    (∀ w, v.checking.any (fun a => a.step % 256 == p.specNum 31 1) = true → trackIn port p v = .ok w →
      Answers (.mirror port) s (fun u =>
        (∃ d ∈ u.steps.digests, d.step = p.specNum 31 1 ∧ d.kind = p.kind ∧ d.index = p.addr ∧ d.data = p.payload) ∧
        Queued u p.src p.xid 0x04)) ∧
    (v.checking.any (fun a => a.step % 256 == p.specNum 31 1) = false → Answers (.mirror port) s (fun u => Late port v u)) := by
  have he := exec_mirror_received h (mirrorHold_digests h2 h5 s)
  rw [receiveMirror_digests h2 h5] at he
  exact ⟨fun w hw ht => ⟨_, by rw [he, receiveDigests_kept hw ht], digests_kept port p w⟩,
    fun hw => ⟨_, by rw [he, receiveDigests_late hw], late_latePacket (received_port h) 0 p v⟩⟩

/-- RECOVERY packets of shard and side data are written and counted, those of a module that takes none are refused, and an end packet
sends its signal (R319, R322, R323). -/
theorem recovery_received {s v w : State} {port : Nat} {p : Packet} (h : Received s port 0x21 p v) (hh : recoveryHold p s = false) :
    (p.kind = 0 ∨ p.kind = 2 → v.recvOk = true → trackIn port p (beginStream v) = .ok w →
      ∀ a, recoveryTarget p w = some a → w.mpaOk a p.payload.length = true →
        Answers (.recovery port) s (fun u => Acked p u ∧ (PlainMemory w → Landed p a w u) ∧
          u.hrv.gotBlocks = w.hrv.gotBlocks + (if p.kind = 0 then p.payload.length else 0) ∧
          u.hrv.gotSide = w.hrv.gotSide + (if p.kind = 2 then p.payload.length else 0))) ∧
    (p.kind = 0 ∨ p.kind = 2 ∨ (p.kind = 3 ∧ p.payload.length = 64) → v.recvOk = false → trackIn port p v = .ok w →
      Answers (.recovery port) s (fun u => Queued u p.src p.xid 0x04 ∧
        u = { w with fab := { w.fab with ports := u.fab.ports } })) ∧
    (p.kind = 3 → p.payload.length = 64 → p.hasSig = true → trackIn port p v = .ok w → w.recvOk = true →
      Answers (.recovery port) s (fun u => Queued u p.src p.xid 0x04 ∧ u.hrv = (beginStream w).hrv ∧
        ∃ x : PendSig, u.sync.signals = w.sync.signals ++ [x] ∧ x.stream = some p.payload ∧ x.source = .remote p.src ∧
          x.dest = none ∧ x.tally = w.rgBits .hrvRecvCfg 0 16 ∧ x.inc = 1)) := by
  have he := exec_recovery_received h hh
  refine ⟨fun hk hv ht a ha hm => ?_, fun hk hv ht => ?_, fun h3 hl hs ht hw => ?_⟩
  · refine ⟨recoveryWritten port p a w, ?_, recoveryWritten_spec port hk a w⟩
    rw [he, receiveRecovery_data hk, hv, if_pos rfl, receiveData_written ht ha hm, recoveryWritten]
  · refine ⟨sendAck port p.src p.xid p.idx 2 w, ?_, queued_sendAck _ _ _ _ _ w, sendAck_frame _ _ _ _ _ w⟩
    have hw : w.recvOk = false := (trackIn_recvOk ht).trans hv
    rcases (or_assoc.2 hk) with hk | ⟨h3, hl⟩
    · rw [he, receiveRecovery_data hk, hv, if_neg Bool.false_ne_true,
        receiveData_refused _ ht (by rw [recoveryTarget_none hw]; rfl)]
    · rw [he, receiveRecovery_end h3 hl, receiveEnd_refused ht hw]
  · exact ⟨endSignalled port p w, by rw [he, receiveRecovery_end h3 hl, receiveEnd_signals ht hw], endSignalled_spec port w hs⟩

/-! ## The end packet's signal -/

/-- The module once a signal on its way has been applied. -/
def signalApplied (x : PendSig) (s : State) : State :=
  (applySignal x.source x.dest x.tally x.inc { s with sync := { s.sync with signals := s.sync.signals.erase x } }).1

theorem tallySignalApplyOp_stream {s : State} {k : Nat} {x : PendSig} {b : List Byte} (hs : s.alive = true)
    (hx : s.ownSignals[k]? = some x) (hm : s.fenceMet x = true) (hf : s.signalsFirst x = false) (hb : x.stream = some b)
    (hd : x.desc = none) : tallySignalApplyOp k s = endStream b (signalApplied x s) := by
  simp only [tallySignalApplyOp, hx, hs, hm, hf, hb, hd]
  rfl

/-- The signal of an end packet, applied, ends its stream: as received when its payload agrees with the counts (R323). -/
theorem tallySignalApply_ends {s : State} {k : Nat} {x : PendSig} {b : List Byte} (hs : s.alive = true)
    (hx : s.ownSignals[k]? = some x) (hm : s.fenceMet x = true) (hf : s.signalsFirst x = false) (hb : x.stream = some b)
    (hd : x.desc = none) :
    Answers (.tallySignalApply k) s (fun u => u.hrv.streamEnded = true ∧
      (if s.hrv.gotBlocks = numIn b 20 4 * blockSize ∧ s.hrv.gotLogs = numIn b 24 4 ∧ s.hrv.gotSide = numIn b 28 8
       then u.hrv.recovery = .received ∧ u.steps.facts = s.streamFacts b ∧ Counted (signalApplied x s) u .evtRaised
       else u.hrv.recovery = s.hrv.recovery ∧ u.rgBit .hrvStatus 6 = true)) := by
  refine ⟨endStream b (signalApplied x s), by rw [exec_tallySignalApply, tallySignalApplyOp_stream hs hx hm hf hb hd], ?_⟩
  obtain ⟨hh, hst⟩ := streamKept_applySignal x.source x.dest x.tally x.inc
    { s with sync := { s.sync with signals := s.sync.signals.erase x } }
  change (signalApplied x s).hrv = s.hrv at hh
  change (signalApplied x s).steps = s.steps at hst
  obtain ⟨he, hr, hn⟩ := endStream_spec b (signalApplied x s)
  rw [streamFacts_congr hst] at hr
  unfold StreamAgrees at hr hn
  rw [hh] at hr hn
  refine ⟨he, ?_⟩
  split
  · exact hr ‹_›
  · exact hn ‹_›

/-- Settles O48: each command does what the stages of its operation do. -/
theorem twinsMirrorTestAndRecover : Obligations.TwinsMirrorTestAndRecover := by
  unfold Obligations.TwinsMirrorTestAndRecover
  refine ⟨fun s a hs hf ha hb => mirrorSendEntry_sends hs hf ha hb, fun s a hs hc => digestExchange_sends hs hc,
    fun s a x xs hs hf ha hx => titheSampleTest_tests hs hf ha hx,
    fun s v w port p h hh ht hk => mirror_data h hh ht hk, fun s v port p h h2 h5 => mirror_digests h h2 h5,
    fun s v w port p h hh => recovery_received h hh,
    fun s k x b hs hx hm hf hb hd => tallySignalApply_ends hs hx hm hf hb hd⟩

end Sys2Proof.Laws
end


section
/-! The vector instructions of three sources, the reductions, positions and random values: VFMA, VSEL, VRDC, VPOS and VRND. -/

namespace Sys2Proof.Laws

set_option Elab.async false

open Sys2Proof Sys2Proof.Machine Sys2Proof.Safety

/-- A three-source instruction that the dispatcher hands its element function computes by it. -/
theorem threeSource_v3Op {t : Nat} {i : Instr} {f : V3F} {g : Word → Word → Word → Elem}
    (hx : ∀ s, exec i s = .next (v3Op t i f g s)) (ht : touchOf i = v3Touch f) (hm : isMove i = false) : ThreeSource i t f g :=
  fun s _ _ _ hi hv => ⟨_, hx s, wrote_writeElems hi ht hv hm rfl⟩

/-- Settles O8: both are the three-source instruction of their element function. -/
theorem vectorFusedAndSelect : Obligations.VectorFusedAndSelect :=
  ⟨fun _ _ => threeSource_v3Op (fun _ => rfl) rfl rfl, fun _ _ => threeSource_v3Op (fun _ => rfl) rfl rfl⟩

/-! ## Reductions and positions -/

/-- A VRDC whose destination has a place folds its source into the elements that stand there (R101). -/
theorem vrdcEff_eq {f : VrdcF} {c : Ctx} {p : Place} (hp : vplace c f.d true 7 = some p) (s : State) :
    vrdcEff f c s = writeElems c f.d (fun r k =>
      let tree := redTree f.op (if f.column then 4 else 6) (redInputs f (readSource c s f.a 7) r k)
      let folded := redApply f.op (Source.at { shape := f.d.shape, rows := p.rows (s.tile c.t).bin f.d.shape } r k) tree.w
      if f.accum then { folded with cls := folded.cls.worse tree.cls } else tree) s := by
  unfold vrdcEff
  rw [hp]

/-! ## Random values -/

/-- A VRND touches what a vector instruction of one source does, and reads its control line as well (R107). -/
theorem vrndTouch_vecTouch {f : VrndF} {c : Ctx} {s : State} {rd wr : List Nat} (h : vrndTouch f c s = some (rd, wr)) :
    ∃ rd', vecTouch f.d 7 [(f.pos, 7)] (fun _ => some []) c s = some (rd', wr) := by
  simp only [vrndTouch, Option.bind_eq_bind, Option.bind_eq_some_iff, Option.ite_none_right_eq_some, Option.some.injEq,
    Prod.mk.injEq] at h
  obtain ⟨⟨rd', wr'⟩, hv, -, -, -, -, rfl⟩ := h
  exact ⟨rd', hv⟩

/-- A VRND with a control line draws its elements by it (R106, R107, R109). -/
theorem vrndEff_eq {f : VrndF} {c : Ctx} {p : Place} (hp : vrndCtl c f = some p) (s : State) :
    vrndEff f c s = writeElems c f.d (fun r k =>
      rndElem (laneKey s c.p (scaling s c.w c.p.img 31).layer) (p.read (s.tile c.t).bin 0 64)
        (val32 ((readSource c s f.pos 7).at r k)) k) s := by
  unfold vrndEff
  rw [hp]

/-- What `wrote_writeElems` says of an instruction that reads its source operands alone holds whatever else is read, as the control
line of a VRND is: of what the instruction touches only the lines written enter. -/
theorem wrote_writeElems_place {s : State} {t : Nat} {i : Instr} {c : Ctx} {rd : List Nat} {eff : Ctx → State → State} {d : VOp}
    {p : Place} {g : Nat → Nat → Elem} (hi : Issues s t i c rd (p.shapeLines d.shape))
    (ht : touchOf i c s = some (rd, p.shapeLines d.shape)) (hp : vplace c d true 7 = some p) (hm : isMove i = false)
    (he : eff c s = writeElems c d g s) : Wrote c i d g (p.shapeLines d.shape) s (runOp t i eff s) := by
  rw [writeElems, hp] at he
  obtain ⟨hbin, hacc, htal, hpass, hframe⟩ := runOp_report (sc := scaling s c.w c.p.img 31) hi ht hm he rfl rfl
  rw [← wordRows_eq] at hbin
  refine ⟨fun p' hp' => ?_, fun y hy => ?_, hacc, htal, hpass, hframe⟩
  · obtain rfl : p = p' := Option.some.inj (hp.symm.trans hp')
    exact hbin
  · rw [hbin]
    exact byteAt_putRows_outside (rowsFit_buildRows _ _) hy _

/-! ## The statement -/

/-- Settles O10: each of the three writes the elements that its effect computes. -/
theorem reductionsPositionsAndRandomValues : Obligations.ReductionsPositionsAndRandomValues := by
  refine ⟨fun s t f c rd wr p hi ht hp => ?_, fun s t f c rd wr hi ht => ?_, fun s t f c rd wr p hi ht hp => ?_⟩
  · exact ⟨_, rfl, wrote_writeElems hi rfl ht rfl (vrdcEff_eq hp s)⟩
  · exact ⟨_, rfl, wrote_writeElems hi rfl ht rfl rfl⟩
  · obtain ⟨rd', hv⟩ := vrndTouch_vecTouch ht
    obtain ⟨d, hd, rfl⟩ := vecTouch_dest hv
    exact ⟨_, rfl, wrote_writeElems_place hi ht hd rfl (vrndEff_eq hp s)⟩

end Sys2Proof.Laws
end


section
/-! XFER_LINE_ARRIVE outside the producer half, and a pass past its budget, while a read of the pass has left its controller and not
landed: the abandonment leaves it in the list as arrived, marked for discarding (R216), so that the statements by which only
requested reads remain fail there. -/

namespace Sys2Proof.Laws

set_option Elab.async false

open Sys2Proof Sys2Proof.Machine Sys2Proof.Safety

/-- A pass whose read is still in the list as arrived has not left requested reads alone. -/
theorem not_abandoned_of_arrivedRead {p : Pass} {st : Status} {t : Nat} {u : State}
    (h : u.gath.xfers = [{ arrivedRead with discard := true }]) (hp : p.seq = arrivedRead.pass) : ¬ Abandoned p st t u := by
  rintro ⟨-, -, -, hreads, -⟩
  have hst := (hreads { arrivedRead with discard := true } (by simp [h]) hp.symm rfl).1
  exact absurd hst (by decide)

/-! ## A mesh line outside the producer half -/

/-- A single buffer of one line. -/
def oneLineBuffer : BufEntry := { rowBuffer 0 with width := 1 }

/-- A pass on tiles 4 and 5 of an image with that buffer. -/
def meshPass : Pass := { barePass with tiles := [4, 5], img := { bareImage with bufs := [oneLineBuffer] } }

/-- A line from tile 4 to tile 5 for the second line of the buffer, which has one. -/
def strayLine : MeshLine := { id := 0, src := 4, dst := 5, pass := 0, buf := 0, line := 1, data := List.replicate 64 0 }

/-- A module with that line on the mesh and a read of its pass on its way. -/
def arrivedAtLine : State :=
  { arrivedAtSig with
    passes := [meshPass], gath := { Gath.init with xfers := [arrivedRead], nextId := 1, mesh := [strayLine], nextLine := 1 } }

theorem exec_xferLineArrive (src dst : Nat) (s : State) :
    exec (.xferLineArrive src dst) s = .next (xferLineArriveOp src dst s) := rfl

theorem xferLineArriveOp_keeps_arrivedRead :
    (xferLineArriveOp 4 5 arrivedAtLine).gath.xfers = [{ arrivedRead with discard := true }] := by decide +kernel

/-- Refutes O12: a line past its buffer's end arrives and abandons its pass while a read of the pass has arrived and not landed. The
read completes into its landing slot and is discarded there (R216): until then it stands in the list as arrived, where the
statement's `Abandoned` has every read left be a requested one. -/
theorem not_meshLinesArriveInTheProducerHalf : ¬ Obligations.MeshLinesArriveInTheProducerHalf := by
  intro h
  obtain ⟨u, hu, habandoned⟩ := (h.2 arrivedAtLine 4 5 strayLine meshPass oneLineBuffer rfl rfl rfl).2 rfl rfl
  rw [exec_xferLineArrive, Host.Outcome.next.injEq] at hu
  exact not_abandoned_of_arrivedRead (hu ▸ xferLineArriveOp_keeps_arrivedRead) rfl habandoned

/-! ## A pass past its budget -/

/-- The sequencer state of a pass whose count of running cycles is past the budget of `barePass`. -/
def overBudgetSeq : SeqState := { sigQueuedSeq with budget := 1 }

/-- A module whose tile 5 runs that pass while a read of it is on its way. -/
def arrivedOverBudget : State :=
  { arrivedAtSig with tiles := [(5, { Tile.init with seqs := [overBudgetSeq], running := some 0 })] }

theorem exec_budgetExceeded (t q : Nat) (s : State) : exec (.budgetExceeded t q) s = .next (budgetExceededOp t q s) := rfl

theorem budgetExceededOp_keeps_arrivedRead :
    (budgetExceededOp 5 0 arrivedOverBudget).gath.xfers = [{ arrivedRead with discard := true }] := by decide +kernel

/-- Refutes O19: BUDGET_EXCEEDED abandons a pass past its budget while a read of the pass has arrived and not landed. As for a mesh
line outside its half, the read stands in the list as arrived until it is discarded at its landing (R216), where the statement's
`Abandoned` has every read left be a requested one. -/
theorem not_boundsAbandonThePass : ¬ Obligations.BoundsAbandonThePass := by
  intro h
  obtain ⟨u, hu, habandoned⟩ := (h arrivedOverBudget 5 0 barePass overBudgetSeq rfl rfl rfl rfl).1 (by decide)
  rw [exec_budgetExceeded, Host.Outcome.next.injEq] at hu
  exact not_abandoned_of_arrivedRead (hu ▸ budgetExceededOp_keeps_arrivedRead) rfl habandoned

end Sys2Proof.Laws
end


section
/-! SUPPORT. What an instruction of a tile leaves behind beside its effect: the sequencer state of its pass, the other passes and
tiles, and its tile's clock (R111, R112, R124). -/

namespace Sys2Proof.Laws

set_option Elab.async false

open Sys2Proof Sys2Proof.Machine Sys2Proof.Safety

/-! ## The place of a pass after an instruction -/

/-- An instruction that is not the last of the innermost loop's body falls through (R124). -/
theorem next_within {q : SeqState} {ls : List LoopCtr} {l : LoopCtr} (h : q.loops = ls ++ [l])
    (hp : q.pc + 1 ≠ l.start + l.body) : q.next = { q with pc := q.pc + 1, hold := none } := by
  simp [SeqState.next, SeqState.goto, h, closeLoops, hp]

/-- After the last instruction of a body with turns left, execution goes back to its start (R124). -/
theorem next_turn {q : SeqState} {ls : List LoopCtr} {l : LoopCtr} (h : q.loops = ls ++ [l]) (hp : q.pc + 1 = l.start + l.body)
    (hn : l.cur + 1 < l.count) :
    q.next = { q with pc := l.start, loops := ls ++ [{ l with cur := l.cur + 1 }], hold := none } := by
  simp [SeqState.next, SeqState.goto, h, closeLoops, hp, hn]

/-- After the last turn of the only loop, execution leaves it (R124). -/
theorem next_leave {q : SeqState} {l : LoopCtr} (h : q.loops = [l]) (hp : q.pc + 1 = l.start + l.body)
    (hn : l.count ≤ l.cur + 1) : q.next = { q with pc := q.pc + 1, loops := [], hold := none } := by
  simp [SeqState.next, SeqState.goto, h, closeLoops, hp, Nat.not_lt.mpr hn]

/-- An instruction that has no issue queue is presented at the fetch, with the pass's own place (R111). -/
theorem present_fetch {s : State} {t : Nat} {i : Instr} {c : Ctx} (h : present s t i = some c) (hi : queueOf i = none) :
    c.queued = false ∧ c.v = c.q := by
  unfold present at h
  split at h
  · cases h
  · simp only [hi, ne_eq, not_true_eq_false, decide_false, Bool.false_and, List.find?_eq_none.mpr fun _ _ => Bool.false_ne_true,
      Option.ite_none_right_eq_some, Option.some.injEq] at h
    obtain ⟨-, rfl⟩ := h
    exact ⟨rfl, rfl⟩

/-- An instruction at the fetch that is no move takes the fetch past it. -/
theorem step_fetch {c : Ctx} {i : Instr} (hc : c.queued = false) (hm : isMove i = false) (q : SeqState) : c.step i q = q.next := by
  simp [Ctx.step, hc, hm, SeqState.next, SeqState.goto]

/-- A pass that presents an instruction has the sequencer state of its context. -/
theorem passIs_present {s : State} {t : Nat} {i : Instr} {c : Ctx} (h : present s t i = some c) : PassIs c s s c.q := by
  obtain ⟨rfl, hq, -⟩ := present_ctx h
  exact ⟨hq, fun _ _ => rfl⟩

section
variable {c : Ctx} {s v : State} {q : SeqState}

theorem passIs_updSeq (h : PassIs c s v q) {f : SeqState → SeqState} (hf : ∀ x, (f x).pass = x.pass) :
    PassIs c s (v.updSeq c.t c.q.pass f) (f q) := by
  obtain ⟨hown, hother⟩ := h
  refine ⟨by simp [seq_updSeq v c.t c.q.pass c.t _ f hf, hown], fun r hr => ?_⟩
  simp [seq_updSeq v c.t c.q.pass c.t r f hf, hr, hother r hr]

theorem passIs_updTile (h : PassIs c s v q) {f : Tile → Tile} (hf : (f (v.tile c.t)).seqs = (v.tile c.t).seqs) :
    PassIs c s (v.updTile c.t f) q :=
  ⟨(seq_updTile v c.t c.t _ f hf).trans h.1, fun r hr => (seq_updTile v c.t c.t r f hf).trans (h.2 r hr)⟩

/-- What the sequencer states say depends on the tiles alone. -/
theorem passIs_of_tiles (h : PassIs c s v q) {u : State} (hu : u.tiles = v.tiles) : PassIs c s u q := by
  simpa only [PassIs, State.seq?, State.tile, hu] using h

theorem passIs_advance (h : PassIs c s v q) (i : Instr) : PassIs c s (advance c i v) (c.step i q) := by
  obtain ⟨hown, hother⟩ := h
  refine ⟨by simp [seq_advance, hown], fun r hr => ?_⟩
  simp [seq_advance, hr, hother r hr]

end

/-! ## The tiles after an instruction -/

/-- Between s and u only the sequencer states of a tile may have changed, of all that tiles hold. -/
structure SeqsOnly (t : Nat) (s u : State) : Prop where
  tile : u.tile t = { s.tile t with seqs := (u.tile t).seqs }
  kept : TilesKept s u t

theorem SeqsOnly.of_tiles {s u : State} (h : u.tiles = s.tiles) (t : Nat) : SeqsOnly t s u := by
  have htile (j : Nat) : u.tile j = s.tile j := by simp only [State.tile, h]
  exact ⟨by rw [htile], fun j _ => htile j⟩

theorem seqsOnly_updSeq (t q : Nat) (f : SeqState → SeqState) (s : State) : SeqsOnly t s (s.updSeq t q f) where
  tile := by simp
  kept := tilesKept_updTile s t _

/-- The clock of the tile runs once the instruction has issued, and but for that its sequencer states alone have changed. -/
theorem SeqsOnly.clocked {t : Nat} {s v : State} (h : SeqsOnly t s v) :
    let u := v.updTile t (fun tl => { tl with clocked := true })
    u.tile t = { s.tile t with seqs := (u.tile t).seqs, clocked := true } ∧ TilesKept s u t := by
  refine ⟨?_, fun j hj => (tilesKept_updTile v t _ j hj).trans (h.kept j hj)⟩
  rw [tile_updTile, if_pos rfl, h.tile]

theorem SeqsOnly.advance {c : Ctx} {s v : State} (h : SeqsOnly c.t s v) (i : Instr) :
    let u := advance c i v
    u.tile c.t = { s.tile c.t with seqs := (u.tile c.t).seqs, clocked := true } ∧ TilesKept s u c.t := by
  refine ⟨?_, fun j hj => ?_⟩
  · rw [tile_advance, if_pos rfl, h.tile]
  · rw [tile_advance, if_neg hj, h.kept j hj]

/-- An instruction that issues with an effect on no tile: its pass moves past it, its tile's clock runs, and outside the tile only
its effect and, for a move, the count of dispatched moves remain. -/
theorem runWith_issues {s : State} {t : Nat} {i : Instr} {c : Ctx} {rd wr : List Nat} {eff ahead : Ctx → State → State}
    (hi : Issues s t i c rd wr) (ht : touchOf i c s = some (rd, wr)) (he : (eff c s).tiles = s.tiles) :
    let u := runWith ahead t i eff s
    PassAt c i s u ∧ TilesKept s u t ∧ u.tile t = { s.tile t with seqs := (u.tile t).seqs, clocked := true } ∧
    u = { eff c s with tiles := u.tiles, gath := { (eff c s).gath with dispatches := u.gath.dispatches } } ∧
    (isMove i = false → u = { eff c s with tiles := u.tiles }) := by
  obtain ⟨rfl, -⟩ := present_ctx hi.1
  have hrun : runWith ahead c.t i eff s = Machine.advance c i (eff c s) := runOp_issues hi ht
  obtain ⟨htile, hkept⟩ := (SeqsOnly.of_tiles he c.t).advance i
  rw [hrun]
  refine ⟨passIs_advance (passIs_of_tiles (passIs_present hi.1) he) i, hkept, htile, advance_frame c i _, fun hm => ?_⟩
  rw [advance_frame, advance_gath c i _ hm]

end Sys2Proof.Laws
end


section
/-! The statement about SWAP, LOOP and BRC (R123, R124, R130). -/

namespace Sys2Proof.Laws

set_option Elab.async false

open Sys2Proof Sys2Proof.Machine Sys2Proof.Safety

/-- A sequencer state with the roles of a buffer's halves exchanged (R130). -/
def exchangeHalves (buf : Nat) (q : SeqState) : SeqState :=
  { q with swapped := if q.swapped.contains buf then q.swapped.filter (· ≠ buf) else q.swapped ++ [buf] }

theorem exchangeHalves_pass (buf : Nat) (q : SeqState) : (exchangeHalves buf q).pass = q.pass := rfl

/-- Moving a pass on and exchanging halves do not depend on each other. -/
theorem step_exchangeHalves (c : Ctx) (i : Instr) (buf : Nat) (q : SeqState) :
    c.step i (exchangeHalves buf q) = exchangeHalves buf (c.step i q) := by
  unfold Ctx.step
  split <;> rfl

/-- A sequencer state with a loop body opened at the next instruction (R124). -/
def openLoop (f : LoopF) (q : SeqState) : SeqState :=
  { q with loops := q.loops ++ [{ start := q.pc + 1, body := f.body, count := f.count, cur := 0 }] }

theorem openLoop_pass (f : LoopF) (q : SeqState) : (openLoop f q).pass = q.pass := rfl

/-- The sequencer state from which a BRC continues (R123). -/
def branch (f : BrcF) (q : SeqState) : SeqState := if brcTaken q f then q.goto ((q.pc : Int) + f.disp).toNat else q.next

theorem branch_pass (f : BrcF) (q : SeqState) : (branch f q).pass = q.pass := by
  unfold branch
  split <;> rfl

theorem exec_swap (t buf : Nat) (s : State) : exec (.swap t buf) s = .next (swapOp t buf s) := rfl
theorem exec_loop (t : Nat) (f : LoopF) (s : State) : exec (.loop t f) s = .next (loopOp t f s) := rfl
theorem exec_brc (t : Nat) (f : BrcF) (s : State) : exec (.brc t f) s = .next (brcOp t f s) := rfl

theorem swapOp_issues {s : State} {t buf : Nat} {c : Ctx} {wr : List Nat} (hi : Issues s t (.swap t buf) c [] wr)
    (ht : swapTouch buf c s = some ([], wr)) :
    swapOp t buf s = advance c (.swap t buf) (s.updSeq c.t c.q.pass (exchangeHalves buf)) := by
  obtain ⟨rfl, -⟩ := present_ctx hi.1
  exact runOp_issues (eff := fun c s => s.updSeq c.t c.q.pass (exchangeHalves buf)) hi ht

theorem loopOp_opens {s : State} {t : Nat} {f : LoopF} {c : Ctx} (h : present s t (.loop t f) = some c) :
    loopOp t f s = advance c (.loop t f) (s.updSeq c.t c.q.pass (openLoop f)) := by
  obtain ⟨rfl, -, hseq, -⟩ := present_ctx h
  simp only [loopOp, h, hseq]
  rfl

theorem brcOp_branches {s : State} {t : Nat} {f : BrcF} {c : Ctx} (h : present s t (.brc t f) = some c) :
    brcOp t f s = (s.updSeq c.t c.q.pass (branch f)).updTile c.t (fun tl => { tl with clocked := true }) := by
  obtain ⟨rfl, -, hseq, -⟩ := present_ctx h
  simp only [brcOp, h, hseq]
  rfl

/-- An instruction that is no move and whose effect is on the sequencer state of its pass changes that and its tile's clock. -/
theorem advance_updSeq {s : State} {c : Ctx} {i : Instr} {f : SeqState → SeqState} (h : present s c.t i = some c)
    (hm : isMove i = false) (hf : ∀ x, (f x).pass = x.pass) :
    let u := advance c i (s.updSeq c.t c.q.pass f)
    PassIs c s u (c.step i (f c.q)) ∧ u.tile c.t = { s.tile c.t with seqs := (u.tile c.t).seqs, clocked := true } ∧
    TilesKept s u c.t ∧ u = { s with tiles := u.tiles } := by
  obtain ⟨htile, hkept⟩ := (seqsOnly_updSeq c.t c.q.pass f s).advance i
  refine ⟨passIs_advance (passIs_updSeq (passIs_present h) hf) i, htile, hkept, ?_⟩
  rw [advance_frame, advance_gath _ _ _ hm]
  rfl

/-- Settles O15: each instruction changes the sequencer state of its pass, and where a pass goes next follows its innermost loop. -/
theorem loopsSwapsAndBranches : Obligations.LoopsSwapsAndBranches := by
  refine ⟨fun s t buf c wr hi ht => ?_, fun s t f c h hb => ?_, fun s t f c h => ?_, fun q ls l hl => ⟨?_, ?_, ?_⟩⟩
  · obtain ⟨rfl, -⟩ := present_ctx hi.1
    obtain ⟨hpass, htile, hkept, hframe⟩ := advance_updSeq hi.1 rfl (exchangeHalves_pass buf)
    rw [step_exchangeHalves] at hpass
    refine ⟨_, exec_swap _ _ _, ?_⟩
    rw [swapOp_issues hi ht]
    exact ⟨hpass, htile, hkept, hframe⟩
  · obtain ⟨rfl, -⟩ := present_ctx h
    obtain ⟨hpass, hrest⟩ := advance_updSeq h rfl (openLoop_pass f)
    have hnext := next_within (q := openLoop f c.q) rfl (show c.q.pc + 1 ≠ c.q.pc + 1 + f.body by omega)
    rw [step_fetch (present_fetch h rfl).1 rfl, hnext] at hpass
    refine ⟨_, exec_loop _ _ _, ?_⟩
    rw [loopOp_opens h]
    exact ⟨hpass, hrest⟩
  · obtain ⟨rfl, -⟩ := present_ctx h
    obtain ⟨htile, hkept⟩ := (seqsOnly_updSeq c.t c.q.pass (branch f) s).clocked
    refine ⟨_, exec_brc _ _ _, ?_⟩
    rw [brcOp_branches h]
    exact ⟨passIs_updTile (passIs_updSeq (passIs_present h) (branch_pass f)) rfl, htile, hkept, rfl⟩
  · exact next_within hl
  · exact next_turn hl
  · rintro hp hn rfl
    exact next_leave hl hp hn

end Sys2Proof.Laws
end


section
/-! The statement about WAIT, TAKE and BIND (R132, R227 to R229, R237, R238). -/

namespace Sys2Proof.Laws

set_option Elab.async false

open Sys2Proof Sys2Proof.Machine Sys2Proof.Safety

theorem exec_wait (t : Nat) (f : WaitF) (s : State) : exec (.wait t f) s = .next (waitOp t f s) := rfl
theorem exec_take (t : Nat) (f : TakeF) (s : State) : exec (.take t f) s = .next (takeOp t f s) := rfl
theorem exec_bind (t : Nat) (f : BindF) (s : State) : exec (.bind t f) s = .next (bindOp t f s) := rfl
theorem exec_binderWireRelease (w : Nat) (s : State) : exec (.binderWireRelease w) s = .next (binderWireReleaseOp w s) := rfl

/-! ## WAIT and BIND at the fetch -/

theorem waitOp_holds {s : State} {t : Nat} {f : WaitF} {c : Ctx} (h : present s t (.wait t f) = some c) (hq : c.q.hold = none)
    (he : c.earlier = []) :
    waitOp t f s = setHold c (.wait f.kind f.tally (waitTarget c f) s.aon (holdDeadline c f.timeout s)) s := by
  simp [waitOp, h, hq, he]

theorem bindOp_holds {s : State} {t : Nat} {f : BindF} {c : Ctx} (h : present s t (.bind t f) = some c) (hq : c.q.hold = none)
    (he : c.earlier = []) :
    bindOp t f s = setHold c (.bind f.wire s.aon (holdDeadline c f.timeout s)) (raiseWire f.wire t s) := by
  simp [bindOp, h, hq, he]

/-- The target of a WAIT counts the loop counters of its pass. -/
theorem waitTarget_fetch {s : State} {t : Nat} {f : WaitF} {c : Ctx} (h : present s t (.wait t f) = some c) :
    waitTarget c f = (if f.kind = 2 then c.p.origin else 0) + BitVec.ofNat 32 (f.base + f.step * c.q.counter f.index) := by
  rw [waitTarget, (present_fetch h rfl).2]

/-- A pass held at the fetch has the hold, and but for that the tile is as before. -/
theorem passIs_setHold {s v : State} {c : Ctx} (h : PassIs c s v c.q) (x : Hold) : PassIs c s (setHold c x v) (heldAs c x) :=
  passIs_updSeq h fun _ => rfl

/-! ## The tallies -/

theorem tally_setTally (s : State) (dest : Option Nat) (k : Nat) (y : Tally) : (s.setTally dest k y).tally dest k = y := by
  cases dest <;> simp [State.tally, State.setTally]

theorem tally_updSeq (s : State) (t q : Nat) (f : SeqState → SeqState) (dest : Option Nat) (k : Nat) :
    (s.updSeq t q f).tally dest k = s.tally dest k := by
  cases dest with
  | none => rfl
  | some j =>
    simp only [State.tally, tile_updSeq]
    split
    · next hj => rw [hj]
    · rfl

theorem seq_setTally (s : State) (dest : Option Nat) (k : Nat) (y : Tally) (t r : Nat) :
    (s.setTally dest k y).seq? t r = s.seq? t r := by
  cases dest with
  | none => rfl
  | some j => exact seq_updTile s j t r _ rfl

theorem waited_ref (y : Tally) (target : Word) :
    (y.waited target).ref = if y.gate = false ∧ target ≠ y.ref ∧ (target - y.ref).msb = false then target else y.ref := by
  have hd : target - y.ref = 0 ↔ target = y.ref := sub_eq_zero
  simp only [Tally.waited, tdist, Bool.and_eq_true, Bool.not_eq_true', decide_eq_true_eq, ne_eq, hd, and_assoc, apply_ite Tally.ref]

/-- The end of a cycle at a pass that holds a WAIT (R227, R229). -/
theorem evalWait_wait {s : State} {t r : Nat} {q : SeqState} {kind k since : Nat} {target : Word} {d : Option Nat}
    (h : s.seq? t r = some q) (hq : q.hold = some (.wait kind k target since d)) :
    evalWait t r s = if (s.tally (waitDest t kind) k).meets target
      then (s.setTally (waitDest t kind) k ((s.tally (waitDest t kind) k).waited target)).updSeq t r SeqState.next else s := by
  simp [evalWait, h, hq]

theorem applyTakes_one {s : State} {dest : Option Nat} {k : Nat} {a : Word} (h : s.sync.takes = [(dest, k, a)]) :
    (applyTakes s).tally dest k = (s.tally dest k).take a := by
  simp only [applyTakes, h, each_cons, each_nil, tally_setTally]
  cases dest <;> rfl

/-! ## The wires -/

/-- The values of a table changed under their keys. -/
theorem sfind_map {α : Type} (m : List (Nat × α)) (f : Nat → α → α) (k : Nat) :
    sfind (m.map (fun e => (e.1, f e.1 e.2))) k = (sfind m k).map (f k) := by
  induction m with
  | nil => rfl
  | cons e m ih =>
    obtain ⟨j, v⟩ := e
    by_cases h : j = k <;> simp [sfind, h, ih]

/-- What the wire of a number becomes when a tile's input on wire w is raised (R237). -/
def withInput (w t k : Nat) (x : Wire) : Wire := if k = w ∧ t ∉ x.high then { x with high := x.high ++ [t] } else x

theorem sfind_raiseWire (w t k : Nat) (s : State) :
    sfind (raiseWire w t s).sync.wires k = (sfind s.sync.wires k).map (withInput w t k) := by
  rw [← sfind_map]
  congr 1
  refine List.map_congr_left fun e _ => ?_
  by_cases h : e.1 = w ∧ t ∉ e.2.high <;> simp [withInput, h]

theorem withInput_own (w t : Nat) (x : Wire) : t ∈ (withInput w t w x).high ∧ (withInput w t w x).mask = x.mask ∧
    (withInput w t w x).owner = x.owner ∧ (withInput w t w x).count = x.count := by
  by_cases h : t ∈ x.high <;> simp [withInput, h]

/-- A sequencer state once a wire has released: one that a BIND of the wire holds goes on (R237). -/
def releasedFrom (w : Nat) (q : SeqState) : SeqState :=
  match q.hold with
  | some (.bind v _ _) => if v = w then q.next else q
  | _ => q

theorem releasedFrom_bind {w since : Nat} {d : Option Nat} {q : SeqState} (h : q.hold = some (.bind w since d)) :
    releasedFrom w q = q.next := by simp [releasedFrom, h]

theorem releasedFrom_other {w : Nat} {q : SeqState} (h : ∀ since d, q.hold ≠ some (.bind w since d)) :
    releasedFrom w q = q := by
  unfold releasedFrom
  split
  · next v since d hv => exact if_neg fun e => h since d (by rw [hv, e])
  · rfl

theorem releasedFrom_twice (w : Nat) (q : SeqState) : releasedFrom w (releasedFrom w q) = releasedFrom w q := by
  by_cases h : ∃ since d, q.hold = some (.bind w since d)
  · obtain ⟨since, d, h⟩ := h
    rw [releasedFrom_bind h]
    rfl
  · have hself : releasedFrom w q = q := releasedFrom_other fun since d hq => h ⟨since, d, hq⟩
    rw [hself, hself]

theorem releaseAt_bind {w q t since : Nat} {d : Option Nat} {s : State} {x : SeqState} (h : s.seq? t q = some x)
    (hx : x.hold = some (.bind w since d)) : releaseAt w q t s = s.updSeq t q SeqState.next := by
  simp [releaseAt, h, hx]

theorem releaseAt_other {w q t : Nat} {s : State}
    (h : ∀ x, s.seq? t q = some x → ∀ since d, x.hold ≠ some (.bind w since d)) : releaseAt w q t s = s := by
  unfold releaseAt
  split
  · next v since d hv =>
    obtain ⟨x, hx, hhold⟩ := Option.bind_eq_some_iff.1 hv
    exact if_neg fun e => h x hx since d (by rw [hhold, e])
  · rfl

theorem releaseAt_frame (w q t : Nat) (s : State) : releaseAt w q t s = { s with tiles := (releaseAt w q t s).tiles } := by
  unfold releaseAt
  split
  · split <;> rfl
  · rfl

theorem each_releaseAt_frame (w q : Nat) (l : List Nat) (s : State) :
    each l (releaseAt w q) s = { s with tiles := (each l (releaseAt w q) s).tiles } :=
  each_keeps (fun u : State => u = { s with tiles := u.tiles }) _ _ _ rfl fun t u hu => by rw [releaseAt_frame, hu]

theorem seq_releaseAt (w q t : Nat) (s : State) (t' r : Nat) :
    (releaseAt w q t s).seq? t' r = if t' = t ∧ r = q then (s.seq? t' r).map (releasedFrom w) else s.seq? t' r := by
  by_cases h : ∃ x, s.seq? t q = some x ∧ ∃ since d, x.hold = some (.bind w since d)
  · obtain ⟨x, hx, since, d, hhold⟩ := h
    rw [releaseAt_bind hx hhold, seq_updSeq s t q t' r _ next_pass]
    by_cases ht : t' = t <;> by_cases hr : r = q <;> simp [ht, hr, hx, releasedFrom_bind hhold]
  · have hother : ∀ x, s.seq? t q = some x → ∀ since d, x.hold ≠ some (.bind w since d) :=
      fun x hx since d hhold => h ⟨x, hx, since, d, hhold⟩
    rw [releaseAt_other hother]
    split
    · next heq =>
      obtain ⟨rfl, rfl⟩ := heq
      cases hx : s.seq? t' r with
      | none => rfl
      | some x => rw [Option.map_some, releasedFrom_other (hother x hx)]
    · rfl

theorem seq_each_releaseAt (w q : Nat) (l : List Nat) (s : State) (t r : Nat) :
    (each l (releaseAt w q) s).seq? t r = if t ∈ l ∧ r = q then (s.seq? t r).map (releasedFrom w) else s.seq? t r := by
  induction l generalizing s with
  | nil => simp
  | cons a l ih =>
    rw [each_cons, ih, seq_releaseAt]
    by_cases ha : t = a <;> by_cases hl : t ∈ l <;> by_cases hr : r = q <;>
      simp [ha, hl, hr, Option.map_map, Function.comp_def, releasedFrom_twice]

theorem binderWireReleaseOp_high {s : State} {w : Nat} {x : Wire} (h : sfind s.sync.wires w = some x) (hs : s.alive = true)
    (hx : x.high ≠ []) (hall : x.mask.all (s.wireHigh x).contains = true) :
    let v := each x.high (releaseAt w x.owner) s
    binderWireReleaseOp w s =
      { v with sync := { v.sync with wires := sinsert w { x with high := [], count := x.count + 1 } v.sync.wires } } := by
  simp [binderWireReleaseOp, h, hs, hx, hall]

theorem binderWireReleaseOp_low {s : State} {w : Nat} {x : Wire} (h : sfind s.sync.wires w = some x)
    (hall : x.mask.all (s.wireHigh x).contains = false) : binderWireReleaseOp w s = s := by
  simp [binderWireReleaseOp, h, hall]

/-! ## The statement -/

/-- Settles O17: WAIT and BIND hold their pass at the fetch; the end of the cycle and the release of the wire let it go on. -/
theorem waitsTakesAndBinds : Obligations.WaitsTakesAndBinds := by
  refine ⟨fun s t f c h hq he => ?_, fun s t r q kind k since target d hq hhold => ⟨fun hmet => ?_, fun hnot => ?_⟩,
    fun s t f c hi => ?_, fun s dest k a h => ⟨fun hg => ?_, fun hg => ?_, applyTakes_takes s⟩, fun s t f c h hq he => ?_,
    fun s w x h hs hx => ⟨fun hall => ?_, fun hlow => ?_⟩⟩
  · obtain ⟨rfl, -⟩ := present_ctx h
    refine ⟨_, exec_wait _ _ _, ?_⟩
    rw [waitOp_holds h hq he, waitTarget_fetch h]
    exact ⟨passIs_setHold (passIs_present h) _, tilesKept_updTile s c.t _, rfl⟩
  · rw [evalWait_wait hq hhold, if_pos (by simp [Tally.meets, tdist, hmet])]
    refine ⟨?_, ?_, ?_, ?_⟩
    · rw [tally_updSeq, tally_setTally, waited_count]
    · rw [tally_updSeq, tally_setTally, waited_ref]
    · simp [seq_updSeq _ _ _ _ _ _ next_pass, seq_setTally, hq]
    · cases waitDest t kind <;> rfl
  · rw [evalWait_wait hq hhold, if_neg (by simp [Tally.meets, tdist, hnot])]
  · obtain ⟨hpass, hkept, -, -, hframe⟩ := runWith_issues (ahead := fun _ s => s)
      (eff := fun _ s => queueTake (waitDest t f.kind) f.tally f.amount s) hi rfl rfl
    refine ⟨_, exec_take _ _ _, ?_⟩
    have htake : takeOp t f s = _ := hframe rfl
    refine ⟨by rw [htake]; rfl, hpass, hkept, ?_⟩
    rw [htake]
    rfl
  · rw [applyTakes_one h, Tally.take, hg]
    rfl
  · rw [applyTakes_one h, Tally.take, hg]
    rfl
  · obtain ⟨rfl, -⟩ := present_ctx h
    refine ⟨_, exec_bind _ _ _, ?_⟩
    rw [bindOp_holds h hq he]
    exact ⟨passIs_setHold (passIs_of_tiles (passIs_present h) rfl) _,
      fun x hx => ⟨_, (sfind_raiseWire ..).trans (congrArg _ hx), withInput_own f.wire c.t x⟩, tilesKept_updTile _ c.t _, rfl⟩
  · refine ⟨_, exec_binderWireRelease _ _, ?_⟩
    rw [binderWireReleaseOp_high h hs hx hall]
    have hframe := each_releaseAt_frame w x.owner x.high s
    refine ⟨by simp [sfind_sinsert], fun t ht q since d hq hhold => ?_, fun t r hr => ?_, ?_⟩
    · exact (seq_each_releaseAt w x.owner x.high s t x.owner).trans (by simp [ht, hq, releasedFrom_bind hhold])
    · exact (seq_each_releaseAt w x.owner x.high s t r).trans (by simp [hr])
    · rw [hframe]
  · exact ⟨_, exec_binderWireRelease _ _, binderWireReleaseOp_low h hlow⟩

end Sys2Proof.Laws
end


section
/-! SUPPORT. The transfers that a move forms: how its lines are grouped, packed and numbered, and what each transfer carries (R165,
R204, R261). -/

namespace Sys2Proof.Laws

set_option Elab.async false

open Sys2Proof Sys2Proof.Machine Sys2Proof.Safety

/-! ## Lines in granules (R204) -/

/-- The lines of one transfer from an address: each its memory address and its bin line. -/
def runLines (a : Nat) (bins : List Nat) : List (Nat × Nat) := bins.zipIdx.map (fun b => (a + 64 * b.2, b.1))

theorem runLines_cons (a b : Nat) (bins : List Nat) : runLines a (b :: bins) = (a, b) :: runLines (a + 64) bins := by
  simp only [runLines, List.zipIdx_cons', List.map_cons, List.map_map, Nat.mul_zero, Nat.add_zero, List.cons.injEq, true_and]
  refine List.map_congr_left fun x _ => ?_
  simp only [Function.comp_apply, Prod.map_fst, Prod.map_snd, id_eq, Prod.mk.injEq, and_true]
  omega

/-- A group of lines that lies within one aligned granule and holds a line. -/
def InGranule (g : Nat × List Nat) : Prop := g.2 ≠ [] ∧ (g.1 + 64 * (g.2.length - 1)) / 256 = g.1 / 256

/-- Grouping splits the lines, in order, into runs of consecutive addresses within a granule. -/
theorem groupLines_spec (ls : List (Nat × Nat)) :
    (groupLines ls).flatMap (fun g => runLines g.1 g.2) = ls ∧ ∀ g ∈ groupLines ls, InGranule g := by
  induction ls with
  | nil => exact ⟨rfl, by simp [groupLines]⟩
  | cons l ls ih =>
    obtain ⟨a, b⟩ := l
    obtain ⟨hcover, hin⟩ := ih
    have hsingle : InGranule (a, [b]) := ⟨List.cons_ne_nil _ _, rfl⟩
    unfold groupLines
    cases hg : groupLines ls with
    | nil =>
      rw [hg] at hcover
      subst hcover
      exact ⟨rfl, by simpa using hsingle⟩
    | cons g gs =>
      obtain ⟨a', bs⟩ := g
      rw [hg] at hcover hin
      obtain ⟨⟨hne, hgran⟩, hrest⟩ := List.forall_mem_cons.1 hin
      simp only
      split
      · next hjoin =>
        simp only [Bool.and_eq_true, decide_eq_true_eq] at hjoin
        obtain ⟨rfl, hsame⟩ := hjoin
        refine ⟨?_, List.forall_mem_cons.2 ⟨⟨List.cons_ne_nil _ _, ?_⟩, hrest⟩⟩
        · rw [← hcover, List.flatMap_cons, List.flatMap_cons, runLines_cons, List.cons_append]
        · have hpos : 0 < bs.length := List.length_pos_iff.2 hne
          simp only [List.length_cons] at hgran ⊢
          rw [hsame, ← hgran]
          congr 1
          omega
      · refine ⟨?_, List.forall_mem_cons.2 ⟨hsingle, hin⟩⟩
        rw [← hcover, List.flatMap_cons, runLines_cons]
        rfl

/-- Numbering the packets of a move leaves its groups as they are. -/
theorem packetIndex_groups (k next used : Nat) (gs : List (Nat × List Nat)) : (packetIndex k next used gs).map (·.2) = gs := by
  induction gs generalizing k next used with
  | nil => rfl
  | cons g gs ih =>
    unfold packetIndex
    split <;> simp [ih]

/-! ## Transfers formed -/

/-- What a transfer carries: its address, its bin lines, its number of lines and its bytes. -/
abbrev Load := Nat × List Nat × Nat × List Byte

/-- The load of a transfer. -/
def loadOf (x : Xfer) : Load := (x.mpa, x.bins, x.lines, x.data)

/-- A transfer of a move waits for its tag. -/
def Waits (k : MoveCtx) (x : Xfer) : Prop :=
  x.tile = k.tile ∧ x.pass = k.pass ∧ x.stream = k.stream ∧ x.gath = k.gath ∧ x.node = k.node ∧ x.prio = k.prio ∧
  x.write = k.write ∧ x.issued = k.issued ∧ x.st = .waiting ∧ x.reserve = none

/-- Between s and u the gatherers' list has gained waiting transfers of a move with the loads ls, and nothing else but the fabric
has changed. -/
def Forms (k : MoveCtx) (ls : List Load) (s u : State) : Prop :=
  ∃ new, u.gath.xfers = s.gath.xfers ++ new ∧ new.map loadOf = ls ∧ (∀ x ∈ new, Waits k x) ∧
    u = { s with fab := u.fab, gath := { s.gath with xfers := u.gath.xfers, nextId := u.gath.nextId } }

theorem Forms.of_fab (k : MoveCtx) {s u : State} (h : u = { s with fab := u.fab }) : Forms k [] s u := by
  rw [h]
  exact ⟨[], (List.append_nil _).symm, rfl, by simp, rfl⟩

theorem Forms.trans {k : MoveCtx} {a b : List Load} {s u v : State} (h : Forms k a s u) (g : Forms k b u v) :
    Forms k (a ++ b) s v := by
  obtain ⟨new, hx, hl, hw, hf⟩ := h
  obtain ⟨more, gx, gl, gw, gf⟩ := g
  refine ⟨new ++ more, ?_, ?_, ?_, ?_⟩
  · rw [gx, hx, List.append_assoc]
  · rw [List.map_append, hl, gl]
  · exact List.forall_mem_append.2 ⟨hw, gw⟩
  · rw [gf, hf]

theorem forms_addXfer (k : MoveCtx) (mpa : Nat) (bins : List Nat) (lines : Nat) (data : List Byte) (block : Option (Nat × Nat))
    (s : State) : Forms k [(mpa, bins, lines, data)] s (addXfer k mpa bins lines data block s) :=
  ⟨[_], rfl, rfl, by simp [Waits], rfl⟩

theorem forms_each {β : Type} (k : MoveCtx) (l : List β) (f : β → State → State) (e : β → List Load)
    (h : ∀ x s, Forms k (e x) s (f x s)) (s : State) : Forms k (l.flatMap e) s (each l f s) := by
  induction l generalizing s with
  | nil => exact .of_fab k rfl
  | cons x l ih =>
    rw [List.flatMap_cons]
    exact (h x s).trans (ih _)

/-! ## Blocks of a compressing stream (R165 to R169) -/

/-- The number of a block of lines in its stream. -/
def blockNumber (base : Nat) (b : List (Nat × Nat)) : Nat := (((b.head?).map (·.1)).getD base - base) / 4096

/-- The lines of a packed block's slot, each filled up to 64 bytes. -/
def slotLines (slot : List Byte) : List (List Byte) := (pieces 64 slot).map (fun l => l ++ List.replicate (64 - l.length) 0)

/-- A packed block of bin lines. -/
def packedBlock (fmt : Nat) (bin : SMap Byte) (b : List (Nat × Nat)) : List Byte × List Byte :=
  packBlock fmt ((b.map (·.2)).flatMap (fun l => bytesAt bin l 64))

/-- The loads of a block that is read: its header, for the bin lines of the whole block. -/
def readLoads (base : Nat) (b : List (Nat × Nat)) : List Load :=
  [(headerAddr base (blockNumber base b) / 64 * 64, b.map (·.2), 1, [])]

/-- The loads of a block that is written: its header, and its slot by granules. -/
def writeLoads (fmt base : Nat) (bin : SMap Byte) (b : List (Nat × Nat)) : List Load :=
  (headerAddr base (blockNumber base b), [], 1, (packedBlock fmt bin b).1) ::
  (pieces 4 (slotLines (packedBlock fmt bin b).2)).zipIdx.map (fun g =>
    (slotAddr base (blockNumber base b) + g.2 * 256, [], g.1.length, g.1.flatten))

theorem forms_formBlock (k : MoveCtx) (base : Nat) (bin : SMap Byte) (b : List (Nat × Nat)) (s : State) :
    Forms k (if k.write then writeLoads k.fmt base bin b else readLoads base b) s (formBlock k base bin b s) := by
  unfold formBlock
  split
  · rw [writeLoads, List.map_eq_flatMap]
    exact (forms_addXfer ..).trans (forms_each k _ _ _ (fun _ _ => forms_addXfer ..) _)
  · exact forms_addXfer ..

theorem formBlock_fab (k : MoveCtx) (base : Nat) (bin : SMap Byte) (b : List (Nat × Nat)) (s : State) :
    (formBlock k base bin b s).fab = s.fab := by
  unfold formBlock
  split
  · exact each_keeps (fun u : State => u.fab = s.fab) _ _ _ rfl fun _ _ hu => hu
  · rfl

/-- The bytes of a written block's loads are its header and its filled lines. -/
theorem writeLoads_data (fmt base : Nat) (bin : SMap Byte) (b : List (Nat × Nat)) :
    (writeLoads fmt base bin b).flatMap (·.2.2.2) =
      (packedBlock fmt bin b).1 ++ (slotLines (packedBlock fmt bin b).2).flatten := by
  have hparts (l : List (List (List Byte))) : l.zipIdx.flatMap (fun g => g.1.flatten) = l.flatten.flatten := by
    rw [List.flatten_flatten, ← List.flatMap_def, ← List.flatMap_map, List.zipIdx_map_fst]
  rw [writeLoads, List.flatMap_cons, List.flatMap_map]
  congr 1
  rw [hparts, flatten_pieces (by decide)]

/-! ## The transfers of a move (R204, R261) -/

/-- The load of a group of lines: its bytes are taken when its tag is granted. -/
def groupLoad (g : Nat × List Nat) : Load := (g.1, g.2, g.2.length, [])

/-- The loads of a move's lines. -/
def moveLoads (k : MoveCtx) (x : Stream) (bin : SMap Byte) (ls : List (Nat × Nat)) : List Load :=
  if x.compress then
    (pieces 64 ls).flatMap (fun b => if k.write then writeLoads k.fmt x.base bin b else readLoads x.base b)
  else (groupLines ls).map groupLoad

/-- The transfers of a remote move, numbered for their packets, before the record of a write is opened (R258, R261). -/
def formPackets (k : MoveCtx) (ls : List (Nat × Nat)) (s : State) : State :=
  each (packetIndex 0 0 0 (groupLines ls))
    (fun g u => addXfer k g.2.1 g.2.2 g.2.2.length [] (some ((newXid s).1, g.1)) u) (newXid s).2

theorem forms_formPackets (k : MoveCtx) (ls : List (Nat × Nat)) (s : State) :
    Forms k ((groupLines ls).map groupLoad) s (formPackets k ls s) := by
  have h := forms_each k (packetIndex 0 0 0 (groupLines ls)) _ (fun g => [groupLoad g.2])
    (fun g u => forms_addXfer k g.2.1 g.2.2 g.2.2.length [] (some ((newXid s).1, g.1)) u) (newXid s).2
  rw [← List.map_eq_flatMap, ← Function.comp_def, ← List.map_map, packetIndex_groups] at h
  exact (Forms.of_fab k rfl).trans h

theorem formPackets_fab (k : MoveCtx) (ls : List (Nat × Nat)) (s : State) :
    (formPackets k ls s).fab = { s.fab with nextXid := (newXid s).1 + 1 } :=
  each_keeps (fun u : State => u.fab = { s.fab with nextXid := (newXid s).1 + 1 }) _ _ _ rfl fun _ _ hu => hu

section
variable (k : MoveCtx) (x : Stream) (bin : SMap Byte) (ls : List (Nat × Nat)) (s : State)

theorem formMove_compress (hc : x.compress = true) :
    formMove k x bin ls s = each (pieces 64 ls) (formBlock k x.base bin) s := by simp [formMove, hc]

theorem formMove_local (hc : x.compress = false) (hn : k.node = 0) :
    formMove k x bin ls s = each (groupLines ls) (fun g u => addXfer k g.1 g.2 g.2.length [] none u) s := by
  simp [formMove, hc, hn]

theorem formMove_remote (hc : x.compress = false) (hn : k.node ≠ 0) :
    formMove k x bin ls s = if ls = [] then s
      else if k.write then openOut k.node (newXid s).1 (groupLines ls) (upFrom (newXid s).2.gath.nextId (groupLines ls).length)
        (formPackets k ls s)
      else formPackets k ls s := by
  simp only [formMove, hc, hn, List.isEmpty_iff, Bool.false_eq_true, if_false]
  rfl

/-- The transfers of a move carry the loads of its lines. -/
theorem forms_formMove : Forms k (moveLoads k x bin ls) s (formMove k x bin ls s) := by
  unfold moveLoads
  by_cases hc : x.compress = true
  · rw [if_pos hc, formMove_compress k x bin ls s hc]
    exact forms_each k _ _ _ (fun b u => forms_formBlock k x.base bin b u) s
  · rw [if_neg hc]
    rw [Bool.not_eq_true] at hc
    by_cases hn : k.node = 0
    · rw [formMove_local k x bin ls s hc hn, List.map_eq_flatMap]
      exact forms_each k _ _ _ (fun g u => forms_addXfer ..) s
    · rw [formMove_remote k x bin ls s hc hn]
      split
      · next hl =>
        subst hl
        exact .of_fab k rfl
      · split
        · have h := (forms_formPackets k ls s).trans (.of_fab k (u := openOut k.node (newXid s).1 (groupLines ls)
            (upFrom (newXid s).2.gath.nextId (groupLines ls).length) (formPackets k ls s)) rfl)
          rwa [List.append_nil] at h
        · exact forms_formPackets k ls s

/-- What the transfers of a move do to the fabric: a local or compressing move nothing, and a remote read only takes a number. -/
theorem formMove_fab :
    let fab := (formMove k x bin ls s).fab
    (k.node = 0 ∨ x.compress = true → fab = s.fab) ∧ (k.write = false → fab = { s.fab with nextXid := fab.nextXid }) ∧
    fab = { s.fab with nextXid := fab.nextXid, turn := fab.turn, out := fab.out } := by
  by_cases h : k.node = 0 ∨ x.compress = true
  · have hfab : (formMove k x bin ls s).fab = s.fab := by
      by_cases hc : x.compress = true
      · rw [formMove_compress k x bin ls s hc]
        exact each_keeps (fun u : State => u.fab = s.fab) _ _ _ rfl fun b u hu => (formBlock_fab k x.base bin b u).trans hu
      · rw [formMove_local k x bin ls s (by simpa using hc) (h.resolve_right hc)]
        exact each_keeps (fun u : State => u.fab = s.fab) _ _ _ rfl fun _ _ hu => hu
    rw [hfab]
    exact ⟨fun _ => rfl, fun _ => rfl, rfl⟩
  · refine ⟨fun h' => absurd h' h, ?_⟩
    obtain ⟨hn, hc⟩ := not_or.1 h
    have hpackets := formPackets_fab k ls s
    rw [formMove_remote k x bin ls s (by simpa using hc) hn]
    split
    · exact ⟨fun _ => rfl, rfl⟩
    · split
      · next hw => exact ⟨fun h' => absurd (h'.symm.trans hw) Bool.false_ne_true, by simp only [openOut, hpackets]⟩
      · rw [hpackets]
        exact ⟨fun _ => rfl, rfl⟩

end

/-! ## What the loads say of the transfers -/

section
variable {k : MoveCtx} {x : Stream} {bin : SMap Byte} {ls : List (Nat × Nat)} {new : List Xfer}
  (h : new.map loadOf = moveLoads k x bin ls)
include h

theorem exists_group (hc : x.compress = false) {y : Xfer} (hy : y ∈ new) : ∃ g ∈ groupLines ls, groupLoad g = loadOf y := by
  have hmem : loadOf y ∈ moveLoads k x bin ls := h ▸ List.mem_map_of_mem hy
  rw [moveLoads, hc] at hmem
  exact List.mem_map.1 hmem

theorem linesCovered_loads (hc : x.compress = false) : linesCovered new = ls := by
  have hgroups : moveLoads k x bin ls = (groupLines ls).map groupLoad := by simp [moveLoads, hc]
  rw [hgroups] at h
  calc linesCovered new = (new.map loadOf).flatMap (fun l => runLines l.1 l.2.1) := by rw [List.flatMap_map]; rfl
    _ = (groupLines ls).flatMap (fun g => runLines g.1 g.2) := by rw [h]; exact List.flatMap_map ..
    _ = ls := (groupLines_spec ls).1

theorem lines_inGranule (hc : x.compress = false) {y : Xfer} (hy : y ∈ new) :
    y.lines = y.bins.length ∧ (y.mpa + 64 * (y.lines - 1)) / 256 = y.mpa / 256 := by
  obtain ⟨g, hg, hl⟩ := exists_group h hc hy
  obtain ⟨-, hin⟩ := (groupLines_spec ls).2 g hg
  simp only [groupLoad, loadOf, Prod.mk.injEq] at hl
  obtain ⟨hmpa, hbins, hlines, -⟩ := hl
  rw [← hlines, ← hbins, ← hmpa]
  exact ⟨rfl, hin⟩

theorem data_uncaptured (hc : x.compress = false) {y : Xfer} (hy : y ∈ new) : y.data = [] := by
  obtain ⟨g, -, hl⟩ := exists_group h hc hy
  exact (congrArg (·.2.2.2) hl).symm

theorem bins_readBlocks (hc : x.compress = true) (hw : k.write = false) :
    new.map (·.bins) = (pieces 64 ls).map (fun b => b.map (·.2)) ∧ ∀ y ∈ new, y.lines = 1 := by
  have hread : moveLoads k x bin ls = (pieces 64 ls).flatMap (readLoads x.base) := by simp [moveLoads, hc, hw]
  rw [hread] at h
  refine ⟨?_, fun y hy => ?_⟩
  · calc new.map (·.bins) = (new.map loadOf).map (·.2.1) := by rw [List.map_map]; rfl
      _ = (pieces 64 ls).map (fun b => b.map (·.2)) := by rw [h, List.map_flatMap, List.map_eq_flatMap]; rfl
  · have hmem : loadOf y ∈ (pieces 64 ls).flatMap (readLoads x.base) := h ▸ List.mem_map_of_mem hy
    obtain ⟨b, -, hb⟩ := List.mem_flatMap.1 hmem
    exact congrArg (·.2.2.1) (List.mem_singleton.1 hb)

theorem data_writeBlocks (hc : x.compress = true) (hw : k.write = true) :
    new.flatMap (·.data) =
      (pieces 64 ls).flatMap (fun b => (packedBlock k.fmt bin b).1 ++ (slotLines (packedBlock k.fmt bin b).2).flatten) := by
  have hwrite : moveLoads k x bin ls = (pieces 64 ls).flatMap (writeLoads k.fmt x.base bin) := by simp [moveLoads, hc, hw]
  rw [hwrite] at h
  calc new.flatMap (·.data) = (new.map loadOf).flatMap (·.2.2.2) := by rw [List.flatMap_map]; rfl
    _ = (pieces 64 ls).flatMap (fun b => (writeLoads k.fmt x.base bin b).flatMap (·.2.2.2)) := by rw [h, List.flatMap_assoc]
    _ = _ := by simp only [writeLoads_data]

end

end Sys2Proof.Laws
end


section
/-! The statement about GET and PUT (R121, R122, R165, R204, R206, R261). -/

namespace Sys2Proof.Laws

set_option Elab.async false

open Sys2Proof Sys2Proof.Machine Sys2Proof.Safety

theorem exec_get (t : Nat) (f : MoveF) (s : State) : exec (.get t f) s = .next (getOp t f s) := rfl
theorem exec_put (t : Nat) (f : MoveF) (s : State) : exec (.put t f) s = .next (putOp t f s) := rfl

/-! ## The lines of a move -/

/-- The lines of a move, each its memory address and its bin line (R121, R122). -/
def movedLines (c : Ctx) (f : MoveF) (m : MoveAt) : List (Nat × Nat) :=
  (moveLines c.v m.p m.x f).map (fun l => (l.mpa.toNat, l.bin))

/-- Where no line may not be touched, the good lines are all of them (R176). -/
theorem goodLines_all {c : Ctx} {s : State} {f : MoveF} {m : MoveAt} (h : (goodLines c s f m).2 = false) :
    (goodLines c s f m).1 = movedLines c f m := by
  have hwhole {good rest : List MoveLine} (happ : good ++ rest = moveLines c.v m.p m.x f)
      (hlen : ¬ good.length < (moveLines c.v m.p m.x f).length) : good = moveLines c.v m.p m.x f := by
    have hrest : rest = [] := by
      rw [← happ, List.length_append] at hlen
      exact List.length_eq_zero_iff.1 (by omega)
    rw [← happ, hrest, List.append_nil]
  unfold movedLines
  unfold goodLines at h ⊢
  simp only [decide_eq_false_iff_not] at h ⊢
  congr 1
  split at h
  · next hc =>
    rw [if_pos hc]
    exact hwhole (by rw [← List.flatten_append, List.takeWhile_append_dropWhile, flatten_pieces (by decide)]) h
  · next hc =>
    rw [if_neg hc]
    exact hwhole List.takeWhile_append_dropWhile h

/-! ## What a move adds -/

theorem touchOf_get {c : Ctx} {f : MoveF} {m : MoveAt} {bins : List Nat} (hm : moveAt c f true = some m)
    (hb : m.bins = some bins) (t : Nat) (s : State) : touchOf (.get t f) c s = some ([], bins) := by simp [touchOf, hm, hb]

theorem touchOf_put {c : Ctx} {f : MoveF} {m : MoveAt} {bins : List Nat} (hm : moveAt c f false = some m)
    (hb : m.bins = some bins) (t : Nat) (s : State) : touchOf (.put t f) c s = some (bins, []) := by simp [touchOf, hm, hb]

/-- The transfers with the loads of a move are those that the statement asks for. -/
theorem newMoves_of_waits {c : Ctx} {f : MoveF} {m : MoveAt} {write issued refetch : Bool} {bin : SMap Byte}
    {ls : List (Nat × Nat)} {new : List Xfer} (hw : ∀ x ∈ new, Waits (moveCtx c f m write issued refetch) x)
    (hl : new.map loadOf = moveLoads (moveCtx c f m write issued refetch) m.x bin ls) : NewMoves c f m write issued new := by
  intro x hx
  obtain ⟨htile, hpass, hstream, hgath, hnode, hprio, hwrite, hissued, hst, hreserve⟩ := hw x hx
  exact ⟨htile, hpass, hstream, hgath, hnode, hprio, hwrite, hissued, hst, hreserve, fun hc => lines_inGranule hl hc hx⟩

/-- Between s and v a move of a pass has formed its transfers for lines of memory and of the bin: but for them only a remote move
has changed the fabric, a read by the number that it takes. -/
structure Moved (c : Ctx) (f : MoveF) (m : MoveAt) (write issued refetch : Bool) (bin : SMap Byte) (ls : List (Nat × Nat))
    (s v : State) (new : List Xfer) : Prop where
  xfers : v.gath.xfers = s.gath.xfers ++ new
  moves : NewMoves c f m write issued new
  loads : new.map loadOf = moveLoads (moveCtx c f m write issued refetch) m.x bin ls
  fabHere : m.x.node = 0 ∨ m.x.compress = true → v.fab = s.fab
  fabRead : write = false → v.fab = { s.fab with nextXid := v.fab.nextXid }
  fab : v.fab = { s.fab with nextXid := v.fab.nextXid, turn := v.fab.turn, out := v.fab.out }

theorem moved_formMove (c : Ctx) (f : MoveF) (m : MoveAt) (write issued refetch : Bool) (bin : SMap Byte) (ls : List (Nat × Nat))
    (s : State) : let v := formMove (moveCtx c f m write issued refetch) m.x bin ls s
    (∃ new, Moved c f m write issued refetch bin ls s v new) ∧
    v = { s with fab := v.fab, gath := { s.gath with xfers := v.gath.xfers, nextId := v.gath.nextId } } := by
  obtain ⟨new, hx, hl, hw, hf⟩ := forms_formMove (moveCtx c f m write issued refetch) m.x bin ls s
  obtain ⟨hhere, hread, hfab⟩ := formMove_fab (moveCtx c f m write issued refetch) m.x bin ls s
  exact ⟨⟨new, hx, newMoves_of_waits hw hl, hl, hhere, hread, hfab⟩, hf⟩

/-- A move that issues and forms its transfers: its pass moves past it, its tile's clock runs, and of the gatherers only the
transfers and the counts have changed. -/
theorem moved_issued {s : State} {t : Nat} {i : Instr} {c : Ctx} {rd wr : List Nat} {eff ahead : Ctx → State → State}
    {f : MoveF} {m : MoveAt} {write refetch : Bool} {bin : SMap Byte} {ls : List (Nat × Nat)} (hi : Issues s t i c rd wr)
    (ht : touchOf i c s = some (rd, wr)) (he : eff c s = formMove (moveCtx c f m write true refetch) m.x bin ls s) :
    let u := runWith ahead t i eff s
    (∃ new, Moved c f m write true refetch bin ls s u new) ∧ PassAt c i s u ∧ TilesKept s u t ∧
    u.tile t = { s.tile t with seqs := (u.tile t).seqs, clocked := true } ∧
    u = { s with tiles := u.tiles, fab := u.fab,
                 gath := { s.gath with xfers := u.gath.xfers, nextId := u.gath.nextId, dispatches := u.gath.dispatches } } := by
  obtain ⟨⟨new, hmoved⟩, hform⟩ := moved_formMove c f m write true refetch bin ls s
  rw [← he] at hmoved hform
  obtain ⟨hpass, hkept, htile, hframe, -⟩ := runWith_issues (eff := eff) (ahead := ahead) hi ht (by rw [hform])
  have hx : (runWith ahead t i eff s).gath.xfers = (eff c s).gath.xfers := by rw [hframe]
  have hf : (runWith ahead t i eff s).fab = (eff c s).fab := by rw [hframe]
  refine ⟨⟨new, hx.trans hmoved.xfers, hmoved.moves, hmoved.loads, ?_, ?_, ?_⟩, hpass, hkept, htile, ?_⟩
  · rw [hf]
    exact hmoved.fabHere
  · rw [hf]
    exact hmoved.fabRead
  · rw [hf]
    exact hmoved.fab
  · rw [hframe, hform]

/-- A move whose node has a route and whose lines may all be touched forms the transfers of all of them. -/
theorem formGet_forms {c : Ctx} {f : MoveF} {m : MoveAt} {s : State} (issued : Bool) (hn : s.noRoute m.x.node = false)
    (hg : (goodLines c s f m).2 = false) : ∃ refetch, formGet c f m issued s =
      formMove (moveCtx c f m false issued refetch) m.x [] (movedLines c f m) s := by
  refine ⟨!issued && s.putOverlaps c m.x.node (moveRanges m (goodLines c s f m).1), ?_⟩
  simp only [formGet, hn, hg, Bool.or_self, Bool.and_false, Bool.false_eq_true, if_false, goodLines_all hg]

theorem putEff_forms {c : Ctx} {f : MoveF} {m : MoveAt} {s : State} (hm : moveAt c f false = some m)
    (hn : s.noRoute m.x.node = false) (hg : (goodLines c s f m).2 = false) : putEff f c s =
      formMove (moveCtx c f m true true false) m.x (s.tile c.t).bin (movedLines c f m) s := by
  simp only [putEff, hm, hn, hg, Bool.false_eq_true, if_false, goodLines_all hg]

/-! ## A GET dispatched before (R206) -/

/-- A transfer fetched ahead whose GET issues. -/
def issueXfer (cyc : Nat) (x : Xfer) : Xfer := { x with issued := true, since := if x.refetch then cyc else x.since }

theorem issueXfer_twice (cyc : Nat) (x : Xfer) : issueXfer cyc (issueXfer cyc x) = issueXfer cyc x := by
  unfold issueXfer
  cases x.refetch <;> rfl

/-- Issuing the transfers of a list of ids changes those of the list, and nothing else. -/
theorem each_issueXfer (ids : List Nat) (s : State) :
    each ids (fun i s => s.updXfer i (issueXfer s.cyc)) s = { s with gath := { s.gath with
      xfers := s.gath.xfers.map (fun x => if ids.contains x.id then issueXfer s.cyc x else x) } } := by
  induction ids generalizing s with
  | nil => simp
  | cons i ids ih =>
    rw [each_cons, ih]
    simp only [State.updXfer, List.map_map]
    congr 2
    refine List.map_congr_left fun x _ => ?_
    have hid : (issueXfer s.cyc x).id = x.id := rfl
    by_cases hi : x.id = i <;> by_cases hl : x.id ∈ ids <;> simp_all [issueXfer_twice]

theorem getEff_issues {c : Ctx} {f : MoveF} {m : MoveAt} {s : State} (hm : moveAt c f true = some m) (h : s.dispatched c ≠ []) :
    getEff f c s = { s with gath := { s.gath with
      xfers := s.gath.xfers.map (fun x => if (s.dispatched c).contains x.id then issueXfer s.cyc x else x) } } := by
  simp only [getEff, hm, List.isEmpty_iff, h, if_false]
  exact each_issueXfer _ _

theorem getEff_forms {c : Ctx} {f : MoveF} {m : MoveAt} {s : State} (hm : moveAt c f true = some m) (h : s.dispatched c = []) :
    getEff f c s = formGet c f m true s := by
  simp only [getEff, hm, h, List.isEmpty_nil, if_true]

/-! ## A GET held behind another (R206) -/

/-- The state once a GET has been dispatched into its queue. -/
def getQueued (f : MoveF) (bins : List Nat) (c : Ctx) (s : State) : State :=
  (({ s with gath := { s.gath with dispatches := s.gath.dispatches + 1 } } : State).updSeq c.t c.q.pass
    (fun q => q.push (.get c.t f) bins bins c.order)).updTile c.t (fun tl => { tl with clocked := true })

/-- Dispatching a GET leaves the memories and the ranges, and so which lines may be touched. -/
theorem goodLines_getQueued (f : MoveF) (m : MoveAt) (bins : List Nat) (c : Ctx) (s : State) :
    goodLines c (getQueued f bins c s) f m = goodLines c s f m := by
  have hhole (a : Nat) : (getQueued f bins c s).isHole a = s.isHole a := rfl
  have hok (a n : Nat) : (getQueued f bins c s).mpaOk a n = s.mpaOk a n := by simp only [State.mpaOk, hhole]
  have hblock (b : Nat) (a : Int) : blockOk (getQueued f bins c s) b a = blockOk s b a := by simp only [blockOk, hok]
  have hline (n : Nat) (a : Int) : lineOk (getQueued f bins c s) n a = lineOk s n a := by simp only [lineOk, hhole]
  simp only [goodLines, hblock, hline]

theorem getOp_dispatches {s : State} {t : Nat} {f : MoveF} {c : Ctx} {m : MoveAt} {bins : List Nat}
    (h : present s t (.get t f) = some c) (hq : c.queued = false) (hm : moveAt c f true = some m) (hb : m.bins = some bins)
    (hw : s.behindGet t c.earlier bins = true) : getOp t f s = formGet c f m false (getQueued f bins c s) := by
  obtain ⟨rfl, -⟩ := present_ctx h
  simp only [getOp, runWith, h, touchOf_get hm hb, List.nil_append, hw, if_true, keepBack, hq, Bool.false_eq_true, if_false,
    getLines, dispatchAs, getAhead, hm, hb, Option.isSome_some]
  rfl

theorem tilesKept_getQueued (s : State) (f : MoveF) (bins : List Nat) (c : Ctx) : TilesKept s (getQueued f bins c s) c.t :=
  fun j hj => (tilesKept_updTile _ c.t _ j hj).trans (tilesKept_updTile _ c.t _ j hj)

theorem passIs_getQueued {s : State} {t : Nat} {f : MoveF} {c : Ctx} (bins : List Nat) (h : present s t (.get t f) = some c) :
    PassIs c s (getQueued f bins c s) (c.q.push (.get c.t f) bins bins c.order) := by
  have hcounted : PassIs c s { s with gath := { s.gath with dispatches := s.gath.dispatches + 1 } } c.q :=
    passIs_of_tiles (passIs_present h) rfl
  have hpushed := passIs_updSeq hcounted (f := fun q => q.push (.get c.t f) bins bins c.order) fun _ => rfl
  exact passIs_updTile hpushed rfl

/-! ## The statement -/

/-- Settles O11: what a move's transfers carry covers its lines; they are formed as it issues, or as a GET is dispatched. -/
theorem movesFormTheirTransfers : Obligations.MovesFormTheirTransfers := by
  refine ⟨fun s t f c m bins hi hm hb hn hg hd => ?_, fun s t f c m bins hi hm hb hd => ?_,
    fun s t f c m bins h hq hm hb hw hn hg => ?_, fun s t f c m bins hi hm hb hn hg => ?_⟩
  · obtain ⟨refetch, hform⟩ := formGet_forms true hn hg
    obtain ⟨⟨new, hmoved⟩, hpass, hkept, htile, hframe⟩ :=
      moved_issued (ahead := getAhead f) hi (touchOf_get hm hb t s) ((getEff_forms hm hd).trans hform)
    refine ⟨_, exec_get _ _ _, new, hmoved.xfers, hmoved.moves, linesCovered_loads hmoved.loads,
      fun hc => bins_readBlocks hmoved.loads hc rfl, hpass, hkept, htile, ?_⟩
    rw [getOp, ← hmoved.fabRead rfl]
    exact hframe
  · have heff := getEff_issues hm hd
    obtain ⟨hpass, hkept, htile, hframe, -⟩ :=
      runWith_issues (eff := getEff f) (ahead := getAhead f) hi (touchOf_get hm hb t s) (by rw [heff])
    rw [heff] at hframe
    refine ⟨_, exec_get _ _ _, ?_, hpass, hkept, htile, ?_⟩
    · rw [getOp, hframe]
      rfl
    · rw [getOp, hframe]
  · obtain ⟨rfl, -⟩ := present_ctx h
    obtain ⟨refetch, hform⟩ := formGet_forms (s := getQueued f bins c s) false hn ((goodLines_getQueued ..).symm ▸ hg)
    obtain ⟨⟨new, hmoved⟩, hframe⟩ := moved_formMove c f m false false refetch [] (movedLines c f m) (getQueued f bins c s)
    rw [← hform, ← getOp_dispatches h hq hm hb hw] at hmoved hframe
    have htiles : (getOp c.t f s).tiles = (getQueued f bins c s).tiles := by rw [hframe]
    have hmemory : (getOp c.t f s).memory = (getQueued f bins c s).memory := by rw [hframe]
    have hkept := (SeqsOnly.of_tiles htiles c.t).kept
    exact ⟨_, exec_get _ _ _, new, hmoved.xfers, hmoved.moves, linesCovered_loads hmoved.loads,
      passIs_of_tiles (passIs_getQueued bins h) htiles, fun j hj => (hkept j hj).trans (tilesKept_getQueued s f bins c j hj),
      hmemory⟩
  · obtain ⟨ht', -⟩ := present_ctx hi.1
    obtain ⟨⟨new, hmoved⟩, hpass, hkept, htile, hframe⟩ :=
      moved_issued (ahead := fun _ s => s) hi (touchOf_put hm hb t s) (putEff_forms hm hn hg)
    refine ⟨_, exec_put _ _ _, new, hmoved.xfers, hmoved.moves,
      fun hc => ⟨linesCovered_loads hmoved.loads hc, fun _ => data_uncaptured hmoved.loads hc⟩, fun hc => ?_, hpass, hkept,
      htile, hmoved.fabHere, ?_⟩
    · rw [data_writeBlocks hmoved.loads hc rfl, ht']
      simp only [packedBlock, slotLines, List.flatMap_map, ← List.flatMap_def]
      rfl
    · rw [putOp, runOp, ← hmoved.fab]
      exact hframe

end Sys2Proof.Laws
end


section
/-! SUPPORT. The assembly buffers of the transposing windows: work at the controllers leaves them alone, and a flush frees exactly
its own buffer (R150, R151). -/

namespace Sys2Proof.Laws

set_option Elab.async false

open Sys2Proof Sys2Proof.Machine Sys2Proof.Safety

/-! ## Work that leaves the buffers alone -/

/-- The assembly buffers are those that there were. -/
def BufsKept (s u : State) : Prop := u.memory.asm = s.memory.asm

theorem BufsKept.refl (s : State) : BufsKept s s := rfl

theorem BufsKept.trans {s u v : State} (h : BufsKept s u) (k : BufsKept u v) : BufsKept s v := Eq.trans k h

theorem BufsKept.of_memory {s u : State} (h : u.memory = s.memory) : BufsKept s u := congrArg Memory.asm h

theorem BufsKept.ite {s u v : State} {c : Prop} [Decidable c] (h : BufsKept s u) (k : BufsKept s v) :
    BufsKept s (if c then u else v) := by
  split <;> assumption

theorem BufsKept.each {β : Type} (l : List β) (f : β → State → State) (s : State) (hf : ∀ x u, BufsKept u (f x u)) :
    BufsKept s (each l f s) := each_keeps (BufsKept s) l f s (.refl s) fun x u hu => hu.trans (hf x u)

theorem bufsKept_raiseEvent (c : EventCode) (i : Nat) (d : BitVec 128) (s : State) : BufsKept s (raiseEvent c i d s) :=
  .of_memory (by rw [raiseEvent_frame])

theorem bufsKept_memPut (a : Nat) (b : List Byte) (s : State) : BufsKept s (s.memPut a b) := .refl s

theorem bufsKept_latchFault (c : FaultCause) (s : State) : BufsKept s (latchFault c s) := .ite (.refl s) (.refl s)

/-! ### Reads (R186, R187, R192) -/

theorem bufsKept_retirePc (k pc cause : Nat) (failed : Bool) (s : State) : BufsKept s (retirePc k pc cause failed s) := by
  unfold retirePc
  extract_lets d s1 w nv s2
  split
  · exact .ite (.refl s) (bufsKept_latchFault _ (s.setDev k _))
  · have h2 : BufsKept s s2 := .refl s
    exact h2.trans (bufsKept_raiseEvent _ _ _ s2)

theorem bufsKept_reportCorrected (p l : Nat) (s : State) : BufsKept s (reportCorrected p l s) := by
  have hset (d : Device) : BufsKept s (s.setDev p d) := .refl s
  exact .ite ((hset _).trans (bufsKept_raiseEvent _ _ _ _)) (hset _)

theorem bufsKept_countPcCorr (k pc : Nat) (s : State) : BufsKept s (countPcCorr k pc s) := by
  unfold countPcCorr
  extract_lets w s1 s2 thr
  have hset (q : Nat) (u : State) : BufsKept u (u.setRg .memPcCorr 0 k q) := .refl u
  have hopen (f : Device → Device) (u : State) : BufsKept u (u.updDev k f) := .refl u
  have h1 : BufsKept s s1 := .ite (.refl s) ((BufsKept.each _ _ s hset).trans (hopen _ _))
  exact h1.trans (.ite (bufsKept_retirePc _ _ _ _ s2) (.refl s2))

theorem bufsKept_countCorrected (l : Nat) (s : State) : BufsKept s (countCorrected l s) := by
  unfold countCorrected
  split
  · extract_lets s1 s2 s3
    have h1 : BufsKept s s1 := .ite (.refl s) (.refl s)
    have h2 : BufsKept s1 s2 := .ite (by split <;> exact .refl s1) (.refl s1)
    have h3 : BufsKept s2 s3 := bufsKept_reportCorrected _ _ _
    exact ((h1.trans h2).trans h3).trans (.ite (bufsKept_countPcCorr _ _ s3) (.refl s3))
  · exact .refl s

theorem bufsKept_meetErrors (l : Nat) (s : State) : BufsKept s (meetErrors l s) := by
  rw [meetErrors_eq]
  split
  · exact .refl s
  · exact bufsKept_countCorrected l (errorsMet l s)
  · next w _ => exact bufsKept_countCorrected l (alterLine l w (errorsMet l s))
  · exact .refl s
  · exact .refl s

theorem bufsKept_noteRead (a n reader step : Nat) (s : State) : BufsKept s (noteRead a n reader step s) := by
  have hwake : BufsKept s (wakeDev a n s) := by unfold BufsKept; rw [wakeDev_memory]
  unfold noteRead meetLines
  exact hwake.trans ((BufsKept.each _ _ _ bufsKept_meetErrors).trans
    (.each _ _ _ fun l u => .of_memory (reportDetected_memory l reader step u)))

/-! ### Copies of a harvest, and digests (R308, R330 to R332) -/

theorem bufsKept_enginePut (a : Nat) (b : List Byte) (s : State) : BufsKept s (enginePut a b s) :=
  .ite (bufsKept_memPut a b s) (.refl s)

theorem bufsKept_verifyFailed (dest op i : Nat) (got : Quad) (s : State) : BufsKept s (verifyFailed dest op i got s) := by
  have hcount : BufsKept s (s.inc .hrvVerifyFails 1) := .refl s
  have hmark (u : State) : BufsKept u (updHarvest (fun h => { h with failed := true }) u) := .refl u
  exact (hcount.trans (bufsKept_raiseEvent _ _ _ _)).trans (.ite (hmark _) (.refl _))

theorem bufsKept_writeVerified (dest op i a : Nat) (b : List Byte) (s : State) : BufsKept s (writeVerified dest op i a b s) := by
  have hput (u : State) : BufsKept u (readBy 4 u.oldestStep a b.length (enginePut a b u)).2 :=
    (bufsKept_enginePut a b u).trans (bufsKept_noteRead _ _ _ _ _)
  unfold writeVerified
  exact (hput s).trans (.ite (.refl _) ((hput _).trans (.ite (.refl _) (bufsKept_verifyFailed _ _ _ _ _))))

theorem bufsKept_copyBlock (i : Nat) (s : State) : BufsKept s (copyBlock i s) := by
  unfold copyBlock
  split
  · exact .refl s
  · have hcount (f : HarvestOp → HarvestOp) (v j : Nat) (u : State) :
        BufsKept u (clearBlock j ((updHarvest f u).setRg .hrvProgress v)) := .refl u
    exact ((bufsKept_noteRead _ _ _ _ s).trans (bufsKept_writeVerified _ _ _ _ _ _)).trans (hcount _ _ _ _)

theorem bufsKept_copyFirst (a n : Nat) (s : State) : BufsKept s (copyFirst a n s) := by
  unfold copyFirst
  split
  · have hcount : BufsKept s (s.inc .hrvHolds 1) := .refl s
    refine .ite (hcount.trans (.each _ _ _ fun i u => ?_)) (.refl s)
    exact .ite (.each _ _ u bufsKept_copyBlock) (.refl u)
  · exact .refl s

theorem bufsKept_foldWord (mirror : Bool) (area a : Nat) (s : State) : BufsKept s (foldWord mirror area a s) := by
  unfold foldWord
  split
  · exact bufsKept_memPut _ _ s
  · exact .refl s

theorem bufsKept_foldRange (a n : Nat) (s : State) : BufsKept s (foldRange a n s) := by
  unfold foldRange
  split
  · exact .ite (.each _ _ s fun w u => (bufsKept_foldWord _ _ _ u).trans (bufsKept_foldWord _ _ _ _)) (.refl s)
  · exact .refl s

theorem bufsKept_turnRow (x : Window) (b : AsmBuf) (n : Nat) (s : State) : BufsKept s (b.turnRow x n s) :=
  .ite (bufsKept_memPut _ _ s) (.each _ _ s fun _ u => bufsKept_memPut _ _ u)

/-! ## Flushes (R151) -/

/-- A flush frees the buffer that it writes, and no other. -/
theorem asm_flushBuf (b : AsmBuf) (s : State) : (flushBuf b s).memory.asm = s.memory.asm.filter (· ≠ b) := by
  rw [flushBuf, inc_memory]
  unfold spillBuf
  extract_lets x s1 s2 s3
  have h1 : BufsKept s s1 := .each _ _ s fun _ u => bufsKept_copyFirst _ _ u
  have h2 : BufsKept s1 s2 := .each _ _ s1 fun n u => bufsKept_turnRow x b n u
  have h3 : BufsKept s2 s3 := .each _ _ s2 fun _ u => bufsKept_foldRange _ _ u
  have h : s3.memory.asm = s.memory.asm := (h1.trans h2).trans h3
  clear_value s3
  exact congrArg (List.filter _) h

/-- Flushing one buffer after another frees exactly those. -/
theorem mem_asm_each_flushBuf (l : List AsmBuf) (s : State) (c : AsmBuf) :
    c ∈ (each l flushBuf s).memory.asm ↔ c ∈ s.memory.asm ∧ c ∉ l := by
  induction l generalizing s with
  | nil => simp
  | cons b l ih => simp [ih, asm_flushBuf, and_assoc]

/-- Flushing a window frees exactly the buffers of that window. -/
theorem mem_asm_flushWindow (k w : Nat) (s : State) (c : AsmBuf) :
    c ∈ (flushWindow k w s).memory.asm ↔ c ∈ s.memory.asm ∧ (c.stack ≠ k ∨ c.window ≠ w) := by
  rw [flushWindow, mem_asm_each_flushBuf, List.mem_filter, Bool.and_eq_true, beq_iff_eq, beq_iff_eq]
  tauto

/-- A window without buffers has nothing to flush. -/
theorem flushWindow_idle {k w : Nat} {s : State}
    (h : s.memory.asm.filter (fun b => b.stack == k && b.window == w) = []) : flushWindow k w s = s := by
  rw [flushWindow, h, each_nil]

end Sys2Proof.Laws
end


section
/-! The statement about WINDOW_ENABLE and WINDOW_DISABLE (R151, R154, R156). -/

namespace Sys2Proof.Laws

set_option Elab.async false

open Sys2Proof Sys2Proof.Machine Sys2Proof.Safety

/-! ## A window's registers -/

/-- A bit written reads as the value that it holds. -/
theorem testBit_putBits (v b x : Nat) : (putBits v b 1 x).testBit b = decide (x % 2 = 1) := by
  have h := bits_putBits v b 1 x
  rw [bits, Nat.shiftRight_eq_div_pow, pow_one] at h
  rw [Nat.testBit_eq_decide_div_mod_eq, h]

theorem rgBit_setRgBits (s : State) (n : RegName) {b : Nat} (h : b < 8 * n.row.bytes) (x i j : Nat) :
    (s.setRgBits n b 1 x i j).rgBit n b i j = decide (x % 2 = 1) := by
  have hp : 256 ^ n.row.bytes = 2 ^ (8 * n.row.bytes) := by rw [Nat.pow_mul]
  rw [State.rgBit, State.setRgBits, rg_setRg, bit, hp, Nat.testBit_mod_two_pow, testBit_putBits, decide_eq_true h, Bool.true_and]

/-- Where no register of its description changed, a window differs by its enable bit alone (R155, R156). -/
theorem xwin_eq {s u : State} {k w : Nat} (hrow : u.rg .memXpwRowbase k w = s.rg .memXpwRowbase k w)
    (hcol : u.rg .memXpwColbase k w = s.rg .memXpwColbase k w) (hgeom : u.rg .memXpwGeom k w = s.rg .memXpwGeom k w)
    (hpitch : u.rg .memXpwPitch k w = s.rg .memXpwPitch k w) :
    u.xwin k w = { s.xwin k w with on := u.rgBit .memXpwCtl 0 k w } := by
  simp only [State.xwin, State.rgBits, State.rgBit, hrow, hcol, hgeom, hpitch]

/-- Writing a window's enable bit leaves the rest of its description. -/
theorem xwin_setEnable (s : State) (k w x : Nat) :
    (s.setRgBits .memXpwCtl 0 1 x k w).xwin k w = { s.xwin k w with on := decide (x % 2 = 1) } := by
  have hrg (n : RegName) (h : Reg.offset ⟨n, k, w⟩ ≠ Reg.offset ⟨.memXpwCtl, k, w⟩) :
      (s.setRgBits .memXpwCtl 0 1 x k w).rg n k w = s.rg n k w := rg_setRg_other _ _ _ _ _ _ _ _ h
  rw [xwin_eq (hrg _ ?_) (hrg _ ?_) (hrg _ ?_) (hrg _ ?_), rgBit_setRgBits _ _ (by decide)] <;>
  · simp only [Reg.offset, RegName.row, row2]
    omega

/-- Flagging a window leaves its description. -/
theorem xwin_flagStatus (s : State) (k w : Nat) : (s.flag .memXpwStatus 0 k w).xwin k w = s.xwin k w := by
  have hrg (n : RegName) (h : Reg.offset ⟨n, k, w⟩ ≠ Reg.offset ⟨.memXpwStatus, k, w⟩) :
      (s.flag .memXpwStatus 0 k w).rg n k w = s.rg n k w := rg_setRg_other _ _ _ _ _ _ _ _ h
  rw [xwin_eq (hrg _ ?_) (hrg _ ?_) (hrg _ ?_) (hrg _ ?_), State.rgBit, hrg _ ?_, ← State.rgBit]
  · rfl
  all_goals
    simp only [Reg.offset, RegName.row, row2]
    omega

/-! ## The commands -/

theorem alive_dropSplit {s : State} (h : HostWrite s) : (dropSplit s).alive = true := by
  obtain ⟨hw, hf⟩ := h
  rw [dropSplit_frame]
  simp_all [State.alive, State.hostWrites]

section
variable {s : State} {k w : Nat}

theorem execWindowEnable_taken (h : HostWrite s) :
    exec (.windowEnable k w) s = .next (windowEnableOp k w (dropSplit s)) :=
  congrArg Host.Outcome.next (barWrite_taken _ _ s h)

theorem execWindowDisable_taken (h : HostWrite s) :
    exec (.windowDisable k w) s = .next (windowDisableOp k w (dropSplit s)) :=
  congrArg Host.Outcome.next (barWrite_taken _ _ s h)

/-- The enable of a disabled window is its check (R154). -/
theorem windowEnableOp_off (ha : s.alive = true) (hk : k < 12) (hw : w < 64) (hx : (s.xwin k w).on = false) :
    windowEnableOp k w s = if s.windowOk k w then s.flag .memXpwCtl 0 k w else s.flag .memXpwStatus 0 k w := by
  have hw' : ¬ w ≥ 64 := by omega
  simp [windowEnableOp, isStack, Config.numStacks, ha, hk, hw', hx]

/-- The disable of an enabled window flushes it and clears its bit (R151). -/
theorem windowDisableOp_on (ha : s.alive = true) (hk : k < 12) (hw : w < 64) (hx : (s.xwin k w).on = true) :
    windowDisableOp k w s = (flushWindow k w s).setRgBits .memXpwCtl 0 1 0 k w := by
  simp [windowDisableOp, isStack, Config.numStacks, ha, hk, hw, hx]

end

/-! ## The statement -/

/-- Settles O32: the enable check is the condition of R154, and a flush frees exactly the buffers of its window. -/
theorem windowsAreCheckedAndFlushed : Obligations.WindowsAreCheckedAndFlushed := by
  intro s k w hs hk hw v x
  have ha : v.alive = true := alive_dropSplit hs
  refine ⟨fun hx hok => ⟨_, execWindowEnable_taken hs, ?_⟩, fun hx hok => ⟨_, execWindowEnable_taken hs, ?_⟩,
    fun hx => ⟨_, execWindowDisable_taken hs, ?_⟩, fun hx hidle => ⟨_, execWindowDisable_taken hs, ?_⟩⟩
  · rw [windowEnableOp_off ha hk hw hx, if_pos hok]
    exact ⟨xwin_setEnable v k w 1, regsKept_setRg _ _ _ _ _, rfl⟩
  · rw [windowEnableOp_off ha hk hw hx, if_neg (by rw [hok]; exact Bool.false_ne_true)]
    exact ⟨rgBit_flag _ _ _ _ _ (by decide), xwin_flagStatus v k w, regsKept_setRg _ _ _ _ _, rfl⟩
  · rw [windowDisableOp_on ha hk hw hx]
    refine ⟨by rw [xwin_setEnable]; rfl, fun b hb => ?_, fun b hb hother => ?_, rfl⟩
    · exact ((mem_asm_flushWindow k w v b).1 hb).2
    · exact (mem_asm_flushWindow k w v b).2 ⟨hb, hother⟩
  · rw [windowDisableOp_on ha hk hw hx, flushWindow_idle hidle]
    exact ⟨xwin_setEnable v k w 0, regsKept_setRg _ _ _ _ _, rfl⟩

end Sys2Proof.Laws
end


section
/-! SUPPORT. The records of the memories: which of them an operation changes, and that it leaves everything else (R185, R202). -/

namespace Sys2Proof.Laws

set_option Elab.async false

open Sys2Proof Sys2Proof.Machine Sys2Proof.Safety

/-! ## One memory's record -/

theorem dev_of_memory {s u : State} (h : u.memory = s.memory) (p : Nat) : u.dev p = s.dev p := by simp only [State.dev, h]

theorem dev_setDev_same (s : State) (p : Nat) (d : Device) : (s.setDev p d).dev p = d := by rw [dev_setDev, if_pos rfl]

theorem dev_updDev_same (s : State) (p : Nat) (f : Device → Device) : (s.updDev p f).dev p = f (s.dev p) := dev_setDev_same _ _ _

theorem devsKept_of_dev {s u : State} (h : u.memory.dev = s.memory.dev) (p : Nat) : DevsKept s u p := fun j _ => by
  simp only [State.dev, h]

theorem devsKept_trans {s u v : State} {p : Nat} (h : DevsKept s u p) (k : DevsKept u v p) : DevsKept s v p := fun j hj =>
  (k j hj).trans (h j hj)

theorem devsKept_setDev (s : State) (p : Nat) (d : Device) : DevsKept s (s.setDev p d) p := fun j hj => by
  rw [dev_setDev, if_neg hj]

theorem devsKept_updDev (s : State) (p : Nat) (f : Device → Device) : DevsKept s (s.updDev p f) p := devsKept_setDev _ _ _

/-! ## Nothing but records of memories -/

/-- Only the records of memories differ. -/
def DevOnly (s u : State) : Prop := u = { s with memory := { s.memory with dev := u.memory.dev } }

theorem DevOnly.refl (s : State) : DevOnly s s := rfl

theorem DevOnly.trans {s u v : State} (h : DevOnly s u) (k : DevOnly u v) : DevOnly s v := by
  unfold DevOnly at *
  rw [k, h]

theorem DevOnly.setDev (s : State) (p : Nat) (d : Device) : DevOnly s (s.setDev p d) := rfl

theorem DevOnly.updDev (s : State) (p : Nat) (f : Device → Device) : DevOnly s (s.updDev p f) := rfl

theorem DevOnly.each {β : Type} (l : List β) (f : β → State → State) (s : State) (hf : ∀ x u, DevOnly u (f x u)) :
    DevOnly s (each l f s) := each_keeps (DevOnly s) l f s (.refl s) fun x u hu => hu.trans (hf x u)

/-! ## Records, registers and events -/

theorem devFrame_trans {s u v : State} (h : DevFrame s u) (k : DevFrame u v) : DevFrame s v := by
  unfold DevFrame at *
  rw [k, h]

theorem DevOnly.devFrame {s u : State} (h : DevOnly s u) : DevFrame s u := by
  unfold DevOnly at h
  rw [h]
  rfl

theorem devFrame_setRg (s : State) (n : RegName) (v i j : Nat) : DevFrame s (s.setRg n v i j) := rfl

theorem devFrame_raiseEvent (c : EventCode) (i : Nat) (d : BitVec 128) (s : State) : DevFrame s (raiseEvent c i d s) := by
  rw [raiseEvent_frame]
  rfl

theorem devFrame_stw {s u : State} (h : DevFrame s u) : u.stw = s.stw := by rw [h]

/-! ## A write of the host on its way to a memory -/

theorem memory_dropSplit (s : State) : (dropSplit s).memory = s.memory := by rw [dropSplit_frame]

theorem dev_dropSplit (s : State) (p : Nat) : (dropSplit s).dev p = s.dev p := dev_of_memory (memory_dropSplit s) p

theorem stw_dropSplit (s : State) : (dropSplit s).stw = s.stw := by rw [dropSplit_frame]

theorem cyc_dropSplit (s : State) : (dropSplit s).cyc = s.cyc := by rw [dropSplit_frame]

theorem memory_raiseEvent (c : EventCode) (i : Nat) (d : BitVec 128) (s : State) : (raiseEvent c i d s).memory = s.memory := by
  rw [raiseEvent_frame]

theorem dev_raiseEvent (c : EventCode) (i : Nat) (d : BitVec 128) (s : State) (p : Nat) : (raiseEvent c i d s).dev p = s.dev p :=
  dev_of_memory (memory_raiseEvent c i d s) p

theorem devsKept_raiseEvent (c : EventCode) (i : Nat) (d : BitVec 128) (s : State) (p : Nat) : DevsKept s (raiseEvent c i d s) p :=
  fun j _ => dev_raiseEvent c i d s j

theorem isStack_iff {p : Nat} : isStack p = true ↔ p < 12 := decide_eq_true_iff

theorem isMemory_iff {p : Nat} : isMemory p = true ↔ p < 28 := decide_eq_true_iff

end Sys2Proof.Laws
end


section
/-! The statement about the training of memories and their self-refresh (R180, R184, R185, R197). -/

namespace Sys2Proof.Laws

set_option Elab.async false

open Sys2Proof Sys2Proof.Machine Sys2Proof.Safety

/-! ## The start of training (R185, R202) -/

theorem mem_setBits {w : Nat} (v : BitVec w) (i : Nat) : i ∈ setBits v ↔ v.getLsbD i = true := by
  simp only [setBits, List.mem_filter, List.mem_range, and_iff_right_iff_imp]
  exact BitVec.lt_of_getLsbD

/-- A memory's record in training. -/
def inTraining (d : Device) : Device := { d with st := .training }

theorem dev_startTraining (p : Nat) (s : State) (k : Nat) :
    (startTraining p s).dev k = if k = p ∧ (s.dev k).st = .untrained then inTraining (s.dev k) else s.dev k := by
  have hset : startTraining p s = if (s.dev p).st = .untrained then s.updDev p inTraining else s := rfl
  rw [hset]
  by_cases hk : k = p
  · subst hk
    split <;> simp [*]
  · split <;> simp [hk]

theorem devOnly_startTraining (p : Nat) (s : State) : DevOnly s (startTraining p s) := by
  unfold startTraining
  split
  · exact .updDev _ _ _
  · exact .refl s

/-- Starting the training of a list of memories starts that of its untrained ones, each once. -/
theorem dev_each_startTraining (l : List Nat) (s : State) (k : Nat) :
    (each l startTraining s).dev k =
      if k ∈ l ∧ (s.dev k).st = .untrained then inTraining (s.dev k) else s.dev k := by
  induction l generalizing s with
  | nil => simp
  | cons p l ih =>
    have hin : (inTraining (s.dev k)).st ≠ .untrained := DevState.noConfusion
    simp only [each_cons, ih, dev_startTraining, List.mem_cons]
    by_cases hst : (s.dev k).st = .untrained
    · by_cases hk : k = p
      · subst hk
        simp only [hst, and_self, true_or, if_true]
        exact if_neg fun h => hin h.2
      · simp only [hk, false_and, if_false, false_or]
    · simp only [hst, and_false, if_false]

theorem exec_memTrainStacks {s : State} (h : HostWrite s) (mask : BitVec 12) :
    exec (.memTrainStacks mask) s = .next (each (setBits mask) startTraining (dropSplit s)) := by
  refine congrArg Host.Outcome.next ((barWrite_taken _ _ s h).trans ?_)
  rw [memTrainStacksOp, if_pos (alive_dropSplit h)]

theorem exec_memTrainPackages {s : State} (h : HostWrite s) (mask : BitVec 16) :
    exec (.memTrainPackages mask) s = .next (each ((setBits mask).map (· + 12)) startTraining (dropSplit s)) := by
  refine congrArg Host.Outcome.next ((barWrite_taken _ _ s h).trans ?_)
  rw [memTrainPackagesOp, if_pos (alive_dropSplit h)]

/-- What a write of MEM_TRAIN_CTL leaves of a memory, q saying whether it is untrained and in the mask's list. -/
theorem dev_trainingStarted {l : List Nat} {s : State} {k : Nat} {q : Prop} [Decidable q]
    (h : q ↔ k ∈ l ∧ (s.dev k).st = .untrained) :
    (each l startTraining (dropSplit s)).dev k = if q then inTraining (s.dev k) else s.dev k := by
  rw [dev_each_startTraining, dev_dropSplit]
  exact if_congr h.symm rfl rfl

theorem trainingStarted_frame (l : List Nat) (s : State) : each l startTraining (dropSplit s) =
    { dropSplit s with memory := { s.memory with dev := (each l startTraining (dropSplit s)).memory.dev } } := by
  have h := DevOnly.each l startTraining (dropSplit s) devOnly_startTraining
  rwa [DevOnly, memory_dropSplit] at h

theorem mem_packages (mask : BitVec 16) (k : Nat) :
    k ∈ (setBits mask).map (· + 12) ↔ 12 ≤ k ∧ mask.getLsbD (k - 12) = true := by
  simp only [List.mem_map, mem_setBits]
  constructor
  · rintro ⟨i, hi, rfl⟩
    exact ⟨Nat.le_add_left _ _, by rwa [Nat.add_sub_cancel]⟩
  · rintro ⟨hk, hm⟩
    exact ⟨k - 12, hm, by omega⟩

/-! ## The end of training (R185, R197) -/

theorem exec_memoryTrainingDone (p : Nat) (s : State) : exec (.memoryTrainingDone p) s = .next (memoryTrainingDoneOp p s) := rfl

section
variable {s : State} {p : Nat}

/-- A stack's training ends on its survivors where a retirement is recorded. -/
theorem trainingDone_stack (ha : s.alive = true) (hp : p < 12) (hst : (s.dev p).st = .training) :
    memoryTrainingDoneOp p s = (trainRetired p s).updDev p (fun d => d.trained p .ready) := by
  simp [memoryTrainingDoneOp, ha, isMemory_iff.2 (show p < 28 by omega), isStack_iff.2 hp, hst]

theorem trainingDone_package (ha : s.alive = true) (hp : p < 28) (hs : 12 ≤ p) (hst : (s.dev p).st = .training) :
    memoryTrainingDoneOp p s = if (s.dev p).kept then s.updDev p (fun d => d.trained p .ready)
      else (zeroRange (0x8000000000 + (p - 12) * 0x1000000000) 0x1000000000 s).updDev p
        (fun d => d.trained p .initialising) := by
  have hn : isStack p = false := Bool.eq_false_iff.2 fun h => by have := isStack_iff.1 h; omega
  simp [memoryTrainingDoneOp, ha, isMemory_iff.2 hp, hn, hst]

theorem trainingDone_initialising (ha : s.alive = true) (hp : p < 28) (hst : (s.dev p).st = .initialising) :
    memoryTrainingDoneOp p s = s.updDev p (fun d => { d with st := .ready }) := by
  simp [memoryTrainingDoneOp, ha, isMemory_iff.2 hp, hst]

/-- Without a recorded retirement, or with its state kept, a stack is trained as it is. -/
theorem trainRetired_plain (h : sfind s.stw.nv.pcRetired p = none ∨ (s.dev p).kept = true) : trainRetired p s = s := by
  unfold trainRetired
  split
  · next pc hpc =>
    rw [if_pos (h.resolve_left fun hn => by rw [hpc] at hn; exact Option.some_ne_none _ hn)]
  · rfl

/-- A recorded retirement that the stack has not kept is taken up, and its event raised (R197). -/
theorem trainRetired_recorded {pc : Nat} (h : sfind s.stw.nv.pcRetired p = some pc) (hk : (s.dev p).kept = false) :
    trainRetired p s = raiseEvent .pcRetired p (detail [(10, 1, p), (11, 1, pc), (12, 1, 4)])
      (s.updDev p (fun d => { d with retired := some pc, resow := .complete, wmark := 0 })) := by
  simp [trainRetired, h, hk]

end

/-- A memory of which nothing but its record changes. -/
theorem updDev_alone (s : State) (p : Nat) (f : Device → Device) :
    (s.updDev p f).dev p = f (s.dev p) ∧ DevsKept s (s.updDev p f) p ∧ DevOnly s (s.updDev p f) :=
  ⟨dev_updDev_same s p f, devsKept_updDev s p f, .updDev s p f⟩

/-- A stack trained on its survivors: the retirement recorded, the event counted, and nothing else. -/
theorem survivors_trained (s : State) (p pc : Nat) (d : BitVec 128) :
    let u := (raiseEvent .pcRetired p d
      (s.updDev p (fun d => { d with retired := some pc, resow := .complete, wmark := 0 }))).updDev p (fun d => d.trained p .ready)
    u.dev p = { (s.dev p).trained p .ready with retired := some pc, resow := .complete, wmark := 0 } ∧ DevsKept s u p ∧
      Counted s u .evtRaised ∧ DevFrame s u := by
  intro u
  have hframe : DevFrame s u := devFrame_trans (DevOnly.updDev s p _).devFrame
    (devFrame_trans (devFrame_raiseEvent _ _ _ _) (DevOnly.updDev _ p _).devFrame)
  refine ⟨?_, devsKept_trans (devsKept_updDev s p _) (devsKept_trans (devsKept_raiseEvent _ _ _ _ p) (devsKept_updDev _ p _)),
    counted_raiseEvent .pcRetired p d (s.updDev p _), hframe⟩
  rw [dev_updDev_same, dev_raiseEvent, dev_updDev_same]
  rfl

/-! ## Self-refresh (R180) -/

theorem quiet_of {s : State} {k : Nat} (hst : (s.dev k).st = .ready) (hq : (s.dev k).queue = []) (hp : (s.dev k).paused = [])
    (hd : s.demanded k = false) (hb : ∀ b ∈ s.memory.asm, b.stack ≠ k) (hr : (s.dev k).resow ≠ .running)
    (he : ∀ e, e < 64 → (s.range k e).busy = false) : s.quiet k = true := by
  have hbusy : s.memory.asm.any (fun b => b.stack == k) = false := List.any_eq_false.2 fun b h => by simpa using hb b h
  have hranges : (List.range 64).all (fun e => !(s.range k e).busy) = true :=
    List.all_eq_true.2 fun e h => by simpa using he e (List.mem_range.1 h)
  simp only [State.quiet, hst, hq, hp, hd, hbusy, hranges, decide_eq_true hr, decide_true, Bool.not_false, Bool.and_self]

theorem selfRefreshEntry_quiet {s : State} {k t : Nat} (ha : s.alive = true) (hk : k < 12) (hq : s.quiet k = true)
    (ht : (s.dev k).quietAt = some t) (hc : t + usCycles 100 ≤ s.cyc) :
    exec (.selfRefreshEntry k) s = .next (s.updDev k (fun d => { d with st := .selfRefresh, quietAt := none })) := by
  refine congrArg Host.Outcome.next ?_
  rw [selfRefreshEntryOp, if_pos (by simp [ha, isStack_iff.2 hk, hq, ht, hc])]

/-! ## The statement -/

/-- Settles O30: what each training leaves is its memory's record alone, but for the event of a retirement and the zero area of a
package after a power-on. -/
theorem memoriesTrainToReady : Obligations.MemoriesTrainToReady := by
  refine ⟨fun s mask hs => ⟨_, exec_memTrainStacks hs mask, ?_⟩, fun s mask hs => ⟨_, exec_memTrainPackages hs mask, ?_⟩,
    fun s p ha hp => ⟨?_, ?_, ?_, ?_, ?_⟩, fun s k ha hk hst hq hpa hd hb hr he t ht hc => ?_⟩
  · exact ⟨fun k => dev_trainingStarted (by rw [mem_setBits]), trainingStarted_frame _ s⟩
  · exact ⟨fun k => dev_trainingStarted (by rw [mem_packages, and_assoc]), trainingStarted_frame _ s⟩
  · intro hk hst hkept
    refine ⟨_, exec_memoryTrainingDone p s, ?_⟩
    rw [trainingDone_stack ha hk hst, trainRetired_plain hkept]
    exact updDev_alone s p _
  · intro hk hst hkept pc hpc
    refine ⟨_, exec_memoryTrainingDone p s, ?_⟩
    rw [trainingDone_stack ha hk hst, trainRetired_recorded hpc hkept]
    exact survivors_trained s p pc _
  · intro hk hst hkept
    refine ⟨_, exec_memoryTrainingDone p s, ?_⟩
    rw [trainingDone_package ha hp hk hst, if_pos hkept]
    exact updDev_alone s p _
  · intro hk hst hkept area
    refine ⟨_, exec_memoryTrainingDone p s, ?_⟩
    rw [trainingDone_package ha hp hk hst, if_neg (by rw [hkept]; exact Bool.false_ne_true)]
    have harea (a : Nat) : area a ↔ 0x8000000000 + (p - 12) * 0x1000000000 ≤ a ∧
        a < 0x8000000000 + (p - 12) * 0x1000000000 + 0x1000000000 := by
      have : p - 11 = p - 12 + 1 := by omega
      simp only [area, this]
      omega
    refine ⟨dev_updDev_same _ _ _, devsKept_updDev _ _ _, fun a h => ?_, fun a h => ?_, fun l hl => ?_, rfl⟩
    · exact (byteAt_zeroRange s _ _ a).trans (if_pos ((harea a).1 h))
    · exact (byteAt_zeroRange s _ _ a).trans (if_neg (mt (harea a).2 h))
    · have hl' := List.mem_filter.1 hl
      rw [harea]
      exact ⟨fun ⟨h1, h2⟩ => by simp [h1, h2] at hl', hl'.1⟩
  · intro hst
    refine ⟨_, exec_memoryTrainingDone p s, ?_⟩
    rw [trainingDone_initialising ha hp hst]
    exact updDev_alone s p _
  · exact ⟨_, selfRefreshEntry_quiet ha hk (quiet_of hst hq hpa hd hb hr he) ht hc, updDev_alone s k _⟩

end Sys2Proof.Laws
end


section
/-! SUPPORT. The retraining of a channel and the retirement of a pseudo-channel: what each leaves of the memory's record, and when the
memory fails (R190, R192, R193, R198). -/

namespace Sys2Proof.Laws

set_option Elab.async false

open Sys2Proof Sys2Proof.Machine Sys2Proof.Safety

/-! ## The start of a retraining (R190) -/

/-- The counter of a memory's retrainings. -/
def retrainReg (p : Nat) : Reg := if p < 12 then ⟨.memStkRetrains, p, 0⟩ else ⟨.memPkgRetrains, p - 12, 0⟩

theorem retrainReg_j (p : Nat) : (retrainReg p).j = 0 := by
  unfold retrainReg
  split <;> rfl

/-- A memory's record with a channel paused from a cycle on. -/
def retrainPaused (pc now : Nat) (d : Device) : Device :=
  { d with paused := [pc], retrainAt := sinsert pc now d.retrainAt, retrSince := d.retrSince + 1 }

theorem startRetrain_may {s : State} {p pc : Nat} (h : s.mayRetrain p pc = true) :
    startRetrain p pc s = (s.updDev p (retrainPaused pc s.cyc)).inc (retrainReg p).name 1 (retrainReg p).i := by
  rw [startRetrain, if_pos h, retrainReg]
  by_cases hp : p < 12
  · rw [if_pos (isStack_iff.2 hp), if_pos hp]
    rfl
  · rw [if_neg (mt isStack_iff.1 hp), if_neg hp]
    rfl

theorem startRetrain_not {s : State} {p pc : Nat} (h : s.mayRetrain p pc = false) : startRetrain p pc s = s := by
  rw [startRetrain, if_neg (by rw [h]; exact Bool.false_ne_true)]

/-- A retraining that starts pauses its channel and is counted, and nothing else changes. -/
theorem retrainStarted {s : State} {p pc : Nat} (h : s.mayRetrain p pc = true) :
    let u := startRetrain p pc s
    u.dev p = retrainPaused pc s.cyc (s.dev p) ∧ DevsKept s u p ∧ Counted s u (retrainReg p).name (retrainReg p).i ∧
      RegsKept s u [retrainReg p] ∧ u = { s with regs := u.regs, memory := { s.memory with dev := u.memory.dev } } := by
  intro u
  have hu : u = (s.updDev p (retrainPaused pc s.cyc)).inc (retrainReg p).name 1 (retrainReg p).i := startRetrain_may h
  have hj := retrainReg_j p
  clear_value u
  generalize retrainReg p = n at *
  obtain ⟨name, i, j⟩ := n
  subst hj hu
  exact ⟨dev_updDev_same _ _ _, devsKept_updDev _ _ _, rg_inc _ _ _ _ _, regsKept_setRg _ _ _ _ _, rfl⟩

/-! ## The end of a retraining (R190) -/

/-- A memory's event PC_RETRAIN, or its moderation, changes only when it was last raised and what it counts since. -/
theorem retrainEvent_work (p pc result : Nat) (s : State) :
    (∃ n t, (retrainEvent p pc result s).dev p = { s.dev p with retrSince := n, retrAt := t }) ∧
      DevsKept s (retrainEvent p pc result s) p ∧ DevFrame s (retrainEvent p pc result s) := by
  unfold retrainEvent
  extract_lets d due
  split
  · exact ⟨⟨0, some s.cyc, by rw [dev_raiseEvent, dev_setDev_same]⟩,
      devsKept_trans (devsKept_setDev _ _ _) (devsKept_raiseEvent _ _ _ _ _),
      devFrame_trans (DevOnly.setDev _ _ _).devFrame (devFrame_raiseEvent _ _ _ _)⟩
  · exact ⟨⟨_, _, rfl⟩, fun _ _ => rfl, (DevOnly.refl s).devFrame⟩

/-- A memory's record with a channel resumed. -/
def channelResumed (pc : Nat) (d : Device) : Device := { d with paused := d.paused.filter (· ≠ pc) }

theorem not_mem_channelResumed (pc : Nat) (d : Device) : pc ∉ (channelResumed pc d).paused := by simp [channelResumed]

/-- A channel resumed after a failure, which counts. -/
def channelFailed (pc : Nat) (d : Device) : Device := { channelResumed pc d with fails := supd 0 d.fails pc (· + 1) }

/-- A channel resumed after a success, trained at the present temperature. -/
def channelTrained (pc : Nat) (d : Device) : Device :=
  { channelResumed pc d with fails := serase d.fails pc, trainTemp := sinsert pc d.temp d.trainTemp }

section
variable {s : State} {p pc t : Nat}

theorem exec_retrainingTimeout (ha : s.alive = true) (hp : p < 28) (hpa : (s.dev p).paused.contains pc = true)
    (ht : sfind (s.dev p).retrainAt pc = some t) (hc : t + 3500 ≤ s.cyc) :
    exec (.retrainingTimeout p pc) s =
      .next (retrainFailed p pc (retrainEvent p pc 1 (s.updDev p (channelFailed pc)))) := by
  refine congrArg Host.Outcome.next ?_
  have hl : t + retrainLimit ≤ s.cyc := hc
  have hcond : (s.alive && isMemory p && (s.dev p).paused.contains pc &&
      (sfind (s.dev p).retrainAt pc).any (fun t => t + retrainLimit ≤ s.cyc)) = true := by
    rw [ha, isMemory_iff.2 hp, hpa, ht, Option.any_some, decide_eq_true hl]
    rfl
  exact if_pos hcond

theorem exec_retrainingSuccess (ha : s.alive = true) (hp : p < 28) (hpa : (s.dev p).paused.contains pc = true)
    (ht : sfind (s.dev p).retrainAt pc = some t) (hc : s.cyc ≤ t + 3500) :
    exec (.retrainingSuccess p pc) s = .next (retrainEvent p pc 0 (s.updDev p (channelTrained pc))) := by
  refine congrArg Host.Outcome.next ?_
  have hl : s.cyc ≤ t + retrainLimit := hc
  have hcond : (s.alive && isMemory p && (s.dev p).paused.contains pc &&
      (sfind (s.dev p).retrainAt pc).any (fun t => s.cyc ≤ t + retrainLimit)) = true := by
    rw [ha, isMemory_iff.2 hp, hpa, ht, Option.any_some, decide_eq_true hl]
    rfl
  exact if_pos hcond

end

/-- What the end of a retraining leaves: its memory's record changed, and the event. -/
theorem retrainEnded (p pc result : Nat) (f : Device → Device) (s : State) :
    let u := retrainEvent p pc result (s.updDev p f)
    (∃ n t, u.dev p = { f (s.dev p) with retrSince := n, retrAt := t }) ∧ DevsKept s u p ∧ DevFrame s u := by
  intro u
  obtain ⟨⟨n, t, hd⟩, hk, hf⟩ := retrainEvent_work p pc result (s.updDev p f)
  exact ⟨⟨n, t, by rw [hd, dev_updDev_same]⟩, devsKept_trans (devsKept_updDev s p f) hk,
    devFrame_trans (DevOnly.updDev s p f).devFrame hf⟩

/-! ## A module fault (R383) -/

theorem fault_none_of_alive {s : State} (h : s.alive = true) : s.stw.fault = none := by
  simpa [State.alive] using And.right (by simpa [State.alive] using h : s.stw.mainOn = true ∧ s.stw.fault = none)

/-- Declaring a first fault asserts the pin, and leaves each memory as it was or at rest. -/
theorem declareFault_first (c : FaultCause) {s : State} (h : s.stw.fault = none) :
    (declareFault c s).stw.fault = some c ∧ (declareFault c s).stw.faultPin = true ∧
      ∀ p, (declareFault c s).dev p = s.dev p ∨ (declareFault c s).dev p = (s.dev p).resting := by
  have hl : declareFault c s = checkFault { s with stw := { s.stw with fault := some c } } := by
    simp [declareFault, latchFault, h]
  rw [hl]
  cases hp : s.stw.faultPin with
  | true =>
    simp only [checkFault, hp, if_true]
    exact ⟨trivial, trivial, fun p => .inl rfl⟩
  | false =>
    simp only [checkFault, hp, Bool.false_eq_true, if_false]
    exact ⟨by rw [stw_faultEffects]; rfl, by rw [stw_faultEffects]; rfl, fun p => .inr (dev_faultEffects _ _ p)⟩

/-- A memory that has failed is a module fault, and stays failed (R192, R198). -/
theorem declareFault_failed (p : Nat) {s : State} (h : s.stw.fault = none) (f : Device → Device)
    (hf : (f (s.dev p)).st = .failed) :
    let u := declareFault (.failedDevice p) (s.updDev p f)
    (u.dev p).st = .failed ∧ u.stw.fault = some (.failedDevice p) ∧ u.stw.faultPin = true := by
  obtain ⟨h1, h2, hd⟩ := declareFault_first (.failedDevice p) (s := s.updDev p f) h
  refine ⟨?_, h1, h2⟩
  have hd := hd p
  rw [dev_updDev_same] at hd
  obtain hd | hd := hd <;> rw [hd]
  · exact hf
  · simp [Device.resting, hf]

/-- The channels that a fault pauses are none. -/
theorem declareFault_paused (c : FaultCause) {s : State} (h : s.stw.fault = none) {p pc : Nat} (hp : pc ∉ (s.dev p).paused) :
    pc ∉ ((declareFault c s).dev p).paused := by
  obtain hd | hd := (declareFault_first c h).2.2 p <;> rw [hd]
  · exact hp
  · exact List.not_mem_nil

/-! ## Retirement (R192, R193) -/

/-- A memory that has failed. -/
def deviceOut (d : Device) : Device := { d with st := .failed }

/-- A stack's record with a pseudo-channel retired, which has it await re-sowing (R192, R194). -/
def pcTaken (pc : Nat) (failed : Bool) (d : Device) : Device :=
  { d with retired := some pc, retiredFailed := failed, resow := .awaiting }

/-- The first retirement of a stack, in its record and in the Steward's store, with its event. -/
def pcRecorded (k pc cause : Nat) (failed : Bool) (s : State) : State :=
  raiseEvent .pcRetired k (detail [(10, 1, k), (11, 1, pc), (12, 1, cause)]) { s.updDev k (pcTaken pc failed) with
    stw := { s.stw with nv := { s.stw.nv with pcRetired := sinsert k pc s.stw.nv.pcRetired } } }

theorem retirePc_eq (k pc cause : Nat) (failed : Bool) (s : State) :
    retirePc k pc cause failed s = match (s.dev k).retired with
      | some r => if r = pc then s else latchFault (.failedDevice k) (s.updDev k deviceOut)
      | none => pcRecorded k pc cause failed s := rfl

section
variable {s : State} {k pc : Nat}

/-- The first retirement of a stack is recorded, in its record and in the Steward's store, and raises its event. -/
theorem retirePc_first (cause : Nat) (failed : Bool) (h : (s.dev k).retired = none) :
    let u := retirePc k pc cause failed s
    u.dev k = pcTaken pc failed (s.dev k) ∧ sfind u.stw.nv.pcRetired k = some pc ∧ u.stw.fault = s.stw.fault ∧ DevsKept s u k ∧
      u.memory.mem = s.memory.mem := by
  intro u
  have hu : u = pcRecorded k pc cause failed s := by unfold u; rw [retirePc_eq, h]
  rw [hu, pcRecorded]
  refine ⟨?_, ?_, ?_, fun j hj => ?_, ?_⟩
  · exact (dev_raiseEvent _ _ _ _ k).trans (dev_updDev_same s k _)
  · rw [raiseEvent_frame]
    exact (sfind_sinsert k k pc _).trans (if_pos rfl)
  · rw [raiseEvent_frame]
  · exact (dev_raiseEvent _ _ _ _ j).trans (devsKept_updDev s k _ j hj)
  · rw [memory_raiseEvent]
    rfl

/-- Retiring the same pseudo-channel again changes nothing. -/
theorem retirePc_again (cause : Nat) (failed : Bool) (h : (s.dev k).retired = some pc) : retirePc k pc cause failed s = s := by
  rw [retirePc_eq, h]
  exact if_pos rfl

/-- A second pseudo-channel fails the stack. -/
theorem retirePc_second (cause : Nat) (failed : Bool) {r : Nat} (h : (s.dev k).retired = some r) (hr : r ≠ pc) :
    retirePc k pc cause failed s = latchFault (.failedDevice k) (s.updDev k deviceOut) := by
  rw [retirePc_eq, h]
  exact if_neg hr

/-! ## The third failure in succession (R192, R198) -/

theorem retrainFailed_below (h : sget 0 (s.dev k).fails pc < 3) : retrainFailed k pc s = s := by rw [retrainFailed, if_pos h]

theorem retrainFailed_package (h : 3 ≤ sget 0 (s.dev k).fails pc) (hk : 12 ≤ k) :
    retrainFailed k pc s = declareFault (.failedDevice k) (s.updDev k deviceOut) := by
  rw [retrainFailed, if_neg (by omega), if_neg (mt isStack_iff.1 (by omega))]
  rfl

theorem retrainFailed_again (h : 3 ≤ sget 0 (s.dev k).fails pc) (hk : k < 12) (hr : (s.dev k).retired = some pc) :
    retrainFailed k pc s = s.updDev k (fun d => { d with retiredFailed := true }) := by
  rw [retrainFailed, if_neg (by omega), if_pos (isStack_iff.2 hk), if_pos hr]

theorem retrainFailed_stack (h : 3 ≤ sget 0 (s.dev k).fails pc) (hk : k < 12) (hr : (s.dev k).retired ≠ some pc) :
    retrainFailed k pc s = checkFault (retirePc k pc 1 true s) := by
  rw [retrainFailed, if_neg (by omega), if_pos (isStack_iff.2 hk), if_neg hr]

theorem retrainFailed_second (h : 3 ≤ sget 0 (s.dev k).fails pc) (hk : k < 12) {r : Nat} (hr : (s.dev k).retired = some r)
    (hn : r ≠ pc) : retrainFailed k pc s = declareFault (.failedDevice k) (s.updDev k deviceOut) := by
  rw [retrainFailed_stack h hk (by rw [hr]; exact fun e => hn (Option.some.inj e)), retirePc_second _ _ hr hn]
  rfl

theorem retrainFailed_first (h : 3 ≤ sget 0 (s.dev k).fails pc) (hk : k < 12) (hr : (s.dev k).retired = none)
    (hf : s.stw.fault = none) : retrainFailed k pc s = retirePc k pc 1 true s := by
  rw [retrainFailed_stack h hk (by rw [hr]; exact (Option.some_ne_none pc).symm),
    checkFault_noFault _ ((retirePc_first 1 true hr).2.2.1.trans hf)]

/-- A channel that has resumed is not paused by what its failure brings. -/
theorem retrainFailed_paused (hf : s.stw.fault = none) (hp : pc ∉ (s.dev k).paused) :
    pc ∉ ((retrainFailed k pc s).dev k).paused := by
  have hout : pc ∉ ((s.updDev k deviceOut).dev k).paused := by rw [dev_updDev_same]; exact hp
  by_cases h : sget 0 (s.dev k).fails pc < 3
  · rwa [retrainFailed_below h]
  · have h3 : 3 ≤ sget 0 (s.dev k).fails pc := by omega
    by_cases hk : k < 12
    · rcases hr : (s.dev k).retired with _ | r
      · rw [retrainFailed_first h3 hk hr hf, (retirePc_first 1 true hr).1]
        exact hp
      · by_cases hn : r = pc
        · rw [retrainFailed_again h3 hk (hn ▸ hr), dev_updDev_same]
          exact hp
        · rw [retrainFailed_second h3 hk hr hn]
          exact declareFault_paused (s := s.updDev k deviceOut) _ hf hout
    · rw [retrainFailed_package h3 (by omega)]
      exact declareFault_paused (s := s.updDev k deviceOut) _ hf hout

end

end Sys2Proof.Laws
end


section
/-! The statement about retraining and retirement (R190, R192, R193, R198). -/

namespace Sys2Proof.Laws

set_option Elab.async false

open Sys2Proof Sys2Proof.Machine Sys2Proof.Safety

/-! ## Writes of MEM_STK_CTL (R190, R192, R202) -/

/-- A field written at any index of its register reads as the value that it holds. -/
theorem rgBits_setRgBits_at (s : State) (n : RegName) {lo w : Nat} (h : lo + w ≤ 8 * n.row.bytes) (x i j : Nat) :
    (s.setRgBits n lo w x i j).rgBits n lo w i j = x % 2 ^ w := by
  have hp : 256 ^ n.row.bytes = 2 ^ (8 * n.row.bytes) := by rw [Nat.pow_mul]
  rw [State.rgBits, State.setRgBits, rg_setRg, hp, bits_mod _ h, bits_putBits]

/-- The module with a pseudo-channel's number written to MEM_STK_CTL. -/
def channelNamed (k pc : Nat) (s : State) : State := s.setRgBits .memStkCtl 0 5 pc k

theorem channelNamed_field (k pc : Nat) (s : State) : (channelNamed k pc s).rgBits .memStkCtl 0 5 k = pc % 32 :=
  rgBits_setRgBits_at s .memStkCtl (by decide) pc k 0

theorem mayRetrain_channelNamed (k pc j c : Nat) (s : State) : (channelNamed k pc s).mayRetrain j c = s.mayRetrain j c := rfl

theorem exec_retrainingStart {s : State} {p pc : Nat} {phy : Bool} (h : phy = true ∨ s.drifted p pc = true) :
    exec (.retrainingStart p pc phy) s = .next (startRetrain p pc s) := by
  refine congrArg Host.Outcome.next ?_
  rw [retrainingStartOp, if_pos (by simpa using h)]

theorem exec_hostRetrain {s : State} {k : Nat} (h : HostWrite s) (hk : k < 12) (pc : Nat) :
    exec (.hostRetrain k pc) s = .next (startRetrain k (pc % 32) (channelNamed k pc (dropSplit s))) := by
  refine congrArg Host.Outcome.next ((barWrite_taken _ _ s h).trans ?_)
  rw [hostRetrainOp, if_pos (by rw [alive_dropSplit h, isStack_iff.2 hk]; rfl)]
  rfl

theorem exec_hostRetire {s : State} {k : Nat} (h : HostWrite s) (hk : k < 12) (hst : (s.dev k).st ≠ .failed) (pc : Nat) :
    exec (.hostRetire k pc) s = .next (checkFault (retirePc k (pc % 32) 3 false (channelNamed k pc (dropSplit s)))) := by
  refine congrArg Host.Outcome.next ((barWrite_taken _ _ s h).trans ?_)
  rw [hostRetireOp, if_pos (by rw [alive_dropSplit h, isStack_iff.2 hk, dev_dropSplit, decide_eq_true hst]; rfl)]
  rfl

theorem hostRetrain_result (k pc : Nat) (v : State) (hk : k < 12) :
    let u := startRetrain k (pc % 32) (channelNamed k pc v)
    u.rgBits .memStkCtl 0 5 k = pc % 32 ∧ DevsKept v u k ∧ RegsKept v u [⟨.memStkCtl, k, 0⟩, ⟨.memStkRetrains, k, 0⟩] ∧
      (v.mayRetrain k (pc % 32) = true → (u.dev k).paused = [pc % 32] ∧ sfind (u.dev k).retrainAt (pc % 32) = some v.cyc ∧
        Counted v u .memStkRetrains k) ∧
      (v.mayRetrain k (pc % 32) = false → u.dev k = v.dev k ∧ u.rg .memStkRetrains k = v.rg .memStkRetrains k) ∧
      u = { v with regs := u.regs, memory := { v.memory with dev := u.memory.dev } } := by
  have hnamed : RegsKept v (channelNamed k pc v) [⟨.memStkCtl, k, 0⟩] := regsKept_setRg _ _ _ _ _
  have hapart : Reg.offset ⟨.memStkRetrains, k, 0⟩ ≠ Reg.offset ⟨.memStkCtl, k, 0⟩ := by
    simp only [Reg.offset, RegName.row, row1]
    omega
  have hrg : (channelNamed k pc v).rg .memStkRetrains k = v.rg .memStkRetrains k := rg_setRg_other _ _ _ _ _ _ _ _ hapart
  have hreg : retrainReg k = ⟨.memStkRetrains, k, 0⟩ := if_pos hk
  intro u
  cases hm : v.mayRetrain k (pc % 32) with
  | false =>
    have hu : u = channelNamed k pc v := startRetrain_not (mayRetrain_channelNamed k pc k _ v ▸ hm)
    rw [hu]
    exact ⟨channelNamed_field k pc v, fun _ _ => rfl, regsKept_mono hnamed (by simp), fun h => absurd h Bool.false_ne_true,
      fun _ => ⟨rfl, hrg⟩, rfl⟩
  | true =>
    obtain ⟨hd, hk', hc, hr, hf⟩ := retrainStarted (s := channelNamed k pc v) (mayRetrain_channelNamed k pc k _ v ▸ hm)
    rw [hreg] at hc hr
    have hctl : u.rg .memStkCtl k = (channelNamed k pc v).rg .memStkCtl k :=
      rg_regsKept hr .memStkCtl k 0 (by simpa using hapart.symm)
    refine ⟨?_, hk', regsKept_trans (regsKept_mono hnamed (by simp)) (regsKept_mono hr (by simp)), fun _ => ⟨?_, ?_, ?_⟩,
      fun h => absurd h.symm Bool.false_ne_true, hf⟩
    · rw [State.rgBits, hctl]
      exact channelNamed_field k pc v
    · rw [hd]
      rfl
    · rw [hd]
      exact (sfind_sinsert _ _ _ _).trans (if_pos rfl)
    · rw [Safety.Counted, ← hrg]
      exact hc

/-! ## The statement -/

/-- Settles O33: each event changes its memory's record; a third failure leads to a retirement or to the module fault. -/
theorem channelsRetrainAndRetire : Obligations.ChannelsRetrainAndRetire := by
  refine ⟨?start, ?request, ?timeout, ?success, ?retire⟩
  case start => exact fun s p pc phy hm hcause => ⟨_, exec_retrainingStart hcause, retrainStarted hm⟩
  case request =>
    intro s k pc hs hk v
    refine ⟨_, exec_hostRetrain hs hk pc, ?_⟩
    have hcyc : v.cyc = s.cyc := cyc_dropSplit s
    rw [← hcyc]
    exact hostRetrain_result k pc v hk
  case timeout =>
    intro s p pc t ha hp hpa ht hc n
    refine ⟨_, exec_retrainingTimeout ha hp hpa ht hc, ?_⟩
    obtain ⟨⟨a, b, hd⟩, hkept, hframe⟩ := retrainEnded p pc 1 (channelFailed pc) s
    generalize retrainEvent p pc 1 (s.updDev p (channelFailed pc)) = w at *
    have hstw : w.stw = s.stw := devFrame_stw hframe
    have hfault : w.stw.fault = none := by rw [hstw]; exact fault_none_of_alive ha
    have hn : sget 0 (w.dev p).fails pc = n := by
      rw [hd]
      exact (sget_supd 0 (s.dev p).fails pc pc (· + 1)).trans (if_pos rfl)
    have hret : (w.dev p).retired = (s.dev p).retired := by rw [hd]; rfl
    have hp' : pc ∉ (w.dev p).paused := by rw [hd]; exact not_mem_channelResumed pc _
    refine ⟨retrainFailed_paused hfault hp', fun h => ?_, fun h h12 hr => ?_, fun h h12 hr => ?_, fun h h12 r hr hne => ?_, fun h h12 => ?_⟩
    · rw [retrainFailed_below (by omega)]
      exact ⟨by rw [hd]; rfl, hn, hkept, hframe⟩
    · rw [retrainFailed_first (by omega) h12 (hret.trans hr) hfault]
      obtain ⟨hdev, hnv, hnf, -, -⟩ := retirePc_first (pc := pc) 1 true (hret.trans hr)
      exact ⟨by rw [hdev]; rfl, by rw [hdev]; rfl, by rw [hdev]; rfl, hnv, hnf.trans hfault⟩
    · rw [retrainFailed_again (by omega) h12 (hret.trans hr), dev_updDev_same]
      exact ⟨rfl, hstw⟩
    · rw [retrainFailed_second (by omega) h12 (hret.trans hr) hne]
      exact declareFault_failed p hfault deviceOut rfl
    · rw [retrainFailed_package (by omega) h12]
      exact declareFault_failed p hfault deviceOut rfl
  case success =>
    intro s p pc t ha hp hpa ht hc
    refine ⟨_, exec_retrainingSuccess ha hp hpa ht hc, ?_⟩
    obtain ⟨⟨a, b, hd⟩, hkept, hframe⟩ := retrainEnded p pc 0 (channelTrained pc) s
    refine ⟨?_, ?_, ?_, ?_, hkept, hframe⟩ <;> rw [hd]
    · exact not_mem_channelResumed pc _
    · exact (sfind_serase _ _ _).trans (if_pos rfl)
    · exact (sfind_sinsert _ _ _ _).trans (if_pos rfl)
    · rfl
  case retire =>
    intro s k pc hs hk hst
    refine ⟨_, exec_hostRetire hs hk hst pc, ?_⟩
    have hdev : (channelNamed k pc (dropSplit s)).dev = s.dev := funext fun p => dev_dropSplit s p
    have hmem : (channelNamed k pc (dropSplit s)).memory = s.memory := memory_dropSplit s
    have hstw : (channelNamed k pc (dropSplit s)).stw = s.stw := stw_dropSplit s
    generalize channelNamed k pc (dropSplit s) = w at *
    have hfault : w.stw.fault = none := hstw ▸ hs.2
    refine ⟨fun hr => ?_, fun hr => ?_, fun r hr hne => ?_⟩
    · obtain ⟨hd, hnv, hnf, hkept, hbytes⟩ := retirePc_first (pc := pc % 32) 3 false (s := w) (k := k) (by rw [hdev]; exact hr)
      rw [checkFault_noFault _ (hnf.trans hfault)]
      exact ⟨by rw [hd, hdev]; rfl, hnv, hnf.trans hfault, fun j hj => (hkept j hj).trans (by rw [hdev]), by rw [hbytes, hmem]⟩
    · rw [retirePc_again _ _ (by rw [hdev]; exact hr), checkFault_noFault _ hfault]
      exact ⟨hmem, hstw⟩
    · rw [retirePc_second _ _ (by rw [hdev]; exact hr) hne]
      exact declareFault_failed k hfault deviceOut rfl

end Sys2Proof.Laws
end


section
/-! SUPPORT. The moving of a stack's granules: what becomes of the lines on a pseudo-channel that failed (R193, R196). -/

namespace Sys2Proof.Laws

set_option Elab.async false

open Sys2Proof Sys2Proof.Machine Sys2Proof.Safety

/-! ## One line -/

/-- What moving its granule does to a line: on a failed pseudo-channel it reads zero in class N and is detected in the others. -/
def loseLine (l : Nat) (s : State) : State :=
  if !s.onFailedPc l then s else if s.mpaClass l = 0 then zeroRange l 64 s else markDetected l s

theorem moveLost_eq (k : Nat) (gs : List Nat) (s : State) : moveLost k gs s = each (granuleLines k gs) loseLine s := rfl

/-- A class N line on a failed pseudo-channel, whose bytes are lost. -/
abbrev LineLost (s : State) (l : Nat) : Prop := s.onFailedPc l = true ∧ s.mpaClass l = 0

/-- The address lies in a lost line of a list. -/
abbrev InLostLine (s : State) (ls : List Nat) (x : Nat) : Prop :=
  ∃ l ∈ ls, s.onFailedPc l = true ∧ s.mpaClass l = 0 ∧ l ≤ x ∧ x < l + 64

theorem loseLine_safe {l : Nat} {s : State} (h : s.onFailedPc l = false) : loseLine l s = s := by simp [loseLine, h]

theorem loseLine_lost {l : Nat} {s : State} (h : s.onFailedPc l = true) (hc : s.mpaClass l = 0) :
    loseLine l s = zeroRange l 64 s := by simp [loseLine, h, hc]

theorem loseLine_detected {l : Nat} {s : State} (h : s.onFailedPc l = true) (hc : s.mpaClass l ≠ 0) :
    loseLine l s = markDetected l s := by simp [loseLine, h, hc]

/-- Only bytes, marks of detected lines and device errors differ. -/
def LinesOnly (s u : State) : Prop :=
  u = { s with memory := { s.memory with mem := u.memory.mem, marks := u.memory.marks, errs := u.memory.errs } }

theorem LinesOnly.trans {s u v : State} (h : LinesOnly s u) (k : LinesOnly u v) : LinesOnly s v := by
  unfold LinesOnly at *
  rw [k, h]

theorem linesOnly_loseLine (l : Nat) (s : State) : LinesOnly s (loseLine l s) := by
  unfold loseLine
  split
  · rfl
  · split <;> rfl

theorem linesOnly_each_loseLine (ls : List Nat) (s : State) : LinesOnly s (each ls loseLine s) :=
  each_keeps (LinesOnly s) ls loseLine s rfl fun l u hu => hu.trans (linesOnly_loseLine l u)

theorem LinesOnly.onFailedPc {s u : State} (h : LinesOnly s u) (a : Nat) : u.onFailedPc a = s.onFailedPc a :=
  onFailedPc_congr (fun p => by rw [h]; rfl) a

theorem LinesOnly.mpaClass {s u : State} (h : LinesOnly s u) (a : Nat) : u.mpaClass a = s.mpaClass a :=
  mpaClass_of_regs (by rw [h]) a

/-! ## The bytes -/

theorem byteAt_loseLine (l : Nat) (s : State) (x : Nat) :
    byteAt (loseLine l s).memory.mem x = if LineLost s l ∧ l ≤ x ∧ x < l + 64 then 0 else byteAt s.memory.mem x := by
  by_cases hf : s.onFailedPc l = true
  · by_cases hc : s.mpaClass l = 0
    · rw [loseLine_lost hf hc, byteAt_zeroRange]
      simp only [LineLost, hf, hc, true_and]
    · rw [loseLine_detected hf hc, if_neg fun h => hc h.1.2]
      rfl
  · rw [loseLine_safe (Bool.not_eq_true _ ▸ hf), if_neg fun h => hf h.1.1]

/-- After the lines of a list the bytes of its lost lines read zero, and every other byte reads as before. -/
theorem byteAt_each_loseLine (ls : List Nat) (s : State) (x : Nat) :
    byteAt (each ls loseLine s).memory.mem x = if InLostLine s ls x then 0 else byteAt s.memory.mem x := by
  induction ls generalizing s with
  | nil => simp
  | cons l ls ih =>
    have hlost : InLostLine (loseLine l s) ls x ↔ InLostLine s ls x := by
      simp only [InLostLine, (linesOnly_loseLine l s).onFailedPc, (linesOnly_loseLine l s).mpaClass]
    have hcons : InLostLine s (l :: ls) x ↔ (LineLost s l ∧ l ≤ x ∧ x < l + 64) ∨ InLostLine s ls x := by
      simp only [InLostLine, LineLost, List.exists_mem_cons_iff, and_assoc]
    rw [each_cons, ih, byteAt_loseLine]
    by_cases h1 : InLostLine s ls x
    · rw [if_pos (hlost.2 h1), if_pos (hcons.2 (.inr h1))]
    · rw [if_neg (mt hlost.1 h1)]
      by_cases h2 : LineLost s l ∧ l ≤ x ∧ x < l + 64
      · rw [if_pos h2, if_pos (hcons.2 (.inl h2))]
      · rw [if_neg h2, if_neg fun h => (hcons.1 h).elim h2 h1]

/-! ## The marks -/

theorem mem_marks_markDetected (l : Nat) (s : State) : l ∈ (markDetected l s).memory.marks := by
  unfold markDetected
  simp only
  split
  · next h => exact List.contains_iff_mem.1 h
  · exact List.mem_append_right _ List.mem_cons_self

theorem marks_markDetected (l : Nat) (s : State) : s.memory.marks ⊆ (markDetected l s).memory.marks := by
  unfold markDetected
  simp only
  split
  · exact List.Subset.refl _
  · exact List.subset_append_left _ _

/-- A mark on a protected line stays when another line moves. -/
theorem marks_loseLine {l m : Nat} {s : State} (h : l ∈ s.memory.marks) (hc : s.mpaClass l ≠ 0) (hl : l % 64 = 0) (hm : m % 64 = 0) :
    l ∈ (loseLine m s).memory.marks := by
  by_cases hf : s.onFailedPc m = true
  · by_cases hz : s.mpaClass m = 0
    · have hne : l ≠ m := fun e => hc (e ▸ hz)
      rw [loseLine_lost hf hz]
      refine List.mem_filter.2 ⟨h, ?_⟩
      simp only [Bool.not_eq_true', Bool.and_eq_false_iff, decide_eq_false_iff_not]
      omega
    · rw [loseLine_detected hf hz]
      exact marks_markDetected m s h
  · rwa [loseLine_safe (Bool.not_eq_true _ ▸ hf)]

/-- Protected lines of a list on a failed pseudo-channel are detected after it. -/
theorem marks_each_loseLine (ls : List Nat) (hls : ∀ m ∈ ls, m % 64 = 0) {l : Nat} (hl : l % 64 = 0) (s : State)
    (hf : s.onFailedPc l = true) (hc : s.mpaClass l ≠ 0) (h : l ∈ s.memory.marks ∨ l ∈ ls) :
    l ∈ (each ls loseLine s).memory.marks := by
  induction ls generalizing s with
  | nil => exact h.resolve_right List.not_mem_nil
  | cons m ls ih =>
    have hm := hls m List.mem_cons_self
    have hw := linesOnly_loseLine m s
    refine ih (fun x hx => hls x (List.mem_cons_of_mem m hx)) (loseLine m s) ((hw.onFailedPc l).trans hf) (by rwa [hw.mpaClass]) ?_
    obtain h | h := h
    · exact .inl (marks_loseLine h hc hl hm)
    · obtain rfl | h := List.mem_cons.1 h
      · exact .inl (by rw [loseLine_detected hf hc]; exact mem_marks_markDetected l s)
      · exact .inr h

/-! ## A stack's granules -/

theorem granuleLines_aligned {k l : Nat} {gs : List Nat} (h : l ∈ granuleLines k gs) : l % 64 = 0 := by
  simp only [granuleLines, List.mem_flatMap, List.mem_map] at h
  obtain ⟨g, -, i, -, rfl⟩ := h
  omega

/-- What moving the granules of a list leaves, with a change of the stack's record. -/
theorem granulesMoved (k : Nat) (gs : List Nat) (f : Device → Device) (s : State) :
    let u := (moveLost k gs s).updDev k f
    u.dev k = f (s.dev k) ∧ DevsKept s u k ∧
      (∀ l ∈ granuleLines k gs, s.onFailedPc l = true →
        (s.mpaClass l = 0 → ∀ x, l ≤ x → x < l + 64 → byteAt u.memory.mem x = 0) ∧ (s.mpaClass l ≠ 0 → l ∈ u.memory.marks)) ∧
      MemKept s u (InLostLine s (granuleLines k gs)) ∧
      u = { s with memory := { s.memory with dev := u.memory.dev, mem := u.memory.mem, marks := u.memory.marks,
                                             errs := u.memory.errs } } := by
  intro u
  have hw : LinesOnly s (moveLost k gs s) := linesOnly_each_loseLine _ s
  have hdev : (moveLost k gs s).dev = s.dev := by rw [hw]; rfl
  have hbyte (x : Nat) : byteAt u.memory.mem x = if InLostLine s (granuleLines k gs) x then 0 else byteAt s.memory.mem x :=
    byteAt_each_loseLine (granuleLines k gs) s x
  refine ⟨by rw [dev_updDev_same, hdev], fun j hj => by rw [devsKept_updDev _ _ _ j hj, hdev], fun l hl hf => ⟨fun hc x h1 h2 => ?_, fun hc => ?_⟩,
    fun x hx => ?_, ?_⟩
  · rw [hbyte, if_pos ⟨l, hl, hf, hc, h1, h2⟩]
  · exact marks_each_loseLine _ (fun m hm => granuleLines_aligned hm) (granuleLines_aligned hl) s hf hc (.inr hl)
  · rw [hbyte, if_neg hx]
  · unfold LinesOnly at hw
    unfold u
    rw [hw]
    rfl

end Sys2Proof.Laws
end


section
/-! SUPPORT. The reading of one line by the patrol scrubber: what it counts, and what it leaves (R186 to R188, R192). -/

namespace Sys2Proof.Laws

set_option Elab.async false

open Sys2Proof Sys2Proof.Machine Sys2Proof.Safety

/-! ## The registers -/

/-- The registers that a memory's controller writes after it has counted a detected line. -/
def afterDetRegs (p : Nat) : List Reg :=
  [⟨.memStkLastdet, p, 0⟩, ⟨.memPkgLastdet, p - 12, 0⟩] ++ (List.range 64).map (fun e => ⟨.memRangeDet, p, e⟩)

/-- The registers that a read of a memory's lines may write beside the memory's count of corrections. -/
def scrubRegs (p : Nat) : List Reg :=
  [⟨.memStkDet, p, 0⟩, ⟨.memPkgDet, p - 12, 0⟩] ++ afterDetRegs p ++ (List.range 64).map (fun e => ⟨.memRangeCorr, p, e⟩) ++
  (List.range 32).map (fun q => ⟨.memPcCorr, p, q⟩) ++ eventRegs

/-- The register in which a memory's corrections are counted (R186). -/
def corrReg (p : Nat) : Reg := if p < 12 then ⟨.memStkCorr, p, 0⟩ else ⟨.memPkgCorr, p - 12, 0⟩

/-- The register in which a memory's detected lines are counted (R187). -/
def detReg (p : Nat) : Reg := if p < 12 then ⟨.memStkDet, p, 0⟩ else ⟨.memPkgDet, p - 12, 0⟩

theorem corrReg_j (p : Nat) : (corrReg p).j = 0 := by
  unfold corrReg
  split <;> rfl

theorem detReg_j (p : Nat) : (detReg p).j = 0 := by
  unfold detReg
  split <;> rfl

theorem counted_corrReg {s u : State} {p : Nat} (h : Safety.Counted s u (corrReg p).name (corrReg p).i) :
    if p < 12 then Safety.Counted s u .memStkCorr p else Safety.Counted s u .memPkgCorr (p - 12) := by
  unfold corrReg at h
  split <;> simpa only [*, if_true, if_false] using h

theorem counted_detReg {s u : State} {p : Nat} (h : Safety.Counted s u (detReg p).name (detReg p).i) :
    if p < 12 then Safety.Counted s u .memStkDet p else Safety.Counted s u .memPkgDet (p - 12) := by
  unfold detReg at h
  split <;> simpa only [*, if_true, if_false] using h

theorem offset_eventRegs {o : Nat} (h : o ∈ eventRegs.map Reg.offset) : 0x800000 ≤ o := by
  have hall : ∀ o ∈ eventRegs.map Reg.offset, 0x800000 ≤ o := by decide
  exact hall o h

theorem detReg_apart {p : Nat} (hp : p < 28) : (detReg p).offset ∉ (afterDetRegs p).map Reg.offset ∧ (detReg p).offset < 0x800000 := by
  constructor
  · intro h
    obtain ⟨r, hr, ho⟩ := List.mem_map.1 h
    simp only [afterDetRegs, List.mem_append, List.mem_map, List.mem_range, List.mem_cons, List.not_mem_nil, or_false] at hr
    unfold detReg at ho
    split at ho <;> rcases hr with (rfl | rfl) | ⟨e, he, rfl⟩ <;>
    · simp only [Reg.offset, RegName.row, row1, row2] at ho
      omega
  · unfold detReg
    split <;>
    · simp only [Reg.offset, RegName.row, row1]
      omega

theorem afterDetRegs_low {p o : Nat} (hp : p < 28) (h : o ∈ (afterDetRegs p).map Reg.offset) : o < 0x800000 := by
  obtain ⟨r, hr, rfl⟩ := List.mem_map.1 h
  simp only [afterDetRegs, List.mem_append, List.mem_map, List.mem_range, List.mem_cons, List.not_mem_nil, or_false] at hr
  rcases hr with (rfl | rfl) | ⟨e, he, rfl⟩ <;>
  · simp only [Reg.offset, RegName.row, row1, row2]
    omega

theorem corrReg_offset {p : Nat} (hp : p < 28) : 0x210000 ≤ (corrReg p).offset ∧ (corrReg p).offset < 0x800000 := by
  unfold corrReg
  split <;>
  · simp only [Reg.offset, RegName.row, row1]
    omega

theorem corrReg_apart {p : Nat} (hp : p < 28) : (corrReg p).offset ∉ (scrubRegs p).map Reg.offset := by
  intro h
  obtain ⟨r, hr, ho⟩ := List.mem_map.1 h
  have hlow := (corrReg_offset hp).2
  rcases List.mem_append.1 hr with hr | hr
  · simp only [afterDetRegs, List.mem_append, List.mem_map, List.mem_range, List.mem_cons, List.not_mem_nil, or_false] at hr
    unfold corrReg at ho
    split at ho <;>
      rcases hr with (((rfl | rfl) | ((rfl | rfl) | ⟨e, he, rfl⟩)) | ⟨e, he, rfl⟩) | ⟨e, he, rfl⟩ <;>
    · simp only [Reg.offset, RegName.row, row1, row2] at ho
      omega
  · have := offset_eventRegs (List.mem_map_of_mem hr)
    omega

theorem retireThr_apart {p : Nat} : Reg.offset ⟨.memRetireThr, 0, 0⟩ ∉ (scrubRegs p).map Reg.offset := by
  intro h
  obtain ⟨r, hr, ho⟩ := List.mem_map.1 h
  have hoff : Reg.offset ⟨.memRetireThr, 0, 0⟩ = 0x20000c := by decide
  rw [hoff] at ho
  rcases List.mem_append.1 hr with hr | hr
  · simp only [afterDetRegs, List.mem_append, List.mem_map, List.mem_range, List.mem_cons, List.not_mem_nil, or_false] at hr
    rcases hr with (((rfl | rfl) | ((rfl | rfl) | ⟨e, he, rfl⟩)) | ⟨e, he, rfl⟩) | ⟨e, he, rfl⟩ <;>
    · simp only [Reg.offset, RegName.row, row1, row2] at ho
      omega
  · have := offset_eventRegs (List.mem_map_of_mem hr)
    omega

/-! ## Work of a scrub -/

/-- Work at a memory's controller that reads a line and counts what it finds. -/
structure ScrubWork (p : Nat) (s u : State) : Prop where
  devs : DevsKept s u p
  pos : (u.dev p).scrubPos = (s.dev p).scrubPos
  frame : DevFrame s u
  regs : RegsKept s u (scrubRegs p)

theorem ScrubWork.refl (p : Nat) (s : State) : ScrubWork p s s := ⟨fun _ _ => rfl, rfl, rfl, regsKept_of_eq rfl _⟩

theorem ScrubWork.trans {p : Nat} {s u v : State} (h : ScrubWork p s u) (k : ScrubWork p u v) : ScrubWork p s v :=
  ⟨devsKept_trans h.devs k.devs, k.pos.trans h.pos, devFrame_trans h.frame k.frame, regsKept_trans h.regs k.regs⟩

theorem ScrubWork.ite {p : Nat} {s u v : State} {c : Prop} [Decidable c] (h : ScrubWork p s u) (k : ScrubWork p s v) :
    ScrubWork p s (if c then u else v) := by
  split <;> assumption

theorem ScrubWork.setRg {p : Nat} {n : RegName} {i j : Nat} (h : ⟨n, i, j⟩ ∈ scrubRegs p) (v : Nat) (s : State) :
    ScrubWork p s (s.setRg n v i j) := ⟨fun _ _ => rfl, rfl, rfl, regsKept_mono (regsKept_setRg s n v i j) (by simpa using h)⟩

theorem ScrubWork.setDev {p : Nat} {s : State} {d : Device} (h : d.scrubPos = (s.dev p).scrubPos) : ScrubWork p s (s.setDev p d) :=
  ⟨devsKept_setDev s p d, by rw [dev_setDev_same, h], (DevOnly.setDev s p d).devFrame, regsKept_of_eq rfl _⟩

theorem ScrubWork.raise (p : Nat) (c : EventCode) (i : Nat) (d : BitVec 128) (s : State) : ScrubWork p s (raiseEvent c i d s) :=
  ⟨devsKept_raiseEvent c i d s p, by rw [dev_raiseEvent], devFrame_raiseEvent c i d s,
    regsKept_mono (raiseEvent_regs c i d s) (List.subset_append_right _ _)⟩

theorem ScrubWork.thr {p : Nat} {s u : State} (h : ScrubWork p s u) : u.rgBits .memRetireThr 0 16 = s.rgBits .memRetireThr 0 16 := by
  rw [State.rgBits, rg_regsKept h.regs .memRetireThr 0 0 retireThr_apart]
  rfl

/-! ## Detected lines (R187) -/

/-- The counts of a detected line. -/
def detectedCounted (p off l : Nat) (s : State) : State :=
  let s := if p < 12 then (s.inc .memStkDet 1 p).setRg .memStkLastdet l p
           else (s.inc .memPkgDet 1 (p - 12)).setRg .memPkgLastdet l (p - 12)
  if p < 12 then (match s.rangeAt p off with
    | some e => s.inc .memRangeDet 1 p e
    | none => s) else s

theorem reportDetected_eq {l p off : Nat} (h : mpaWindow l = some (p, off)) (reader step : Nat) (s : State) :
    ∃ d, reportDetected l reader step s = raiseEvent .memDetected p d (detectedCounted p off l s) := by
  unfold reportDetected
  rw [h]
  exact ⟨_, rfl⟩

/-- Counting a detected line is counting it in its memory, and then in the range and the last address. -/
theorem detectedCounted_regs (p off l : Nat) (s : State) :
    RegsKept (s.inc (detReg p).name 1 (detReg p).i) (detectedCounted p off l s) (afterDetRegs p) := by
  have hset {n : RegName} {i j : Nat} (h : ⟨n, i, j⟩ ∈ afterDetRegs p) (v : Nat) (u : State) :
      RegsKept u (u.setRg n v i j) (afterDetRegs p) := regsKept_mono (regsKept_setRg u n v i j) (by simpa using h)
  unfold detectedCounted detReg
  by_cases hp : p < 12
  · simp only [if_pos hp]
    refine regsKept_trans (hset (n := .memStkLastdet) (i := p) (j := 0) (by simp [afterDetRegs]) l _) ?_
    split
    · next e he => exact hset (n := .memRangeDet) (by simp [afterDetRegs, rangeAt_lt he]) _ _
    · exact regsKept_of_eq rfl _
  · simp only [if_neg hp]
    exact hset (n := .memPkgLastdet) (i := p - 12) (j := 0) (by simp [afterDetRegs]) l _

theorem detectedCounted_frame (p off l : Nat) (s : State) :
    detectedCounted p off l s = { s with regs := (detectedCounted p off l s).regs } := by
  unfold detectedCounted
  split
  · simp only
    split <;> rfl
  · rfl

theorem detReg_mem (p : Nat) : detReg p ∈ scrubRegs p := by
  unfold detReg scrubRegs
  split <;> simp

theorem afterDetRegs_subset (p : Nat) : afterDetRegs p ⊆ scrubRegs p := fun r hr => by
  simp only [scrubRegs, List.mem_append]
  exact .inl (.inl (.inl (.inr hr)))

theorem scrubWork_reportDetected {l p off : Nat} (h : mpaWindow l = some (p, off)) (reader step : Nat) (s : State) :
    ScrubWork p s (reportDetected l reader step s) := by
  obtain ⟨d, hd⟩ := reportDetected_eq h reader step s
  have hf := detectedCounted_frame p off l s
  have hinc : RegsKept s (s.inc (detReg p).name 1 (detReg p).i) (scrubRegs p) :=
    regsKept_mono (regsKept_setRg s _ _ _ 0) (by
      have := detReg_mem p
      rw [show detReg p = ⟨(detReg p).name, (detReg p).i, 0⟩ from by rw [← detReg_j p]] at this
      simpa using this)
  have hcount : ScrubWork p s (detectedCounted p off l s) :=
    ⟨fun j _ => by rw [hf]; rfl, by rw [hf]; rfl, by rw [hf]; rfl,
      regsKept_trans hinc (regsKept_mono (detectedCounted_regs p off l s) (afterDetRegs_subset p))⟩
  rw [hd]
  exact hcount.trans (.raise p _ _ _ _)

/-- A detected line that is reported is counted once in its memory, and raises its event. -/
theorem counted_reportDetected {l p off : Nat} (h : mpaWindow l = some (p, off)) (reader step : Nat) (s : State) :
    Counted s (reportDetected l reader step s) .evtRaised ∧
      Counted s (reportDetected l reader step s) (detReg p).name (detReg p).i := by
  obtain ⟨d, hd⟩ := reportDetected_eq h reader step s
  obtain ⟨hapart, hlow⟩ := detReg_apart (mpaWindow_lt h)
  have hj : (⟨(detReg p).name, (detReg p).i, 0⟩ : Reg) = detReg p := by rw [← detReg_j p]
  rw [hd]
  constructor
  · have hev : (detectedCounted p off l s).rg .evtRaised = s.rg .evtRaised := by
      have hhigh : 0x800000 ≤ Reg.offset ⟨.evtRaised, 0, 0⟩ := by decide
      have hkept := rg_regsKept (detectedCounted_regs p off l s) .evtRaised 0 0 fun hm =>
        Nat.not_lt.2 hhigh (afterDetRegs_low (mpaWindow_lt h) hm)
      exact hkept.trans (rg_setRg_other _ _ _ _ _ _ _ _ (by rw [hj]; omega))
    rw [Safety.Counted, ← hev]
    exact counted_raiseEvent _ _ _ _
  · have h1 : (raiseEvent .memDetected p d (detectedCounted p off l s)).rg (detReg p).name (detReg p).i =
        (detectedCounted p off l s).rg (detReg p).name (detReg p).i := by
      refine rg_regsKept (raiseEvent_regs _ _ _ _) _ _ _ fun hm => ?_
      rw [hj] at hm
      have := offset_eventRegs hm
      omega
    have h2 := rg_regsKept (detectedCounted_regs p off l s) (detReg p).name (detReg p).i 0 (by rw [hj]; exact hapart)
    rw [Safety.Counted, h1, h2]
    exact rg_inc _ _ _ _ _

/-! ## Corrected lines (R186, R192) -/

/-- A corrected line counted in its memory's counter. -/
def correctedCounted (p : Nat) (s : State) : State := s.inc (corrReg p).name 1 (corrReg p).i

theorem scrubWork_reportCorrected (p l : Nat) (s : State) : ScrubWork p s (reportCorrected p l s) := by
  unfold reportCorrected
  refine .ite (.trans ?_ (.raise _ _ _ _ _)) ?_
  · exact .setDev rfl
  · exact .setDev rfl

/-- Where no threshold is set, a correction is counted in its pseudo-channel's window and retires nothing. -/
theorem scrubWork_countPcCorr {k pc : Nat} (hpc : pc < 32) {s : State} (ht : s.rgBits .memRetireThr 0 16 = 0) :
    ScrubWork k s (countPcCorr k pc s) := by
  have hq {q : Nat} (h : q < 32) : ⟨.memPcCorr, k, q⟩ ∈ scrubRegs k := by simp [scrubRegs, h]
  have hwin : ScrubWork k s (each (List.range 32) (fun q s => s.setRg .memPcCorr 0 k q) s) :=
    List.foldlRecOn _ _ (.refl k s) fun v hv q h => hv.trans (.setRg (hq (List.mem_range.1 h)) _ _)
  unfold countPcCorr
  extract_lets w s1 s2 thr
  have h1 : ScrubWork k s s1 := .ite (.refl k s) (hwin.trans (.setDev rfl))
  have h2 : ScrubWork k s s2 := h1.trans (.setRg (hq hpc) _ _)
  have hthr : thr = 0 := h2.thr.trans ht
  rw [hthr]
  exact h2

theorem thr_correctedCounted {p : Nat} (hp : p < 28) (s : State) :
    (correctedCounted p s).rgBits .memRetireThr 0 16 = s.rgBits .memRetireThr 0 16 := by
  have hoff : Reg.offset ⟨.memRetireThr, 0, 0⟩ ≠ (corrReg p).offset := by
    have := (corrReg_offset hp).1
    have hthr : Reg.offset ⟨.memRetireThr, 0, 0⟩ = 0x20000c := by decide
    omega
  have hj : (⟨(corrReg p).name, (corrReg p).i, 0⟩ : Reg) = corrReg p := by rw [← corrReg_j p]
  rw [State.rgBits, correctedCounted, State.inc, rg_setRg_other _ _ _ _ _ _ _ _ (by rw [hj]; exact hoff)]
  rfl

theorem scrubWork_countCorrected {l p off : Nat} (h : mpaWindow l = some (p, off)) {s : State} (ht : s.rgBits .memRetireThr 0 16 = 0) :
    ScrubWork p (correctedCounted p s) (countCorrected l s) := by
  unfold countCorrected
  split
  · next q o hw =>
    obtain ⟨rfl, rfl⟩ : p = q ∧ off = o := Prod.mk.inj (Option.some.inj (h.symm.trans hw))
    extract_lets s1 s2 s3
    have h1 : s1 = correctedCounted p s := by
      unfold s1 correctedCounted corrReg
      split <;> rfl
    have h2 : ScrubWork p s1 s2 := .ite (by
      split
      · next e he => exact .setRg (by simp [scrubRegs, rangeAt_lt he]) _ _
      · exact .refl p s1) (.refl p s1)
    have h3 : ScrubWork p s1 s3 := h2.trans (scrubWork_reportCorrected p l s2)
    have hthr : s3.rgBits .memRetireThr 0 16 = 0 := by rw [h3.thr, h1, thr_correctedCounted (mpaWindow_lt h), ht]
    rw [← h1]
    split
    · next hp => exact h3.trans (scrubWork_countPcCorr (channel_lt hp) hthr)
    · exact h3
  · next hn => exact absurd (h.symm.trans hn) (Option.some_ne_none _)

end Sys2Proof.Laws
end


section
/-! The statement about re-sowing and the patrol scrub (R188, R193, R194, R196). -/

namespace Sys2Proof.Laws

set_option Elab.async false

open Sys2Proof Sys2Proof.Machine Sys2Proof.Safety

/-! ## The start of re-sowing (R194) -/

section
variable {s : State} {k : Nat}

theorem exec_resowGo (h : HostWrite s) : exec (.resowGo k) s = .next (resowGoOp k (dropSplit s)) :=
  congrArg Host.Outcome.next (barWrite_taken _ _ s h)

theorem resowGoOp_reaches (ha : s.alive = true) (hk : k < 12) (hr : s.reachesTop k = true) :
    resowGoOp k s = s.flag .memStkStatus 12 k := by simp [resowGoOp, ha, isStack_iff.2 hk, hr]

theorem resowGoOp_starts (ha : s.alive = true) (hk : k < 12) (hr : s.reachesTop k = false) (hw : (s.dev k).resow = .awaiting) :
    resowGoOp k s = s.updDev k (fun d => { d with resow := .running, wmark := 97517568 }) := by
  simp [resowGoOp, ha, isStack_iff.2 hk, hr, hw, resowGranules]

theorem resowGoOp_idle (ha : s.alive = true) (hk : k < 12) (hr : s.reachesTop k = false) (hw : (s.dev k).resow ≠ .awaiting) :
    resowGoOp k s = s := by simp [resowGoOp, ha, isStack_iff.2 hk, hr, hw]

/-! ## A move (R196) -/

theorem resowMoveOp_last (ha : s.alive = true) (hk : k < 12) (hr : (s.dev k).resow = .running) (hs : (s.dev k).serves = true)
    (hw : (s.dev k).wmark ≤ 1024) : resowMoveOp k s =
      (moveLost k (List.range (s.dev k).wmark) s).updDev k (fun d => { d with wmark := 0, resow := .complete }) := by
  simp [resowMoveOp, ha, isStack_iff.2 hk, hr, hs, hw]

theorem resowMoveOp_one (ha : s.alive = true) (hk : k < 12) (hr : (s.dev k).resow = .running) (hs : (s.dev k).serves = true)
    (hw : ¬ (s.dev k).wmark ≤ 1024) : resowMoveOp k s =
      (moveLost k [(s.dev k).wmark - 1] s).updDev k (fun d => { d with wmark := d.wmark - 1 }) := by
  simp [resowMoveOp, ha, isStack_iff.2 hk, hr, hs, hw]

end

theorem exec_resowMove (k : Nat) (s : State) : exec (.resowMove k) s = .next (resowMoveOp k s) := rfl

/-! ## The patrol scrub (R188) -/

/-- A memory's scrub position moved to a line. -/
def scrubbedAt (p l : Nat) (s : State) : State := s.updDev p (fun d => { d with scrubPos := l })

/-- What the scrubber does with a line that it may read. -/
theorem exec_patrolScrub {s : State} {p line : Nat} (found : List Finding) (ha : s.alive = true) (hon : s.rgBits .memScrubCfg 0 8 ≠ 0)
    (hw : (mpaWindow (line / 64 * 64)).map (·.1) = some p) (hs : (s.dev p).serves = true) (hh : s.isHole (line / 64 * 64) = false)
    (hc : s.mpaClass (line / 64 * 64) = 2) :
    exec (.patrolScrub p line found) s = .next (checkFault (meetLines (line / 64 * 64) 64 2 s.oldestStep
      (scrubbedAt p (line / 64 * 64) (each found reportFinding s)))) := by
  refine congrArg Host.Outcome.next (if_pos ?_)
  simp only [ha, hw, hs, hh, hc, decide_eq_true hon, decide_true, Bool.not_false, Bool.and_self]

theorem linesOf_line {l : Nat} (h : l % 64 = 0) : linesOf l 64 = [l] := by
  have h1 : (l % 64 + 64 + 63) / 64 = 1 := by omega
  rw [linesOf, h1]
  simp only [upFrom, List.map_cons, List.map_nil, List.cons.injEq, and_true]
  omega

/-- Meeting one line is meeting its device errors, and then reporting it where it is detected. -/
theorem meetLines_line {l : Nat} (h : l % 64 = 0) (reader step : Nat) (s : State) :
    meetLines l 64 reader step s =
      let u := each ((s.memory.errs.map (·.1)).filter (fun m => l < m + 64 && m < l + 64)) meetErrors s
      if u.lineDetected l then reportDetected l reader step u else u := by
  unfold meetLines
  simp only [linesOf_line h]
  generalize each _ meetErrors s = u
  cases hd : u.lineDetected l <;> simp [hd]

theorem lineDetected_scrubbedAt (p l : Nat) (s : State) (a : Nat) : (scrubbedAt p l s).lineDetected a = s.lineDetected a := by
  have hpc : (scrubbedAt p l s).onFailedPc a = s.onFailedPc a := onFailedPc_congr (fun q => by
    rw [scrubbedAt, dev_updDev]
    split
    · next h => rw [h]; rfl
    · rfl) a
  simp only [State.lineDetected, hpc]
  rfl

/-- The scrubber's work on a line of a memory without device errors. -/
theorem scrub_clean {s : State} {p off l : Nat} (step : Nat) (hl : l % 64 = 0) (hw : mpaWindow l = some (p, off))
    (he : s.memory.errs = []) :
    let u := meetLines l 64 2 step (scrubbedAt p l s)
    ScrubWork p (scrubbedAt p l s) u ∧
      (s.lineDetected l = true → Counted s u .evtRaised ∧ Counted s u (detReg p).name (detReg p).i) ∧
      (s.lineDetected l = false → u.regs = s.regs) := by
  intro u
  have he' : (scrubbedAt p l s).memory.errs = [] := he
  have hu : u = if s.lineDetected l then reportDetected l 2 step (scrubbedAt p l s) else scrubbedAt p l s := by
    have h := meetLines_line hl 2 step (scrubbedAt p l s)
    simpa only [he', List.map_nil, List.filter_nil, each_nil, lineDetected_scrubbedAt] using h
  cases hd : s.lineDetected l with
  | true =>
    rw [hd, if_pos rfl] at hu
    rw [hu]
    exact ⟨scrubWork_reportDetected hw 2 step _, fun _ => counted_reportDetected hw 2 step _, fun h => absurd h.symm Bool.false_ne_true⟩
  | false =>
    rw [hd, if_neg Bool.false_ne_true] at hu
    rw [hu]
    exact ⟨.refl p _, fun h => absurd h Bool.false_ne_true, fun _ => rfl⟩

/-- A line in which the devices hold one symbol that was not written. -/
def oneError (l k : Nat) (d : BitVec 16) (s : State) : State := { s with memory := { s.memory with errs := [(l, [(k, d)])] } }

theorem reportFinding_oneError {s : State} {l k : Nat} {d : BitVec 16} (hl : l % 64 = 0) (hc : s.mpaClass l = 2) (hk : k < 34) (hd : d ≠ 0)
    (he : s.memory.errs = []) : reportFinding (.errors l [(k, d)]) s = oneError l k d s := by
  have hline : l / 64 * 64 = l := by omega
  have hd' : d ≠ 0#16 := hd
  simp [reportFinding, hline, hc, lineSymbols, hk, he, oneError, addSymbols, addSymbol, sput, sinsert, hd']

/-- The decoder of class W corrects an error in one symbol (R182). -/
theorem meetErrors_oneError {s : State} {p l k : Nat} {d : BitVec 16} (hc : s.mpaClass l = 2) (he : s.memory.errs = []) :
    meetErrors l (scrubbedAt p l (oneError l k d s)) = countCorrected l (scrubbedAt p l s) := by
  have hmet : errorsMet l (scrubbedAt p l (oneError l k d s)) = scrubbedAt p l s := by
    have herrs : serase [(l, [(k, d)])] l = s.memory.errs := by simp [serase, he]
    unfold errorsMet scrubbedAt oneError
    simp only [State.updDev, State.setDev, State.dev, herrs]
  have hes : sget [] (scrubbedAt p l (oneError l k d s)).memory.errs l = [(k, d)] := by
    simp [scrubbedAt, oneError, State.updDev, State.setDev, sget, sfind]
  have hcls : (scrubbedAt p l s).mpaClass l = 2 := hc
  rw [meetErrors_eq, hmet, hes, hcls]
  rfl

/-- The scrubber's work on a line with an error in one symbol: the correction is counted, and what is detected reported. -/
theorem scrub_oneError {s : State} {p off l k : Nat} {d : BitVec 16} (step : Nat) (hl : l % 64 = 0) (hw : mpaWindow l = some (p, off))
    (hc : s.mpaClass l = 2) (he : s.memory.errs = []) (ht : s.rgBits .memRetireThr 0 16 = 0) :
    ScrubWork p (correctedCounted p (scrubbedAt p l s)) (meetLines l 64 2 step (scrubbedAt p l (oneError l k d s))) := by
  have hlist : ((scrubbedAt p l (oneError l k d s)).memory.errs.map (·.1)).filter (fun m => l < m + 64 && m < l + 64) = [l] := by
    simp [scrubbedAt, oneError, State.updDev, State.setDev]
  rw [meetLines_line hl, hlist, each_cons, each_nil, meetErrors_oneError hc he]
  have hcorr : ScrubWork p (correctedCounted p (scrubbedAt p l s)) (countCorrected l (scrubbedAt p l s)) :=
    scrubWork_countCorrected hw ht
  exact .ite (hcorr.trans (scrubWork_reportDetected hw 2 step _)) hcorr

/-- Work at one memory's controller after its scrub position has moved. -/
theorem ScrubWork.scrubbed {s v u : State} {p l : Nat} (h : ScrubWork p v u) (hd : v.memory = (scrubbedAt p l s).memory)
    (hf : DevFrame s v) : (u.dev p).scrubPos = l ∧ DevsKept s u p ∧ DevFrame s u := by
  have hdev (j : Nat) : v.dev j = (scrubbedAt p l s).dev j := dev_of_memory hd j
  refine ⟨?_, fun j hj => ?_, devFrame_trans hf h.frame⟩
  · rw [h.pos, hdev, scrubbedAt, dev_updDev_same]
  · rw [h.devs j hj, hdev]
    exact devsKept_updDev s p _ j hj

/-! ## The statement -/

/-- Settles O34: the walk's lines are lost or kept one by one, and the scrubber counts what its one line gives. -/
theorem resowingMovesTheGranules : Obligations.ResowingMovesTheGranules := by
  refine ⟨?go, ?move, ?scrub⟩
  case go =>
    intro s k hs hk v
    refine ⟨_, exec_resowGo hs, fun hr => ?_, fun hr hw => ?_, fun hr hw => ?_⟩
    · rw [resowGoOp_reaches (alive_dropSplit hs) hk hr]
      exact ⟨rgBit_flag _ _ _ _ _ (by decide), regsKept_setRg _ _ _ _ _, setRg_frame _ _ _ _ _⟩
    · have hd : v.dev k = s.dev k := dev_dropSplit s k
      rw [resowGoOp_starts (alive_dropSplit hs) hk hr (by rw [dev_dropSplit]; exact hw), ← hd]
      exact updDev_alone v k _
    · exact resowGoOp_idle (alive_dropSplit hs) hk hr (by rw [dev_dropSplit]; exact hw)
  case move =>
    intro s k ha hk hr hs moved
    refine ⟨_, exec_resowMove k s, ?_⟩
    by_cases hm : (s.dev k).wmark ≤ 1024
    · rw [resowMoveOp_last ha hk hr hs hm]
      simp only [moved, if_pos hm]
      exact granulesMoved k _ _ s
    · rw [resowMoveOp_one ha hk hr hs hm]
      simp only [moved, if_neg hm]
      exact granulesMoved k _ _ s
  case scrub =>
    intro s p line ha hon l hw hs hh hc he
    obtain ⟨⟨q, off⟩, hwin, rfl⟩ := Option.map_eq_some_iff.1 hw
    have hl : l % 64 = 0 := Nat.mul_mod_left _ _
    have hmoved : DevFrame s (scrubbedAt q l s) := (DevOnly.updDev s q _).devFrame
    refine ⟨⟨_, exec_patrolScrub [] ha hon hw hs hh hc, ?_⟩, fun k d hk hd ht => ⟨_, exec_patrolScrub _ ha hon hw hs hh hc, ?_⟩⟩
    · obtain ⟨hwork, hdet, hclean⟩ := scrub_clean s.oldestStep hl hwin he
      obtain ⟨hpos, hdevs, hframe⟩ := hwork.scrubbed (s := s) rfl hmoved
      rw [each_nil, checkFault_noFault _ ((congrArg _ (devFrame_stw hframe)).trans (fault_none_of_alive ha))]
      exact ⟨hpos, hdevs, hframe, fun h => ⟨(hdet h).1, counted_detReg (hdet h).2⟩, hclean⟩
    · have hwork := scrub_oneError (k := k) (d := d) s.oldestStep hl hwin hc he ht
      have hcount := rg_regsKept hwork.regs (corrReg q).name (corrReg q).i 0
        (by rw [show (⟨(corrReg q).name, (corrReg q).i, 0⟩ : Reg) = corrReg q from by rw [← corrReg_j q]]
            exact corrReg_apart (mpaWindow_lt hwin))
      obtain ⟨hpos, hdevs, hframe⟩ := hwork.scrubbed (s := s) rfl (devFrame_trans hmoved rfl)
      rw [each_cons, each_nil, reportFinding_oneError hl hc hk hd he,
        checkFault_noFault _ ((congrArg _ (devFrame_stw hframe)).trans (fault_none_of_alive ha))]
      have hcorr : Safety.Counted s _ (corrReg q).name (corrReg q).i := hcount.trans (rg_inc (scrubbedAt q l s) _ _ _ _)
      exact ⟨hpos, counted_corrReg hcorr, hdevs, hframe⟩

end Sys2Proof.Laws
end


section
/-! SUPPORT. The temperature levels of a stack: what entering and leaving each changes, and what a reading leads to (R199, R200, R244,
R277). -/

namespace Sys2Proof.Laws

set_option Elab.async false

open Sys2Proof Sys2Proof.Machine Sys2Proof.Safety

/-! ## The HOLDOFF beacon (R277) -/

/-- A port with one more packet in its queue. -/
def withPacket (o : OutPacket) (p : Port) : Port := { p with txq := p.txq ++ [o] }

/-- A port's packets of a collective chunk stay those that they are when another packet joins its queue (R258). -/
theorem collSending_withPacket (p : Port) {o : OutPacket} (ho : o.type ≠ 0x10) : (withPacket o p).collSending = p.collSending := by
  have hb : (o.type == 0x10) = false := beq_eq_false_iff_ne.2 ho
  have hq : (withPacket o p).txq.any (fun x => x.type == 0x10) = p.txq.any (fun x => x.type == 0x10) := by
    simp [withPacket, hb]
  unfold Port.collSending
  rw [hq]
  rfl

theorem withPacket_ne_init (o : OutPacket) (p : Port) : withPacket o p ≠ Port.init := fun h =>
  List.append_ne_nil_of_right_ne_nil p.txq (List.cons_ne_nil o []) (congrArg Port.txq h)

/-- A list of ports with a port set that sends as before sends as before. -/
theorem any_collSending_sinsert (m : List (Nat × Port)) (q : Nat) {v : Port} (h : v.collSending = (sget Port.init m q).collSending) :
    (sinsert q v m).any (fun e => e.2.collSending) = m.any (fun e => e.2.collSending) := by
  induction m with
  | nil =>
    have hv : v.collSending = false := h
    simp [sinsert, hv]
  | cons e m ih =>
    obtain ⟨j, w⟩ := e
    have hlisted (hs : (sget Port.init ((j, w) :: m) q).collSending = true) :
        ((j, w) :: m).any (fun e => e.2.collSending) = true :=
      collSending_of_port (s := { State.reset with fab := { Fabric.init with ports := (j, w) :: m } }) hs
    unfold sinsert
    split
    · rw [List.any_cons, h]
      cases hs : (sget Port.init ((j, w) :: m) q).collSending with
      | true => rw [hlisted hs]; rfl
      | false => rfl
    · split
      · next hj =>
        have hw : sget Port.init ((j, w) :: m) q = w := by simp [sget, sfind, hj]
        rw [List.any_cons, List.any_cons, h, hw]
      · next hj =>
        have hrest : sget Port.init ((j, w) :: m) q = sget Port.init m q := by simp [sget, sfind, hj]
        rw [List.any_cons, List.any_cons, ih (by rw [h, hrest])]

/-- A packet that is no part of a collective chunk joins a port's queue, and the chunk's packets are those that they were. -/
theorem collSending_enqueue (port : Nat) {o : OutPacket} (ho : o.type ≠ 0x10) (s : State) :
    (enqueue port [o] s).collSending = s.collSending := by
  have hput : (enqueue port [o] s).fab.ports = sinsert port (withPacket o (s.port port)) s.fab.ports :=
    if_neg (withPacket_ne_init o _)
  rw [State.collSending, hput]
  exact any_collSending_sinsert s.fab.ports port (collSending_withPacket (s.port port) ho)

/-- What a beacon leaves: its packet on a port, and a transfer number taken. -/
structure Beaconed (s u : State) : Prop where
  frame : u = { s with fab := { s.fab with ports := u.fab.ports, nextXid := u.fab.nextXid } }
  sending : u.collSending = s.collSending

theorem Beaconed.refl (s : State) : Beaconed s s := ⟨rfl, rfl⟩

theorem Beaconed.trans {s u v : State} (h : Beaconed s u) (k : Beaconed u v) : Beaconed s v where
  frame := by rw [k.frame, h.frame]
  sending := k.sending.trans h.sending

theorem beaconed_sendMessage (node : Nat) (x : Piece) (s : State) : Beaconed s (sendMessage 0x32 node x s) := by
  have h : ∃ port o xid, o.type = 0x32 ∧
      sendMessage 0x32 node x s = enqueue port [o] { s with fab := { s.fab with nextXid := xid } } := by
    unfold sendMessage sendPacket sendPacketOf
    refine ⟨_, _, _, ?_, rfl⟩
    exact type_bytes _ (show 0x32 < 256 by decide)
  obtain ⟨port, o, xid, ho, hm⟩ := h
  rw [hm]
  exact ⟨rfl, collSending_enqueue port (by rw [ho]; decide) _⟩

theorem beaconed_sendHoldoff (k delay episode : Nat) (s : State) : Beaconed s (sendHoldoff k delay episode s) :=
  each_keeps (Beaconed s) _ _ s (.refl s) fun n u hu => hu.trans (beaconed_sendMessage n _ u)

/-! ## What a change of level leaves -/

/-- A change of a stack's level that is no module fault: it leaves the other memories, the bytes, the Steward and the end of a
critical stack as they are, and of the stack its state and temperature. -/
structure CalmLevel (k : Nat) (s u : State) : Prop where
  cyc : u.cyc = s.cyc
  devs : DevsKept s u k
  st : (u.dev k).st = (s.dev k).st
  temp : (u.dev k).temp = (s.dev k).temp
  stw : u.stw = s.stw
  mem : u.memory.mem = s.memory.mem
  ending : u.coll.ending = s.coll.ending
  sending : u.collSending = s.collSending

theorem CalmLevel.refl (k : Nat) (s : State) : CalmLevel k s s := ⟨rfl, fun _ _ => rfl, rfl, rfl, rfl, rfl, rfl, rfl⟩

theorem CalmLevel.trans {k : Nat} {s u v : State} (h : CalmLevel k s u) (j : CalmLevel k u v) : CalmLevel k s v where
  cyc := j.cyc.trans h.cyc
  devs := devsKept_trans h.devs j.devs
  st := j.st.trans h.st
  temp := j.temp.trans h.temp
  stw := j.stw.trans h.stw
  mem := j.mem.trans h.mem
  ending := j.ending.trans h.ending
  sending := j.sending.trans h.sending

/-- Records, registers and events change, of the stack neither its state nor its temperature. -/
theorem CalmLevel.of_devFrame {k : Nat} {s u : State} (hf : DevFrame s u) (hd : DevsKept s u k) (hst : (u.dev k).st = (s.dev k).st)
    (ht : (u.dev k).temp = (s.dev k).temp) : CalmLevel k s u where
  cyc := by rw [hf]
  devs := hd
  st := hst
  temp := ht
  stw := by rw [hf]
  mem := by rw [hf]
  ending := by rw [hf]
  sending := by rw [hf]; rfl

/-- A stack's record changed and an event raised: the steps by which a stack warms and cools. -/
theorem levelEvent_updDev (code : EventCode) (k dir : Nat) (f : Device → Device) (s : State) :
    let u := levelEvent code k dir (s.updDev k f)
    u.dev k = f (s.dev k) ∧ DevsKept s u k ∧ DevFrame s u ∧ Safety.Counted s u .evtRaised := by
  intro u
  refine ⟨?_, devsKept_trans (devsKept_updDev s k f) (devsKept_raiseEvent _ _ _ _ k),
    devFrame_trans (DevOnly.updDev s k f).devFrame (devFrame_raiseEvent _ _ _ _), counted_raiseEvent _ _ _ (s.updDev k f)⟩
  exact (dev_raiseEvent _ _ _ _ k).trans (dev_updDev_same s k f)

/-! ## Warming and cooling (R199) -/

/-- A stack's record at the warm level. -/
def warmDevice (d : Device) : Device := { d with level := .warm }

/-- A stack's record at the warm level after the hot one: its delay has ended. -/
def cooledDevice (d : Device) : Device := { d with level := .warm, holdoff := 0 }

/-- A stack's record at the normal level. -/
def normalDevice (d : Device) : Device := { d with level := .normal }

/-- A stack enters the warm level from below. -/
def toWarm (k : Nat) (s : State) : State := levelEvent .stackWarm k 0 (s.updDev k warmDevice)

/-- A hot stack cools to the warm level. -/
def hotToWarm (k : Nat) (s : State) : State := levelEvent .stackHot k 1 ((settleRemote k s).updDev k cooledDevice)

/-- A warm stack cools to the normal level. -/
def warmToNormal (k : Nat) (s : State) : State := levelEvent .stackWarm k 1 (s.updDev k normalDevice)

theorem calm_levelEvent (f : Device → Device) (hst : ∀ d, (f d).st = d.st) (ht : ∀ d, (f d).temp = d.temp) (code : EventCode)
    (k dir : Nat) (s : State) : CalmLevel k s (levelEvent code k dir (s.updDev k f)) := by
  obtain ⟨hd, hk, hf, -⟩ := levelEvent_updDev code k dir f s
  exact .of_devFrame hf hk (by rw [hd, hst]) (by rw [hd, ht])

theorem toWarm_work (k : Nat) (s : State) : CalmLevel k s (toWarm k s) ∧ ((toWarm k s).dev k).level = .warm := by
  exact ⟨calm_levelEvent warmDevice (fun _ => rfl) (fun _ => rfl) _ k _ s, congrArg Device.level (levelEvent_updDev _ k _ warmDevice s).1⟩

theorem warmToNormal_work (k : Nat) (s : State) :
    CalmLevel k s (warmToNormal k s) ∧ ((warmToNormal k s).dev k).level = .normal := by
  exact ⟨calm_levelEvent normalDevice (fun _ => rfl) (fun _ => rfl) _ k _ s, congrArg Device.level (levelEvent_updDev _ k _ normalDevice s).1⟩

theorem calm_settleRemote (k : Nat) (s : State) : CalmLevel k s (settleRemote k s) :=
  .of_devFrame (DevOnly.updDev s k _).devFrame (devsKept_updDev s k _) (by rw [settleRemote, dev_updDev_same])
    (by rw [settleRemote, dev_updDev_same])

theorem hotToWarm_work (k : Nat) (s : State) :
    CalmLevel k s (hotToWarm k s) ∧ ((hotToWarm k s).dev k).level = .warm ∧ ((hotToWarm k s).dev k).holdoff = 0 ∧
      DevFrame s (hotToWarm k s) ∧ Safety.Counted s (hotToWarm k s) .evtRaised := by
  obtain ⟨hd, -, hf, hc⟩ := levelEvent_updDev .stackHot k 1 cooledDevice (settleRemote k s)
  exact ⟨(calm_settleRemote k s).trans (calm_levelEvent cooledDevice (fun _ => rfl) (fun _ => rfl) _ k _ _),
    congrArg Device.level hd, congrArg Device.holdoff hd, devFrame_trans (DevOnly.updDev s k _).devFrame hf, hc⟩

/-! ## The hot level (R199, R200, R277) -/

/-- A delay's increase added to the promises and deadlines that it extends (R17, R200). -/
def delayGranted (k inc : Nat) (s : State) : State :=
  extendGroups (fun _ => true) inc (extendPasses (fun p => p.demand.any (fun e => e.p == k) && !s.admittedHot k p) inc s)

theorem delayGranted_keeps (k inc : Nat) (s : State) :
    (delayGranted k inc s).cyc = s.cyc ∧ (delayGranted k inc s).stw = s.stw ∧ (delayGranted k inc s).memory = s.memory ∧
      (delayGranted k inc s).fab = s.fab ∧ (delayGranted k inc s).coll.ending = s.coll.ending := by
  have h (f : Pass → Bool) : extendPasses f inc s = { s with host := (extendPasses f inc s).host } :=
    each_keeps (fun u : State => u = { s with host := u.host }) _ _ s rfl fun p u hu => by rw [hu]; rfl
  unfold delayGranted extendGroups
  rw [h]
  exact ⟨rfl, rfl, rfl, rfl, rfl⟩

/-- A stack's record with its delay stated. -/
def delayedDevice (d : Nat) (x : Device) : Device := { x with holdoff := d }

/-- A delay granted and stated by its event, before the beacon. -/
def delayRaised (k d inc : Nat) (x : BitVec 128) (s : State) : State :=
  raiseEvent .stackHot k x ((delayGranted k inc s).updDev k (delayedDevice d))

theorem stateDelay_eq (k d : Nat) (s : State) :
    ∃ inc e x, stateDelay k d s = sendHoldoff k d e (delayRaised k d inc x s) := ⟨_, _, _, rfl⟩

theorem delayRaised_keeps (k d inc : Nat) (x : BitVec 128) (s : State) :
    (delayRaised k d inc x s).cyc = s.cyc ∧ (delayRaised k d inc x s).stw = s.stw ∧
      (delayRaised k d inc x s).memory = (s.updDev k (delayedDevice d)).memory ∧ (delayRaised k d inc x s).fab = s.fab ∧
      (delayRaised k d inc x s).coll.ending = s.coll.ending := by
  obtain ⟨hc, hw, hm, hf, he⟩ := delayGranted_keeps k inc s
  unfold delayRaised
  rw [raiseEvent_frame]
  refine ⟨hc, hw, ?_, hf, he⟩
  simp only [State.updDev, State.setDev, State.dev, hm]

/-- Stating a delay changes the stack's record and what depends on the delay: it is stated by event and beacon. -/
theorem stateDelay_work (k d : Nat) (s : State) :
    CalmLevel k s (stateDelay k d s) ∧ (stateDelay k d s).dev k = delayedDevice d (s.dev k) ∧
      (stateDelay k d s).fab.episode = s.fab.episode := by
  obtain ⟨inc, e, x, hu⟩ := stateDelay_eq k d s
  obtain ⟨hc, hw, hm, hf, he⟩ := delayRaised_keeps k d inc x s
  have hb := beaconed_sendHoldoff k d e (delayRaised k d inc x s)
  rw [← hu] at hb
  generalize delayRaised k d inc x s = w at *
  have hmem : (stateDelay k d s).memory = (s.updDev k (delayedDevice d)).memory := by rw [hb.frame, ← hm]
  have hdev : (stateDelay k d s).dev k = delayedDevice d (s.dev k) :=
    (dev_of_memory hmem k).trans (dev_updDev_same s k (delayedDevice d))
  refine ⟨⟨?_, fun j hj => ?_, by rw [hdev]; rfl, by rw [hdev]; rfl, ?_, ?_, ?_, ?_⟩, hdev, ?_⟩
  · rw [hb.frame, ← hc]
  · rw [dev_of_memory hmem]
    exact devsKept_updDev s k _ j hj
  · rw [hb.frame, ← hw]
  · rw [hmem]
    rfl
  · rw [hb.frame, ← he]
  · rw [hb.sending, State.collSending, hf]
    rfl
  · rw [hb.frame, ← hf]

/-- A stack's record at the hot level, its delay not yet stated. -/
def hotDevice (aon episode cyc : Nat) (d : Device) : Device :=
  { d with level := .hot, hotAt := aon, episode := episode, holdoff := 0, hotTok := { used := 0, since := cyc } }

/-- A new episode begun and the stack's remote accesses settled (R277). -/
def episodeBegun (k : Nat) (s : State) : State :=
  settleRemote k { s with fab := { s.fab with episode := (s.fab.episode + 1) % 256 } }

/-- A stack that has become hot, its delay not yet stated. -/
def hotEntered (k : Nat) (s : State) : State :=
  (episodeBegun k s).updDev k (hotDevice s.aon ((s.fab.episode + 1) % 256) s.cyc)

theorem hotEntered_dev (k : Nat) (s : State) :
    (hotEntered k s).dev k = hotDevice s.aon ((s.fab.episode + 1) % 256) s.cyc ((episodeBegun k s).dev k) :=
  dev_updDev_same _ k _

theorem enterHot_eq (k : Nat) (s : State) : enterHot k s = stateDelay k (s.hotDelay k) (hotEntered k s) := rfl

theorem calm_hotEntered (k : Nat) (s : State) : CalmLevel k s (hotEntered k s) := by
  have hb : (episodeBegun k s).dev k = _ :=
    dev_updDev_same { s with fab := { s.fab with episode := (s.fab.episode + 1) % 256 } } k _
  refine ⟨rfl, fun j hj => ?_, ?_, ?_, rfl, rfl, rfl, rfl⟩
  · exact (devsKept_updDev _ k _ j hj).trans (devsKept_updDev { s with fab := { s.fab with episode := (s.fab.episode + 1) % 256 } } k _ j hj)
  · rw [hotEntered_dev, hb]
    rfl
  · rw [hotEntered_dev, hb]
    rfl

/-- Entering the hot level starts a new episode and states the delay. -/
theorem enterHot_work (k : Nat) (s : State) :
    CalmLevel k s (enterHot k s) ∧ ((enterHot k s).dev k).level = .hot ∧ ((enterHot k s).dev k).holdoff = s.hotDelay k ∧
      ((enterHot k s).dev k).episode = (s.fab.episode + 1) % 256 ∧ ((enterHot k s).dev k).hotAt = s.aon ∧
      (enterHot k s).fab.episode = (s.fab.episode + 1) % 256 := by
  obtain ⟨hc, hd, he⟩ := stateDelay_work k (s.hotDelay k) (hotEntered k s)
  rw [hotEntered_dev] at hd
  rw [enterHot_eq]
  exact ⟨(calm_hotEntered k s).trans hc, congrArg Device.level hd, congrArg Device.holdoff hd, congrArg Device.episode hd,
    congrArg Device.hotAt hd, he⟩

/-- The delay of a stack that is not hot depends on the passes and its retirement (R200). -/
theorem hotDelay_congr {s u : State} {k : Nat} (hp : u.passes = s.passes) (hr : (u.dev k).retired = (s.dev k).retired)
    (hs : (s.dev k).level ≠ .hot) (hu : (u.dev k).level ≠ .hot) : u.hotDelay k = s.hotDelay k := by
  have ha (x : Pass) : u.admittedHot k x = s.admittedHot k x := by simp [State.admittedHot, hs, hu]
  simp only [State.hotDelay, State.outstanding, State.bytesPerUs, hp, hr, ha]

/-! ## The critical level (R199, R244, R383) -/

/-- A stack's record at the critical level: a ready one in self-refresh. -/
def criticalDevice (d : Device) : Device := { d with level := .critical, st := if d.st = .ready then .selfRefresh else d.st }

/-- A stack at the critical level, with its event. -/
def toCritical (k : Nat) (s : State) : State := levelEvent .stackCritical k 0 (s.updDev k criticalDevice)

/-- A stack that has become critical and is to end the module's work, before the module fault. -/
def criticalEntered (k : Nat) (s : State) : State :=
  let u := toCritical k s
  { u with coll := { u.coll with ending := u.coll.ending <|> some k } }

theorem enterCritical_eq (k : Nat) (s : State) : enterCritical k s = finishCritical (criticalEntered k s) := rfl

theorem finishCritical_some {s : State} {k : Nat} (h : s.coll.ending = some k) : finishCritical s =
    if s.collSending then s else declareFault (.criticalStack k) { s with coll := { s.coll with ending := none } } := by
  simp [finishCritical, h]

/-- The fault of a critical stack leaves each memory as it was or at rest. -/
theorem finishCritical_dev {s : State} (h : s.stw.fault = none) (p : Nat) :
    (finishCritical s).dev p = s.dev p ∨ (finishCritical s).dev p = (s.dev p).resting := by
  rcases he : s.coll.ending with _ | k
  · left
    simp [finishCritical, he]
  · rw [finishCritical_some he]
    split
    · exact .inl rfl
    · exact (declareFault_first _ (s := { s with coll := { s.coll with ending := none } }) h).2.2 p

/-- Entering the critical level declares the module fault, at once when no packet of a chunk is still to be sent. -/
theorem enterCritical_work (k : Nat) {s : State} (hf : s.stw.fault = none) :
    let u := enterCritical k s
    (u.dev k).level = .critical ∧ (u.dev k).temp = (s.dev k).temp ∧ ((s.dev k).st = .ready → (u.dev k).st = .selfRefresh) ∧
      (s.coll.ending = none → s.collSending = false → u.stw.fault = some (.criticalStack k) ∧ u.stw.faultPin = true) ∧
      (s.coll.ending = none → s.collSending = true → u.stw.fault = none ∧ u.coll.ending = some k) := by
  intro u
  obtain ⟨hd, -, hframe, -⟩ := levelEvent_updDev .stackCritical k 0 criticalDevice s
  have hframe : DevFrame s (toCritical k s) := hframe
  have hdev : (criticalEntered k s).dev k = criticalDevice (s.dev k) := hd
  have hfault : (criticalEntered k s).stw.fault = none := (congrArg Steward.fault (devFrame_stw hframe)).trans hf
  have hsend : (criticalEntered k s).collSending = s.collSending := by
    have h : (toCritical k s).collSending = s.collSending := by rw [hframe]; rfl
    exact h
  have hend (h : s.coll.ending = none) : (criticalEntered k s).coll.ending = some k := by
    have hnone : (toCritical k s).coll.ending = none := by rw [hframe]; exact h
    simp only [criticalEntered, hnone]
    rfl
  have hu : u.dev k = criticalDevice (s.dev k) ∨ u.dev k = (criticalDevice (s.dev k)).resting := by
    rw [← hdev]
    exact finishCritical_dev hfault k
  refine ⟨?_, ?_, fun hst => ?_, fun he hs => ?_, fun he hs => ?_⟩
  · obtain hu | hu := hu <;> rw [hu] <;> rfl
  · obtain hu | hu := hu <;> rw [hu] <;> rfl
  · have hrest : (criticalDevice (s.dev k)).st = .selfRefresh := if_pos hst
    obtain hu | hu := hu <;> rw [hu]
    · exact hrest
    · simp [Device.resting, hrest]
  · have hfirst := declareFault_first (.criticalStack k)
      (s := { criticalEntered k s with coll := { (criticalEntered k s).coll with ending := none } }) hfault
    unfold u
    rw [enterCritical_eq, finishCritical_some (hend he), hsend, hs]
    exact ⟨hfirst.1, hfirst.2.1⟩
  · unfold u
    rw [enterCritical_eq, finishCritical_some (hend he), hsend, hs]
    exact ⟨hfault, hend he⟩

end Sys2Proof.Laws
end


section
/-! The statement about the temperature levels of a stack (R199, R200, R244, R277, R383). -/

namespace Sys2Proof.Laws

set_option Elab.async false

open Sys2Proof Sys2Proof.Machine Sys2Proof.Safety

/-! ## One level at a time -/

section
variable {s : State} {k : Nat}

theorem levelUp_normal (h : (s.dev k).level = .normal) (ht : 85 ≤ (s.dev k).temp) : levelUp k s = toWarm k s := by
  simp only [levelUp, h]
  exact if_pos ht

theorem levelUp_warm (h : (s.dev k).level = .warm) (ht : 95 ≤ (s.dev k).temp) : levelUp k s = enterHot k s := by
  simp only [levelUp, h]
  exact if_pos ht

theorem levelUp_hot (h : (s.dev k).level = .hot) (ht : 105 ≤ (s.dev k).temp) : levelUp k s = enterCritical k s := by
  simp only [levelUp, h]
  exact if_pos ht

theorem levelDown_hot (h : (s.dev k).level = .hot) (ht : (s.dev k).temp ≤ 92) : levelDown k s = hotToWarm k s := by
  simp only [levelDown, h]
  exact if_pos ht

theorem levelDown_warm (h : (s.dev k).level = .warm) (ht : (s.dev k).temp ≤ 82) : levelDown k s = warmToNormal k s := by
  simp only [levelDown, h]
  exact if_pos ht

/-- The temperature at which a stack leaves a level upwards (R199). -/
def upperLimit : Level → Option Nat
  | .normal => some 85
  | .warm => some 95
  | .hot => some 105
  | .critical => none

/-- The temperature at which a stack leaves a level downwards (R199). -/
def lowerLimit : Level → Option Nat
  | .warm => some 82
  | .hot => some 92
  | _ => none

theorem levelUp_stays (h : ∀ t, upperLimit (s.dev k).level = some t → (s.dev k).temp < t) : levelUp k s = s := by
  cases hl : (s.dev k).level <;> rw [hl] at h <;> simp only [levelUp, hl]
  all_goals exact if_neg (Nat.not_le.2 (h _ rfl))

theorem levelDown_stays (h : ∀ t, lowerLimit (s.dev k).level = some t → t < (s.dev k).temp) : levelDown k s = s := by
  cases hl : (s.dev k).level <;> rw [hl] at h <;> simp only [levelDown, hl]
  all_goals exact if_neg (Nat.not_le.2 (h _ rfl))

/-- A stack that changes level once and then stays went up once. -/
theorem iterate_stays {f : State → State} {u : State} (n : Nat) (hf : f s = u) (hu : f u = u) : f^[n + 1] s = u := by
  rw [Function.iterate_succ_apply, hf, Function.iterate_fixed hu]

end

/-! ## A reading -/

/-- The levels that a reading takes a stack through. -/
def readLevels (k : Nat) (s : State) : State := levelDown k (levelDown k (levelUp k (levelUp k (levelUp k s))))

/-- What a reading leaves of a stack whose temperature it has set: the new level, and the work of entering it. -/
structure LevelRead (k : Nat) (s : State) (n : Level) (u : State) : Prop where
  temp : (u.dev k).temp = (s.dev k).temp
  level : (u.dev k).level = n
  stays : n = (s.dev k).level → u = s
  calm : n ≠ .critical → CalmLevel k s u
  hot : (s.dev k).level ≠ .hot → n = .hot → (u.dev k).holdoff = s.hotDelay k ∧ (u.dev k).episode = (s.fab.episode + 1) % 256 ∧
    (u.dev k).hotAt = s.aon ∧ u.fab.episode = (s.fab.episode + 1) % 256
  cooled : (s.dev k).level = .hot → n = .warm → (u.dev k).holdoff = 0 ∧ Safety.Counted s u .evtRaised ∧ DevFrame s u
  critical : (s.dev k).level ≠ .critical → n = .critical → ((s.dev k).st = .ready → (u.dev k).st = .selfRefresh) ∧
    (s.coll.ending = none → s.collSending = false → u.stw.fault = some (.criticalStack k) ∧ u.stw.faultPin = true) ∧
    (s.coll.ending = none → s.collSending = true → u.stw.fault = none ∧ u.coll.ending = some k)

section
variable {k : Nat} {s v : State}

theorem LevelRead.same (k : Nat) (s : State) : LevelRead k s (s.dev k).level s where
  temp := rfl
  level := rfl
  stays := fun _ => rfl
  calm := fun _ => .refl k s
  hot := fun h hn => absurd hn h
  cooled := fun h hn => absurd (h.symm.trans hn) (by decide)
  critical := fun h hn => absurd hn h

/-- A change to the normal level, or to the warm one from below. -/
theorem LevelRead.ofCalm {n : Level} (hc : CalmLevel k s v) (hl : (v.dev k).level = n) (hn : n = .normal ∨ n = .warm)
    (hs : n ≠ (s.dev k).level) (hw : n = .warm → (s.dev k).level ≠ .hot) : LevelRead k s n v where
  temp := hc.temp
  level := hl
  stays := fun h => absurd h hs
  calm := fun _ => hc
  hot := fun _ h => by simp [h] at hn
  cooled := fun h hn => absurd h (hw hn)
  critical := fun _ h => by simp [h] at hn

theorem LevelRead.hotToWarm (hs : (s.dev k).level = .hot) : LevelRead k s .warm (hotToWarm k s) := by
  obtain ⟨hc, hl, hh, hf, hr⟩ := hotToWarm_work k s
  exact ⟨hc.temp, hl, fun h => absurd (h.trans hs) (by decide), fun _ => hc, fun h => absurd hs h, fun _ _ => ⟨hh, hr, hf⟩,
    fun _ h => absurd h (by decide)⟩

/-- The hot level is entered from the warm one, which the same reading may have reached. -/
theorem LevelRead.enterHot (hc : CalmLevel k s v) (hf : DevFrame s v) (hr : (v.dev k).retired = (s.dev k).retired)
    (hs : (s.dev k).level ≠ .hot) (hv : (v.dev k).level ≠ .hot) : LevelRead k s .hot (enterHot k v) := by
  obtain ⟨hcalm, hl, hh, he, hat, hfab⟩ := enterHot_work k v
  have hpasses : v.passes = s.passes := by rw [hf]
  have hepisode : v.fab.episode = s.fab.episode := by rw [hf]
  have haon : v.aon = s.aon := by rw [State.aon, hc.cyc, State.aon]
  rw [hotDelay_congr hpasses hr hs hv] at hh
  rw [hepisode] at he hfab
  rw [haon] at hat
  exact ⟨hcalm.temp.trans hc.temp, hl, fun h => absurd h.symm hs, fun _ => hc.trans hcalm, fun _ _ => ⟨hh, he, hat, hfab⟩,
    fun h => absurd h hs, fun _ h => absurd h (by decide)⟩

/-- The critical level is entered from the hot one, which the same reading may have reached. -/
theorem LevelRead.enterCritical (hc : CalmLevel k s v) (hf : s.stw.fault = none) (hs : (s.dev k).level ≠ .critical) :
    LevelRead k s .critical (enterCritical k v) := by
  obtain ⟨hl, ht, hst, hnow, hlater⟩ := enterCritical_work k (s := v) (by rw [hc.stw, hf])
  rw [hc.st] at hst
  rw [hc.ending, hc.sending] at hnow hlater
  exact ⟨ht.trans hc.temp, hl, fun h => absurd h.symm hs, fun h => absurd rfl h, fun _ h => absurd h (by decide),
    fun _ h => absurd h (by decide), fun _ _ => ⟨hst, hnow, hlater⟩⟩

/-! ### Going up -/

theorem levelUp_critical (h : (s.dev k).level = .critical) : levelUp k s = s :=
  levelUp_stays (by rw [h]; exact fun t ht => absurd ht (by simp [upperLimit]))

theorem levelUp_below {t : Nat} (h : upperLimit (s.dev k).level = some t) (ht : (s.dev k).temp < t) : levelUp k s = s :=
  levelUp_stays fun _ hx => Option.some.inj (h.symm.trans hx) ▸ ht

theorem levelDown_above {t : Nat} (h : lowerLimit (s.dev k).level = some t) (ht : t < (s.dev k).temp) : levelDown k s = s :=
  levelDown_stays fun _ hx => Option.some.inj (h.symm.trans hx) ▸ ht

theorem levelDown_none (h : lowerLimit (s.dev k).level = none) : levelDown k s = s :=
  levelDown_stays fun _ hx => absurd (h.symm.trans hx) (by simp)

theorem up_hot_critical (n : Nat) (hl : (s.dev k).level = .hot) (hf : s.stw.fault = none) (ht : 105 ≤ (s.dev k).temp) :
    (levelUp k)^[n + 1] s = enterCritical k s :=
  iterate_stays n (levelUp_hot hl ht) (levelUp_critical (enterCritical_work k hf).1)

theorem up_warm_hot (n : Nat) (hl : (s.dev k).level = .warm) (ht : 95 ≤ (s.dev k).temp) (hlt : (s.dev k).temp < 105) :
    (levelUp k)^[n + 1] s = enterHot k s := by
  obtain ⟨hc, hhot, -⟩ := enterHot_work k s
  exact iterate_stays n (levelUp_warm hl ht) (levelUp_below (by rw [hhot]; rfl) (by rw [hc.temp]; exact hlt))

theorem up_warm_critical (n : Nat) (hl : (s.dev k).level = .warm) (hf : s.stw.fault = none) (ht : 105 ≤ (s.dev k).temp) :
    (levelUp k)^[n + 2] s = enterCritical k (enterHot k s) := by
  obtain ⟨hc, hhot, -⟩ := enterHot_work k s
  rw [Function.iterate_succ_apply, levelUp_warm hl (by omega)]
  exact up_hot_critical n hhot (by rw [hc.stw, hf]) (by rw [hc.temp]; exact ht)

theorem up_normal_warm (n : Nat) (hl : (s.dev k).level = .normal) (ht : 85 ≤ (s.dev k).temp) (hlt : (s.dev k).temp < 95) :
    (levelUp k)^[n + 1] s = toWarm k s := by
  obtain ⟨hc, hwarm⟩ := toWarm_work k s
  exact iterate_stays n (levelUp_normal hl ht) (levelUp_below (by rw [hwarm]; rfl) (by rw [hc.temp]; exact hlt))

theorem up_normal_hot (n : Nat) (hl : (s.dev k).level = .normal) (ht : 95 ≤ (s.dev k).temp) (hlt : (s.dev k).temp < 105) :
    (levelUp k)^[n + 2] s = enterHot k (toWarm k s) := by
  obtain ⟨hc, hwarm⟩ := toWarm_work k s
  rw [Function.iterate_succ_apply, levelUp_normal hl (by omega)]
  exact up_warm_hot n hwarm (by rw [hc.temp]; exact ht) (by rw [hc.temp]; exact hlt)

theorem up_normal_critical (n : Nat) (hl : (s.dev k).level = .normal) (hf : s.stw.fault = none) (ht : 105 ≤ (s.dev k).temp) :
    (levelUp k)^[n + 3] s = enterCritical k (enterHot k (toWarm k s)) := by
  obtain ⟨hc, hwarm⟩ := toWarm_work k s
  rw [Function.iterate_succ_apply, levelUp_normal hl (by omega)]
  exact up_warm_critical n hwarm (by rw [hc.stw, hf]) (by rw [hc.temp]; exact ht)

/-! ### The whole reading -/

theorem readLevels_eq {u : State} (hu : (levelUp k)^[3] s = u) : readLevels k s = (levelDown k)^[2] u := by
  rw [← hu]
  rfl

/-- A reading that takes the stack no level down. -/
theorem readLevels_up {u : State} (hu : (levelUp k)^[3] s = u) (hd : levelDown k u = u) : readLevels k s = u := by
  rw [readLevels_eq hu, Function.iterate_fixed hd]

theorem levelRead_normal (hl : (s.dev k).level = .normal) (hf : s.stw.fault = none) :
    LevelRead k s (levelAfter .normal (s.dev k).temp) (readLevels k s) := by
  obtain ⟨hc, hwarm⟩ := toWarm_work k s
  have hne : (s.dev k).level ≠ .hot := by rw [hl]; decide
  dsimp only [levelAfter]
  split
  · next ht =>
    obtain ⟨hh, -⟩ := enterHot_work k (toWarm k s)
    have hcalm := hc.trans hh
    rw [readLevels_up (up_normal_critical 0 hl hf ht)
      (levelDown_none (by rw [(enterCritical_work k (by rw [hcalm.stw, hf])).1]; rfl))]
    exact .enterCritical hcalm hf (by rw [hl]; decide)
  split
  · next ht ht' =>
    obtain ⟨hh, hhot, -⟩ := enterHot_work k (toWarm k s)
    rw [readLevels_up (up_normal_hot 1 hl ht' (by omega))
      (levelDown_above (by rw [hhot]; rfl) (by rw [hh.temp, hc.temp]; omega))]
    obtain ⟨hd, -, hframe, -⟩ := levelEvent_updDev .stackWarm k 0 warmDevice s
    have hretired : ((toWarm k s).dev k).retired = (s.dev k).retired := (congrArg Device.retired hd).trans rfl
    exact .enterHot hc hframe hretired hne (by rw [hwarm]; decide)
  split
  · next ht ht' ht'' =>
    rw [readLevels_up (up_normal_warm 2 hl ht'' (by omega)) (levelDown_above (by rw [hwarm]; rfl) (by rw [hc.temp]; omega))]
    exact .ofCalm hc hwarm (.inr rfl) (by rw [hl]; decide) (fun _ => hne)
  · next ht ht' ht'' =>
    rw [readLevels_up (Function.iterate_fixed (levelUp_below (by rw [hl]; rfl) (by omega)) 3) (levelDown_none (by rw [hl]; rfl))]
    have h := LevelRead.same k s
    rwa [hl] at h

theorem levelRead_warm (hl : (s.dev k).level = .warm) (hf : s.stw.fault = none) :
    LevelRead k s (levelAfter .warm (s.dev k).temp) (readLevels k s) := by
  obtain ⟨hh, hhot, -⟩ := enterHot_work k s
  have hne : (s.dev k).level ≠ .hot := by rw [hl]; decide
  dsimp only [levelAfter]
  split
  · next ht =>
    rw [readLevels_up (up_warm_critical 1 hl hf ht)
      (levelDown_none (by rw [(enterCritical_work k (by rw [hh.stw, hf])).1]; rfl))]
    exact .enterCritical hh hf (by rw [hl]; decide)
  split
  · next ht ht' =>
    rw [readLevels_up (up_warm_hot 2 hl ht' (by omega)) (levelDown_above (by rw [hhot]; rfl) (by rw [hh.temp]; omega))]
    exact .enterHot (.refl k s) rfl rfl hne hne
  have hup : (levelUp k)^[3] s = s := Function.iterate_fixed (levelUp_below (by rw [hl]; rfl) (by omega)) 3
  split
  · next ht ht' ht'' =>
    obtain ⟨hc, hnormal⟩ := warmToNormal_work k s
    rw [readLevels_eq hup, iterate_stays 1 (levelDown_warm hl ht'') (levelDown_none (by rw [hnormal]; rfl))]
    exact .ofCalm hc hnormal (.inl rfl) (by rw [hl]; decide) (fun h => absurd h (by decide))
  · next ht ht' ht'' =>
    rw [readLevels_up hup (levelDown_above (by rw [hl]; rfl) (by omega))]
    have h := LevelRead.same k s
    rwa [hl] at h

theorem levelRead_hot (hl : (s.dev k).level = .hot) (hf : s.stw.fault = none) :
    LevelRead k s (levelAfter .hot (s.dev k).temp) (readLevels k s) := by
  obtain ⟨hc, hwarm, -⟩ := hotToWarm_work k s
  dsimp only [levelAfter]
  split
  · next ht =>
    rw [readLevels_up (up_hot_critical 2 hl hf ht) (levelDown_none (by rw [(enterCritical_work k hf).1]; rfl))]
    exact .enterCritical (.refl k s) hf (by rw [hl]; decide)
  have hup : (levelUp k)^[3] s = s := Function.iterate_fixed (levelUp_below (by rw [hl]; rfl) (by omega)) 3
  split
  · next ht ht' =>
    obtain ⟨hn, hnormal⟩ := warmToNormal_work k (hotToWarm k s)
    rw [readLevels_eq hup, Function.iterate_succ_apply, levelDown_hot hl (by omega),
      iterate_stays 0 (levelDown_warm hwarm (by rw [hc.temp]; exact ht')) (levelDown_none (by rw [hnormal]; rfl))]
    exact .ofCalm (hc.trans hn) hnormal (.inl rfl) (by rw [hl]; decide) (fun h => absurd h (by decide))
  split
  · next ht ht' ht'' =>
    rw [readLevels_eq hup, iterate_stays 1 (levelDown_hot hl ht'') (levelDown_above (by rw [hwarm]; rfl) (by rw [hc.temp]; omega))]
    exact .hotToWarm hl
  · next ht ht' ht'' =>
    rw [readLevels_up hup (levelDown_above (by rw [hl]; rfl) (by omega))]
    have h := LevelRead.same k s
    rwa [hl] at h

/-- A reading takes a stack to the level of its temperature, with the work of entering it. -/
theorem levelRead (hf : s.stw.fault = none) : LevelRead k s (levelAfter (s.dev k).level (s.dev k).temp) (readLevels k s) := by
  cases hl : (s.dev k).level with
  | normal => exact levelRead_normal hl hf
  | warm => exact levelRead_warm hl hf
  | hot => exact levelRead_hot hl hf
  | critical =>
    rw [readLevels_up (Function.iterate_fixed (levelUp_critical hl) 3) (levelDown_none (by rw [hl]; rfl))]
    have h := LevelRead.same k s
    rwa [hl] at h

end

/-! ## The statement -/

/-- A stack's record with a temperature read. -/
def readDevice (celsius : Nat) (d : Device) : Device := { d with temp := celsius }

theorem exec_stackTempReading {s : State} {k : Nat} (celsius : Nat) (ha : s.alive = true) (hk : k < 12) (hg : s.aon % 2500 = 0) :
    exec (.stackTempReading k celsius) s = .next (readLevels k (s.updDev k (readDevice celsius))) :=
  congrArg _ (if_pos (by simp [ha, isStack_iff.2 hk, hg]))

theorem exec_hotDelayRestate (k : Nat) (s : State) : exec (.hotDelayRestate k) s = .next (hotDelayRestateOp k s) := rfl

theorem hotDelayRestateOp_grown {s : State} {k : Nat} (ha : s.alive = true) (hk : k < 12) (hl : (s.dev k).level = .hot)
    (hg : s.aon % 2500 = 0) (hat : s.aon ≠ (s.dev k).hotAt) (hten : (s.aon / 2500 - (s.dev k).hotAt / 2500) % 10 = 0)
    (hd : s.hotDelay k * 10 > (s.dev k).holdoff * 11 ∨ s.hotDelay k > (s.dev k).holdoff + 100) :
    hotDelayRestateOp k s = stateDelay k (s.hotDelay k) s :=
  if_pos (by simp [ha, isStack_iff.2 hk, hl, hg, hat, hten, hd])

theorem hotDelayRestateOp_same {s : State} {k : Nat} (hp : s.hotDelay k * 10 ≤ (s.dev k).holdoff * 11)
    (hu : s.hotDelay k ≤ (s.dev k).holdoff + 100) : hotDelayRestateOp k s = s :=
  if_neg (by simp [Nat.not_lt.2 hp, Nat.not_lt.2 hu])

/-- Settles O35: a reading is three steps up and two steps down, of which those of the temperature's thresholds act; each entered
level's work is that of the last step, and the steps before it leave what it depends on. -/
theorem stacksEnterAndLeaveLevels : Obligations.StacksEnterAndLeaveLevels := by
  refine ⟨?reading, ?restate⟩
  case reading =>
    intro s k celsius ha hk hg l n
    refine ⟨_, exec_stackTempReading celsius ha hk hg, ?_⟩
    have hd : (s.updDev k (readDevice celsius)).dev k = readDevice celsius (s.dev k) := dev_updDev_same s k _
    have hkept : DevsKept s (s.updDev k (readDevice celsius)) k := devsKept_updDev s k _
    have hframe : DevFrame s (s.updDev k (readDevice celsius)) := (DevOnly.updDev s k _).devFrame
    have hdelay (hs : l ≠ .hot) : (s.updDev k (readDevice celsius)).hotDelay k = s.hotDelay k :=
      hotDelay_congr rfl (by rw [hd]; rfl) hs (by rw [hd]; exact hs)
    have hread := levelRead (k := k) (s := s.updDev k (readDevice celsius)) (fault_none_of_alive ha)
    rw [hd] at hread
    have hread : LevelRead k (s.updDev k (readDevice celsius)) n _ := hread
    have hl : ((s.updDev k (readDevice celsius)).dev k).level = l := by rw [hd]; rfl
    have hst : ((s.updDev k (readDevice celsius)).dev k).st = (s.dev k).st := by rw [hd]; rfl
    refine ⟨hread.temp.trans (congrArg Device.temp hd), hread.level, fun h => hread.stays (h.trans hl.symm), fun h => ?_,
      fun h hn => ?_, fun h hn => ?_, fun h hn => ?_⟩
    · have hc := hread.calm h
      exact ⟨devsKept_trans hkept hc.devs, hc.st.trans hst, hc.stw, hc.mem⟩
    · rw [← hdelay h]
      exact hread.hot (by rw [hl]; exact h) hn
    · obtain ⟨hh, hc, hf⟩ := hread.cooled (hl.trans h) hn
      exact ⟨hh, hc, devFrame_trans hframe hf⟩
    · rw [← hst]
      exact hread.critical (by rw [hl]; exact h) hn
  case restate =>
    intro s k ha hk hl hg hat hten
    refine ⟨fun hgrown => ⟨_, exec_hotDelayRestate k s, ?_⟩, fun hp hu => ⟨_, exec_hotDelayRestate k s, hotDelayRestateOp_same hp hu⟩⟩
    rw [hotDelayRestateOp_grown ha hk hl hg hat hten hgrown]
    obtain ⟨hc, hd, -⟩ := stateDelay_work k (s.hotDelay k) s
    exact ⟨hd, hc.devs, hc.mem, hc.stw⟩

end Sys2Proof.Laws
end


section
/-! RANGE_DISABLE of an enabled entry whose class field reads 3: it has no check area, and check bytes stand beyond its range (R181,
R184). -/

namespace Sys2Proof.Laws

set_option Elab.async false

open Sys2Proof Sys2Proof.Machine Sys2Proof.Safety

/-- A module with its link up whose entry 0 of stack 0 is enabled over the first 64 MiB with the class field 3, and whose memory
holds one byte that is not 0, at address 0. -/
def classThreeRange : State :=
  ({ State.reset with
     stw := { Steward.init with mainOn := true, good := true }, host := { HostIf.init with linkUp := true },
     memory := { Memory.init with mem := [(0, 1#8)] } } : State).setRg .memRangeCfg (2 ^ 16 + 3 * 2 ^ 32 + 2 ^ 40) 0 0

theorem hostWrite_classThreeRange : HostWrite classThreeRange := by decide +kernel

theorem range_classThreeRange : (dropSplit classThreeRange).range 0 0 =
    { base := 0, size := 0x4000000, cls := 3, on := true, busy := false } := by decide +kernel

theorem exec_rangeDisable (k e : Nat) {s : State} (h : HostWrite s) :
    exec (.rangeDisable k e) s = .next (rangeDisableOp k e (dropSplit s)) :=
  congrArg Host.Outcome.next (barWrite_taken _ _ s h)

/-- The first byte beyond the range reads 0 before and is a check byte after. -/
theorem rangeDisableOp_writes_beyond :
    byteAt (dropSplit classThreeRange).memory.mem 0x4000000 = 0 ∧
      byteAt (rangeDisableOp 0 0 (dropSplit classThreeRange)).memory.mem 0x4000000 = 205 := by decide +kernel

/-- Refutes O31: the class field has two bits, and an entry that is enabled with 3 in it, which no check of R184 lets through but the
statement, which is about every state, admits, has no check area; RANGE_DISABLE stores the check bytes of its lines all the same,
from the end of the range on, where the statement has every byte stay as it was. -/
theorem not_rangesAreCheckedAndInitialised : ¬ Obligations.RangesAreCheckedAndInitialised := by
  intro h
  obtain ⟨-, -, hdisable⟩ := h.1 classThreeRange 0 0 hostWrite_classThreeRange (by decide) (by decide)
  obtain ⟨u, hu, -, -, -, hkept, -⟩ := hdisable (congrArg Range.on range_classThreeRange)
  rw [exec_rangeDisable 0 0 hostWrite_classThreeRange, Host.Outcome.next.injEq] at hu
  obtain ⟨hbefore, hafter⟩ := rangeDisableOp_writes_beyond
  have hbyte := hkept 0x4000000 (by rw [range_classThreeRange]; decide)
  rw [← hu, hafter, hbefore] at hbyte
  exact absurd hbyte (by decide)

end Sys2Proof.Laws
end


section
/-! SUPPORT. What ending transfers, passes and operations leaves: nothing comes to be under way in the gatherers or on the fabric, in
either direction, and the recorded incarnations stay (R213, R217, R262, R268 to R271, R275, R311). -/

namespace Sys2Proof.Laws

set_option Elab.async false

open Sys2Proof Sys2Proof.Machine Sys2Proof.Safety

/-! ## What only ends -/

/-- The number and the node of an outgoing transfer, which together name it. -/
def outName (o : OutXfer) : Nat × Nat := (o.xid, o.node)

/-- From s to u what is under way only ends: no transfer of a gatherer and none of the fabric is new, and the incarnations recorded for
nodes are the same. -/
structure Shrinks (s u : State) : Prop where
  xfers : u.gath.xfers.map (·.id) ⊆ s.gath.xfers.map (·.id)
  out : u.fab.out.map outName ⊆ s.fab.out.map outName
  inn : u.fab.inn ⊆ s.fab.inn
  incarn : u.fab.incarn = s.fab.incarn

theorem Shrinks.refl (s : State) : Shrinks s s := ⟨List.Subset.refl _, List.Subset.refl _, List.Subset.refl _, rfl⟩

theorem Shrinks.trans {s u v : State} (h : Shrinks s u) (k : Shrinks u v) : Shrinks s v where
  xfers := List.Subset.trans k.xfers h.xfers
  out := List.Subset.trans k.out h.out
  inn := List.Subset.trans k.inn h.inn
  incarn := k.incarn.trans h.incarn

/-- A change of what the transfers and the incarnations are no part of. -/
theorem Shrinks.of_eq {s u : State} (hx : u.gath.xfers = s.gath.xfers) (ho : u.fab.out = s.fab.out) (hi : u.fab.inn = s.fab.inn)
    (hc : u.fab.incarn = s.fab.incarn) : Shrinks s u :=
  ⟨by rw [hx]; exact List.Subset.refl _, by rw [ho]; exact List.Subset.refl _, by rw [hi]; exact List.Subset.refl _, hc⟩

theorem Shrinks.each {β : Type} (l : List β) (f : β → State → State) (s : State) (hf : ∀ x u, Shrinks u (f x u)) :
    Shrinks s (each l f s) := each_keeps (Shrinks s) l f s (.refl s) fun x u hu => hu.trans (hf x u)

theorem Shrinks.ite {s u v : State} {c : Prop} [Decidable c] (h : Shrinks s u) (k : Shrinks s v) : Shrinks s (if c then u else v) := by
  split <;> assumption

/-- What holds of each element of a list once its turn has come, and is never undone, holds of all of them at the end. -/
theorem each_reached {β : Type} (p : β → State → Prop) (l : List β) (f : β → State → State) (s : State)
    (hreach : ∀ x u, p x (f x u)) (hkeep : ∀ x y u, p x u → p x (f y u)) {x : β} (hx : x ∈ l) : p x (each l f s) := by
  induction l generalizing s with
  | nil => exact absurd hx List.not_mem_nil
  | cons y l ih =>
    rw [each_cons]
    obtain rfl | hx := List.mem_cons.1 hx
    · exact each_keeps (p x) l f _ (hreach x s) fun z u hu => hkeep x z u hu
    · exact ih _ hx

theorem MemWork.shrinks {s u : State} (h : MemWork s u) : Shrinks s u :=
  .of_eq (by rw [h.frame]) (by rw [h.fab]) (by rw [h.fab]) (by rw [h.fab])

theorem AbortFrame.shrinks {s u : State} (h : AbortFrame s u) : Shrinks s u :=
  .of_eq (by rw [h]) (by rw [h]) (by rw [h]) (by rw [h])

theorem PortsOnly.shrinks {s u : State} (h : PortsOnly s u) : Shrinks s u :=
  .of_eq (by rw [h]) (by rw [h]) (by rw [h]) (by rw [h])

theorem Shrinks.raise (c : EventCode) (i : Nat) (d : BitVec 128) (s : State) : Shrinks s (raiseEvent c i d s) :=
  (MemWork.raise c i d s).shrinks

/-! ## Descriptors and passes -/

theorem shrinks_complete (d : Nat) (st : Status) (k : Nat) (b p : List Byte) (s : State) : Shrinks s (complete d st k b p s) :=
  (complete_frame d st k b p s).shrinks

theorem shrinks_completeWaited (d : Nat) (st : Status) (b : List Byte) (s : State) : Shrinks s (completeWaited d st b s) :=
  .trans (u := waitExcluded d s) (.of_eq rfl rfl rfl rfl) (shrinks_complete _ _ _ _ _ _)

theorem shrinks_applyDisabled (op : DisableOp) (s : State) : Shrinks s (applyDisabled op s) := by
  unfold applyDisabled
  split <;> exact .of_eq rfl rfl rfl rfl

theorem shrinks_settleOne (d : Nat) (s : State) : Shrinks s (settleOne d s) := by
  unfold settleOne
  split
  · exact .refl s
  · split
    · exact .ite (shrinks_completeWaited _ _ _ s) (.refl s)
    · exact .ite (shrinks_completeWaited _ _ _ s) (.refl s)
    · exact .ite (shrinks_complete _ _ _ _ _ s) (.refl s)
    · exact .ite (.refl s) ((shrinks_applyDisabled _ s).trans (shrinks_completeWaited _ _ _ _))
    · exact .refl s

theorem shrinks_settle (s : State) : Shrinks s (settle s) := .each _ _ s shrinks_settleOne

theorem shrinks_settlePass (q : Nat) (s : State) : Shrinks s (settlePass q s) := by
  unfold settlePass
  split
  · split
    · exact .ite (.refl s) ((completePass_frame _ _ _ s).shrinks.trans (shrinks_settle _))
    · exact .refl s
  · exact .refl s

/-! ## Transfers of gatherers -/

theorem shrinks_dropXfer (x : Nat) (s : State) : Shrinks s (s.dropXfer x) :=
  ⟨List.map_subset _ List.filter_sublist.subset, List.Subset.refl _, List.Subset.refl _, rfl⟩

/-- A change of transfers that leaves their numbers keeps the list of numbers. -/
theorem ids_updXfer (s : State) (x : Nat) {f : Xfer → Xfer} (hf : ∀ y, (f y).id = y.id) :
    (s.updXfer x f).gath.xfers.map (·.id) = s.gath.xfers.map (·.id) := by
  simp only [State.updXfer, List.map_map]
  refine List.map_congr_left fun y _ => ?_
  simp only [Function.comp_apply]
  split
  · exact hf y
  · rfl

theorem shrinks_updXfer (s : State) (x : Nat) {f : Xfer → Xfer} (hf : ∀ y, (f y).id = y.id) : Shrinks s (s.updXfer x f) :=
  ⟨by rw [ids_updXfer s x hf]; exact List.Subset.refl _, List.Subset.refl _, List.Subset.refl _, rfl⟩

theorem shrinks_fetchCancelled (q g : Nat) (s : State) : Shrinks s (fetchCancelled q g s) := by
  unfold fetchCancelled
  split
  · exact .refl s
  · split
    · exact .refl s
    · refine .ite (.refl s) (.trans ?_ (.raise _ _ _ _))
      exact .of_eq rfl rfl rfl rfl

theorem shrinks_returnTag (x : Xfer) (s : State) : Shrinks s (returnTag x s) :=
  (shrinks_dropXfer x.id s).trans (shrinks_fetchCancelled _ _ _)

theorem shrinks_discardXfer (x : Xfer) (s : State) : Shrinks s (discardXfer x s) := by
  refine .trans (shrinks_dropXfer x.id s) (.trans ?_ (shrinks_fetchCancelled x.pass x.gath _))
  exact .of_eq rfl rfl rfl rfl

theorem shrinks_endXfer (x : Xfer) (s : State) : Shrinks s (endXfer x s) := by
  unfold endXfer
  split
  · exact .refl s
  · split
    · exact .trans (shrinks_dropXfer x.id s) (.of_eq rfl rfl rfl rfl)
    · exact shrinks_updXfer s _ fun _ => rfl
    · exact shrinks_updXfer s _ fun _ => rfl
    · exact shrinks_discardXfer x s

theorem shrinks_endXfers (q : Nat) (s : State) : Shrinks s (endXfers q s) := by
  unfold endXfers
  refine .trans (.trans (.each _ _ s fun r u => ?_) (.each _ _ _ shrinks_endXfer)) (.each _ _ _ fun g u => shrinks_fetchCancelled q g u)
  exact .of_eq rfl rfl rfl rfl

/-! ## Abandoned passes -/

theorem shrinks_abandonOn (p : Pass) (t : Nat) (s : State) : Shrinks s (abandonOn p t s) := by
  refine .ite ?_ (.refl s)
  refine .trans (u := (s.dropSeq t p.seq).updTile t (fun tl => tl.clearBanks p.img.banks)) (.of_eq rfl rfl rfl rfl) ?_
  exact .ite (.of_eq rfl rfl rfl rfl) (.refl _)

theorem shrinks_updPort (port : Nat) (f : Port → Port) (s : State) : Shrinks s (s.updPort port f) := .of_eq rfl rfl rfl rfl

theorem shrinks_dropSignals (q : Nat) (s : State) : Shrinks s (dropSignals q s) := by
  unfold dropSignals
  refine .trans ?_ (.each _ _ _ fun k u => shrinks_updPort k _ u)
  exact .of_eq rfl rfl rfl rfl

theorem shrinks_updPass (q : Nat) (f : Pass → Pass) (s : State) : Shrinks s (s.updPass q f) := .of_eq rfl rfl rfl rfl

theorem shrinks_freeWires (q : Nat) (s : State) : Shrinks s (freeWires q s) := .of_eq rfl rfl rfl rfl

theorem shrinks_offMesh (q : Nat) (s : State) : Shrinks s (offMesh q s) := .of_eq rfl rfl rfl rfl

theorem shrinks_abandonPass (q : Nat) (st : Status) (t : Nat) (s : State) : Shrinks s (abandonPass q st t s) := by
  rw [abandonPass_eq]
  split
  · next p _ =>
    refine .ite (.ite (.of_eq rfl rfl rfl rfl) (.refl s)) ?_
    refine .trans (.trans (.trans ?_ (memWork_flushWriter _ _).shrinks) (shrinks_endXfers _ _)) (shrinks_settlePass _ _)
    refine .trans ?_ (.each _ _ _ (shrinks_abandonOn p))
    refine .trans (.trans ?_ (shrinks_dropSignals _ _)) (shrinks_freeWires _ _)
    exact .trans (shrinks_updPass q _ s) (shrinks_offMesh _ _)
  · exact .refl s

theorem shrinks_abandonFor (st : Status) (xs : List Xfer) (s : State) : Shrinks s (abandonFor st xs s) :=
  .each _ _ s fun x u => ((shrinks_returnTag x u).trans (shrinks_abandonPass _ _ _ _)).trans (shrinks_settlePass _ _)

/-! ## Owners of transfers -/

theorem shrinks_releaseAcks (s : State) : Shrinks s (releaseAcks s) := by
  rw [releaseAcks_eq]
  exact .trans (u := acksKept s) (.of_eq rfl rfl rfl rfl) (portsOnly_acks _ _).shrinks

theorem shrinks_releaseCopy (desc ack : Option Nat) (s : State) : Shrinks s (releaseCopy desc ack s) := by
  unfold releaseCopy
  extract_lets s1
  have h1 : Shrinks s s1 := by
    unfold s1
    split
    · refine .trans ?_ (shrinks_settle _)
      exact .of_eq rfl rfl rfl rfl
    · exact .refl s
  refine h1.trans ?_
  split
  · refine .trans ?_ (shrinks_releaseAcks _)
    exact .of_eq rfl rfl rfl rfl
  · exact .refl s1

/-- The records of log copies that nothing waits for any longer. -/
theorem shrinks_mapOut (s : State) {f : OutXfer → OutXfer} (hf : ∀ o, outName (f o) = outName o) :
    Shrinks s { s with fab := { s.fab with out := s.fab.out.map f } } :=
  ⟨List.Subset.refl _, by
    rw [List.map_map, show outName ∘ f = outName from funext hf]; exact List.Subset.refl _, List.Subset.refl _, rfl⟩

theorem shrinks_releaseCopies (s : State) : Shrinks s (releaseCopies s) := by
  unfold releaseCopies
  refine .trans (shrinks_mapOut s fun o => ?_) (.each _ _ _ fun w u => shrinks_releaseCopy w.1 w.2 u)
  split <;> rfl

theorem shrinks_unprotectedEvent (cause direction : Nat) (s : State) : Shrinks s (unprotectedEvent cause direction s) :=
  .raise _ _ _ s

theorem shrinks_partnerLost (cause : Nat) (s : State) : Shrinks s (partnerLost cause s) := by
  refine .ite (.refl s) (.trans (.trans ?_ (.ite (.refl _) (shrinks_unprotectedEvent _ _ _))) (shrinks_releaseCopies _))
  exact .of_eq rfl rfl rfl rfl

theorem shrinks_mirrorDone (s : State) : Shrinks s (mirrorDone s) := .ite (.refl s) (.of_eq rfl rfl rfl rfl)

theorem shrinks_endRecovery (st : Status) (s : State) : Shrinks s (endRecovery st s) := by
  refine .ite ?_ (.refl s)
  refine .trans (.trans ?_ (shrinks_complete _ _ _ _ _ _)) (shrinks_settle _)
  exact .of_eq rfl rfl rfl rfl

theorem shrinks_endHarvest (st : Status) (s : State) : Shrinks s (endHarvest st s) := by
  unfold endHarvest
  split
  · refine .trans (.trans ?_ (shrinks_complete _ _ _ _ _ _)) (shrinks_settle _)
    exact ⟨List.Subset.refl _, List.Subset.refl _, List.filter_sublist.subset, rfl⟩
  · exact .refl s

theorem shrinks_ownerAbandoned (o : OutXfer) (cause : Nat) (s : State) : Shrinks s (ownerAbandoned o cause s) := by
  unfold ownerAbandoned
  split
  · exact shrinks_abandonFor _ _ s
  · exact (shrinks_partnerLost _ s).trans (shrinks_releaseCopy _ _ _)
  · exact (shrinks_partnerLost _ s).trans (shrinks_mirrorDone _)
  · exact shrinks_partnerLost _ s
  · exact shrinks_partnerLost _ s
  · exact shrinks_partnerLost _ s
  · exact shrinks_endRecovery _ s
  · exact shrinks_endHarvest _ s
  · exact .refl s

/-! ## Transfers of the fabric -/

theorem shrinks_sendPacketOf (pass : Option Nat) (type node xid idx : Nat) (port : Option Nat) (x : Piece) (sig : Option (Nat × Nat))
    (s : State) : Shrinks s (sendPacketOf pass type node xid idx port x sig s) := .of_eq rfl rfl rfl rfl

theorem shrinks_sendAbandon (node xid reason : Nat) (port : Option Nat) (s : State) : Shrinks s (sendAbandon node xid reason port s) :=
  shrinks_sendPacketOf _ _ _ _ _ _ _ _ s

theorem shrinks_removeOut (o : OutXfer) (s : State) : Shrinks s (removeOut o s) := by
  unfold removeOut
  refine .trans ?_ (.each _ _ _ fun k u => shrinks_updPort k _ u)
  exact ⟨List.Subset.refl _, List.map_subset _ List.filter_sublist.subset, List.Subset.refl _, rfl⟩

/-- A transfer removed is no longer under way. -/
theorem removeOut_gone (o : OutXfer) (s : State) : outName o ∉ (removeOut o s).fab.out.map outName := by
  have h : (removeOut o s).fab.out = s.fab.out.filter (fun x => !(x.xid == o.xid && x.node == o.node)) := by
    unfold removeOut
    exact each_keeps (fun u : State => u.fab.out = s.fab.out.filter (fun x => !(x.xid == o.xid && x.node == o.node))) _ _ _ rfl
      fun _ _ hu => hu
  rw [h]
  intro hm
  obtain ⟨x, hx, hn⟩ := List.mem_map.1 hm
  obtain ⟨hxid, hnode⟩ := Prod.mk.inj hn
  simpa [hxid, hnode] using (List.mem_filter.1 hx).2

theorem shrinks_endOut (reason : Nat) (tell : Bool) (o : OutXfer) (s : State) :
    Shrinks (removeOut o s) (endOut reason tell o s) :=
  .ite ((Shrinks.raise _ _ _ _).trans (shrinks_sendAbandon _ _ _ _ _)) (.raise _ _ _ _)

/-- What abandoning a transfer under way does after its removal. -/
theorem shrinks_abandonOut_removed {o : OutXfer} {s : State} (h : s.fab.out.any (fun x => x.xid == o.xid && x.node == o.node) = true)
    (reason : Nat) (tell : Bool) : Shrinks (removeOut o s) (abandonOut reason tell o s) := by
  rw [abandonOut, if_pos h]
  exact ((shrinks_endOut reason tell o s).trans (.each _ _ _ fun x u => (shrinks_removeOut x u).trans (shrinks_endOut reason true x u))).trans
    (shrinks_ownerAbandoned _ _ _)

theorem shrinks_abandonOut (reason : Nat) (tell : Bool) (o : OutXfer) (s : State) : Shrinks s (abandonOut reason tell o s) := by
  by_cases h : s.fab.out.any (fun x => x.xid == o.xid && x.node == o.node) = true
  · exact (shrinks_removeOut o s).trans (shrinks_abandonOut_removed h reason tell)
  · rw [abandonOut, if_neg h]
    exact .refl s

/-- A transfer abandoned is no longer under way. -/
theorem abandonOut_gone (reason : Nat) (tell : Bool) (o : OutXfer) (s : State) :
    outName o ∉ (abandonOut reason tell o s).fab.out.map outName := by
  by_cases h : s.fab.out.any (fun x => x.xid == o.xid && x.node == o.node) = true
  · exact fun hm => removeOut_gone o s ((shrinks_abandonOut_removed h reason tell).out hm)
  · rw [abandonOut, if_neg h]
    intro hm
    obtain ⟨x, hx, hn⟩ := List.mem_map.1 hm
    obtain ⟨hxid, hnode⟩ := Prod.mk.inj hn
    exact h (List.any_eq_true.2 ⟨x, hx, by simp [hxid, hnode]⟩)

theorem shrinks_returnRequest (p : OutPacket) (s : State) : Shrinks s (returnRequest p s) := by
  unfold returnRequest
  split
  · exact shrinks_updPort _ _ s
  · exact .refl s

/-- The unsent responses to a read are taken off every port. -/
def unqueueResponses (node xid : Nat) (s : State) : State :=
  each (List.range (Config.numPorts + 1)) (fun k s => s.updPort k (fun q =>
    { q with txq := q.txq.filter (fun p => !p.answers node xid) })) s

/-- A read is no longer served. -/
def servedNoMore (node xid : Nat) (s : State) : State :=
  { s with fab := { s.fab with serving := s.fab.serving.filter (fun x => !(x.1 == node && x.2.1 == xid)) } }

/-- The unsent responses to a read on every port. -/
def unsentResponses (node xid : Nat) (s : State) : List OutPacket :=
  (List.range (Config.numPorts + 1)).flatMap (fun k => (s.port k).txq.filter (fun p => p.answers node xid))

theorem dropResponses_eq (node xid : Nat) (s : State) : dropResponses node xid s =
    (each (unsentResponses node xid s) returnRequest (servedNoMore node xid (unqueueResponses node xid s)),
      (unsentResponses node xid s).map (fun p => (parsePacket p.bytes).idx)) := rfl

theorem shrinks_unqueueResponses (node xid : Nat) (s : State) : Shrinks s (unqueueResponses node xid s) :=
  .each _ _ s fun k u => shrinks_updPort k _ u

theorem shrinks_servedNoMore (node xid : Nat) (s : State) : Shrinks s (servedNoMore node xid s) := .of_eq rfl rfl rfl rfl

theorem shrinks_dropResponses (node xid : Nat) (s : State) : Shrinks s (dropResponses node xid s).1 := by
  rw [dropResponses_eq]
  exact ((shrinks_unqueueResponses node xid s).trans (shrinks_servedNoMore _ _ _)).trans (.each _ _ _ shrinks_returnRequest)

/-- The packets of a transfer without a record that are not yet sent are taken off every port. -/
def unqueueLoose (type node xid : Nat) (s : State) : State :=
  if type = 0x03 then (dropResponses node xid s).1
  else each (List.range (Config.numPorts + 1)) (fun k s => s.updPort k (fun q =>
    { q with txq := q.txq.filter (fun p => !(p.type == type && p.node == node && p.xid == xid)) })) s

theorem abandonLoose_eq (port reason : Nat) (tell : Bool) (type node xid : Nat) (s : State) :
    abandonLoose port reason tell (type, node, xid) s =
      let u := raiseEvent .transferAbandoned port
        (Machine.detail [(0, 1, port), (1, 1, (laneOf type).getD 0), (2, 2, node), (4, 4, xid), (11, 1, reason), (12, 1, 1)])
        (unqueueLoose type node xid s)
      if tell then sendAbandon node xid reason none u else u := rfl

theorem shrinks_unqueueLoose (type node xid : Nat) (s : State) : Shrinks s (unqueueLoose type node xid s) :=
  .ite (shrinks_dropResponses node xid s) (.each _ _ s fun k u => shrinks_updPort k _ u)

theorem shrinks_abandonLoose (port reason : Nat) (tell : Bool) (x : Nat × Nat × Nat) (s : State) :
    Shrinks s (abandonLoose port reason tell x s) := by
  obtain ⟨type, node, xid⟩ := x
  rw [abandonLoose_eq]
  extract_lets u
  have hu : Shrinks s u := (shrinks_unqueueLoose type node xid s).trans (.raise _ _ _ _)
  exact hu.trans (.ite (shrinks_sendAbandon _ _ _ _ u) (.refl u))

/-- An open inbound transfer, or an awaited read, is closed. -/
def closeIn (i : InXfer) (s : State) : State := { s with fab := { s.fab with inn := s.fab.inn.filter (fun j => !i.same j) } }

theorem shrinks_closeIn (i : InXfer) (s : State) : Shrinks s (closeIn i s) :=
  ⟨List.Subset.refl _, List.Subset.refl _, List.filter_sublist.subset, rfl⟩

theorem closeIn_gone (i : InXfer) (s : State) : ∀ j ∈ (closeIn i s).fab.inn, i.same j = false := fun j hj => by
  simpa using (List.mem_filter.1 hj).2

theorem shrinks_streamAbandoned (i : InXfer) (s : State) : Shrinks s (streamAbandoned i s) :=
  .ite (.of_eq rfl rfl rfl rfl) (.refl s)

/-- What the owner of an inbound transfer does when it is abandoned. -/
def receiverAbandoned (i : InXfer) (s : State) : State :=
  if i.back then endHarvest .abandoned s
  else if i.isRead then abandonPasses (s.gath.xfers.filter (fun x => i.reads.contains x.id)) s
  else streamAbandoned i (dropFenced i s)

theorem abandonIn_eq (reason : Nat) (tell : Bool) (i : InXfer) (s : State) : abandonIn reason tell i s =
    if s.fab.inn.any i.same then
      let u := receiverAbandoned i (raiseEvent .transferAbandoned i.port (i.detail [(11, 1, reason), (12, 1, 0)]) (closeIn i s))
      if tell then sendAbandon i.src i.xid reason (u.answerPort i.src i.port) u else u
    else s := rfl

theorem shrinks_dropFenced (i : InXfer) (s : State) : Shrinks s (dropFenced i s) := .of_eq rfl rfl rfl rfl

theorem shrinks_receiverAbandoned (i : InXfer) (s : State) : Shrinks s (receiverAbandoned i s) :=
  .ite (shrinks_endHarvest _ s)
    (.ite (shrinks_abandonFor _ _ s) ((shrinks_dropFenced i s).trans (shrinks_streamAbandoned i _)))

/-- What abandoning an inbound transfer under way does after it is closed. -/
theorem shrinks_abandonIn_closed {i : InXfer} {s : State} (h : s.fab.inn.any i.same = true) (reason : Nat) (tell : Bool) :
    Shrinks (closeIn i s) (abandonIn reason tell i s) := by
  rw [abandonIn_eq, if_pos h]
  extract_lets u
  have hu : Shrinks (closeIn i s) u := (Shrinks.raise _ _ _ (closeIn i s)).trans (shrinks_receiverAbandoned i _)
  exact hu.trans (.ite (shrinks_sendAbandon _ _ _ _ u) (.refl u))

theorem shrinks_abandonIn (reason : Nat) (tell : Bool) (i : InXfer) (s : State) : Shrinks s (abandonIn reason tell i s) := by
  by_cases h : s.fab.inn.any i.same = true
  · exact (shrinks_closeIn i s).trans (shrinks_abandonIn_closed h reason tell)
  · rw [abandonIn, if_neg h]
    exact .refl s

/-- An inbound transfer abandoned is no longer open. -/
theorem abandonIn_gone (reason : Nat) (tell : Bool) (i : InXfer) (s : State) :
    ∀ j ∈ (abandonIn reason tell i s).fab.inn, i.same j = false := fun j hj => by
  by_cases h : s.fab.inn.any i.same = true
  · exact closeIn_gone i s j ((shrinks_abandonIn_closed h reason tell).inn hj)
  · rw [abandonIn, if_neg h] at hj
    exact Bool.eq_false_iff.2 fun hs => h (List.any_eq_true.2 ⟨j, hj, hs⟩)

/-! ## Nodes (R275) -/

/-- Nothing is under way with a node, in either direction. -/
def NothingWith (n : Nat) (u : State) : Prop := (∀ o ∈ u.fab.out, o.node ≠ n) ∧ ∀ i ∈ u.fab.inn, i.src ≠ n

theorem NothingWith.mono {n : Nat} {s u : State} (h : NothingWith n s) (k : Shrinks s u) : NothingWith n u :=
  ⟨fun o ho hn => by
    obtain ⟨x, hx, hk⟩ := List.mem_map.1 (k.out (List.mem_map_of_mem ho))
    exact h.1 x hx ((Prod.mk.inj hk).2.trans hn), fun i hi => h.2 i (k.inn hi)⟩

theorem shrinks_abandonNode (node reason : Nat) (s : State) : Shrinks s (abandonNode node reason s) :=
  ((Shrinks.each _ _ s (shrinks_abandonOut reason false)).trans (.each _ _ _ fun _ u => shrinks_abandonLoose _ _ _ _ u)).trans
    (.each _ _ _ (shrinks_abandonIn reason false))

/-- The outgoing transfers of a node, each abandoned. -/
theorem each_abandonOut_none (node reason : Nat) (s : State) :
    ∀ o ∈ (each (s.fab.out.filter (fun o => o.node == node)) (abandonOut reason false) s).fab.out, o.node ≠ node := fun o ho hn => by
  have hs := (Shrinks.each (s.fab.out.filter (fun o => o.node == node)) _ s (shrinks_abandonOut reason false)).out
  obtain ⟨x, hx, hk⟩ := List.mem_map.1 (hs (List.mem_map_of_mem ho))
  have hnode : x.node = node := (Prod.mk.inj hk).2.trans hn
  have hgone := each_reached (fun x u => outName x ∉ u.fab.out.map outName) (s.fab.out.filter (fun o => o.node == node))
    (abandonOut reason false) s (abandonOut_gone reason false) (fun _ y u hu hm => hu ((shrinks_abandonOut reason false y u).out hm))
    (List.mem_filter.2 ⟨hx, by simpa using hnode⟩)
  exact hgone (hk ▸ List.mem_map_of_mem ho)

/-- The inbound transfers of a node, each abandoned. -/
theorem each_abandonIn_none (node reason : Nat) (s : State) :
    ∀ i ∈ (each (s.fab.inn.filter (fun i => i.src == node)) (abandonIn reason false) s).fab.inn, i.src ≠ node := fun i hi hn => by
  have hs := (Shrinks.each (s.fab.inn.filter (fun i => i.src == node)) _ s (shrinks_abandonIn reason false)).inn hi
  have hgone := each_reached (fun (x : InXfer) (u : State) => ∀ j ∈ u.fab.inn, x.same j = false) (s.fab.inn.filter (fun i => i.src == node))
    (abandonIn reason false) s (abandonIn_gone reason false) (fun x y u hu j hj => hu j ((shrinks_abandonIn reason false y u).inn hj))
    (List.mem_filter.2 ⟨hs, by simpa using hn⟩) i hi
  simp [InXfer.same] at hgone

theorem abandonNode_nothing (node reason : Nat) (s : State) : NothingWith node (abandonNode node reason s) := by
  refine ⟨fun o ho hn => ?_, each_abandonIn_none node reason _⟩
  have hs := ((Shrinks.each _ _ _ fun _ u => shrinks_abandonLoose _ _ _ _ u).trans (.each _ _ _ (shrinks_abandonIn reason false))).out
    (List.mem_map_of_mem ho)
  obtain ⟨x, hx, hk⟩ := List.mem_map.1 hs
  exact each_abandonOut_none node reason s x hx ((Prod.mk.inj hk).2.trans hn)

/-! ## A module fault (R383) -/

theorem incarn_faultEffects (c : FaultCause) (s : State) : (faultEffects c s).fab.incarn = s.fab.incarn := by
  have h : (faultRaised c s).fab = s.fab := by rw [faultRaised_frame]
  rw [faultEffects_frame, dropWork_eq]
  show (faultRaised c s).fab.incarn = s.fab.incarn
  rw [h]

/-- A latched fault that is carried out ends every transfer; otherwise nothing happens. -/
theorem checkFault_cases (s : State) : checkFault s = s ∨ ∃ c, s.stw.fault = some c ∧ checkFault s = faultEffects c s := by
  unfold checkFault
  split
  · next c hc =>
    split
    · exact .inl rfl
    · exact .inr ⟨c, hc, rfl⟩
  · exact .inl rfl

theorem shrinks_checkFault (s : State) : Shrinks s (checkFault s) := by
  obtain h | ⟨c, -, h⟩ := checkFault_cases s <;> rw [h]
  · exact .refl s
  · obtain ⟨-, -, hx, ho, hi⟩ := faultEffects_ends c s
    exact ⟨by rw [hx]; exact List.nil_subset _, by rw [ho]; exact List.nil_subset _, by rw [hi]; exact List.nil_subset _,
      incarn_faultEffects c s⟩

theorem shrinks_declareFault (c : FaultCause) (s : State) : Shrinks s (declareFault c s) :=
  (readWork_latchFault c s).toMemWork.shrinks.trans (shrinks_checkFault _)

theorem shrinks_loseId (s : State) : Shrinks s (loseId s) := by
  unfold loseId
  refine .trans (.trans ?_ (.each _ _ _ fun p u => shrinks_abandonPass _ _ _ u)) (shrinks_declareFault _ _)
  exact .of_eq rfl rfl rfl rfl

/-! ## A newer incarnation (R275) -/

theorem incOf_shrinks {s u : State} (h : Shrinks s u) (k : Nat) : u.incOf k = s.incOf k := by rw [State.incOf, State.incOf, h.incarn]

theorem incOf_setInc (node j k : Nat) (s : State) : (setInc node j s).incOf k = if k = node then j % 256 else s.incOf k := by
  unfold State.incOf setInc
  simp only [sget_sput]
  split
  · exact BitVec.toNat_ofNat _ _
  · rfl

/-- A newer incarnation of a node is recorded, and ends everything under way with it. -/
theorem observe_newer {node j : Nat} {s : State} (h : (isNode node && newer j (s.incOf node)) = true) :
    (observe node j s).incOf node = j % 256 ∧ NothingWith node (observe node j s) := by
  rw [observe, if_pos h]
  have hn := abandonNode_nothing node 4 (setInc node j s)
  have hi : (abandonNode node 4 (setInc node j s)).incOf node = j % 256 :=
    (incOf_shrinks (shrinks_abandonNode _ _ _) node).trans ((incOf_setInc node j node s).trans (if_pos rfl))
  extract_lets s1 s2
  have h2 : Shrinks s1 s2 := .ite (shrinks_partnerLost _ s1) (.refl s1)
  have h3 : Shrinks s1 (if node = s2.nodeId then loseId s2 else s2) := h2.trans (.ite (shrinks_loseId s2) (.refl s2))
  exact ⟨(incOf_shrinks h3 node).trans hi, hn.mono h3⟩

end Sys2Proof.Laws
end


section
/-! SUPPORT. The transfers of a number: what an update, a removal and an addition leave of a fact about each of them. A gatherer gives
a number once, but the statements are about every state. -/

namespace Sys2Proof.Laws

set_option Elab.async false

open Sys2Proof Sys2Proof.Machine Sys2Proof.Safety

/-- Every transfer of a number has a property. -/
def AllOf (i : Nat) (p : Xfer → Prop) (u : State) : Prop := ∀ y ∈ u.gath.xfers, y.id = i → p y

theorem mem_updXfer {s : State} {k : Nat} {f : Xfer → Xfer} {y : Xfer} (h : y ∈ (s.updXfer k f).gath.xfers) :
    ∃ z ∈ s.gath.xfers, y = if z.id = k then f z else z := by
  obtain ⟨z, hz, rfl⟩ := List.mem_map.1 h
  exact ⟨z, hz, rfl⟩

section
variable {i k : Nat} {p : Xfer → Prop} {s u : State} {f : Xfer → Xfer}

theorem AllOf.of_xfers (h : AllOf i p s) (hu : u.gath.xfers = s.gath.xfers) : AllOf i p u := by
  rw [AllOf, hu]
  exact h

theorem allOf_of_none (h : u.gath.xfers = []) : AllOf i p u := by
  rw [AllOf, h]
  exact fun _ hy => absurd hy List.not_mem_nil

/-- An update gives each transfer of its number what it gives any. -/
theorem allOf_updXfer (hp : ∀ y, p (f y)) : AllOf k p (s.updXfer k f) := by
  intro y hy hk
  obtain ⟨z, -, rfl⟩ := mem_updXfer hy
  split at hk
  · rw [if_pos ‹_›]
    exact hp z
  · contradiction

/-- An update that keeps a property of the transfers of its own number keeps it of those of any. -/
theorem AllOf.updXfer (h : AllOf i p s) (hid : ∀ y, (f y).id = y.id) (hp : k = i → ∀ y, p y → p (f y)) :
    AllOf i p (s.updXfer k f) := by
  intro y hy hi
  obtain ⟨z, hz, rfl⟩ := mem_updXfer hy
  split at hi
  · next hk =>
    rw [if_pos hk]
    rw [hid] at hi
    exact hp (hk.symm.trans hi) z (h z hz hi)
  · next hk =>
    rw [if_neg hk]
    exact h z hz hi

theorem AllOf.dropXfer (h : AllOf i p s) (k : Nat) : AllOf i p (s.dropXfer k) :=
  fun y hy hi => h y (List.mem_of_mem_filter hy) hi

/-- A transfer taken off the list stands there no longer. -/
theorem dropXfer_gone (k : Nat) (s : State) : k ∉ (s.dropXfer k).gath.xfers.map (·.id) := fun hm => by
  obtain ⟨y, hy, hk⟩ := List.mem_map.1 hm
  simpa [hk] using (List.mem_filter.1 hy).2

theorem allOf_dropXfer : AllOf k p (s.dropXfer k) := fun y hy hk => absurd (List.mem_map.2 ⟨y, hy, hk⟩) (dropXfer_gone k s)

/-- A transfer that is added has a number of its own. -/
theorem AllOf.addXfer (h : AllOf i p s) (hi : i < s.gath.nextId) (c : MoveCtx) (mpa : Nat) (bins : List Nat) (lines : Nat)
    (data : List Byte) (block : Option (Nat × Nat)) : AllOf i p (addXfer c mpa bins lines data block s) := by
  intro y hy hid
  obtain hy | hy := List.mem_append.1 hy
  · exact h y hy hid
  · obtain rfl := List.mem_singleton.1 hy
    exact absurd hid (Nat.ne_of_gt hi)

end

end Sys2Proof.Laws
end


section
/-! The statement about BUFFER_CYCLE (R209). -/

namespace Sys2Proof.Laws

set_option Elab.async false

open Sys2Proof Sys2Proof.Machine Sys2Proof.Safety

/-! ## The victim -/

/-- The one of two that goes before the other, the earlier one where neither does. -/
def pick {α : Type} (before : α → α → Bool) (b : Option α) (x : α) : Option α :=
  match b with
  | none => some x
  | some y => if before x y then some x else some y

/-- A fold that keeps the one that goes before picks. -/
theorem foldl_eq_pick {α : Type} (before : α → α → Bool) {f : Option α → α → Option α} (hn : ∀ x, f none x = some x)
    (hs : ∀ y x, f (some y) x = if before x y then some x else some y) (l : List α) :
    l.foldl f none = l.foldl (pick before) none := by
  have hf : f = pick before := by
    funext b x
    cases b with
    | none => exact hn x
    | some y => exact hs y x
  rw [hf]

theorem foldl_pick_mem {α : Type} (before : α → α → Bool) (l : List α) (y : α) :
    ∃ v ∈ y :: l, l.foldl (pick before) (some y) = some v := by
  induction l generalizing y with
  | nil => exact ⟨y, List.mem_singleton_self y, rfl⟩
  | cons x l ih =>
    rw [List.foldl_cons, pick]
    split
    · obtain ⟨v, hv, h⟩ := ih x
      exact ⟨v, List.mem_cons_of_mem y hv, h⟩
    · obtain ⟨v, hv, h⟩ := ih y
      exact ⟨v, (List.cons_sublist_cons.2 (List.sublist_cons_self x l)).subset hv, h⟩

/-- What is picked stands in the list. -/
theorem mem_of_pick {α : Type} {before : α → α → Bool} {l : List α} {v : α} (h : l.foldl (pick before) none = some v) : v ∈ l := by
  cases l with
  | nil => contradiction
  | cons y l =>
    obtain ⟨w, hw, hpick⟩ := foldl_pick_mem before l y
    obtain rfl : w = v := Option.some.inj (hpick.symm.trans h)
    exact hw

/-- An order of which no two go before each other, and in which what is not before something is not before what that is not
before. -/
structure Ranks {α : Type} (before : α → α → Bool) : Prop where
  asymm : ∀ x y, before x y = true → before y x = false
  trans : ∀ x y z, before x y = false → before y z = false → before x z = false

/-- Nothing goes before what is picked. -/
theorem Ranks.pick_first {α : Type} {before : α → α → Bool} (hr : Ranks before) {l : List α} {v : α}
    (h : l.foldl (pick before) none = some v) : ∀ x ∈ l, before x v = false := by
  have hself (x : α) : before x x = false := Bool.eq_false_iff.2 fun hx => by simpa [hx] using hr.asymm x x hx
  have hfold (y : α) (l : List α) (h : l.foldl (pick before) (some y) = some v) : ∀ x ∈ y :: l, before x v = false := by
    induction l generalizing y with
    | nil =>
      obtain rfl := Option.some.inj h
      simpa using hself y
    | cons z l ih =>
      rw [List.foldl_cons, pick] at h
      intro x hx
      split at h
      · next hzy =>
        have hl := ih z h
        obtain rfl | hx := List.mem_cons.1 hx
        · exact hr.trans _ _ _ (hr.asymm _ _ hzy) (hl z List.mem_cons_self)
        · exact hl x hx
      · next hzy =>
        have hl := ih y h
        obtain rfl | hx := List.mem_cons.1 hx
        · exact hl _ List.mem_cons_self
        · obtain rfl | hx := List.mem_cons.1 hx
          · exact hr.trans _ _ _ (Bool.eq_false_iff.2 hzy) (hl y List.mem_cons_self)
          · exact hl x (List.mem_cons_of_mem y hx)
  cases l with
  | nil => exact fun x hx => absurd hx List.not_mem_nil
  | cons y l => exact hfold y l h

/-- When one stream is not a victim before another: higher priority, and then earlier pass, lower tile, lower stream and older move. -/
theorem victim_eq_false (x y : Xfer) : x.victim y = false ↔ y.prio < x.prio ∨ x.prio = y.prio ∧ (x.pass < y.pass ∨
    x.pass = y.pass ∧ (x.tile < y.tile ∨ x.tile = y.tile ∧ (x.stream < y.stream ∨ x.stream = y.stream ∧ x.move ≤ y.move))) := by
  unfold Xfer.victim
  split_ifs <;> simp only [decide_eq_false_iff_not] <;> omega

theorem ranks_victim : Ranks Xfer.victim where
  asymm x y h := by
    have hxy : ¬ x.victim y = false := by simp [h]
    rw [victim_eq_false] at hxy ⊢
    omega
  trans x y z hxy hyz := by
    rw [victim_eq_false] at hxy hyz ⊢
    omega

/-! ## The cancelled GET -/

/-- A cancelled transfer waits again without a tag, to be fetched when its GET issues. -/
def Refetched (z : Xfer) : Prop := z.st = .waiting ∧ z.reserve = none ∧ z.refetch = true

/-- A transfer's request leaves its controller's queue. -/
def unqueueXfer (x : Xfer) (s : State) : State :=
  match mpaWindow x.mpa with
  | some (p, _) => if x.node = 0 then s.updDev p (fun d => { d with queue := d.queue.filter (· ≠ x.id) }) else s
  | none => s

/-- A transfer waits again. -/
def waitAgain (now : Nat) (y : Xfer) : Xfer :=
  { y with reserve := none, st := .waiting, data := [], detected := [], refetch := true, since := now }

theorem refetchXfer_eq (x : Xfer) (s : State) : refetchXfer x s =
    if x.node = 0 && x.block.any (·.2 ≠ 0) then (unqueueXfer x s).dropXfer x.id
    else (unqueueXfer x s).updXfer x.id (waitAgain (unqueueXfer x s).cyc) := rfl

theorem unqueueXfer_frame (x : Xfer) (s : State) : unqueueXfer x s = { s with memory := (unqueueXfer x s).memory } := by
  unfold unqueueXfer
  split
  · split <;> rfl
  · rfl

theorem allOf_refetchXfer (x : Xfer) (s : State) : AllOf x.id Refetched (refetchXfer x s) := by
  rw [refetchXfer_eq]
  split
  · exact allOf_dropXfer
  · exact allOf_updXfer fun _ => ⟨rfl, rfl, rfl⟩

theorem AllOf.refetchXfer {i : Nat} {s : State} (h : AllOf i Refetched s) (x : Xfer) : AllOf i Refetched (Machine.refetchXfer x s) := by
  have hu : AllOf i Refetched (unqueueXfer x s) := h.of_xfers (by rw [unqueueXfer_frame])
  rw [refetchXfer_eq]
  split
  · exact hu.dropXfer x.id
  · exact hu.updXfer (fun _ => rfl) fun _ _ _ => ⟨rfl, rfl, rfl⟩

theorem regs_refetchXfer (x : Xfer) (s : State) : (refetchXfer x s).regs = s.regs := by
  have hu : (unqueueXfer x s).regs = s.regs := by rw [unqueueXfer_frame]
  rw [refetchXfer_eq]
  split <;> exact hu

/-- A transfer's packet of the fresh read. -/
def renumber (xid k : Nat) (x : Xfer) : Xfer := { x with block := some (xid, k) }

theorem AllOf.renewRead {i : Nat} {s : State} (h : AllOf i Refetched s) (xs : List Xfer) : AllOf i Refetched (Machine.renewRead xs s) := by
  unfold Machine.renewRead
  split
  · exact h
  · exact each_keeps (AllOf i Refetched) _ _ _ h fun z u hu => hu.updXfer (f := renumber _ _) (fun _ => rfl) fun _ _ => id

theorem regs_renewRead (xs : List Xfer) (s : State) : (renewRead xs s).regs = s.regs := by
  unfold renewRead
  split
  · rfl
  · exact each_keeps (fun u : State => u.regs = s.regs) _ _ _ rfl fun _ _ hu => hu

/-! ## The statement -/

/-- The GET that a transfer belongs to. -/
def getOf (s : State) (v : Xfer) : List Xfer :=
  s.gath.xfers.filter (fun x => x.pass == v.pass && x.tile == v.tile && x.move == v.move && !x.write)

/-- A GET is cancelled, and its gatherer's window starts afresh. -/
def getCancelled (g : Nat) (xs : List Xfer) (s : State) : State :=
  let u := renewRead xs (each xs refetchXfer s)
  { u with gath := { u.gath with window := serase u.gath.window g } }

theorem allOf_getCancelled (g : Nat) {xs : List Xfer} {x : Xfer} (hx : x ∈ xs) (s : State) :
    AllOf x.id Refetched (getCancelled g xs s) := by
  have h := each_reached (fun (x : Xfer) u => AllOf x.id Refetched u) xs refetchXfer s allOf_refetchXfer
    (fun x y u hu => hu.refetchXfer y) hx
  exact h.renewRead xs

theorem regs_getCancelled (g : Nat) (xs : List Xfer) (s : State) : (getCancelled g xs s).regs = s.regs :=
  (regs_renewRead xs _).trans (each_keeps (fun u : State => u.regs = s.regs) xs refetchXfer s rfl
    fun x u hu => (regs_refetchXfer x u).trans hu)

/-- What the cancelling of a GET counts, and its event. -/
def cycleCounted (g n : Nat) (d : BitVec 128) (s : State) : State :=
  raiseEvent .bufferCycle g d ((s.inc .gthCycleBytes n g).inc .gthCycles 1 g)

theorem gath_cycleCounted (g n : Nat) (d : BitVec 128) (s : State) : (cycleCounted g n d s).gath = s.gath := by
  rw [cycleCounted, raiseEvent_frame]
  rfl

theorem counted_cycleCounted {g : Nat} (hg : g < 48) (n : Nat) (d : BitVec 128) (s : State) :
    Counted s (cycleCounted g n d s) .gthCycles g ∧ Safety.Counted s (cycleCounted g n d s) .evtRaised := by
  have hoff (m : RegName) (k : Nat) (h : m = .gthCycles ∧ k = g ∨ m = .evtRaised ∧ k = 0) :
      Reg.offset ⟨m, k, 0⟩ ≠ Reg.offset ⟨.gthCycleBytes, g, 0⟩ := by
    obtain ⟨rfl, rfl⟩ | ⟨rfl, rfl⟩ := h <;> simp only [Reg.offset, RegName.row, row0, row1] <;> omega
  constructor
  · have hevent : (cycleCounted g n d s).rg .gthCycles g = ((s.inc .gthCycleBytes n g).inc .gthCycles 1 g).rg .gthCycles g :=
      rg_regsKept (raiseEvent_regs _ _ _ _) .gthCycles g 0 fun hm => by
        simp only [eventRegs, recordRegs, List.map_cons, List.map_nil, List.mem_cons, List.not_mem_nil, Reg.offset, RegName.row,
          row0, row1, or_false] at hm
        omega
    rw [Safety.Counted, hevent, rg_inc, State.inc, rg_setRg_other _ _ _ _ _ _ _ _ (hoff _ _ (.inl ⟨rfl, rfl⟩))]
  · have hcount : ((s.inc .gthCycleBytes n g).inc .gthCycles 1 g).rg .evtRaised = s.rg .evtRaised := by
      rw [State.inc, rg_setRg_other _ _ _ _ _ _ _ _ (by simp only [Reg.offset, RegName.row, row0, row1]; omega), State.inc,
        rg_setRg_other _ _ _ _ _ _ _ _ (hoff _ _ (.inr ⟨rfl, rfl⟩))]
    rw [Safety.Counted, ← hcount]
    exact counted_raiseEvent _ _ _ _

/-- The buffer cycle, once its conditions have held for the window. -/
theorem bufferCycleOp_eq {g since : Nat} {s : State} {v : Xfer} (ha : s.alive = true) (hw : sfind s.gath.window g = some since)
    (hc : since + 4096 ≤ s.cyc) (hn : s.cycleNow g = true) (hv : (s.sharedTagged g).foldl (pick Xfer.victim) none = some v) :
    ∃ n d, bufferCycleOp g s = cycleCounted g n d (getCancelled g (getOf s v) s) := by
  have hlate : ¬ s.cyc < since + cycleWindow := Nat.not_lt.2 hc
  unfold bufferCycleOp
  simp only [hw]
  rw [if_neg (by simp [ha, hlate, hn])]
  split
  · next h =>
    rw [foldl_eq_pick Xfer.victim (fun _ => rfl) (fun _ _ => rfl), hv] at h
    contradiction
  · next h =>
    rw [foldl_eq_pick Xfer.victim (fun _ => rfl) (fun _ _ => rfl), hv] at h
    obtain rfl := Option.some.inj h
    exact ⟨_, _, rfl⟩

/-- Settles O14: the fold over the holders of shared tags picks one that none precedes, each transfer of its GET waits again or goes,
and the counts and the event touch no transfer. -/
theorem bufferCycleCancelsOneVictim : Obligations.BufferCycleCancelsOneVictim := by
  intro s g since hg ha hw hc hn hne
  obtain ⟨y, l, hl⟩ := List.exists_cons_of_ne_nil hne
  obtain ⟨v, -, hv⟩ := foldl_pick_mem Xfer.victim l y
  have hv : (s.sharedTagged g).foldl (pick Xfer.victim) none = some v := by rw [hl]; exact hv
  obtain ⟨n, d, hop⟩ := bufferCycleOp_eq ha hw hc hn hv
  obtain ⟨hcycles, hevents⟩ := counted_cycleCounted (of_decide_eq_true hg) n d (getCancelled g (getOf s v) s)
  have hregs (m : RegName) (k : Nat) : (getCancelled g (getOf s v) s).rg m k = s.rg m k := by
    rw [State.rg, State.rgQ, regs_getCancelled]
    rfl
  refine ⟨_, rfl, v, mem_of_pick hv, ranks_victim.pick_first hv, fun x hx hp ht hm hwr => ?_, ?_, ?_, ?_⟩ <;> rw [hop]
  · have hmine : x ∈ getOf s v := List.mem_filter.2 ⟨hx, by simp [hp, ht, hm, hwr]⟩
    exact (allOf_getCancelled g hmine s).of_xfers (by rw [gath_cycleCounted])
  · rw [gath_cycleCounted]
    exact (sfind_serase g g _).trans (if_pos rfl)
  · rw [← hregs]
    exact hcycles
  · rw [← hregs]
    exact hevents

end Sys2Proof.Laws
end


section
/-! SUPPORT. The granting of tags: what a grant and the sending of a group make of the transfers of a number, and of the group of a
transfer that alone makes its packet (R204, R207, R232, R261). -/

namespace Sys2Proof.Laws

set_option Elab.async false

open Sys2Proof Sys2Proof.Machine Sys2Proof.Safety

/-! ## One grant -/

/-- A transfer with a tag. -/
def withTag (r : Bool) (y : Xfer) : Xfer := { y with reserve := some r }

/-- A requested transfer, a write with its bytes. -/
def asked (d : List Byte) (y : Xfer) : Xfer := { y with st := .requested, data := d }

/-- The bytes that a transfer is requested with. -/
def captured (x : Xfer) (s : State) : List Byte := if x.write then captureData x s else []

theorem gath_grantTag (x : Xfer) (r : Bool) (s : State) : (grantTag x r s).gath = (s.updXfer x.id (withTag r)).gath := rfl

theorem requestXfer_frame (x : Xfer) (s : State) :
    requestXfer x s = { s.updXfer x.id (asked (captured x s)) with regs := (requestXfer x s).regs } := by
  unfold requestXfer captured
  simp only
  split <;> rfl

theorem gath_requestXfer (x : Xfer) (s : State) : (requestXfer x s).gath = (s.updXfer x.id (asked (captured x s))).gath := by
  rw [requestXfer_frame]

theorem fab_requestXfer (x : Xfer) (s : State) : (requestXfer x s).fab = s.fab := by
  rw [requestXfer_frame]
  rfl

theorem requestLocal_frame (x : Xfer) (r : Bool) (s : State) :
    requestLocal x r s = { requestXfer x (grantTag x r s) with memory := (requestLocal x r s).memory } := by
  unfold requestLocal
  split <;> rfl

/-- What a grant gives: a local transfer its tag and its request, a remote one its tag. -/
def granted (x : Xfer) (r : Bool) (s : State) : State := if x.node ≠ 0 then grantTag x r s else requestLocal x r s

theorem granted_remote {x : Xfer} (h : x.node ≠ 0) (r : Bool) (s : State) : granted x r s = grantTag x r s := if_pos h

theorem gath_requestLocal (x : Xfer) (r : Bool) (s : State) :
    (requestLocal x r s).gath = ((grantTag x r s).updXfer x.id (asked (captured x s))).gath := by
  rw [requestLocal_frame]
  exact gath_requestXfer x (grantTag x r s)

theorem fab_granted (x : Xfer) (r : Bool) (s : State) : (granted x r s).fab = s.fab := by
  unfold granted
  split
  · rfl
  · rw [requestLocal_frame, requestXfer_frame]
    rfl

/-- The transfer that is granted next waits at its gatherer, without a tag, and can draw one. -/
theorem nextGrant_spec {s : State} {g : Nat} {x : Xfer} (h : s.nextGrant g = some x) :
    x ∈ s.gath.xfers ∧ x.gath = g ∧ x.st = .waiting ∧ x.reserve = none := by
  unfold State.nextGrant at h
  rw [foldl_eq_pick Xfer.before (fun _ => rfl) (fun _ _ => rfl)] at h
  obtain ⟨hx, hg⟩ := List.mem_filter.1 (mem_of_pick h)
  simp only [Bool.and_eq_true, beq_iff_eq, State.mayRequest, decide_eq_true_eq, Option.isNone_iff_eq_none] at hg
  exact ⟨hx, hg.1.1, hg.1.2.1.1.1, hg.1.2.1.1.2⟩

/-- The first of a gatherer's grants. -/
theorem grants_succ {g : Nat} {s : State} {x : Xfer} {r : Bool} (n : Nat) (hx : s.nextGrant g = some x) (hr : s.tagFor x = some r) :
    grants (n + 1) g s = grants n g (granted x r s) := by
  simp only [grants, hx, hr]
  rfl

/-- What each grant keeps, all of a gatherer's grants keep. -/
theorem grants_keeps (p : State → Prop) (n g : Nat) {s : State} (hs : p s)
    (hp : ∀ u z r, z ∈ u.gath.xfers → z.reserve = none → p u → p (granted z r u)) : p (grants n g s) := by
  induction n generalizing s with
  | zero => exact hs
  | succ n ih =>
    unfold grants
    split
    · exact hs
    · next z hz =>
      split
      · obtain ⟨hmem, -, -, hnone⟩ := nextGrant_spec hz
        exact ih (hp s z _ hmem hnone hs)
      · exact hs

/-! ## Groups (R261) -/

/-- The waiting transfers of a group. -/
def groupOf (node : Nat) (b : Nat × Nat) (s : State) : List Xfer :=
  s.gath.xfers.filter (fun x => x.st = .waiting && x.node == node && x.block == some b)

/-- The first transfers of a group that hold their tags. -/
def readyOf (node : Nat) (b : Nat × Nat) (s : State) : List Xfer := (groupOf node b s).takeWhile (fun x => x.reserve.isSome)

theorem mem_groupOf {node : Nat} {b : Nat × Nat} {s : State} {z : Xfer} (h : z ∈ readyOf node b s) :
    z ∈ s.gath.xfers ∧ z.st = .waiting ∧ z.node = node ∧ z.block = some b := by
  obtain ⟨hz, hg⟩ := List.mem_filter.1 ((List.takeWhile_sublist _).subset h)
  simp only [Bool.and_eq_true, decide_eq_true_eq, beq_iff_eq] at hg
  exact ⟨hz, hg.1.1, hg.1.2, hg.2⟩

/-- The packet of a group leaves: each ready transfer is requested, and the packet is queued. -/
def groupSent (node : Nat) (b : Nat × Nat) (write : Bool) (s : State) : State :=
  let u := each (readyOf node b s) requestXfer s
  if write then sendWrite node b.1 (readyOf node b s) u else sendRead node b.1 (readyOf node b s) u

/-- Whether the rest of a group does not keep its first transfers back: none is left, or the next can draw no tag. -/
def restStuck (node : Nat) (b : Nat × Nat) (s : State) : Bool :=
  match (groupOf node b s).drop (readyOf node b s).length with
  | [] => true
  | x :: _ => (s.tagFor x).isNone

theorem sendGroup_eq (node : Nat) (b : Nat × Nat) (s : State) : sendGroup node b s =
    match readyOf node b s with
    | [] => s
    | x :: _ => if !restStuck node b s then s else groupSent node b x.write s := rfl

/-- A group is sent, or waits. -/
theorem sendGroup_cases (node : Nat) (b : Nat × Nat) (s : State) :
    sendGroup node b s = s ∨ ∃ w, sendGroup node b s = groupSent node b w s := by
  rw [sendGroup_eq]
  split
  · exact .inl rfl
  · next x _ _ =>
    split
    · exact .inl rfl
    · exact .inr ⟨x.write, rfl⟩

/-- A group of one transfer, which holds its tag, is sent. -/
theorem sendGroup_alone {x : Xfer} {node : Nat} {b : Nat × Nat} {s : State} (h : groupOf node b s = [x]) (hr : x.reserve.isSome = true) :
    readyOf node b s = [x] ∧ sendGroup node b s = groupSent node b x.write s := by
  have hready : readyOf node b s = [x] := by simp [readyOf, h, hr]
  have hstuck : restStuck node b s = true := by simp [restStuck, h, hready]
  exact ⟨hready, by simp [sendGroup_eq, hready, hstuck]⟩

/-! ## What the sending of a group leaves (R261) -/

/-- Transfers of a move take the number of their packet. -/
def renumbered (xs : List Xfer) (xid k : Nat) (s : State) : State := each xs (fun x s => s.updXfer x.id (renumber xid k)) s

theorem fab_renumbered (xs : List Xfer) (xid k : Nat) (s : State) : (renumbered xs xid k s).fab = s.fab :=
  each_keeps (fun u => u.fab = s.fab) xs (fun x s => s.updXfer x.id (renumber xid k)) s rfl fun _ _ hu => hu

/-- A packet of a type leaves for transfers of a move: they take its number, it is queued, and the queues only grow. -/
structure Leaves (node xid type : Nat) (xs : List Xfer) (s u : State) : Prop where
  gath : ∃ k, u.gath = (renumbered xs xid k s).gath
  queued : Queued u node xid type
  queues : ∀ q, (s.port q).txq ⊆ (u.port q).txq
  out : u.fab.out.map outName = s.fab.out.map outName

theorem leaves_enqueue {node xid type port k : Nat} {xs : List Xfer} {s v : State} {o : OutPacket}
    (hg : v.gath = (renumbered xs xid k s).gath) (hp : v.fab.ports = s.fab.ports) (ho : v.fab.out.map outName = s.fab.out.map outName)
    (hn : o.node = node) (hx : o.xid = xid) (ht : o.type = type) : Leaves node xid type xs s (enqueue port [o] v) where
  gath := ⟨k, hg⟩
  queued := ⟨port, o, by rw [txq_enqueue, if_pos rfl]; exact List.mem_append_right _ List.mem_cons_self, hn, hx, ht⟩
  queues q := by
    rw [txq_enqueue, State.port, State.port, hp]
    exact List.subset_append_left _ _
  out := ho

theorem leaves_sendRead (node xid : Nat) (xs : List Xfer) (s : State) : Leaves node xid 0x02 xs s (sendRead node xid xs s) := by
  have hf (k : Nat) := fab_renumbered xs xid k s
  unfold sendRead
  extract_lets a n open? k last s1 flags p fresh
  have hs : s1.fab = s.fab := hf k
  exact leaves_enqueue (k := k) rfl (by rw [← hs]) (by rw [← hs]) rfl rfl (type_bytes _ (by simp [p, State.ownPacket]))

/-- A packet of a write leaves, unless its transfer has ended. -/
theorem leaves_sendWrite (node xid : Nat) (xs : List Xfer) (s : State) :
    (s.fab.out.any (fun o => o.xid == xid && o.node == node) = false ∧ sendWrite node xid xs s = s) ∨
      Leaves node xid 0x01 xs s (sendWrite node xid xs s) := by
  unfold sendWrite
  split
  · next hn => exact .inl ⟨by simpa using hn, rfl⟩
  · next o ho =>
    right
    have hf := fab_renumbered xs xid o.packets s
    extract_lets _ last s1 data a after flags p s2
    have hs : s1.fab = s.fab := hf
    refine leaves_enqueue (k := o.packets) rfl ?_ ?_ rfl rfl (type_bytes _ (by simp [p, State.ownPacket]))
    · change s1.fab.ports = _
      rw [hs]
    · change (s1.fab.out.map _).map outName = _
      rw [hs, List.map_map]
      refine List.map_congr_left fun y _ => ?_
      simp only [Function.comp_apply]
      split <;> rfl

/-- A transfer has been requested. -/
def Requested (y : Xfer) : Prop := y.st = .requested

theorem allOf_requestXfer (x : Xfer) (s : State) : AllOf x.id Requested (requestXfer x s) :=
  (allOf_updXfer (f := asked (captured x s)) fun _ => rfl).of_xfers (by rw [gath_requestXfer])

theorem AllOf.requestXfer {i : Nat} {s : State} (h : AllOf i Requested s) (x : Xfer) : AllOf i Requested (Machine.requestXfer x s) :=
  (h.updXfer (k := x.id) (f := asked (captured x s)) (fun _ => rfl) fun _ _ _ => rfl).of_xfers (by rw [gath_requestXfer])

/-- The transfers of a sent group are requested. -/
theorem allOf_requested {xs : List Xfer} {z : Xfer} (h : z ∈ xs) (s : State) : AllOf z.id Requested (each xs requestXfer s) :=
  each_reached (fun z u => AllOf z.id Requested u) xs requestXfer s allOf_requestXfer
    (fun x y u (hu : AllOf x.id Requested u) => hu.requestXfer y) h

theorem AllOf.renumbered {i : Nat} {s : State} (h : AllOf i Requested s) (xs : List Xfer) (xid k : Nat) :
    AllOf i Requested (Laws.renumbered xs xid k s) :=
  each_keeps (AllOf i Requested) xs (fun x s => s.updXfer x.id (renumber xid k)) s h fun _ _ hu =>
    hu.updXfer (fun _ => rfl) fun _ _ hy => hy

theorem each_keeps_mem {β : Type} (p : State → Prop) (l : List β) (f : β → State → State) (s : State) (h : p s)
    (hf : ∀ x ∈ l, ∀ u, p u → p (f x u)) : p (each l f s) := by
  induction l generalizing s with
  | nil => exact h
  | cons x l ih => exact ih (f x s) (hf x List.mem_cons_self s h) fun y hy => hf y (List.mem_cons_of_mem x hy)

/-- A group waits, its transfers are requested while the transfer has ended, or its packet leaves. -/
theorem sendGroup_leaves (node : Nat) (b : Nat × Nat) (s : State) :
    let u := each (readyOf node b s) requestXfer s
    sendGroup node b s = s ∨ sendGroup node b s = u ∨ ∃ t, Leaves node b.1 t (readyOf node b s) u (sendGroup node b s) := by
  intro u
  obtain h | ⟨w, h⟩ := sendGroup_cases node b s
  · exact .inl h
  right
  rw [h, groupSent]
  split
  · obtain ⟨-, hw⟩ | hw := leaves_sendWrite node b.1 (readyOf node b s) u
    · exact .inl hw
    · exact .inr ⟨_, hw⟩
  · exact .inr ⟨_, leaves_sendRead _ _ _ _⟩

/-- What requests keep of the transfers, and new packet numbers of requested transfers keep, sending a group keeps. -/
theorem sendGroup_keeps (p : State → Prop) {node : Nat} {b : Nat × Nat} {s : State} (hs : p s)
    (hof : ∀ u v, v.gath.xfers = u.gath.xfers → p u → p v)
    (hask : ∀ z ∈ readyOf node b s, ∀ u d, p u → p (u.updXfer z.id (asked d)))
    (hren : ∀ z ∈ readyOf node b s, ∀ u xid k, AllOf z.id Requested u → p u → p (u.updXfer z.id (renumber xid k))) :
    p (sendGroup node b s) := by
  have hr : p (each (readyOf node b s) requestXfer s) := each_keeps_mem p _ _ _ hs fun z hz u hu =>
    hof _ _ (by rw [gath_requestXfer]) (hask z hz u (captured z u) hu)
  have hn (k : Nat) : p (renumbered (readyOf node b s) b.1 k (each (readyOf node b s) requestXfer s)) :=
    (each_keeps_mem (fun u => p u ∧ ∀ z ∈ readyOf node b s, AllOf z.id Requested u) (readyOf node b s)
      (fun x s => s.updXfer x.id (renumber b.1 k)) _ ⟨hr, fun z hz => allOf_requested hz s⟩ fun z hz u hu =>
        ⟨hren z hz u b.1 k (hu.2 z hz) hu.1, fun y hy => (hu.2 y hy).updXfer (fun _ => rfl) fun _ _ h => h⟩).1
  obtain h | h | ⟨t, h⟩ := sendGroup_leaves node b s
  · rwa [h]
  · rwa [h]
  · obtain ⟨k, hk⟩ := h.gath
    exact hof _ _ (by rw [hk]) (hn k)

/-- Sending a group only adds to the queues, and leaves the names of the transfers under way. -/
theorem sendGroup_fab (node : Nat) (b : Nat × Nat) (s : State) :
    (∀ q, (s.port q).txq ⊆ ((sendGroup node b s).port q).txq) ∧
      (sendGroup node b s).fab.out.map outName = s.fab.out.map outName := by
  have hu : (each (readyOf node b s) requestXfer s).fab = s.fab :=
    each_keeps (fun u => u.fab = s.fab) _ _ s rfl fun x u hu => (fab_requestXfer x u).trans hu
  obtain h | h | ⟨t, h⟩ := sendGroup_leaves node b s
  · rw [h]
    exact ⟨fun _ => List.Subset.refl _, rfl⟩
  · simp only [h, State.port, hu]
    exact ⟨fun _ => List.Subset.refl _, trivial⟩
  · exact ⟨fun q => by simpa only [State.port, hu] using h.queues q, by rw [h.out, hu]⟩

/-- The groups of a gatherer in which a waiting transfer holds its tag. -/
def groupsOf (g : Nat) (s : State) : List (Nat × (Nat × Nat)) :=
  s.gath.xfers.filterMap (fun x =>
    if x.gath = g && x.st = .waiting && x.node ≠ 0 && x.reserve.isSome then x.block.map (fun b => (x.node, b)) else none)

theorem sendGroups_eq (g : Nat) (s : State) :
    sendGroups g s = each (groupsOf g s).dedup (fun y u => sendGroup y.1 y.2 u) s := rfl

theorem sendGroups_keeps (p : State → Prop) {g : Nat} {s : State} (hs : p s) (h : ∀ node b u, p u → p (sendGroup node b u)) :
    p (sendGroups g s) := by
  rw [sendGroups_eq]
  exact each_keeps p _ _ s hs fun y u hu => h y.1 y.2 u hu

/-- A transfer that waits with its tag stands in one of its gatherer's groups. -/
theorem mem_groupsOf {g : Nat} {s : State} {x : Xfer} {b : Nat × Nat} (hx : x ∈ s.gath.xfers) (hg : x.gath = g)
    (hw : x.st = .waiting) (hn : x.node ≠ 0) (hr : x.reserve.isSome = true) (hb : x.block = some b) : (x.node, b) ∈ groupsOf g s :=
  List.mem_filterMap.2 ⟨x, hx, by simp [hg, hw, hn, hr, hb]⟩

/-! ## Signals leave behind their writes (R232) -/

theorem gath_sendRemoteSignal (x : PendSig) (s : State) : (sendRemoteSignal x s).gath = s.gath := by
  unfold sendRemoteSignal
  split <;> rfl

/-- A signal is taken off the list of those on their way. -/
def signalTaken (x : PendSig) (s : State) : State :=
  { s with sync := { s.sync with signals := s.sync.signals.filter (· ≠ x) } }

theorem sendRemoteSignals_eq (s : State) : sendRemoteSignals s =
    each (s.sync.signals.filter fun x => x.node ≠ 0 && s.fenceMet x) (fun x u => sendRemoteSignal x (signalTaken x u)) s := rfl

theorem gath_sendRemoteSignals (s : State) : (sendRemoteSignals s).gath = s.gath := by
  rw [sendRemoteSignals_eq]
  exact each_keeps (fun u => u.gath = s.gath) _ _ s rfl fun x u hu => (gath_sendRemoteSignal x (signalTaken x u)).trans hu

theorem type_lt (b : List Byte) : numIn b 0 1 < 256 := by
  cases b with
  | nil => decide
  | cons x xs => simpa [numIn, leNat] using x.isLt

/-- A packet that waits still waits when a signal joins the queues, whose packet it may carry. -/
theorem Queued.sendRemoteSignal {s : State} {node xid type : Nat} (h : Queued s node xid type) (x : PendSig) :
    Queued (Machine.sendRemoteSignal x s) node xid type := by
  obtain ⟨q, o, ho, hn, hx, ht⟩ := h
  unfold Machine.sendRemoteSignal
  split
  · next c _ =>
    extract_lets before after one put
    have hput : (put o).node = o.node ∧ (put o).xid = o.xid ∧ (put o).type = o.type := by
      simp only [put]
      split
      · exact ⟨rfl, rfl, type_bytes _ (type_lt o.bytes)⟩
      · exact ⟨rfl, rfl, rfl⟩
    obtain ⟨hpn, hpx, hpt⟩ := hput
    by_cases hq : q = c.port
    · exact ⟨q, put o, by rw [port_updPort, if_pos hq]; exact List.mem_map_of_mem (hq ▸ ho), hpn.trans hn, hpx.trans hx, hpt.trans ht⟩
    · exact ⟨q, o, by rw [port_updPort, if_neg hq]; exact ho, hn, hx, ht⟩
  · extract_lets xid s1
    exact ⟨q, o, by rw [txq_enqueue]; exact List.mem_append_left _ ho, hn, hx, ht⟩

theorem Queued.sendRemoteSignals {s : State} {node xid type : Nat} (h : Queued s node xid type) :
    Queued (Machine.sendRemoteSignals s) node xid type := by
  rw [sendRemoteSignals_eq]
  exact each_keeps (fun u => Queued u node xid type) _ _ s h fun x u (hu : Queued (signalTaken x u) node xid type) =>
    Queued.sendRemoteSignal hu x

end Sys2Proof.Laws
end


section
/-! SUPPORT. What TAG_GRANT makes of the transfer that it prefers, and of one that alone makes its packet (R204, R207, R261). -/

namespace Sys2Proof.Laws

set_option Elab.async false

open Sys2Proof Sys2Proof.Machine Sys2Proof.Safety

/-! ## The granted transfer -/

/-- What a grant makes of the transfers: the tag, and of a local one the request. -/
theorem granted_keeps (p : State → Prop) {z : Xfer} {r : Bool} {s : State} (hs : p s)
    (hof : ∀ u v, v.gath.xfers = u.gath.xfers → p u → p v) (htag : ∀ u, p u → p (u.updXfer z.id (withTag r)))
    (hask : ∀ u d, p u → p (u.updXfer z.id (asked d))) : p (granted z r s) := by
  have ht : p (grantTag z r s) := hof _ _ (by rw [gath_grantTag]) (htag s hs)
  unfold granted
  split
  · exact ht
  · exact hof _ _ (by rw [gath_requestLocal]) (hask _ (captured z s) ht)

/-- A transfer of a number stands in the list. -/
def Stands (i : Nat) (u : State) : Prop := i ∈ u.gath.xfers.map (·.id)

theorem Stands.of_xfers {i : Nat} {u v : State} (hv : v.gath.xfers = u.gath.xfers) (h : Stands i u) : Stands i v := by
  rw [Stands, hv]
  exact h

theorem Stands.updXfer {i : Nat} {u : State} (h : Stands i u) (k : Nat) {f : Xfer → Xfer} (hf : ∀ y, (f y).id = y.id) :
    Stands i (u.updXfer k f) := by
  rw [Stands, ids_updXfer u k hf]
  exact h

/-- A transfer stays as transfers are granted and sent. -/
theorem Stands.tagGrant {i : Nat} {s : State} (h : Stands i s) (n g : Nat) :
    Stands i (sendRemoteSignals (sendGroups g (grants n g s))) := by
  have hg : Stands i (grants n g s) := grants_keeps (Stands i) n g h fun u z r _ _ hu =>
    granted_keeps (Stands i) hu (fun _ _ => .of_xfers) (fun _ hu => hu.updXfer _ fun _ => rfl) fun _ _ hu => hu.updXfer _ fun _ => rfl
  exact .of_xfers (by rw [gath_sendRemoteSignals]) <| sendGroups_keeps (Stands i) hg fun node b u hu =>
    sendGroup_keeps (Stands i) hu (fun _ _ => .of_xfers) (fun _ _ _ _ hu => hu.updXfer _ fun _ => rfl)
      fun _ _ _ _ _ _ hu => hu.updXfer _ fun _ => rfl

/-- A granted transfer holds its tag; a local one is requested, a write with its bytes. -/
def Granted (x : Xfer) (r : Bool) (d : List Byte) (y : Xfer) : Prop :=
  y.reserve = some r ∧ (x.node = 0 → y.st = .requested ∧ (x.write = true → y.data = d))

theorem allOf_granted (x : Xfer) (r : Bool) (s : State) : AllOf x.id (Granted x r (captureData x s)) (granted x r s) := by
  have ht : AllOf x.id (fun y => y.reserve = some r) (s.updXfer x.id (withTag r)) := allOf_updXfer fun _ => rfl
  unfold granted
  split
  · next h =>
    exact fun y hy hi => ⟨ht y hy hi, fun h0 => absurd h0 h⟩
  · intro y hy hi
    rw [gath_requestLocal] at hy
    obtain ⟨z, hz, rfl⟩ := mem_updXfer hy
    split at hi
    · next hk =>
      rw [if_pos hk]
      exact ⟨ht z hz hk, fun _ => ⟨rfl, fun hw => if_pos hw⟩⟩
    · contradiction

/-- No later grant is to a transfer that holds its tag. -/
theorem AllOf.grants {x : Xfer} {r : Bool} {d : List Byte} {s : State} (h : AllOf x.id (Granted x r d) s) (n g : Nat) :
    AllOf x.id (Granted x r d) (Machine.grants n g s) :=
  grants_keeps _ n g h fun u z r' hz hnone hu => by
    have hne : z.id ≠ x.id := fun hid => by simpa [hnone] using (hu z hz hid).1
    exact granted_keeps (AllOf x.id (Granted x r d)) hu (fun _ _ hv hu => hu.of_xfers hv)
      (fun _ hu => hu.updXfer (fun _ => rfl) fun hid => absurd hid hne) fun _ _ hu =>
        hu.updXfer (fun _ => rfl) fun hid => absurd hid hne

/-- A packet changes nothing of a granted local transfer, and not the tag of a remote one. -/
theorem AllOf.sendGroup {x : Xfer} {r : Bool} {d : List Byte} {s : State} (h : AllOf x.id (Granted x r d) s) (node : Nat)
    (b : Nat × Nat) : AllOf x.id (Granted x r d) (Machine.sendGroup node b s) :=
  sendGroup_keeps (AllOf x.id (Granted x r d)) h (fun _ _ hv hu => hu.of_xfers hv)
    (fun z hz u e hu => hu.updXfer (fun _ => rfl) fun hid y hy => by
      obtain ⟨hz, hwait, -, -⟩ := mem_groupOf hz
      have hremote : x.node ≠ 0 := fun h0 => by
        have hreq := ((h z hz hid).2 h0).1
        rw [hwait] at hreq
        cases hreq
      exact ⟨hy.1, fun h0 => absurd h0 hremote⟩)
    fun z _ u xid k _ hu => hu.updXfer (fun _ => rfl) fun _ _ hy => hy

theorem tagGrantOp_eq {s : State} {g : Nat} (ha : s.alive = true) (he : s.gath.enable.getLsbD g = true)
    (hp : s.pllOf (g / 12) = .running) : tagGrantOp g s = sendRemoteSignals (sendGroups g (grants 4 g s)) := by
  rw [tagGrantOp, if_pos (by simp [ha, he, hp])]

/-- A gatherer that works gives the preferred transfer its tag. -/
theorem tagGrant_grants {s : State} {g : Nat} {x : Xfer} {r : Bool} (ha : s.alive = true) (he : s.gath.enable.getLsbD g = true)
    (hp : s.pllOf (g / 12) = .running) (hx : s.nextGrant g = some x) (hr : s.tagFor x = some r) :
    (∃ y ∈ (tagGrantOp g s).gath.xfers, y.id = x.id) ∧ AllOf x.id (Granted x r (captureData x s)) (tagGrantOp g s) := by
  rw [tagGrantOp_eq ha he hp]
  constructor
  · exact List.mem_map.1 (Stands.tagGrant (List.mem_map_of_mem (nextGrant_spec hx).1) 4 g)
  · have hg : AllOf x.id (Granted x r (captureData x s)) (grants 4 g s) := by
      rw [grants_succ 3 hx hr]
      exact (allOf_granted x r s).grants 3 g
    exact (sendGroups_keeps _ hg fun node b u hu => AllOf.sendGroup hu node b).of_xfers (by rw [gath_sendRemoteSignals])

/-! ## A transfer that alone makes its packet -/

/-- A transfer of a number, or a waiting one of a group. -/
def inGroup (x : Xfer) (b : Nat × Nat) (y : Xfer) : Bool :=
  y.id == x.id || (y.st = .waiting && y.node == x.node && y.block == some b)

/-- A transfer is alone in its group, and alone of its number. -/
def Alone (x : Xfer) (b : Nat × Nat) (u : State) : Prop := u.gath.xfers.filter (inGroup x b) = [x]

theorem Alone.of_xfers {x : Xfer} {b : Nat × Nat} {u v : State} (hv : v.gath.xfers = u.gath.xfers) (h : Alone x b u) : Alone x b v := by
  rw [Alone, hv]
  exact h

theorem Alone.eq {x : Xfer} {b : Nat × Nat} {u : State} (h : Alone x b u) {y : Xfer} (hy : y ∈ u.gath.xfers)
    (hg : inGroup x b y = true) : y = x := by
  have hm : y ∈ u.gath.xfers.filter (inGroup x b) := List.mem_filter.2 ⟨hy, hg⟩
  rwa [h, List.mem_singleton] at hm

theorem Alone.mem {x : Xfer} {b : Nat × Nat} {u : State} (h : Alone x b u) : x ∈ u.gath.xfers := by
  have hm : x ∈ u.gath.xfers.filter (inGroup x b) := by rw [h]; exact List.mem_singleton_self x
  exact List.mem_of_mem_filter hm

/-- A change of another transfer that brings none into the group leaves the one alone. -/
theorem Alone.updXfer {x : Xfer} {b : Nat × Nat} {u : State} (h : Alone x b u) {k : Nat} (hk : k ≠ x.id) {f : Xfer → Xfer}
    (hf : ∀ y ∈ u.gath.xfers, y.id = k → inGroup x b (f y) = true → inGroup x b y = true) : Alone x b (u.updXfer k f) := by
  have hone (y : Xfer) (hy : y ∈ u.gath.xfers) : inGroup x b (if y.id = k then f y else y) = inGroup x b y := by
    split
    · next hid =>
      have hout : inGroup x b y = false := by
        by_contra hin
        exact hk (hid.symm.trans (congrArg Xfer.id (h.eq hy (by simpa using hin))))
      rw [hout]
      by_contra hin
      simp [hf y hy hid (by simpa using hin)] at hout
    · rfl
  have hfilter : u.gath.xfers.filter (inGroup x b ∘ fun y => if y.id = k then f y else y) = [x] := (List.filter_congr hone).trans h
  rw [Alone, State.updXfer, List.filter_map, hfilter, List.map_singleton, if_neg (Ne.symm hk)]

/-- The tag that a transfer alone in its group is given leaves it alone. -/
theorem alone_grantTag {x : Xfer} {b : Nat × Nat} {s : State} (h : Alone x b s) (r : Bool) :
    Alone (withTag r x) b (grantTag x r s) := by
  refine .of_xfers (u := s.updXfer x.id (withTag r)) (by rw [gath_grantTag]) ?_
  rw [Alone, State.updXfer, List.filter_map, List.filter_congr (q := inGroup x b)]
  · rw [show s.gath.xfers.filter (inGroup x b) = [x] from h, List.map_singleton, if_pos rfl]
  · intro y _
    simp only [Function.comp_apply]
    split <;> rfl

/-- A transfer alone in its group, which holds its tag, and its packet can leave. -/
structure ReadyAlone (x : Xfer) (b : Nat × Nat) (u : State) : Prop where
  alone : Alone x b u
  named : x.write = true → (b.1, x.node) ∈ u.fab.out.map outName

/-- Its packet has left. -/
structure LeftAlone (x : Xfer) (b : Nat × Nat) (u : State) : Prop where
  queued : Queued u x.node b.1 (if x.write then 0x01 else 0x02)
  requested : AllOf x.id Requested u

section
variable {x : Xfer} {b : Nat × Nat} {u : State}

theorem ReadyAlone.granted (hr : x.reserve.isSome = true) (h : ReadyAlone x b u) {z : Xfer} (hz : z ∈ u.gath.xfers)
    (hnone : z.reserve = none) (r : Bool) :
    ReadyAlone x b (granted z r u) := by
  have hne : z.id ≠ x.id := fun hid => by
    obtain rfl := h.alone.eq hz (by simp [inGroup, hid])
    simp [hnone] at hr
  refine ⟨?_, by rw [fab_granted]; exact h.named⟩
  exact granted_keeps (Alone x b) h.alone (fun _ _ => .of_xfers) (fun v hv => hv.updXfer hne fun _ _ _ => id)
    fun v d hv => hv.updXfer hne fun y _ hid hin => by simp [inGroup, asked, hid, hne] at hin

theorem ReadyAlone.sendGroup_other (hb : x.block = some b) (h : ReadyAlone x b u) {node : Nat} {c : Nat × Nat}
    (hne : (node, c) ≠ (x.node, b)) :
    ReadyAlone x b (sendGroup node c u) := by
  have hid (z : Xfer) (hz : z ∈ readyOf node c u) : z.id ≠ x.id := fun hid => by
    obtain ⟨hz, -, hn, hc⟩ := mem_groupOf hz
    obtain rfl := h.alone.eq hz (by simp [inGroup, hid])
    exact hne (by rw [← hn, Option.some.inj (hc.symm.trans hb)])
  refine ⟨?_, by rw [(sendGroup_fab node c u).2]; exact h.named⟩
  refine sendGroup_keeps (Alone x b) h.alone (fun _ _ => .of_xfers) (fun z hz v d hv => ?_) fun z hz v xid k hreq hv => ?_
  · exact hv.updXfer (hid z hz) fun y _ hy hin => by simp [inGroup, asked, hy, hid z hz] at hin
  · refine hv.updXfer (hid z hz) fun y hy hyz hin => ?_
    have hst : y.st = .requested := hreq y hy hyz
    simp [inGroup, renumber, hyz, hid z hz, hst] at hin

theorem ReadyAlone.groupOf_eq (hw : x.st = .waiting) (hb : x.block = some b) (h : ReadyAlone x b u) : groupOf x.node b u = [x] := by
  have hsub : groupOf x.node b u = (u.gath.xfers.filter (inGroup x b)).filter
      (fun y => y.st = .waiting && y.node == x.node && y.block == some b) := by
    rw [List.filter_filter, groupOf]
    refine List.filter_congr fun y _ => ?_
    simp only [inGroup]
    cases decide (y.st = .waiting) && y.node == x.node && y.block == some b <;> simp
  rw [hsub, show u.gath.xfers.filter (inGroup x b) = [x] from h.alone]
  simp [hw, hb]

/-- The packet of a transfer that alone makes it leaves. -/
theorem ReadyAlone.sendGroup (hw : x.st = .waiting) (hb : x.block = some b) (hr : x.reserve.isSome = true)
    (h : ReadyAlone x b u) : LeftAlone x b (Machine.sendGroup x.node b u) := by
  obtain ⟨hready, heq⟩ := sendGroup_alone (groupOf_eq hw hb h) hr
  have hreq : AllOf x.id Requested (each [x] requestXfer u) := allOf_requested List.mem_cons_self u
  have hfab : (each [x] requestXfer u).fab = u.fab := fab_requestXfer x u
  have hleave : Leaves x.node b.1 (if x.write then 0x01 else 0x02) [x] (each [x] requestXfer u) (Machine.sendGroup x.node b u) := by
    rw [heq, groupSent, hready]
    by_cases hx : x.write = true
    · rw [if_pos hx, if_pos hx]
      obtain ⟨hnone, -⟩ | hl := leaves_sendWrite x.node b.1 [x] (each [x] requestXfer u)
      · obtain ⟨o, ho, hname⟩ := List.mem_map.1 (h.named hx)
        rw [hfab, List.any_eq_false] at hnone
        obtain ⟨hxid, hnode⟩ := Prod.mk.inj hname
        exact absurd (by simp [hxid, hnode]) (hnone o ho)
      · exact hl
    · rw [if_neg hx, if_neg hx]
      exact leaves_sendRead _ _ _ _
  obtain ⟨k, hk⟩ := hleave.gath
  exact ⟨hleave.queued, (hreq.renumbered [x] b.1 k).of_xfers (by rw [hk])⟩

end

theorem LeftAlone.sendGroup {x : Xfer} {b : Nat × Nat} {u : State} (h : LeftAlone x b u) (node : Nat) (c : Nat × Nat) :
    LeftAlone x b (Machine.sendGroup node c u) where
  queued := by
    obtain ⟨q, o, ho, hk⟩ := h.queued
    exact ⟨q, o, (sendGroup_fab node c u).1 q ho, hk⟩
  requested := sendGroup_keeps (AllOf x.id Requested) h.requested (fun _ _ hv hu => hu.of_xfers hv)
    (fun _ _ _ _ hu => hu.updXfer (fun _ => rfl) fun _ _ _ => rfl) fun _ _ _ _ _ _ hu => hu.updXfer (fun _ => rfl) fun _ _ hy => hy

/-- Once the turn of its group has come, the packet of a transfer that alone makes it has left. -/
theorem each_sendGroup_alone {x : Xfer} {b : Nat × Nat} (hw : x.st = .waiting) (hb : x.block = some b) (hr : x.reserve.isSome = true)
    {l : List (Nat × (Nat × Nat))} (hl : (x.node, b) ∈ l) {u : State} (h : ReadyAlone x b u) :
    LeftAlone x b (each l (fun y u => sendGroup y.1 y.2 u) u) := by
  induction l generalizing u with
  | nil => exact absurd hl List.not_mem_nil
  | cons y l ih =>
    rw [each_cons]
    by_cases hy : y = (x.node, b)
    · subst hy
      exact each_keeps (LeftAlone x b) l _ _ (ReadyAlone.sendGroup hw hb hr h) fun z _ hv => hv.sendGroup z.1 z.2
    · exact ih ((List.mem_cons.1 hl).resolve_left fun he => hy he.symm) (h.sendGroup_other hb hy)

/-- The packet of a granted transfer that alone makes it is queued. -/
theorem tagGrant_sends {s : State} {g : Nat} {x : Xfer} {b : Nat × Nat} (ha : s.alive = true) (he : s.gath.enable.getLsbD g = true)
    (hp : s.pllOf (g / 12) = .running) (hx : s.nextGrant g = some x) (ht : s.tagFor x ≠ none) (hn : x.node ≠ 0)
    (hb : x.block = some b) (halone : Alone x b s)
    (hopen : x.write = true → s.fab.out.any (fun o => o.xid == b.1 && o.node == x.node) = true) :
    LeftAlone x b (tagGrantOp g s) := by
  obtain ⟨r, hr⟩ := Option.ne_none_iff_exists'.1 ht
  obtain ⟨-, hgath, hwait, -⟩ := nextGrant_spec hx
  have hfirst : ReadyAlone (withTag r x) b (granted x r s) := by
    rw [granted_remote hn]
    refine ⟨alone_grantTag halone r, fun hw => ?_⟩
    obtain ⟨o, ho, hname⟩ := List.any_eq_true.1 (hopen hw)
    simp only [Bool.and_eq_true, beq_iff_eq] at hname
    exact List.mem_map.2 ⟨o, ho, by rw [outName, hname.1, hname.2]; rfl⟩
  have hall : ReadyAlone (withTag r x) b (grants 4 g s) := by
    rw [grants_succ 3 hx hr]
    exact grants_keeps _ 3 g hfirst fun u z r' hz hnone hu => ReadyAlone.granted rfl hu hz hnone r'
  have hmem : (x.node, b) ∈ (groupsOf g (grants 4 g s)).dedup :=
    List.mem_dedup.2 (mem_groupsOf (x := withTag r x) hall.alone.mem hgath hwait hn rfl hb)
  have hleft : LeftAlone (withTag r x) b (sendGroups g (grants 4 g s)) := by
    rw [sendGroups_eq]
    exact each_sendGroup_alone (x := withTag r x) hwait hb rfl hmem hall
  rw [tagGrantOp_eq ha he hp]
  exact ⟨Queued.sendRemoteSignals hleft.queued, hleft.requested.of_xfers (by rw [gath_sendRemoteSignals])⟩

end Sys2Proof.Laws
end


section
/-! SUPPORT. MEMORY_REQUEST_SERVE: what a controller reads and stores for the request that it serves (R187, R212). -/

namespace Sys2Proof.Laws

set_option Elab.async false

open Sys2Proof Sys2Proof.Machine Sys2Proof.Safety

/-! ## The request that is served -/

/-- A controller's next request is off its queue, and its turn is used. -/
def requestTaken (p : Nat) (x : Xfer) (s : State) : State := (payTurn p 1 s).updDev p fun d => { d with queue := d.queue.erase x.id }

theorem memoryRequestServeOp_eq {s : State} {p pc : Nat} {x : Xfer} (ha : s.alive = true)
    (hd : (s.dev p).st = .ready ∨ (s.dev p).st = .selfRefresh) (hx : s.nextServe p pc = some x) (found : List Finding) :
    memoryRequestServeOp p pc found s = checkFault (serveXfer x (each found reportFinding (requestTaken p x s))) := by
  unfold memoryRequestServeOp
  rw [hx]
  simp only [ha, Bool.not_true, Bool.false_or]
  rw [if_neg (by obtain h | h := hd <;> simp [h])]
  rfl

/-- What every transfer of a number has, it keeps when a latched fault is carried out. -/
theorem AllOf.checkFault {i : Nat} {q : Xfer → Prop} {u : State} (h : AllOf i q u) : AllOf i q (Machine.checkFault u) := by
  obtain hc | ⟨c, -, hc⟩ := checkFault_cases u <;> rw [hc]
  · exact h
  · exact allOf_of_none (faultEffects_ends c u).2.2.1

theorem checkFault_none {u : State} (h : u.stw.fault = none) : checkFault u = u := by rw [checkFault, h]

/-! ## Reads -/

/-- What a read delivers is the same: the bytes, and the lines that are marked. -/
structure SameReads (s u : State) : Prop extends SameBytes s u where
  marks : u.memory.marks = s.memory.marks

theorem SameReads.refl (s : State) : SameReads s s := ⟨.refl s, rfl⟩

theorem SameReads.trans {s u v : State} (h : SameReads s u) (k : SameReads u v) : SameReads s v :=
  ⟨h.toSameBytes.trans k.toSameBytes, k.marks.trans h.marks⟩

theorem SameReads.of_eq {s u : State} (hm : u.memory = s.memory) (hr : u.regs = s.regs) : SameReads s u :=
  ⟨.of_eq hm hr, by rw [hm]⟩

theorem SameReads.readRange {s u : State} (h : SameReads s u) (a n : Nat) : Machine.readRange u a n = Machine.readRange s a n := by
  have hb : u.byte = s.byte := funext fun x => by rw [State.byte, State.byte, h.mem, h.failed, h.cls]
  have hl : u.lineDetected = s.lineDetected := funext fun l => by
    rw [State.lineDetected, State.lineDetected, h.cls, h.marks, h.failed]
  simp only [Machine.readRange, State.memBytes, hb, hl]

theorem deviceLayout_updDev (s : State) (p : Nat) {f : Device → Device} (hf : ∀ d, deviceLayout (f d) = deviceLayout d) (j : Nat) :
    deviceLayout ((s.updDev p f).dev j) = deviceLayout (s.dev j) := by
  rw [dev_updDev]
  split
  · next h => rw [hf, h]
  · rfl

theorem sameReads_updDev (s : State) (p : Nat) {f : Device → Device} (hf : ∀ d, deviceLayout (f d) = deviceLayout d) :
    SameReads s (s.updDev p f) where
  mem := rfl
  errs := rfl
  failed := onFailedPc_congr (deviceLayout_updDev s p hf)
  cls := mpaClass_of_regs rfl
  marks := rfl

theorem sameReads_payTurn (p n : Nat) (s : State) : SameReads s (payTurn p n s) := by
  unfold payTurn
  split
  · exact sameReads_updDev s p fun _ => rfl
  · exact .refl s

theorem sameReads_requestTaken (p : Nat) (x : Xfer) (s : State) : SameReads s (requestTaken p x s) :=
  (sameReads_payTurn p 1 s).trans (sameReads_updDev _ p fun _ => rfl)

theorem countMoved_frame (x : Xfer) (s : State) : countMoved x s = { s with passes := (countMoved x s).passes } := by
  unfold countMoved
  split <;> rfl

theorem sameReads_countMoved (x : Xfer) (s : State) : SameReads s (countMoved x s) := by
  rw [countMoved_frame]
  exact .of_eq rfl rfl

/-- Without device errors a read marks no line. -/
theorem sameReads_noteRead (a n reader step : Nat) {s : State} (h : s.memory.errs = []) :
    SameReads s (noteRead a n reader step s) := by
  refine ⟨sameBytes_noteRead a n reader step h, ?_⟩
  have he : (wakeDev a n s).memory.errs = [] := (sameBytes_wakeDev a n s).errs.trans h
  simp only [noteRead, meetLines, he, List.map_nil, List.filter_nil, each_nil]
  exact each_keeps (fun u : State => u.memory.marks = s.memory.marks) _ _ _ (by rw [wakeDev_memory]) fun l u hu => by
    rw [reportDetected_memory, hu]

/-- A served read has arrived, with what the memory delivers where no device reports an error. -/
theorem serve_read {s : State} {p pc : Nat} {x : Xfer} (ha : s.alive = true)
    (hd : (s.dev p).st = .ready ∨ (s.dev p).st = .selfRefresh) (hx : s.nextServe p pc = some x) (hw : x.write = false)
    (found : List Finding) : AllOf x.id (fun y => y.st = .arrived ∧ (found = [] → s.memory.errs = [] →
      y.data = (readRange s x.mpa x.bytes).data ∧
      y.detected = (linesOf x.mpa x.bytes).map (readRange s x.mpa x.bytes).bad.contains)) (memoryRequestServeOp p pc found s) := by
  rw [memoryRequestServeOp_eq ha hd hx]
  refine AllOf.checkFault ?_
  simp only [serveXfer, hw, Bool.false_eq_true, if_false, readBy]
  refine allOf_updXfer fun y => ⟨rfl, fun hfound herrs => ?_⟩
  subst hfound
  have hcount : SameReads s (countMoved x (requestTaken p x s)) := (sameReads_requestTaken p x s).trans (sameReads_countMoved x _)
  have hreads := hcount.trans (sameReads_noteRead x.mpa x.bytes 0 ((countMoved x (requestTaken p x s)).readStep x.pass)
    (hcount.errs.trans herrs))
  rw [each_nil, hreads.readRange]
  exact ⟨rfl, rfl⟩

/-! ## Writes -/

/-- A change of one memory that leaves its layout alone keeps a memory plain. -/
theorem plainMemory_updDev {s : State} (h : PlainMemory s) (p : Nat) {f : Device → Device}
    (hf : ∀ d, deviceLayout (f d) = deviceLayout d) : PlainMemory (s.updDev p f) :=
  plainMemory_of h (regsKept_of_eq rfl []) apartFromWrites_nil (deviceLayout_updDev s p hf) rfl (.inr rfl) rfl

theorem plainMemory_requestTaken (p : Nat) (x : Xfer) {s : State} (h : PlainMemory s) : PlainMemory (requestTaken p x s) := by
  refine plainMemory_updDev ?_ p fun _ => rfl
  unfold payTurn
  split
  · exact plainMemory_updDev h p fun _ => rfl
  · exact h

theorem plainMemory_countMoved (x : Xfer) {s : State} (h : PlainMemory s) : PlainMemory (countMoved x s) := by
  rw [countMoved_frame]
  exact h

theorem requestTaken_frame (p : Nat) (x : Xfer) (s : State) :
    requestTaken p x s = { s with memory := { s.memory with dev := (requestTaken p x s).memory.dev } } := by
  unfold requestTaken payTurn
  split <;> rfl

/-- A header line without device errors that a PUT rewrites loses its mark alone. -/
theorem renewHeader_plain (x : Xfer) {s : State} (h : PlainMemory s) :
    PlainMemory (renewHeader x s) ∧ (renewHeader x s).memory.mem = s.memory.mem ∧ (renewHeader x s).stw = s.stw := by
  have herrs : s.memory.errs = [] := h.2.2.2.2.2
  unfold renewHeader
  split
  · have hmet (l : Nat) : meetErrors l s = errorsMet l s := by
      rw [meetErrors_eq, herrs]
      rfl
    simp only [hmet]
    refine ⟨plainMemory_of h (regsKept_of_eq rfl []) apartFromWrites_nil (fun _ => rfl) rfl (.inl ?_) rfl, rfl, rfl⟩
    show serase s.memory.errs _ = []
    rw [herrs]
    rfl
  · exact ⟨h, rfl, rfl⟩

theorem flushWriter_none (w : Nat) {s : State} (h : s.memory.asm = []) : flushWriter w s = s := by
  rw [flushWriter, h, List.filter_nil, each_nil]

theorem flushRest_none (q : Nat) {s : State} (h : s.memory.asm = []) : flushRest q s = s := by
  rw [flushRest, flushWriter_none _ h, ite_self]

theorem memWork_flushRest (q : Nat) (s : State) : MemWork s (flushRest q s) := .ite (.refl s) (memWork_flushWriter _ s)

/-- The state in which a controller stores the bytes of a write. -/
def writeReady (x : Xfer) (s : State) : State := if x.node = 0 then renewHeader x (countMoved x s) else countMoved x s

/-- A write whose bytes its controller has stored. -/
def written (x : Xfer) (s : State) : State :=
  (ctrlWrite (x.pass + 1) (some x.id) x.mpa x.data (writeReady x s)).updXfer x.id fun y => { y with st := .written }

theorem serveXfer_write {x : Xfer} (hw : x.write = true) (s : State) : serveXfer x s = flushRest x.pass (written x s) := by
  unfold serveXfer written writeReady
  simp only [hw, if_true]

/-- A served write has been written. -/
theorem serve_written {s : State} {p pc : Nat} {x : Xfer} (ha : s.alive = true)
    (hd : (s.dev p).st = .ready ∨ (s.dev p).st = .selfRefresh) (hx : s.nextServe p pc = some x) (hw : x.write = true)
    (found : List Finding) : AllOf x.id (fun y => y.st = .written) (memoryRequestServeOp p pc found s) := by
  have hwritten (u : State) : AllOf x.id (fun y => y.st = .written) (written x u) := allOf_updXfer fun _ => rfl
  rw [memoryRequestServeOp_eq ha hd hx, serveXfer_write hw]
  refine AllOf.checkFault (AllOf.of_xfers (hwritten (each found reportFinding (requestTaken p x s))) ?_)
  rw [(memWork_flushRest x.pass _).frame]

/-- A write that no window, harvest, twin update or device error meets stores its bytes, and no others. -/
theorem serve_stores {s : State} {p pc : Nat} {x : Xfer} (ha : s.alive = true)
    (hd : (s.dev p).st = .ready ∨ (s.dev p).st = .selfRefresh) (hx : s.nextServe p pc = some x) (hw : x.write = true)
    (hplain : PlainMemory s) : Stored (memoryRequestServeOp p pc [] s) x.mpa x.data ∧
      MemKept s (memoryRequestServeOp p pc [] s) (fun a => x.mpa ≤ a ∧ a < x.mpa + x.data.length) := by
  have hcount : PlainMemory (countMoved x (requestTaken p x s)) := plainMemory_countMoved x (plainMemory_requestTaken p x hplain)
  have hmem : (countMoved x (requestTaken p x s)).memory.mem = s.memory.mem := by rw [countMoved_frame, requestTaken_frame]
  have hstw : (countMoved x (requestTaken p x s)).stw = s.stw := by rw [countMoved_frame, requestTaken_frame]
  obtain ⟨hready, hrmem, hrstw⟩ : PlainMemory (writeReady x (requestTaken p x s)) ∧
      (writeReady x (requestTaken p x s)).memory.mem = s.memory.mem ∧ (writeReady x (requestTaken p x s)).stw = s.stw := by
    unfold writeReady
    split
    · obtain ⟨h1, h2, h3⟩ := renewHeader_plain x hcount
      exact ⟨h1, h2.trans hmem, h3.trans hstw⟩
    · exact ⟨hcount, hmem, hstw⟩
  have hstore := storedPlain_ctrlWrite (x.pass + 1) (some x.id) x.mpa x.data hready
  have hasm : (written x (requestTaken p x s)).memory.asm = [] := hstore.plain.2.2.2.2.1
  have hfault : (written x (requestTaken p x s)).stw.fault = none := by
    show (ctrlWrite _ _ _ _ _).stw.fault = none
    rw [hstore.frame]
    show (writeReady x (requestTaken p x s)).stw.fault = none
    rw [hrstw, fault_none_of_alive ha]
  have hop : memoryRequestServeOp p pc [] s = written x (requestTaken p x s) := by
    rw [memoryRequestServeOp_eq ha hd hx, each_nil, serveXfer_write hw, flushRest_none _ hasm, checkFault_none hfault]
  rw [hop]
  exact ⟨hstore.stored, fun a hout => (hstore.kept a hout).trans (by rw [hrmem])⟩

end Sys2Proof.Laws
end


section
/-! The statement about tags, the requests of the controllers, and the landing of reads (R204, R206, R207, R212). -/

namespace Sys2Proof.Laws

set_option Elab.async false

open Sys2Proof Sys2Proof.Machine Sys2Proof.Safety

/-! ## Landing -/

theorem id_of_xfer? {s : State} {x : Nat} {y : Xfer} (h : s.xfer? x = some y) : y.id = x := by
  simpa using List.find?_some h

theorem memAdd_frame (a n k : Nat) (s : State) : ∃ m, s.memAdd a n k = { s with memory := m } := by
  unfold State.memAdd
  split
  · exact ⟨_, rfl⟩
  · exact ⟨_, rfl⟩

/-- Detected data is counted in memory and in the attempt, and nowhere else. -/
theorem poison_frame (q n : Nat) (s : State) :
    poison q n s = { s with memory := (poison q n s).memory, steps := (poison q n s).steps } := by
  unfold poison
  split
  · next p _ =>
    split
    · rfl
    · obtain ⟨m, hm⟩ := memAdd_frame ((s.watch p).entry p.img.layer + 0x50 + 3 * 48 + 40) 8 n s
      obtain ⟨m', hm'⟩ := memAdd_frame ((s.watch p).shared p.img.layer + 0x140 + 3 * 24 + 16) 8 n { s with memory := m }
      simp only [hm, hm']
      split <;> rfl
  · rfl

theorem gath_poison (q n : Nat) (s : State) : (poison q n s).gath = s.gath := by rw [poison_frame]

theorem gath_inc (r : RegName) (n i : Nat) (s : State) : (s.inc r n i).gath = s.gath := rfl

theorem gath_putLines (t f : Nat) (bins : List Nat) (data : List (List Byte)) (bad : List Bool) (s : State) :
    (putLines t f bins data bad s).gath = s.gath := rfl

theorem gath_reportDetected (l reader step : Nat) (s : State) : (reportDetected l reader step s).gath = s.gath := by
  rw [(readWork_reportDetected l reader step s).frame]

theorem tile_landXfer (y : Xfer) (s : State) (t : Nat) :
    (landXfer y s).tile t = (putLines y.tile y.fmt y.bins (pieces 64 y.data) y.detected s).tile t := by
  unfold landXfer
  show (poison _ _ _).tile t = _
  rw [poison_frame]
  rfl

theorem xfers_landXfer (y : Xfer) (s : State) : (landXfer y s).gath.xfers = (s.dropXfer y.id).gath.xfers := by
  unfold landXfer
  show ((poison _ _ _).dropXfer y.id).gath.xfers = _
  rw [poison_frame]
  rfl

theorem readLandOp_whole {s : State} {x : Nat} {y : Xfer} (ha : s.alive = true) (hx : s.xfer? x = some y) (hw : y.write = false)
    (hd : y.discard = false) (hst : y.st = .arrived ∨ y.st = .landed) (hb : y.block = none ∨ y.node ≠ 0) :
    readLandOp x s = if y.issued then landXfer y s else s.updXfer x fun y => { y with st := .landed } := by
  unfold readLandOp
  rw [hx]
  simp only [ha, hw, hd, Bool.not_true, Bool.false_or, Bool.or_false]
  rw [if_neg (by obtain h | h := hst <;> simp [h]), if_neg Bool.false_ne_true]
  split
  · next hblock hnode =>
    obtain h | h := hb
    · rw [h] at hblock
      cases hblock
    · exact absurd hnode h
  · rfl

theorem readLandOp_part {s : State} {x i k : Nat} {y : Xfer} (ha : s.alive = true) (hx : s.xfer? x = some y) (hw : y.write = false)
    (hd : y.discard = false) (hst : y.st = .arrived ∨ y.st = .landed) (hb : y.block = some (i, k)) (hn : y.node = 0) :
    readLandOp x s = landPart y i k s := by
  unfold readLandOp
  rw [hx]
  simp only [ha, hw, hd, hb, hn, Bool.not_true, Bool.false_or, Bool.or_false]
  rw [if_neg (by obtain h | h := hst <;> simp [h]), if_neg Bool.false_ne_true]

/-! ## Parts of a compressed block (R170, R204) -/

/-- What the transfers of a number have, they keep as new transfers are added. -/
theorem AllOf.spawnGranules {n : Nat} {q : Xfer → Prop} {s : State} (h : AllOf n q s) (hn : n < s.gath.nextId) (y : Xfer) (i : Nat) :
    AllOf n q (Machine.spawnGranules y i s) := by
  unfold Machine.spawnGranules
  exact (each_keeps (fun u : State => AllOf n q u ∧ n < u.gath.nextId) _ _ s ⟨h, hn⟩ fun k u hu =>
    ⟨hu.1.addXfer hu.2 _ _ _ _ _ _, Nat.lt_succ_of_lt hu.2⟩).1

/-- What a GET is given of a block is written to the bin, or the block is reported detected (R170, R171). -/
def blockGiven (h : Xfer) (i bad : Nat) (out : Option (List (List Byte) × List Bool)) (s : State) : State :=
  match out with
  | some (ls, marks) => poison h.pass bad (putLines h.tile h.fmt h.bins ls marks s)
  | none =>
    poison h.pass (max 1 bad)
      (reportDetected (slotAddr (s.streamBase h) i) 0 (s.readStep h.pass)
        (putLines h.tile h.fmt h.bins (List.replicate 64 []) (List.replicate 64 true) s))

theorem gath_blockGiven (h : Xfer) (i bad : Nat) (out : Option (List (List Byte) × List Bool)) (s : State) :
    (blockGiven h i bad out s).gath = s.gath := by
  unfold blockGiven
  split
  · rw [gath_poison, gath_putLines]
  · rw [gath_poison, gath_reportDetected, gath_putLines]

/-- A block waits for its parts, or is given to its GET and its parts leave. -/
theorem landBlock_cases (y : Xfer) (i : Nat) (s : State) : landBlock y i s = s ∨ ∃ h bad out n,
    landBlock y i s = (each (s.blockParts y i) (fun z u => u.dropXfer z.id) (blockGiven h i bad out s)).inc .gthFetched n h.gath := by
  generalize hl : landBlock y i s = v
  unfold landBlock at hl
  extract_lets ps at hl
  split at hl
  · exact .inl hl.symm
  · next h _ =>
    extract_lets hd gs good at hl
    split at hl
    · exact .inl hl.symm
    · exact .inr ⟨h, _, _, _, hl.symm⟩

/-- What the transfers of a number have, those that are left have when a block is delivered. -/
theorem AllOf.landBlock {n : Nat} {q : Xfer → Prop} {s : State} (h : AllOf n q s) (y : Xfer) (i : Nat) :
    AllOf n q (Machine.landBlock y i s) := by
  obtain hl | ⟨hd, bad, out, m, hl⟩ := landBlock_cases y i s
  · rwa [hl]
  · have hg : AllOf n q (blockGiven hd i bad out s) := h.of_xfers (by rw [gath_blockGiven])
    have hd : AllOf n q (each (s.blockParts y i) (fun z u => u.dropXfer z.id) (blockGiven hd i bad out s)) :=
      each_keeps (AllOf n q) _ _ _ hg fun z _ hv => AllOf.dropXfer hv z.id
    rw [hl]
    exact hd.of_xfers (by rw [gath_inc])

/-- A part of a block that has landed waits for the others, or is delivered with them. -/
theorem landPart_landed {s : State} {y : Xfer} (hn : y.id < s.gath.nextId) (i k : Nat) :
    AllOf y.id (fun z => z.st = .landed) (landPart y i k s) := by
  have h : AllOf y.id (fun z => z.st = .landed) (s.updXfer y.id fun z => { z with st := .landed }) := allOf_updXfer fun _ => rfl
  unfold landPart
  refine AllOf.landBlock ?_ y i
  split
  · exact h.spawnGranules hn y i
  · exact h

/-! ## Acknowledgements of writes -/

/-- The tag of an acknowledged write returns. -/
theorem memoryWriteAck_gone {s : State} {x : Nat} {y : Xfer} (ha : s.alive = true) (hx : s.xfer? x = some y) (hw : y.write = true)
    (hn : y.node = 0) (hst : y.st = .written) (hack : s.ackHeld x = false) :
    x ∉ (memoryWriteAckOp x s).gath.xfers.map (·.id) := by
  have hop : memoryWriteAckOp x s = settlePass y.pass (returnTag y s) := by
    unfold memoryWriteAckOp
    rw [hx]
    simp [ha, hw, hn, hst, hack]
  have hgone : x ∉ (s.dropXfer y.id).gath.xfers.map (·.id) := id_of_xfer? hx ▸ dropXfer_gone y.id s
  rw [hop]
  exact fun hm => hgone (((shrinks_fetchCancelled y.pass y.gath (s.dropXfer y.id)).trans (shrinks_settlePass y.pass _)).xfers hm)

/-- Settles O13: a grant's effect on its transfer is an invariant of the other grants and of the packets that leave; a served
read or write follows the controller's, and a landing slot or a tag is given back with its transfer. -/
theorem tagGrantsAndReturns : Obligations.TagGrantsAndReturns := by
  refine ⟨?_, ?_, ?_, ?_, ?_, ?_, ?_⟩
  · intro s g x r ha he hp hx hr
    exact ⟨_, rfl, tagGrant_grants ha he hp hx hr⟩
  · intro s g x b ha he hp hx ht hn hb halone hopen
    obtain ⟨hqueued, hreq⟩ := tagGrant_sends ha he hp hx ht hn hb halone hopen
    exact ⟨_, rfl, hqueued, hreq⟩
  · intro s p pc found x ha hd hx hw
    exact ⟨_, rfl, serve_read ha hd hx hw found⟩
  · intro s p pc found x ha hd hx hw
    refine ⟨_, rfl, serve_written ha hd hx hw found, fun hfound hplain => ?_⟩
    subst hfound
    exact serve_stores ha hd hx hw hplain
  · intro s x y ha hx hw hd hst hb
    refine ⟨fun hi => ⟨_, rfl, ?_⟩, fun hi => ⟨_, rfl, ?_⟩⟩
    · rw [readLandOp_whole ha hx hw hd hst hb, if_pos hi]
      refine ⟨?_, fun z hz => ?_, fun j hj => ?_, ?_⟩
      · rw [tile_landXfer, putLines, tile_updTile, if_pos rfl]
      · rw [xfers_landXfer] at hz
        exact fun hid => dropXfer_gone y.id s (List.mem_map.2 ⟨z, hz, hid.trans (id_of_xfer? hx).symm⟩)
      · rw [tile_landXfer, putLines, tile_updTile, if_neg hj]
      · rw [tile_landXfer, putLines, tile_updTile, if_pos rfl]
    · rw [readLandOp_whole ha hx hw hd hst hb, if_neg (by simp [hi])]
      exact ⟨allOf_updXfer fun _ => rfl, rfl⟩
  · intro s x i k y ha hx hw hd hst hb hn hlt
    refine ⟨_, rfl, ?_⟩
    rw [readLandOp_part ha hx hw hd hst hb hn]
    have hid := id_of_xfer? hx
    subst hid
    exact landPart_landed hlt i k
  · intro s x y ha hx hw hn hst hack
    exact ⟨_, rfl, fun z hz hid => memoryWriteAck_gone ha hx hw hn hst hack (List.mem_map.2 ⟨z, hz, hid⟩)⟩

end Sys2Proof.Laws
end


section
/-! SUPPORT. Signals, cancellations, delays and claims: what each of these messages leaves as it was (R218, R226, R230, R276, R277). -/

namespace Sys2Proof.Laws

set_option Elab.async false

open Sys2Proof Sys2Proof.Machine Sys2Proof.Safety

/-! ## Signals at a module tally (R226, R230) -/

/-- Nothing of memory or of the gatherers changes. -/
def KeepsStore (s u : State) : Prop := u.memory = s.memory ∧ u.gath = s.gath

theorem KeepsStore.refl (s : State) : KeepsStore s s := ⟨rfl, rfl⟩

theorem KeepsStore.trans {s u v : State} (h : KeepsStore s u) (k : KeepsStore u v) : KeepsStore s v :=
  ⟨k.1.trans h.1, k.2.trans h.2⟩

theorem keepsStore_raise (c : EventCode) (i : Nat) (d : BitVec 128) (s : State) : KeepsStore s (raiseEvent c i d s) := by
  rw [raiseEvent_frame]
  exact ⟨rfl, rfl⟩

theorem keepsStore_flag (n : RegName) (b : Nat) (s : State) : KeepsStore s (s.flag n b) := ⟨rfl, rfl⟩

theorem keepsStore_setMtally (k : Nat) (y : Tally) (s : State) : KeepsStore s (s.setMtally k y) := ⟨rfl, rfl⟩

theorem keepsStore_tallyDoubled (k : Nat) (y : Tally) (s : State) : KeepsStore s (tallyDoubled none k y s) := by
  unfold tallyDoubled
  extract_lets due
  split
  · exact ((keepsStore_setMtally k _ s).trans (keepsStore_raise _ _ _ _)).trans (keepsStore_flag _ _ _)
  · exact .refl s

theorem keepsStore_tallyOverrun (src : SigSource) (k : Nat) (y : Tally) (i : Nat) (s : State) :
    KeepsStore s (tallyOverrun src none k y i s) := (keepsStore_raise _ _ _ s).trans (keepsStore_flag _ _ _)

theorem keepsStore_applySignal (src : SigSource) (k i : Nat) (s : State) : KeepsStore s (applySignal src none k i s).1 := by
  unfold applySignal
  rcases (s.tally none k).signal (BitVec.ofNat 32 i) with ⟨y, o⟩
  have h := keepsStore_setMtally k y s
  cases o with
  | applied => exact h
  | doubled => exact h.trans (keepsStore_tallyDoubled _ _ _)
  | overrun => exact h.trans (keepsStore_tallyOverrun _ _ _ _ _)

theorem mtally_raiseEvent (c : EventCode) (i : Nat) (d : BitVec 128) (s : State) (k : Nat) :
    (raiseEvent c i d s).mtally k = s.mtally k := by
  rw [raiseEvent_frame]
  rfl

theorem mtally_flag (s : State) (n : RegName) (b k : Nat) : (s.flag n b).mtally k = s.mtally k := rfl

section
variable {s : State} {k i : Nat} {src : SigSource}

/-- A signal within the bound adds to a count tally. -/
theorem applySignal_adds (hg : (s.mtally k).gate = false)
    (hm : ((s.mtally k).count + BitVec.ofNat 32 i - (s.mtally k).ref).msb = false) :
    ((applySignal src none k i s).1.mtally k).count = (s.mtally k).count + BitVec.ofNat 32 i := by
  simp [applySignal, State.tally, State.setTally, Tally.signal, tdist, hg, hm]

/-- A signal beyond the bound leaves a count tally, and is flagged. -/
theorem applySignal_overruns (hg : (s.mtally k).gate = false)
    (hm : ((s.mtally k).count + BitVec.ofNat 32 i - (s.mtally k).ref).msb = true) :
    (applySignal src none k i s).1.mtally k = s.mtally k ∧ (applySignal src none k i s).1.rgBit .tilSyncStatus 1 = true := by
  have h : (applySignal src none k i s).1 = tallyOverrun src none k (s.mtally k) i (s.setMtally k (s.mtally k)) := by
    simp [applySignal, State.tally, State.setTally, Tally.signal, tdist, hg, hm]
  rw [h, tallyOverrun]
  refine ⟨?_, rgBit_flag _ .tilSyncStatus 1 0 0 (by decide)⟩
  rw [mtally_flag, mtally_raiseEvent, mtally_setMtally, if_pos rfl]

/-- A signal sets a gate tally at 0. -/
theorem applySignal_gates (hg : (s.mtally k).gate = true) (hc : (s.mtally k).count = 0) :
    ((applySignal src none k i s).1.mtally k).count = 1 := by
  simp [applySignal, State.tally, State.setTally, Tally.signal, hg, hc]

end

/-! ## Responses that are dropped (R218, R270) -/

/-- No packet on a port answers a read. -/
def NoAnswer (node xid k : Nat) (u : State) : Prop := ∀ o ∈ (u.port k).txq, o.answers node xid = false

theorem NoAnswer.of_txq {node xid k : Nat} {s u : State} (h : NoAnswer node xid k s) (hq : (u.port k).txq = (s.port k).txq) :
    NoAnswer node xid k u := by
  rw [NoAnswer, hq]
  exact h

/-- Only the ports, and the reads that are served, change. -/
def AnswerFrame (s u : State) : Prop := u = { s with fab := { s.fab with ports := u.fab.ports, serving := u.fab.serving } }

theorem AnswerFrame.refl (s : State) : AnswerFrame s s := rfl

theorem AnswerFrame.trans {s u v : State} (h : AnswerFrame s u) (k : AnswerFrame u v) : AnswerFrame s v := by
  unfold AnswerFrame at *
  rw [k, h]

theorem AnswerFrame.each {β : Type} (l : List β) (f : β → State → State) (s : State) (hf : ∀ x u, AnswerFrame u (f x u)) :
    AnswerFrame s (each l f s) := each_keeps (AnswerFrame s) l f s (.refl s) fun x u hu => hu.trans (hf x u)

theorem txq_returnRequest (o : OutPacket) (s : State) (k : Nat) : ((returnRequest o s).port k).txq = (s.port k).txq := by
  unfold returnRequest
  split
  · rw [port_updPort]
    split
    · next h => rw [h]
    · rfl
  · rfl

theorem answerFrame_returnRequest (o : OutPacket) (s : State) : AnswerFrame s (returnRequest o s) := by
  unfold returnRequest
  split <;> rfl

theorem noAnswer_unqueueResponses (node xid : Nat) (s : State) {k : Nat} (hk : k < Config.numPorts + 1) :
    NoAnswer node xid k (unqueueResponses node xid s) := by
  refine each_reached (NoAnswer node xid) _ _ s (fun k u => ?_) (fun k j u hu => ?_) (List.mem_range.2 hk)
  · intro o ho
    rw [port_updPort, if_pos rfl] at ho
    simpa using (List.mem_filter.1 ho).2
  · intro o ho
    rw [port_updPort] at ho
    split at ho
    · next hj => exact hu o (hj ▸ List.mem_of_mem_filter ho)
    · exact hu o ho

theorem port_servedNoMore (node xid : Nat) (s : State) (k : Nat) : (servedNoMore node xid s).port k = s.port k := rfl

/-- A read whose responses are dropped has none left on a port. -/
theorem noAnswer_dropResponses (node xid : Nat) (s : State) {k : Nat} (hk : k < Config.numPorts + 1) :
    NoAnswer node xid k (dropResponses node xid s).1 := by
  have h : NoAnswer node xid k (servedNoMore node xid (unqueueResponses node xid s)) :=
    (noAnswer_unqueueResponses node xid s hk).of_txq (by rw [port_servedNoMore])
  rw [dropResponses_eq]
  exact each_keeps (NoAnswer node xid k) (unsentResponses node xid s) returnRequest _ h fun o u hu =>
    hu.of_txq (txq_returnRequest o u k)

theorem answerFrame_unqueueResponses (node xid : Nat) (s : State) : AnswerFrame s (unqueueResponses node xid s) :=
  .each _ _ s fun _ _ => rfl

theorem answerFrame_servedNoMore (node xid : Nat) (s : State) : AnswerFrame s (servedNoMore node xid s) := rfl

theorem answerFrame_dropResponses (node xid : Nat) (s : State) : AnswerFrame s (dropResponses node xid s).1 := by
  rw [dropResponses_eq]
  exact ((answerFrame_unqueueResponses node xid s).trans (answerFrame_servedNoMore node xid _)).trans
    (.each (unsentResponses node xid s) returnRequest _ answerFrame_returnRequest)

theorem sendPacket_enqueues {type : Nat} (ht : type < 256) (n x i : Nat) (port : Option Nat) (b : Piece) (sig : Option (Nat × Nat))
    (s : State) : ∃ q o, OutPacket.type o = type ∧ sendPacket type n x i port b sig s = enqueue q [o] s := by
  unfold sendPacket sendPacketOf
  refine ⟨_, _, ?_, rfl⟩
  exact type_bytes _ ht

/-- A packet of another type answers no read. -/
theorem NoAnswer.sendPacket {node xid k : Nat} {s : State} (h : NoAnswer node xid k s) {type : Nat} (ht : type < 256) (h3 : type ≠ 0x03)
    (n x i : Nat) (port : Option Nat) (b : Piece) (sig : Option (Nat × Nat)) :
    NoAnswer node xid k (Machine.sendPacket type n x i port b sig s) := by
  obtain ⟨q, p, hp, hs⟩ := sendPacket_enqueues ht n x i port b sig s
  intro o ho
  rw [hs, txq_enqueue] at ho
  obtain ho | ho := List.mem_append.1 ho
  · exact h o ho
  · split at ho
    · obtain rfl := List.mem_singleton.1 ho
      simp [OutPacket.answers, hp, h3]
    · exact absurd ho List.not_mem_nil

/-- The dropped responses are answered, one by one. -/
def answerDropped (p : Packet) (port : Nat) (is : List Nat) (s : State) : State :=
  each is (fun i s => sendPacket 0x31 p.src p.xid i (s.answerPort p.src port) { addr := 0, spec := [], data := [] } none s) s

theorem noAnswer_answerDropped {node xid k : Nat} {s : State} (h : NoAnswer node xid k s) (p : Packet) (port : Nat) (is : List Nat) :
    NoAnswer node xid k (answerDropped p port is s) :=
  each_keeps (NoAnswer node xid k) is _ s h fun _ _ hu => hu.sendPacket (by decide) (by decide) _ _ _ _ _ _

theorem answerFrame_answerDropped (p : Packet) (port : Nat) (is : List Nat) (s : State) : AnswerFrame s (answerDropped p port is s) :=
  .each _ _ s fun _ _ => rfl

theorem queued_answerDropped (p : Packet) (port : Nat) {is : List Nat} (h : is ≠ []) (s : State) :
    Queued (answerDropped p port is s) p.src p.xid 0x31 := by
  obtain ⟨i, l, rfl⟩ := List.exists_cons_of_ne_nil h
  exact each_reached (fun _ u => Queued u p.src p.xid 0x31) (i :: l) _ s (fun _ u => queued_sendPacketOf _ _ _ _ _ _ _ _ u (by decide))
    (fun _ _ u hu => (sends_sendPacketOf _ _ _ _ _ _ _ _ u).queued hu) (List.mem_cons_self (a := i) (l := l))

/-- A read with a response to drop has one dropped. -/
theorem dropped_ne_nil {node xid k : Nat} {s : State} (hk : k < Config.numPorts + 1) {o : OutPacket} (ho : o ∈ (s.port k).txq)
    (ha : o.answers node xid = true) : (dropResponses node xid s).2 ≠ [] := by
  rw [dropResponses_eq]
  refine List.ne_nil_of_mem (a := (parsePacket o.bytes).idx) (List.mem_map_of_mem (f := fun o : OutPacket => (parsePacket o.bytes).idx) ?_)
  exact List.mem_flatMap.2 ⟨k, List.mem_range.2 hk, List.mem_filter.2 ⟨ho, ha⟩⟩

/-! ## Tags that return (R218) -/

/-- The tags of a cancelled response return. -/
theorem returnCancelled_gone {s : State} {src xid idx : Nat} {x : Xfer} (hx : x ∈ s.readParts src xid idx) :
    x.id ∉ (returnCancelled src xid idx s).gath.xfers.map (·.id) := by
  have hclose (u : State) : (closeRead src xid u).gath = u.gath := by
    unfold closeRead
    split <;> rfl
  have hone (x : Xfer) (u : State) : Shrinks (u.dropXfer x.id) (settlePass x.pass (discardXfer x u)) := by
    refine .trans ?_ ((shrinks_fetchCancelled x.pass x.gath _).trans (shrinks_settlePass x.pass _))
    exact .of_eq rfl rfl rfl rfl
  unfold returnCancelled
  simp only [hclose]
  exact each_reached (fun (x : Xfer) (u : State) => x.id ∉ u.gath.xfers.map (·.id)) _ _ s
    (fun x u hm => dropXfer_gone x.id u ((hone x u).xfers hm))
    (fun x y u hu hm => hu (((shrinks_discardXfer y u).trans (shrinks_settlePass _ _)).xfers hm)) hx

/-! ## Delays (R277) -/

theorem extendPasses_frame (f : Pass → Bool) (us : Nat) (s : State) :
    extendPasses f us s = { s with host := (extendPasses f us s).host } := by
  have h : ∀ u : State, u = { s with host := u.host } → ∀ d g, u.updInflight d g = { s with host := (u.updInflight d g).host } :=
    fun u hu d g => by
      rw [hu]
      rfl
  unfold extendPasses
  exact each_keeps (fun u => u = { s with host := u.host }) _ _ s rfl fun p u hu => h u hu _ _

/-- The delay of a node, stack and episode is kept. -/
def delayKept (r : HoldoffRec) (s : State) : State :=
  { s with fab := { s.fab with
      holdoffs := s.fab.holdoffs.filter (fun h => !(h.node == r.node && h.stack == r.stack && h.episode == r.episode)) ++ [r] } }

theorem lastDelay_delayKept (r : HoldoffRec) (s : State) : (delayKept r s).lastDelay r.node r.stack r.episode = r.delay := by
  simp only [State.lastDelay, delayKept]
  rw [List.find?_append, List.find?_eq_none.2]
  · simp
  · intro h hh
    simpa only [Bool.not_eq_true', Bool.not_eq_true] using (List.mem_filter.1 hh).2

/-- What an increase of delay changes. -/
structure DelayApplied (node d : Nat) (s u : State) : Prop where
  inn : u.fab.inn = s.fab.inn.map fun i => if i.src = node then { i with extend := i.extend + d } else i
  out : u.fab.out = s.fab.out.map fun o => if o.node = node then { o with extend := o.extend + d } else o
  holdoffs : u.fab.holdoffs = s.fab.holdoffs
  store : KeepsStore s u
  regs : u.regs = s.regs

theorem delayApplied_applyHoldoff (node d : Nat) (s : State) : DelayApplied node d s (applyHoldoff node d s) := by
  unfold applyHoldoff
  rw [extendPasses_frame]
  exact ⟨rfl, rfl, rfl, ⟨rfl, rfl⟩, rfl⟩

/-! ## The module's id (R275, R276) -/

/-- The node id register reads as before, and the claim in progress stays. -/
structure KeepsClaim (s u : State) : Prop where
  nodeId : u.rg .fabNodeId = s.rg .fabNodeId
  claim : u.fab.claim = s.fab.claim

theorem KeepsClaim.refl (s : State) : KeepsClaim s s := ⟨rfl, rfl⟩

theorem KeepsClaim.trans {s u v : State} (h : KeepsClaim s u) (k : KeepsClaim u v) : KeepsClaim s v :=
  ⟨k.nodeId.trans h.nodeId, k.claim.trans h.claim⟩

theorem KeepsClaim.ite {s u v : State} {c : Prop} [Decidable c] (h : KeepsClaim s u) (k : KeepsClaim s v) :
    KeepsClaim s (if c then u else v) := by
  split <;> assumption

theorem KeepsClaim.of_regs {s u : State} (h : u.regs = s.regs) (hc : u.fab.claim = s.fab.claim) : KeepsClaim s u :=
  ⟨by simp only [State.rg, State.rgQ, h], hc⟩

theorem keepsClaim_setRg {n : RegName} {i j : Nat} (h : Reg.offset ⟨n, i, j⟩ ≠ 0x300000) (v : Nat) (s : State) :
    KeepsClaim s (s.setRg n v i j) := ⟨rg_setRg_other s n .fabNodeId v i j 0 0 h.symm, rfl⟩

theorem keepsClaim_complete (d : Nat) (st : Status) (k : Nat) (b p : List Byte) (s : State) :
    KeepsClaim s (complete d st k b p s) where
  nodeId := rg_regsKept (complete_regs d st k b p s) .fabNodeId 0 0 (by decide)
  claim := by rw [complete_frame]

theorem keepsClaim_completeWaited (d : Nat) (st : Status) (b : List Byte) (s : State) : KeepsClaim s (completeWaited d st b s) :=
  .trans (u := waitExcluded d s) (.of_regs rfl rfl) (keepsClaim_complete _ _ _ _ _ _)

theorem keepsClaim_applyDisabled (op : DisableOp) (s : State) : KeepsClaim s (applyDisabled op s) := by
  unfold applyDisabled
  split
  · exact .of_regs rfl rfl
  · refine .trans (u := s.setRgBits .tilEnable (op.index % 32) 1 0 (op.index / 32)) (keepsClaim_setRg ?_ _ s) (.of_regs rfl rfl)
    simp only [Reg.offset, RegName.row, row1]
    omega
  · exact .of_regs rfl rfl
  · exact .of_regs rfl rfl
  · exact .of_regs rfl rfl
  · exact keepsClaim_setRg (n := .hrvEnable) (i := 0) (j := 0) (by decide) _ s

theorem keepsClaim_settleOne (d : Nat) (s : State) : KeepsClaim s (settleOne d s) := by
  unfold settleOne
  split
  · exact .refl s
  · split
    · exact .ite (keepsClaim_completeWaited _ _ _ s) (.refl s)
    · exact .ite (keepsClaim_completeWaited _ _ _ s) (.refl s)
    · exact .ite (keepsClaim_complete _ _ _ _ _ s) (.refl s)
    · exact .ite (.refl s) ((keepsClaim_applyDisabled _ s).trans (keepsClaim_completeWaited _ _ _ _))
    · exact .refl s

theorem keepsClaim_settle (s : State) : KeepsClaim s (settle s) :=
  each_keeps (KeepsClaim s) _ settleOne s (.refl s) fun d u hu => hu.trans (keepsClaim_settleOne d u)

theorem keepsClaim_refuse (i : Inflight) (k : Nat) (s : State) : KeepsClaim s (refuse i k s) where
  nodeId := (rg_regsKept (finish_regs i .notAdmitted k [] [] _) .fabNodeId 0 0 (by decide)).trans
    (((keepsClaim_setRg (n := .hstRefused) (i := 0) (j := 0) (by decide) _ s).trans
      (keepsClaim_setRg (n := .hstLastRefuse) (i := 0) (j := 0) (by decide) _ _)).nodeId)
  claim := by rw [refuse_frame]

theorem shrinks_refuse (i : Inflight) (k : Nat) (s : State) : Shrinks s (refuse i k s) := by
  rw [refuse_frame]
  exact .of_eq rfl rfl rfl rfl

/-- A refused descriptor's completion carries the reason. -/
theorem posted_refuse (i : Inflight) (k : Nat) (s : State) :
    PostedAs i s (refuse i k s) (fun e => e.status = .notAdmitted ∧ e.reason = k) := by
  unfold refuse Machine.finish
  extract_lets ctx spent late st e u1
  have hlate : late = 0 := if_neg (by simp)
  have hst : e.status = .notAdmitted := if_neg (by simp)
  rw [if_pos hlate]
  exact ⟨e, ⟨hst, rfl⟩, rfl, rfl, rfl, rfl, (pushCompletion_posts ctx.companion e _).2⟩

/-- A completion posted stays posted. -/
theorem postedAs_mono {i : Inflight} {s u v : State} {q : Completion → Prop} (h : PostedAs i s u q) (k : KeepsPosts u v) :
    PostedAs i s v q := by
  obtain ⟨e, hq, htag, hring, hslot, hop, he⟩ := h
  exact ⟨e, hq, htag, hring, hslot, hop, Shown.mono he k⟩

end Sys2Proof.Laws
end


section
/-! The statement about signals, cancellations, HOLDOFF, ABANDON, NAK_PKT and claims (R218, R232, R234, R265, R270, R272, R275 to
R277). -/

namespace Sys2Proof.Laws

set_option Elab.async false

open Sys2Proof Sys2Proof.Machine Sys2Proof.Safety

/-! ## Packets received -/

theorem received_type {s v : State} {port type : Nat} {p : Packet} (h : Received s port type p v) : p.type = type := by
  obtain ⟨n, hp, -⟩ := h
  unfold State.headPacket at hp
  split at hp
  · cases hp
  · split at hp
    · split at hp
      · cases hp
      · split at hp
        · split at hp
          · next htype =>
            cases hp
            exact htype
          · cases hp
        · cases hp
    · cases hp

section
variable {s v : State} {port : Nat} {p : Packet}

/-- A signal packet's signal joins those on their way. -/
theorem signal_joins (h : Received s port 0x05 p v) (hs : p.hasSig = true) : ∃ x : PendSig,
    (signalOp port s).sync.signals = v.sync.signals ++ [x] ∧ x.source = .remote p.src ∧ x.dest = none ∧ x.node = 0 ∧
    x.tally = p.tally ∧ x.inc = p.sigInc ∧ (∀ i ∈ v.fab.inn, i.isRead = false → i.src = p.src → i.vl = 0 → i.xid ∈ x.fence) ∧
    signalOp port s = { v with sync := { v.sync with signals := (signalOp port s).sync.signals } } := by
  have hop : signalOp port s = packetSignal p v := serve_received h rfl packetSignal
  rw [hop, packetSignal, packetSignalOf, if_pos hs]
  refine ⟨_, rfl, rfl, rfl, rfl, rfl, rfl, fun i hi hr hsrc hvl => ?_, rfl⟩
  exact List.mem_map_of_mem (List.mem_filter.2 ⟨hi, by simp [hr, hsrc, hvl, received_type h, laneOf]⟩)

theorem bareSignalOp_eq (h : Received s port 0x06 p v) (hs : p.hasSig = true) :
    bareSignalOp port s = (applySignal (.remote p.src) none p.tally p.sigInc v).1 :=
  (serve_received h rfl _).trans (if_pos hs)

theorem cancelNoticeOp_eq (h : Received s port 0x30 p v) :
    cancelNoticeOp port s = answerDropped p port (dropResponses p.src p.xid v).2 (dropResponses p.src p.xid v).1 :=
  serve_received h rfl _

theorem cancelAckOp_eq (h : Received s port 0x31 p v) : cancelAckOp port s = returnCancelled p.src p.xid p.idx v :=
  serve_received h rfl _

/-- What a delay that a message states is recorded as. -/
def holdoffRec (p : Packet) : HoldoffRec :=
  { node := p.src, stack := p.specNum 26 1, episode := p.specNum 27 1, delay := p.specNum 22 4 }

theorem holdoffOp_old (h : Received s port 0x32 p v) (hd : p.specNum 22 4 ≤ v.lastDelay p.src (p.specNum 26 1) (p.specNum 27 1)) :
    holdoffOp port s = v := (serve_received h rfl _).trans (if_pos hd)

theorem holdoffOp_new (h : Received s port 0x32 p v) (hd : v.lastDelay p.src (p.specNum 26 1) (p.specNum 27 1) < p.specNum 22 4) :
    ∃ d, holdoffOp port s = raiseEvent .holdoffReceived port d
      (applyHoldoff p.src (p.specNum 22 4 - v.lastDelay p.src (p.specNum 26 1) (p.specNum 27 1)) (delayKept (holdoffRec p) v)) :=
  ⟨_, (serve_received h rfl _).trans (if_neg (Nat.not_le.2 hd))⟩

/-- A delay that is kept, applied and reported extends the transfers of its node by the increase. -/
theorem delay_extends (r : HoldoffRec) (d port : Nat) (e : BitVec 128) (v : State) :
    let u := raiseEvent .holdoffReceived port e (applyHoldoff r.node d (delayKept r v))
    u.lastDelay r.node r.stack r.episode = r.delay ∧ Counted v u .evtRaised ∧
    u.fab.inn = v.fab.inn.map (fun i => if i.src = r.node then { i with extend := i.extend + d } else i) ∧
    u.fab.out = v.fab.out.map (fun o => if o.node = r.node then { o with extend := o.extend + d } else o) ∧
    u.memory = v.memory ∧ u.gath = v.gath := by
  intro u
  have hd := delayApplied_applyHoldoff r.node d (delayKept r v)
  have hfab : u.fab = (applyHoldoff r.node d (delayKept r v)).fab := by
    unfold u
    rw [raiseEvent_frame]
  obtain ⟨hmem, hgath⟩ := hd.store.trans (keepsStore_raise .holdoffReceived port e _)
  have hcount := counted_raiseEvent .holdoffReceived port e (applyHoldoff r.node d (delayKept r v))
  unfold Safety.Counted at hcount ⊢
  have hraised : (applyHoldoff r.node d (delayKept r v)).rg .evtRaised = v.rg .evtRaised := by
    rw [State.rg, State.rgQ, hd.regs]
    rfl
  refine ⟨?_, hcount.trans (by rw [hraised]), by rw [hfab, hd.inn]; rfl, by rw [hfab, hd.out]; rfl, hmem, hgath⟩
  rw [State.lastDelay, hfab, hd.holdoffs]
  exact lastDelay_delayKept r v

theorem nakPktOp_eq (h : Received s port 0x35 p v) : nakPktOp port s = abandonNamed port 2 false p v := serve_received h rfl _

theorem abandonOp_eq (h : Received s port 0x34 p v) : abandonOp port s = abandonNamed port 1 true p v := serve_received h rfl _

/-! ## Transfers that are closed (R270, R272) -/

/-- A transfer of this module that is named is under way no longer. -/
theorem abandonNamed_gone {o : OutXfer} (ho : v.fab.out.find? (fun o => o.node == p.src && o.xid == p.xid) = some o)
    (port reason : Nat) (inbound : Bool) :
    ∀ y ∈ (abandonNamed port reason inbound p v).fab.out, ¬ (y.xid = o.xid ∧ y.node = o.node) := by
  have hop : abandonNamed port reason inbound p v = abandonOut reason false o v := by simp only [abandonNamed, ho]
  rw [hop]
  exact fun y hy hname => abandonOut_gone reason false o v (List.mem_map.2 ⟨y, hy, Prod.ext hname.1 hname.2⟩)

theorem abandonNamed_inbound (ho : v.fab.out.find? (fun o => o.node == p.src && o.xid == p.xid) = none)
    (hr : v.readOf p.src p.xid = none) {i : InXfer} (hi : v.openOf p = some i) (port reason : Nat) :
    abandonNamed port reason true p v = abandonIn reason false i v := by
  simp only [abandonNamed, ho, hr, hi, if_true]

theorem abandonNamed_served (ho : v.fab.out.find? (fun o => o.node == p.src && o.xid == p.xid) = none)
    (hr : v.readOf p.src p.xid = none) (hi : v.openOf p = none) (hs : v.serves p.src p.xid = true) (port reason : Nat) :
    ∃ d, abandonNamed port reason true p v = raiseEvent .transferAbandoned port d (dropResponses p.src p.xid v).1 := by
  simp only [abandonNamed, ho, hr, hi, abandonServed, hs, if_true, abandonLoose_eq]
  exact ⟨_, rfl⟩

/-- A read that this module serves loses its unsent responses, and is reported. -/
theorem abandonServed_drops (d : BitVec 128) (port node xid : Nat) (u : State) :
    Counted u (raiseEvent .transferAbandoned port d (dropResponses node xid u).1) .evtRaised ∧
      ∀ k, k < 19 → NoAnswer node xid k (raiseEvent .transferAbandoned port d (dropResponses node xid u).1) := by
  have hregs : (dropResponses node xid u).1.regs = u.regs := by rw [answerFrame_dropResponses]
  refine ⟨?_, fun k hk => (noAnswer_dropResponses node xid u hk).of_txq ?_⟩
  · have hc := counted_raiseEvent .transferAbandoned port d (dropResponses node xid u).1
    unfold Safety.Counted at hc ⊢
    rw [hc, State.rg, State.rgQ, hregs]
    rfl
  · rw [raiseEvent_frame]
    rfl

/-! ## Claims (R275, R276) -/

theorem claimOp_eq (h : Received s port 0x38 p v) : claimOp port s =
    if newer (p.specNum 24 1) (v.incOf (p.specNum 22 2)) then observe (p.specNum 22 2) (p.specNum 24 1) v
    else if v.incOf (p.specNum 22 2) = p.specNum 24 1 || newer (v.incOf (p.specNum 22 2)) (p.specNum 24 1) then
      refuseClaim port (p.specNum 22 2) (p.specNum 24 1) v
    else v := serve_received h rfl _

/-- A refusal of a claim is queued, and takes a transfer number. -/
theorem refuseClaim_queues (port node inc : Nat) (u : State) : (∃ xid, Queued (refuseClaim port node inc u) node xid 0x39) ∧
    refuseClaim port node inc u = { u with fab := { u.fab with ports := (refuseClaim port node inc u).fab.ports,
                                                               nextXid := (refuseClaim port node inc u).fab.nextXid } } := by
  unfold refuseClaim
  exact ⟨⟨_, queued_sendPacketOf _ _ _ _ _ _ _ _ _ (by decide)⟩, rfl⟩

/-- The claim in progress is undone when its refusal comes; its descriptor, if still accepted, is refused with reason 12. -/
theorem claimRefuseOp_refused (h : Received s port 0x39 p v) {c : ClaimOp} (hc : v.fab.claim = some c) (hn : c.node = p.specNum 22 2)
    (hi : c.inc = p.specNum 24 1) {i : Inflight} (hf : v.inflight? c.desc = some i) :
    claimRefuseOp port s = settle (refuse i 12 ((undoClaim c v).dropInflight c.desc)) := by
  have hf' : (undoClaim c v).inflight? c.desc = some i := hf
  refine (serve_received h rfl _).trans ?_
  simp only [hc, hn, hi, decide_true, Bool.and_self, if_true, hf']

theorem claimRefuseOp_undone (h : Received s port 0x39 p v) {c : ClaimOp} (hc : v.fab.claim = some c) (hn : c.node = p.specNum 22 2)
    (hi : c.inc = p.specNum 24 1) (hf : v.inflight? c.desc = none) : claimRefuseOp port s = undoClaim c v := by
  have hf' : (undoClaim c v).inflight? c.desc = none := hf
  refine (serve_received h rfl _).trans ?_
  simp only [hc, hn, hi, decide_true, Bool.and_self, if_true, hf']

end

/-- The previous id, record and claim state of a claim stand again. -/
structure ClaimUndone (c : ClaimOp) (u : State) : Prop where
  nodeId : u.rg .fabNodeId = c.prev.toNat
  record : c.record < 256 → u.incOf c.node = c.record
  claim : u.fab.claim = none

theorem claimUndone_undoClaim (c : ClaimOp) (s : State) : ClaimUndone c (undoClaim c s) where
  nodeId := (rg_setRg s .fabNodeId c.prev.toNat 0 0).trans (Nat.mod_eq_of_lt c.prev.isLt)
  record hr := (incOf_setInc c.node c.record c.node _).trans (by rw [if_pos rfl, Nat.mod_eq_of_lt hr])
  claim := rfl

theorem ClaimUndone.mono {c : ClaimOp} {s u : State} (h : ClaimUndone c s) (k : KeepsClaim s u) (hs : Shrinks s u) : ClaimUndone c u where
  nodeId := k.nodeId.trans h.nodeId
  record hr := (incOf_shrinks hs c.node).trans (h.record hr)
  claim := k.claim.trans h.claim

/-- Refusing the claim's descriptor leaves the claim undone, and posts the refusal. -/
theorem refused_undoClaim (c : ClaimOp) (i : Inflight) (v : State) :
    ClaimUndone c (settle (refuse i 12 ((undoClaim c v).dropInflight c.desc))) ∧
      PostedAs i v (settle (refuse i 12 ((undoClaim c v).dropInflight c.desc))) (fun e => e.status = .notAdmitted ∧ e.reason = 12) := by
  have hdrop : ClaimUndone c ((undoClaim c v).dropInflight c.desc) :=
    (claimUndone_undoClaim c v).mono (.of_regs rfl rfl) (.of_eq rfl rfl rfl rfl)
  have hposted : PostedAs i v (refuse i 12 ((undoClaim c v).dropInflight c.desc)) (fun e => e.status = .notAdmitted ∧ e.reason = 12) :=
    posted_refuse i 12 ((undoClaim c v).dropInflight c.desc)
  exact ⟨(hdrop.mono (keepsClaim_refuse i 12 _) (shrinks_refuse i 12 _)).mono (keepsClaim_settle _) (shrinks_settle _),
    postedAs_mono hposted (onward_settle _).posts⟩

/-- Settles O43: each message acts on the state in which its packet has been taken, and the lists that it empties only lose entries
in what follows. -/
theorem signalsAndMessagesOfTheFabric : Obligations.SignalsAndMessagesOfTheFabric := by
  refine ⟨?_, ?_, ?_, ?_, ?_, ?_, ?_, ?_, ?_⟩
  · intro s v port p h hs
    exact ⟨_, rfl, signal_joins h hs⟩
  · intro s v port p h hs
    refine ⟨_, rfl, ?_⟩
    rw [bareSignalOp_eq h hs]
    obtain ⟨hmem, hgath⟩ := keepsStore_applySignal (.remote p.src) p.tally p.sigInc v
    exact ⟨applySignal_adds, applySignal_overruns, applySignal_gates, by rw [hmem], hgath⟩
  · intro s v port p h
    refine ⟨_, rfl, ?_⟩
    rw [cancelNoticeOp_eq h]
    exact ⟨fun k hk => noAnswer_answerDropped (noAnswer_dropResponses p.src p.xid v hk) p port _,
      fun k hk o ho ha => queued_answerDropped p port (dropped_ne_nil hk ho ha) _,
      (answerFrame_dropResponses p.src p.xid v).trans (answerFrame_answerDropped p port _ _)⟩
  · intro s v port p h
    refine ⟨_, rfl, ?_⟩
    rw [cancelAckOp_eq h]
    exact fun x hx y hy hid => returnCancelled_gone hx (List.mem_map.2 ⟨y, hy, hid⟩)
  · intro s v port p h
    refine ⟨fun hd => ⟨_, rfl, holdoffOp_old h hd⟩, fun hd => ⟨_, rfl, ?_⟩⟩
    obtain ⟨e, hop⟩ := holdoffOp_new h hd
    rw [hop]
    exact delay_extends (holdoffRec p) _ port e v
  · intro s v port p o ho
    refine ⟨fun h => ⟨_, rfl, ?_⟩, fun h => ⟨_, rfl, ?_⟩⟩
    · rw [nakPktOp_eq h]
      exact abandonNamed_gone ho port 2 false
    · rw [abandonOp_eq h]
      exact abandonNamed_gone ho port 1 true
  · intro s v port p h ho hr
    refine ⟨fun i hi => ⟨_, rfl, ?_⟩, fun hi hs => ⟨_, rfl, ?_⟩⟩
    · rw [abandonOp_eq h, abandonNamed_inbound ho hr hi]
      exact abandonIn_gone 1 false i v
    · obtain ⟨d, hop⟩ := abandonNamed_served ho hr hi hs port 1
      rw [abandonOp_eq h, hop]
      exact abandonServed_drops d port p.src p.xid v
  · intro s v port p h
    refine ⟨fun hnew hnode => ⟨_, rfl, ?_⟩, fun hold hnew => ⟨_, rfl, ?_⟩⟩
    · have hlt : p.specNum 24 1 < 256 := type_lt (p.spec.drop 2)
      rw [claimOp_eq h, if_pos hnew]
      obtain ⟨hinc, hnone⟩ := observe_newer (s := v) (node := p.specNum 22 2) (j := p.specNum 24 1) (by simp [hnode, hnew])
      exact ⟨hinc.trans (Nat.mod_eq_of_lt hlt), hnone.1, hnone.2⟩
    · rw [claimOp_eq h, if_neg (by simp [hnew]), if_pos (by simpa using hold)]
      exact refuseClaim_queues port _ _ v
  · intro s v port p c h hc hn hi
    refine ⟨_, rfl, ?_⟩
    cases hf : v.inflight? c.desc with
    | none =>
      rw [claimRefuseOp_undone h hc hn hi hf]
      obtain ⟨hid, hrec, hclaim⟩ := claimUndone_undoClaim c v
      exact ⟨hid, hrec, hclaim, fun _ _ hsome => by cases hsome⟩
    | some j =>
      rw [claimRefuseOp_refused h hc hn hi hf]
      obtain ⟨⟨hid, hrec, hclaim⟩, hposted⟩ := refused_undoClaim c j v
      exact ⟨hid, hrec, hclaim, fun _ _ hsome => Option.some.inj hsome ▸ hposted⟩

end Sys2Proof.Laws
end
